-- ==== Sys2Proof/Word.lean ====
section
/-! DEFINITION. The word types of the OL3264 and their plainest arithmetic. -/

namespace Sys2Proof

/-- A 32-bit register or memory word (R8, "Registers"). -/
abbrev Word := BitVec 32

/-- One byte of memory or of a frame. -/
abbrev Byte := BitVec 8

/-- A 64-bit value held in two words, low word first (R9). -/
abbrev DWord := BitVec 64

end Sys2Proof
end

