-- ==== Sys2Proof/Types.lean ====
section
/-! DEFINITION. The data that commands carry: who sends a write, frames, samples, conversions, line events. -/

namespace Sys2Proof

/-- Who makes an access (Table 17.3). Engine 15 is MC. -/
inductive Initiator where
  /-- engine n through its data port -/
  | engine (n : Fin 16)
  /-- the remote access agent serving a frame with SRC 0x00 (host frames included, R253) -/
  | remoteHost
  /-- the remote access agent serving a service tool (R254) -/
  | remoteService
  /-- the remote access agent serving a frame of any other source -/
  | remoteOther
  /-- the two-wire target agent -/
  | twoWire
  /-- a hardware agent, by its code of FCR_FB_INFO.INIT less 18 -/
  | hardware (k : Fin 13)
  deriving DecidableEq, Repr

/-- The code of an initiator in FCR_FB_INFO.INIT (Table 12.8). -/
def Initiator.code : Initiator → Nat
  | .engine n => n.val
  | .remoteHost | .remoteService | .remoteOther => 16
  | .twoWire => 17
  | .hardware k => 18 + k.val

/-- A frame as the switch holds it (Table 9.3). -/
structure Frame where
  dst : Nat
  src : Nat
  typ : Nat
  cls : Nat
  vc : Nat
  hops : Nat
  seq : Nat
  payload : List Byte
  deriving DecidableEq, Repr

/-- How a received frame ends on the line (R224). -/
inductive FrameEnd where
  | eof | abort
  deriving DecidableEq, Repr

/-- What can break into a frame on the line (Table 9.5). -/
inductive LineUpset where
  /-- code violation or disparity error -/
  | violation
  /-- SOF, COMMA, TIMEX or TRAIN before the end -/
  | symbol
  /-- the link goes down -/
  | linkDown
  deriving DecidableEq, Repr

/-- What the SECDED code of the receive buffer found in a frame's units (R231). -/
inductive BufEcc where
  | clean | corrected | uncorrectable
  deriving DecidableEq, Repr

/-- A frame as it arrives on the line (R221): the 10-bit code groups after SOF in the order received, bit a of each as its most
significant, whether the running disparity before the first of them is positive, and what the buffer's code finds. -/
structure WireFrame where
  groups : List (BitVec 10)
  plus : Bool
  ecc : BufEcc
  deriving DecidableEq, Repr

/-- A time-exchange reply (Table 9.7); t2 and t3 in 62.5 ps; whether its CRC held. -/
structure TimexReply where
  seq : Byte
  t2 : Nat
  t3 : Nat
  tick : Nat
  off : Nat
  res : Nat
  period : Nat
  epoch : Nat
  utc : DWord
  ksw : Nat
  pnew : Nat
  lock : Fin 4
  harbour : Bool
  pchg : Bool
  crcOk : Bool
  deriving DecidableEq, Repr

/-- A TRAIN ordered set (Table 9.8), and whether its CRC held. -/
structure TrainSet where
  ts2 : Bool
  uid : DWord
  port : Fin 4
  role : Fin 8
  ver : Byte
  allot : Vector Byte 6
  cap : Byte
  crcOk : Bool
  deriving DecidableEq, Repr

/-- One base-rate strobe (R62, R160): the raw sample of every cell channel (1 µV), of CS0 and CS1 (25 nV), of the
primary current of every Ferry phase and of the summed secondary current (0.1 mA), and the channels whose bitstream
holds the overload signature (bit 32 CS0, bit 33 CS1). -/
structure StrobeSample where
  cell : Vector (BitVec 24) 32
  cs : Vector (BitVec 24) 2
  prim : Vector (BitVec 24) 8
  sec : BitVec 24
  overload : BitVec 34
  deriving DecidableEq, Repr

/-- A die sensor conversion in 0.1 °C; none when the conversion failed (R173). -/
abbrev DieReading := Option (BitVec 16)

/-- The twenty slots of an auxiliary scan (R169): raw codes of AX0 to AX15, TD0 and TD1, AUXREF in 100 µV, ground. -/
structure ScanResult where
  code : Vector (BitVec 18) 16
  td0 : DieReading
  td1 : DieReading
  auxref : BitVec 16
  gnd : BitVec 18
  deriving DecidableEq, Repr

/-- Why an engine's event entry starts (R197). -/
inductive EngineEvent where
  | mailbox | samplePort | linkOrMgt
  deriving DecidableEq, Repr

/-- The writable extension CSRs (Table 8.2). -/
inductive ExtCsr where
  | yr | yn | ym | yst | ysp
  deriving DecidableEq, Repr

/-- Where a HAZARD comes from (R239): a Strait, with whether its code group was valid, or the trip line. -/
inductive HazardSource where
  | strait (port : Fin 4) (valid : Bool)
  | tripLine
  deriving DecidableEq, Repr

/-- The outcome of one SMBus Host Notify attempt (R428). -/
inductive NotifyResult where
  | delivered | arbitrationLost | nacked | sclHeldLow
  deriving DecidableEq, Repr

/-- A two-wire write transaction after A+W (Table 16.2): CMD, address bytes, data bytes, and the PEC byte when CMD[0]
is set and the transaction reached it. -/
structure TwWrite where
  cmd : Byte
  addr : Word
  data : List Byte
  pec : Option Byte
  deriving DecidableEq, Repr

/-- A two-wire read transaction: CMD, address, and the words taken (NW with PEC). -/
structure TwRead where
  cmd : Byte
  addr : Word
  words : Nat
  deriving DecidableEq, Repr

/-- A single-wire response (R432, R433): the bytes received, header first, the intervals between edges after the sync
in 10 ns, and the delay of its start in µs. -/
structure SwbReply where
  bytes : List Byte
  intervals : List Nat
  delay : Nat
  deriving DecidableEq, Repr

/-- What is fixed outside the part when VSTK first rises (DESIGN CHOICE, log entry 9): the levels of TWA0 and TWA1, the contents of the
flash and of the OTP window, in place of those held when given. -/
structure Board where
  twa0 : Fin 3
  twa1 : Fin 3
  jedec : BitVec 24
  flash : Option (List (Nat × Byte))
  otp : Option (List (Nat × Byte))
  zw : Bool
  deriving DecidableEq, Repr

/-- The results of a calibration point (R371, R372): the sum of its AVG results in their own LSB (1 µV, 25 nV, codes), and the deviation
in ppm of the reference check where one preceded it. -/
structure CalPoint where
  sum : Int
  refDev : Int
  deriving DecidableEq, Repr

/-- The outcome of programming the flash (R402). -/
inductive FlashOutcome where
  | good | writeFailed | readbackFailed
  deriving DecidableEq, Repr

end Sys2Proof
end

