-- ==== Sys2Proof/Syntax.lean ====
section
/-! DEFINITION. The commands and events of the OL3264: one constructor per row of the opcode table. -/

namespace Sys2Proof

/-- One command or event. A write carries its initiator and the 32-bit value written; the row's own bit of the value is
taken as set. Measured values, arrivals and outcomes from outside the part are operands. Rows with operands come first. -/
inductive Instr where
  /-- TICK_ACCEPT, R43: A TICK arrives on the upstream Strait; the island time-stamps it, corrects its phase and updates its lock state. -/
  | tickAccept (port : Fin 4) (stamp : Nat)
  /-- TIMEX_REQUEST_SEND, R41: The exchange interval expires and the downstream island sends a time-exchange request on a Strait. -/
  | timexRequestSend (port : Fin 4)
  /-- TIMEX_REQUEST, R242: A time-exchange request arrives and the island answers it with a stamped reply. -/
  | timexRequest (port : Fin 4) (seq nseq : Byte) (turn : Fin 32001)
  /-- TIMEX_REPLY, R40: A time-exchange reply arrives; the island computes the link delay and path offset and takes period and epoch data. -/
  | timexReply (port : Fin 4) (l : List Byte) (t4 : Nat)
  /-- TIMEX_REPLY_TIMEOUT, R242: No reply arrives within 10 µs, and the exchange is counted as discarded. -/
  | timexReplyTimeout (port : Fin 4)
  /-- ENGINE_OVERRUN, R48: An engine is still executing its tick work at S(k+1); the work is abandoned and the overrun is recorded. -/
  | engineOverrun (e : Fin 16)
  /-- OVERRUN_LIMIT, R49: An engine reaches TMG_OVR_CFG.MAX consecutive overruns and is fenced and restarted. -/
  | overrunLimit (e : Fin 16)
  /-- TMG_ENABLE, R466: A write to TMG_CTRL.EN stops or resumes the engine tick triggers from the next tick boundary. -/
  | tmgEnable (i : Initiator) (v : Word)
  /-- FORCE_ACQ, R44: A write to TMG_CTRL.FORCE_ACQ puts a non-harbour island into ACQUIRE. -/
  | forceAcq (i : Initiator) (v : Word)
  /-- UNUSED_CHANNEL_NOT_SHORTED, R61: An unused channel reads more than 50 mV for 8 consecutive ticks and raises a contained CMF fault with RANGE. -/
  | unusedChannelNotShorted (c : Fin 32)
  /-- MODULATOR_FAULT, R63: A modulator stream shows the overload signature for 32 consecutive base periods and raises a modulator fault. -/
  | modulatorFault (ch : Fin 34)
  /-- FORCE_MOD, R63: A write of CMF_TEST.FORCE_MOD makes the selected channel's decimator treat its stream as faulty for 32 base periods. -/
  | forceMod (i : Initiator) (v : Word)
  /-- FORCE_OW, R75: A write of CMF_TEST.FORCE_OW makes the next open-wire test of the selected tap fail. -/
  | forceOw (i : Initiator) (v : Word)
  /-- CMF_ENABLE, R90: A write to CMF_CTRL.EN stops or resumes publication of cell results. -/
  | cmfEnable (i : Initiator) (v : Word)
  /-- DC_QUALIFY, R78: A diverse comparator stays beyond its threshold for Q consecutive strobes and qualifies. -/
  | dcQualify (c : Fin 32) (ov : Bool)
  /-- DC_RELEASE, R79: A qualified diverse comparator stays 40 mV on the safe side for Q strobes and withdraws its demand. -/
  | dcRelease (c : Fin 32) (ov : Bool)
  /-- PATH_DISAGREEMENT, R82: Eight consecutive compared ticks disagree between main path and comparator, setting DISAGREE and raising a fault. -/
  | pathDisagreement (c : Fin 32)
  /-- DC_SELF_TEST, R83: The 60 s self-test of a channel's comparator pair runs and raises a fault if a comparator fails to trip. -/
  | dcSelfTest (c : Fin 32) (ovTrips uvTrips : Bool)
  /-- QACC_LOAD, R99: A write of CSI_QCTRL.LOAD schedules the preset of CSI_QACC at the next bank switch. -/
  | qaccLoad (i : Initiator) (v : Word)
  /-- QACC_CLR1, R99: A write of CSI_QCTRL.CLR1 schedules clearing of CSI_QACC1 at the next bank switch. -/
  | qaccClr1 (i : Initiator) (v : Word)
  /-- ZERO_WINDOW_CHANGE, R105: The zero-window comparator sees 32 consecutive strobes on the other side and changes ZW, waking from WATCH on exit. -/
  | zeroWindowChange (inside : Bool)
  /-- SHORT_CIRCUIT, R107: A short-circuit crossing persists for the deglitch time, latches the trip, turns the outputs off and requests HAZARD. -/
  | shortCircuit (negative : Bool)
  /-- SC_TRIP_CLEAR, R108: A write of 1 to PSF_SC_STAT.TRIP withdraws the short-circuit demand if the comparator has been quiet for 1 ms. -/
  | scTripClear (i : Initiator) (v : Word)
  /-- SC_SELF_TEST, R109: The 60 s short-circuit comparator self-test runs and raises a fault if the comparator does not change state. -/
  | scSelfTest (trips : Bool)
  /-- IMP_START, R130: A write of CSI_IMP_CTRL.START starts a full sweep at the next tick boundary. -/
  | impStart (i : Initiator) (v : Word)
  /-- IMP_TSTART, R130: A write of CSI_IMP_CTRL.TSTART starts a temperature pass at the next tick boundary. -/
  | impTstart (i : Initiator) (v : Word)
  /-- IMP_STOP, R129: A write of CSI_IMP_CTRL.STOP ends the running sweep with code 0x01 and writes its record. -/
  | impStop (i : Initiator) (v : Word)
  /-- IMP_TRELRN, R137: A write of CSI_IMP_CTRL.TRELRN discards all learned temperature offsets and counts. -/
  | impTrelrn (i : Initiator) (v : Word)
  /-- EXCITATION_REMOVAL, R122: A limit would clip a phase's sum of balance and excitation, so its excitation is removed for the rest of the window. -/
  | excitationRemoval (p : Fin 8)
  /-- SLOT_END, R147: A round-robin slot of SLOT_MS ends and the phase moves to the next eligible cell. -/
  | slotEnd (p : Fin 8)
  /-- SELECTOR_BREAK_END, R145: The group bus has fallen below 0.3 V and the new cell's selectors close with their checks before switching resumes. -/
  | selectorBreakEnd (p : Fin 8) (busLow busHigh : BitVec 16)
  /-- GROUP_BUS_NOT_DISCHARGED, R145: The break has not discharged the group bus by 310 µs and the phase faults with selectors off. -/
  | groupBusNotDischarged (p : Fin 8)
  /-- SELECTOR_SCAN, R146: A phase scans its selector drives one at a time and faults on any wrong group bus reading. -/
  | selectorScan (p : Fin 8) (bus : Vector (BitVec 16) 8)
  /-- PHASE_TEST_SCAN, R146: A write of BAL_PHp_TEST.SCAN runs the selector scan at the next tick boundary. -/
  | phaseTestScan (p : Fin 8) (i : Initiator) (v : Word)
  /-- PHASE_TEST_BLEED, R168: A write of BAL_PHp_TEST.BLT bleeds the cell at POS for one slot while the phase is idle. -/
  | phaseTestBleed (p : Fin 8) (i : Initiator) (v : Word)
  /-- GATE_READBACK, R144: A selector or switch drive fails to reach or leave its level within 10 µs and raises the gate readback fault. -/
  | gateReadback (p : Fin 8) (drive : Fin 66)
  /-- BAL_TARGET_WRITE, R149: A write to BAL_CELLc_TGT sets the remaining target at the next tick boundary. -/
  | balTargetWrite (c : Fin 32) (i : Initiator) (v : Word)
  /-- TARGET_DONE, R150: A cell's remaining target reaches zero, DONE is set and the balance component stops. -/
  | targetDone (c : Fin 32)
  /-- PHASE_COMMAND_WRITE, R151: A write to BAL_PHp_CMD sets the balance current and mode, in force from the next tick. -/
  | phaseCommandWrite (p : Fin 8) (i : Initiator) (v : Word)
  /-- COMMAND_EXPIRY, R151: Two ticks pass without a command and the phase's I_SET is taken as zero. -/
  | commandExpiry (p : Fin 8)
  /-- BAL_ENABLE, R156: A write to BAL_CTRL.EN stops or enables all Ferry phases within one switching cycle. -/
  | balEnable (i : Initiator) (v : Word)
  /-- PRIMARY_OVERCURRENT, R157: Primary current exceeds 1.25 times the peak limit, stopping the phase for the tick and faulting after three ticks. -/
  | primaryOvercurrent (p : Fin 8)
  /-- NO_SECONDARY_CONDUCTION, R162: Measured primary current stays below half the command for 8 ticks and the phase faults. -/
  | noSecondaryConduction (p : Fin 8)
  /-- COMMAND_TRANSFER, R162: A Ferry command word fails its control-channel CRC and is discarded, faulting after three consecutive ticks. -/
  | commandTransfer (p : Fin 8)
  /-- AUX_SCAN_COMPLETE, R169: A scan's last slot ends and its conversions are checked for plausibility and made available. -/
  | auxScanComplete (r : ScanResult)
  /-- THROTTLE_EVALUATION, R176: Every 1 ms the hottest die temperature is evaluated and the target throttle level updated. -/
  | throttleEvaluation (td : Vector DieReading 4)
  /-- THROTTLE_ENFORCE, R178: A write of AUX_THR_CTRL.ENF sets the enforced level to the target level at once. -/
  | throttleEnforce (i : Initiator) (v : Word)
  /-- THROTTLE_FLOOR, R178: A write of AUX_THR_CTRL.FLOOR raises the enforced level to at least its value. -/
  | throttleFloor (i : Initiator) (v : Word)
  /-- THERMAL_SHUTDOWN, R181: A die trip comparator stays beyond 160 °C for 20 µs and the part turns its outputs off and shuts all domains but PD0. -/
  | thermalShutdown (d : Fin 6)
  /-- EXTREME_REGISTER_READ, R469: A read of a MAX or MIN extreme register returns its value and clears it with NEW. -/
  | extremeRegisterRead (i : Initiator) (a : Nat)
  /-- YD_MAC2, R193: The instruction adds two 16-bit products to an accumulator. -/
  | ydMac2 (e : Fin 16) (rd rs1 rs2 : Fin 32)
  /-- YD_MSU2, R193: The instruction subtracts two 16-bit products from an accumulator. -/
  | ydMsu2 (e : Fin 16) (rd rs1 rs2 : Fin 32)
  /-- YD_MCR, R193: The instruction accumulates the real part of a complex 16-bit product. -/
  | ydMcr (e : Fin 16) (rd rs1 rs2 : Fin 32)
  /-- YD_MCI, R193: The instruction accumulates the imaginary part of a complex 16-bit product. -/
  | ydMci (e : Fin 16) (rd rs1 rs2 : Fin 32)
  /-- YD_MAC1, R193: The instruction accumulates a scaled 24-by-18-bit product. -/
  | ydMac1 (e : Fin 16) (rd rs1 rs2 : Fin 32)
  /-- YD_DFT, R194: The instruction performs one DFT step on an accumulator pair. -/
  | ydDft (e : Fin 16) (rd rs1 rs2 : Fin 32)
  /-- YD_DFTA, R194: The instruction performs one DFT step and advances the phase index. -/
  | ydDfta (e : Fin 16) (rd rs1 rs2 : Fin 32)
  /-- YD_ACCW, R193: The instruction writes a 40-bit accumulator from two registers. -/
  | ydAccw (e : Fin 16) (rd rs1 rs2 : Fin 32)
  /-- YD_ACCZ, R193: The instruction clears an accumulator. -/
  | ydAccz (e : Fin 16) (rd rs1 rs2 : Fin 32)
  /-- YD_ACCRL, R193: The instruction reads the low 32 bits of an accumulator. -/
  | ydAccrl (e : Fin 16) (rd rs1 rs2 : Fin 32)
  /-- YD_ACCRH, R193: The instruction reads the high 8 bits of an accumulator sign-extended. -/
  | ydAccrh (e : Fin 16) (rd rs1 rs2 : Fin 32)
  /-- YD_ACCRS, R193: The instruction reads an accumulator shifted, rounded and saturated to 32 bits. -/
  | ydAccrs (e : Fin 16) (rd rs1 rs2 : Fin 32)
  /-- YD_PKS, R193: The instruction packs two saturated 16-bit values into one register. -/
  | ydPks (e : Fin 16) (rd rs1 rs2 : Fin 32)
  /-- YD_UPKL, R193: The instruction unpacks the low 16-bit half sign-extended. -/
  | ydUpkl (e : Fin 16) (rd rs1 rs2 : Fin 32)
  /-- YD_UPKH, R193: The instruction unpacks the high 16-bit half sign-extended. -/
  | ydUpkh (e : Fin 16) (rd rs1 rs2 : Fin 32)
  /-- YD_SAT, R193: The instruction clamps a register to a signed width. -/
  | ydSat (e : Fin 16) (rd rs1 : Fin 32) (imm : BitVec 12)
  /-- YT_POST, R198: The instruction commits the engine's staged writes, posting a sample engine's results for the bank switch. -/
  | ytPost (e : Fin 16)
  /-- YT_WFT, R196: The instruction commits staged writes and puts the engine to sleep, ending its tick work. -/
  | ytWft (e : Fin 16)
  /-- YT_TASK, R208: The instruction begins an invocation of a task for cost accounting. -/
  | ytTask (e : Fin 16) (rs1 : Fin 32)
  /-- STAGED_WRITE, R198: An engine's write to a staged register is held until commit. -/
  | stagedWrite (e : Fin 16) (a : Nat) (v : Word)
  /-- ENGINE_EVENT_ENTRY, R197: A sleeping engine starts at its event entry because an enabled event source became active. -/
  | engineEventEntry (e : Fin 16) (cause : EngineEvent)
  /-- SAMPLE_PORT_OVERFLOW, R192: A sample overwrites an unconsumed sample-port entry, setting SPOVR and treating the tick as overrun. -/
  | samplePortOverflow (e : Fin 8)
  /-- ENGINE_TRAP, R188: A synchronous exception other than ECALL stops the engine as a fault and records its trap values. -/
  | engineTrap (e : Fin 16) (mcause mepc mtval : Word)
  /-- ENGINE_RESTART_RELEASE, R209: The engine's first trigger at least 50 µs after the fence releases it with entry cause 1. -/
  | engineRestartRelease (e : Fin 16)
  /-- ENG_RESTART, R209: A write to ENG_RESTART restarts the engines whose bits are set. -/
  | engRestart (i : Initiator) (v : Word)
  /-- ENGINE_ENABLE, R209: A write to ENG_n_CTRL.EN fences the engine on 0 or restarts it on 1 after 0. -/
  | engineEnable (e : Fin 16) (i : Initiator) (v : Word)
  /-- ENGINE_UPDATE_GO, R211: A write of ENG_UPD_CTRL.GO admits the staged image for one engine and schedules its activation or refuses it. -/
  | engineUpdateGo (i : Initiator) (v : Word)
  /-- ENGINE_HALT, R216: A write of ENG_n_DBG.HALT halts and fences the engine in SERVICE. -/
  | engineHalt (e : Fin 16) (i : Initiator) (v : Word)
  /-- ENGINE_STEP, R216: A write of ENG_n_DBG.STEP executes one instruction of a halted engine. -/
  | engineStep (e : Fin 16) (i : Initiator) (v : Word)
  /-- ENGINE_BREAKPOINT, R216: An instruction fetch at ENG_n_BKPT with BKEN set halts the engine. -/
  | engineBreakpoint (e : Fin 16) (pc : Word)
  /-- MAILBOX_SEND, R200: A write of ENG_s_MBX_TXPAY sends the staged message toward its destination mailbox. -/
  | mailboxSend (e : Fin 16) (i : Initiator) (v : Word)
  /-- MAILBOX_DELIVERY, R201: A waiting message is delivered once the destination mailbox has space. -/
  | mailboxDelivery (e : Fin 16)
  /-- MAILBOX_POP, R200: A write of ENG_r_MBX_RXPOP removes the oldest message. -/
  | mailboxPop (e : Fin 16) (i : Initiator) (v : Word)
  /-- MAILBOX_TIMEOUT, R202: A reply tag stays open for ENG_MBX_TMO ticks and is closed with a TIMEOUT reply. -/
  | mailboxTimeout (e : Fin 16) (tag : Fin 8)
  /-- SEMAPHORE_ACQUIRE, R204: A write of ENG_SEMk.ACQ by an engine takes the semaphore if it is free. -/
  | semaphoreAcquire (k : Fin 32) (i : Initiator) (v : Word)
  /-- SEMAPHORE_RELEASE, R204: A write of ENG_SEMk.REL by the owner frees the semaphore. -/
  | semaphoreRelease (k : Fin 32) (i : Initiator) (v : Word)
  /-- PMC_SELECT_WRITE, R213: A write to ENG_n_PMCk_SEL changes the counted event and stops the counter for that cycle. -/
  | pmcSelectWrite (e : Fin 16) (k : Fin 6) (i : Initiator) (v : Word)
  /-- FRAME_RECEIVE, R229: A frame arrives on a Strait and is checked, then delivered, forwarded or discarded. -/
  | frameReceive (port : Fin 4) (w : WireFrame)
  /-- STORE_AND_FORWARD, R238: A stored frame is forwarded once its output Strait and credit allow. -/
  | storeAndForward (port : Fin 4)
  /-- FRAME_TRANSMIT, R235: Between frames the transmitter starts the next eligible frame by class priority and credit. -/
  | frameTransmit (port : Fin 4)
  /-- CREDIT_RECEIVE, R232: A CREDIT sequence arrives and updates the sender's credit for a queue or is discarded. -/
  | creditReceive (port : Fin 4) (q c : Byte)
  /-- CREDIT_REFRESH, R233: The 20 µs interval expires and a CREDIT sequence is sent for every queue. -/
  | creditRefresh (port : Fin 4)
  /-- CREDIT_STALL, R234: A head frame waits for credit for STALL_MS, raising the credit stall fault and retraining the link. -/
  | creditStall (port : Fin 4)
  /-- HAZARD_RECEIVE, R239: A HAZARD symbol arrives or the trip line asserts; it is passed to PSF and flooded as a burst. -/
  | hazardReceive (src : HazardSource)
  /-- LINK_TRAINING, R244: A port begins training by sending COMMA and then TS1 ordered sets. -/
  | linkTraining (port : Fin 4)
  /-- TRAIN_RECEIVE, R244: A TRAIN ordered set arrives and advances training, or takes an UP link down. -/
  | trainReceive (port : Fin 4) (l : List Byte)
  /-- TRAINING_TIMEOUT, R244: A training attempt has not reached UP within 5 ms and fails. -/
  | trainingTimeout (port : Fin 4)
  /-- TRAINING_RETRY, R245: The retry or backoff wait expires and a new training attempt starts, with a wake tone if WAKEOUT is set. -/
  | trainingRetry (port : Fin 4)
  /-- LINK_DOWN, R246: A link-down cause occurs; frames are aborted or discarded, credits reset, events reported and training follows. -/
  | linkDown (port : Fin 4) (cause : Fin 13)
  /-- PORT_RETRAIN, R246: A write of FAB_PORTn_CTRL.RETRAIN takes the link down and retrains it. -/
  | portRetrain (port : Fin 4) (i : Initiator) (v : Word)
  /-- PORT_WAKE, R247: A write of FAB_PORTn_CTRL.WAKE sends the wake tone and then trains. -/
  | portWake (port : Fin 4) (i : Initiator) (v : Word)
  /-- PORT_LOOPBACK, R250: Setting FAB_PORTn_TEST.LOOP selects near-end loopback and takes the link down. -/
  | portLoopback (port : Fin 4) (i : Initiator) (v : Word)
  /-- PORT_PRBS, R250: Setting FAB_PORTn_TEST.PRBS sends PRBS-31 in place of the stream and takes the link down. -/
  | portPrbs (port : Fin 4) (i : Initiator) (v : Word)
  /-- WAKE_TONE_DETECT, R247: A tone detector sees 64 qualifying half-periods and raises a wake request. -/
  | wakeToneDetect (port : Fin 4)
  /-- WAKE_TONE_HELD, R247: A tone present for 60 s is flagged and the detector ignores that Strait until it is absent. -/
  | wakeToneHeld (port : Fin 4)
  /-- NET_SOUND, R257: A write of FAB_NET_CTRL.SOUND on the active harbour starts a sounding round. -/
  | netSound (i : Initiator) (v : Word)
  /-- SOUND_FLOOD, R259: A FLOOD arrives; a first FLOOD of a newer round sets the parent and depth, is relayed and answered with a REPORT. -/
  | soundFlood (port : Fin 4) (f : Frame)
  /-- SOUND_REPORT, R260: A REPORT arrives and is relayed to the parent or recorded in the harbour's map. -/
  | soundReport (port : Fin 4) (f : Frame)
  /-- SOUND_ASSIGN, R262: An ASSIGN arrives and is staged and acknowledged, or relayed along its path. -/
  | soundAssign (port : Fin 4) (f : Frame)
  /-- SOUND_ACK, R262: An ACK arrives at the harbour, which floods COMMIT once all are acknowledged. -/
  | soundAck (port : Fin 4) (f : Frame)
  /-- ASSIGN_TIMEOUT, R262: An ASSIGN is not acknowledged within ACK_MS and is resent, or the island is recorded absent. -/
  | assignTimeout (addr : Fin 256)
  /-- SOUND_COMMIT, R263: A COMMIT arrives naming the commit tick for the staged tables. -/
  | soundCommit (port : Fin 4) (f : Frame)
  /-- SOUND_LINKEV, R274: A LINKEV arrives and is relayed, starts a round or sets TCHG at the harbour. -/
  | soundLinkev (port : Fin 4) (f : Frame)
  /-- SOUND_RESTART, R274: A RESTART arrives and the island discards what it staged in the round. -/
  | soundRestart (port : Fin 4) (f : Frame)
  /-- ADDRESS_HOLD_EXPIRY, R269: A held address's HOLD_S expires and the entry becomes free. -/
  | addressHoldExpiry (addr : Fin 256)
  /-- ADDRESS_TABLE_CLEAR, R284: A write of FAB_NET_CTRL.ATCLR in SERVICE frees every address entry. -/
  | addressTableClear (i : Initiator) (v : Word)
  /-- NET_TAKEOVER, R276: A write of FAB_NET_CTRL.TAKEOVER from the host makes a standby harbour active. -/
  | netTakeover (i : Initiator) (v : Word)
  /-- RA_REQUEST, R278: An RA_REQ arrives and the agent performs its words or answers a duplicate or refusal with an RA_RSP. -/
  | raRequest (port : Fin 4) (f : Frame)
  /-- RA_RESPONSE, R279: An RA_RSP arrives and completes the requester's slot. -/
  | raResponse (port : Fin 4) (f : Frame)
  /-- RA_TIMEOUT, R279: No response arrives within TMO_MS; the request is resent or completed with status 0x80. -/
  | raTimeout (k : Fin 16)
  /-- RA_SLOT_GO, R281: A write of FAB_RASs_CTRL.GO sends a remote access or memory-read request from the slot. -/
  | raSlotGo (k : Fin 16) (i : Initiator) (v : Word)
  /-- MEM_READ_REQUEST, R280: A MEM_RD_REQ arrives and opens a memory-read stream or is refused busy. -/
  | memReadRequest (port : Fin 4) (f : Frame)
  /-- MEM_READ_DATA, R280: A MEM_RD_DATA frame arrives at the requester and its data are stored. -/
  | memReadData (port : Fin 4) (f : Frame)
  /-- DEMAND_CLEAR, R288: A privileged write to PSF_DEM_CLR withdraws latched sources whose causes have released. -/
  | demandClear (i : Initiator) (v : Word)
  /-- OFFREQ_SET, R294: A write of PSF_OFFREQ.SET raises source 19. -/
  | offreqSet (i : Initiator) (v : Word)
  /-- OFFREQ_CLR, R294: A privileged write of PSF_OFFREQ.CLR withdraws source 19. -/
  | offreqClr (i : Initiator) (v : Word)
  /-- SAFETY_INPUT_CHANGE, R296: A safety loop holds a new level for its debounce time and its demand source is raised or released. -/
  | safetyInputChange (k : Fin 2) (closed : Bool)
  /-- DARK_PULSE_END, R297: The dark pulse ends and a loop still reading closed raises the cross-feed fault. -/
  | darkPulseEnd (closed : Bool)
  /-- ILK_READBACK, R298: ILK source and return currents differ by more than 2 mA for DEB, raising source 15 and RBERR. -/
  | ilkReadback (src ret : BitVec 16)
  /-- ARM_REQUEST, R302: A write of PSF_ARM.REQ by MC runs the arming checks and arms or refuses with a code. -/
  | armRequest (i : Initiator) (v : Word) (fb : BitVec 3)
  /-- ILK_SELF_CYCLE_END, R300: The interlock self-cycle completes or times out and the arming checks continue or refuse with 0x08. -/
  | ilkSelfCycleEnd (fb : BitVec 3)
  /-- ARM_DISABLE, R303: A privileged write of PSF_ARM.DIS disarms and clears all ON bits. -/
  | armDisable (i : Initiator) (v : Word)
  /-- OUTPUT_ON_WRITE, R301: An MC write to PSF_OUT_CMD.ON commands outputs on or off. -/
  | outputOnWrite (i : Initiator) (v : Word)
  /-- OUTPUT_OFF_WRITE, R301: A write to PSF_OUT_CMD.OFF clears the corresponding ON bits. -/
  | outputOffWrite (i : Initiator) (v : Word)
  /-- OUTPUT_FAULT, R304: An output's feedback disagrees with it for FBT, raising source 20 and the output fault. -/
  | outputFault (o : Fin 3) (above : Bool) (level : BitVec 16)
  /-- OFF_PULSE, R305: PER expires and an on output is switched off for its test pulse. -/
  | offPulse (o : Fin 3)
  /-- OFF_PULSE_END, R305: The pulse ends and the feedback is judged, failing into lockout if it did not read off. -/
  | offPulseEnd (above : Bool) (level : BitVec 16)
  /-- LOCKOUT_KEY, R308: A write to PSF_LOCKOUT_KEY advances, completes or clears the lockout key sequence. -/
  | lockoutKey (i : Initiator) (v : Word)
  /-- LOCKOUT_EXIT, R308: Key, interlock cycle, feedback and fatal conditions all hold and lockout is left. -/
  | lockoutExit (fb : BitVec 3)
  /-- CAUSEWAY_RECEIVE, R312: A CAUSEWAY copy arrives at the harbour and is validated and compared. -/
  | causewayReceive (port : Fin 4) (f : Frame)
  /-- CONFIG_INTEGRITY_CHECK, R322: Every 100 ms the seal record CRC is recomputed and a mismatch is a fatal fault. -/
  | configIntegrityCheck (upsets : List (Nat × Word))
  /-- OTP_MIRROR_CHECK, R322: Every second the OTP words are reread and each mismatch is a fatal fault. -/
  | otpMirrorCheck (reread : List (Nat × Word))
  /-- FAULT_ACK, R327: A privileged write of FCR_ACK.SRC clears status bits and frees entries that no longer stand. -/
  | faultAck (i : Initiator) (v : Word)
  /-- FATAL_ACK, R332: A privileged write of FCR_ACK.FATAL clears the fatal summary if no fatal condition stands. -/
  | fatalAck (i : Initiator) (v : Word)
  /-- FAULT_RECOVERY, R329: A fault's quiet period ends, it recovers, fenced units are released and a recovery NOTIFY is sent. -/
  | faultRecovery (src : Fin 16) (code inst : Byte) (bus : Vector (BitVec 16) 8)
  /-- FAULT_FORCE, R337: A write of FCR_FORCE raises the forced code on a source as if detected. -/
  | faultForce (i : Initiator) (v : Word)
  /-- POWER_ON_RESET_RELEASE, R341: VSTK rises through 9.0 V and PD0 leaves power-on reset. -/
  | powerOnResetRelease (b : Board)
  /-- MODE_REQ_SHIP, R348: A request for SHIP is checked for key and outputs and accepted or refused. -/
  | modeReqShip (i : Initiator) (v : Word)
  /-- MODE_REQ_WATCH, R348: A request for WATCH is checked and accepted or refused. -/
  | modeReqWatch (i : Initiator) (v : Word)
  /-- MODE_REQ_RUN, R348: A request for RUN from SERVICE or HOLD is checked and accepted or refused. -/
  | modeReqRun (i : Initiator) (v : Word)
  /-- MODE_REQ_TRIM, R348: A request for TRIM checks the calibration preconditions and starts a run or refuses. -/
  | modeReqTrim (i : Initiator) (v : Word) (refDev : Int)
  /-- MODE_REQ_SERVICE, R348: A request for SERVICE is checked for its key and accepted or refused. -/
  | modeReqService (i : Initiator) (v : Word)
  /-- MODE_KEY, R354: A write to MGT_MODE_KEY advances or clears the SHIP or SERVICE key sequence. -/
  | modeKey (i : Initiator) (v : Word)
  /-- SOFTWARE_RESET, R359: A write to MGT_SWRST advances the key and its completion causes a warm reset after 10 µs. -/
  | softwareReset (i : Initiator) (v : Word)
  /-- VSTK_OUT_OF_RANGE, R343: VSTK lies outside 10 V to 165 V for 1 ms and fault 11/0x10 stands. -/
  | vstkOutOfRange (level : BitVec 16)
  /-- VAUX_LOSS, R345: VAUX leaves its window for 50 µs and the supply returns to VSTK. -/
  | vauxLoss (level : BitVec 16)
  /-- VAUX_RETURN, R345: VAUX has been within its window for 100 ms and the supply changes back to VAUX. -/
  | vauxReturn (level : BitVec 16)
  /-- CAL_POINT_COMPLETE, R372: The AVG results of a calibration point are complete and the run moves on or computes terms. -/
  | calPointComplete (point : CalPoint) (stored : Bool)
  /-- CAL_ABORT, R378: A write of MGT_CAL_CTRL.ABORT aborts the run with reason 0x01. -/
  | calAbort (i : Initiator) (v : Word)
  /-- CAL_STORE, R379: A write of MGT_CAL_CTRL.STORE commits the trims in force as a slot. -/
  | calStore (i : Initiator) (v : Word) (stored : Bool)
  /-- CFG_SWITCH_REQUEST, R396: A privileged write of MGT_CFG_SWITCH requests a switch to the other resident configuration. -/
  | cfgSwitchRequest (i : Initiator) (v : Word)
  /-- CFG_SWITCH_FRAME, R396: A CFG_SWITCH frame from the harbour requests a switch and is answered. -/
  | cfgSwitchFrame (port : Fin 4) (f : Frame)
  /-- PROBATION_PASSED, R398: MIN minutes of RUN accumulate and MC programs PASSED for the slot. -/
  | probationPassed (slot : Fin 4)
  /-- SLOT_REJECT, R390: A privileged write to MGT_SLOT_CTRL with its key marks slots rejected. -/
  | slotReject (i : Initiator) (v : Word)
  /-- UPDATE_OPEN, R400: A write of MGT_UPD_CTRL.OPEN opens an update session and clears staging. -/
  | updateOpen (i : Initiator) (v : Word)
  /-- IMAGE_FRAME, R400: An IMAGE frame delivers image bytes to a matching session or is discarded. -/
  | imageFrame (port : Fin 4) (f : Frame)
  /-- UPDATE_VERIFY, R401: A write of MGT_UPD_CTRL.VERIFY checks the staged image. -/
  | updateVerify (i : Initiator) (v : Word)
  /-- UPDATE_WRITE, R402: A write of MGT_UPD_CTRL.WRITE starts erasing and programming the alternate slot. -/
  | updateWrite (i : Initiator) (v : Word)
  /-- UPDATE_WRITE_COMPLETE, R402: The slot write finishes with readback and COMMIT and the resident copy is replaced. -/
  | updateWriteComplete (r : FlashOutcome)
  /-- UPDATE_CLOSE, R400: A write of MGT_UPD_CTRL.CLOSE ends the session and discards the staged image. -/
  | updateClose (i : Initiator) (v : Word)
  /-- OTP_KEY, R406: A write to MGT_OTP_KEY advances or clears the OTP key sequence. -/
  | otpKey (i : Initiator) (v : Word)
  /-- OTP_PROGRAM, R406: A write of MGT_OTP_CTRL.GO programs the selected OTP target and reports the outcome. -/
  | otpProgram (i : Initiator) (v : Word) (fb : BitVec 3) (readback : Bool)
  /-- LOG_POST, R408: A write of MGT_LOG_POST writes the initiator's staged log entry. -/
  | logPost (i : Initiator) (v : Word)
  /-- LIFETIME_FLUSH, R411: Every 10 s MC flushes the lifetime accumulators to the other bank. -/
  | lifetimeFlush (stored : Bool)
  /-- LIFETIME_FLUSH_NOW, R411: A write of MEM_LT_CTRL.FLUSH flushes the accumulators at once. -/
  | lifetimeFlushNow (i : Initiator) (v : Word) (stored : Bool)
  /-- LIFETIME_KEY, R413: A write to MEM_LT_KEY advances or clears the clear key sequence. -/
  | lifetimeKey (i : Initiator) (v : Word)
  /-- LIFETIME_CLEAR, R413: A write of MEM_LT_CTRL.CLEAR after the key clears lifetime areas 1, 2, 3 and 5. -/
  | lifetimeClear (i : Initiator) (v : Word)
  /-- TW_WRITE, R419: A two-wire write transaction performs its words, buffered when carrying PEC. -/
  | twWrite (t : TwWrite)
  /-- TW_READ, R418: A two-wire read transaction returns words from the given address. -/
  | twRead (t : TwRead)
  /-- TW_CURRENT_READ, R418: A two-wire current-address read returns words from the pointer until NACK. -/
  | twCurrentRead (words : Nat)
  /-- TW_TIMEOUT, R424: The bus is static for TW_TIMEOUT and the target resets and releases both lines. -/
  | twTimeout (sclLow : Bool)
  /-- HOST_NOTIFY_ATTEMPT, R426: With a queued event and a free bus the part sends an SMBus Host Notify, retrying on loss or NACK. -/
  | hostNotifyAttempt (r : NotifyResult)
  /-- NOTIFY_SEND, R427: A privileged write of MGT_NOTIFY_SEND queues a Host Notify event. -/
  | notifySend (i : Initiator) (v : Word)
  /-- SWB_TRIGGER, R434: A scheduled single-wire reading falls due and the trigger pulse is sent. -/
  | swbTrigger (n : Fin 2)
  /-- SWB_MANUAL_TRIGGER, R434: A write of MGT_SWBn_CTRL.GO takes a trigger of the given kind at the next free slot. -/
  | swbManualTrigger (n : Fin 2) (i : Initiator) (v : Word)
  /-- SWB_RESPONSE, R432: A sensor response is decoded and stored if valid or discarded with its cause. -/
  | swbResponse (n : Fin 2) (r : SwbReply)
  /-- SWB_RESPONSE_TIMEOUT, R435: No response begins within 500 µs and the reading is held with a no-response error. -/
  | swbResponseTimeout (n : Fin 2)
  /-- SWB_POWER_ERROR, R430: SWPn load exceeds 25 mA for 1 ms and the supply switches off for 1 s. -/
  | swbPowerError (n : Fin 2)
  /-- SWB_POWER_UP, R430: PWRUP_MS after SWPn comes on the identity is read. -/
  | swbPowerUp (n : Fin 2)
  /-- CRC_START, R440: A write of MGT_CRCu_CTRL.START loads the initial value. -/
  | crcStart (u : Fin 4) (i : Initiator) (v : Word)
  /-- CRC_DATA, R440: A write to MGT_CRCu_DATA feeds its bytes into the check value. -/
  | crcData (u : Fin 4) (i : Initiator) (v : Word) (size : Fin 3)
  /-- CRC_END, R440: A write of MGT_CRCu_CTRL.END compares the received check value and sets OK. -/
  | crcEnd (u : Fin 4) (i : Initiator) (v : Word)
  /-- CRC_CLAIM, R441: A write of MGT_CRCu_CTRL.CLAIM claims a free shared unit. -/
  | crcClaim (u : Fin 4) (i : Initiator) (v : Word)
  /-- CRC_RELEASE, R441: A write of MGT_CRCu_CTRL.REL frees a unit. -/
  | crcRelease (u : Fin 4) (i : Initiator) (v : Word)
  /-- CRC_STATE_WRITE, R440: A write to MGT_CRCu_STATE continues a computation from a saved state. -/
  | crcStateWrite (u : Fin 4) (i : Initiator) (v : Word)
  /-- LOW_WORD_READ, R9: A read of the low word of a 64-bit register latches the high word for the same initiator. -/
  | lowWordRead (i : Initiator) (a : Nat)
  /-- REGISTER_WRITE, R12: A write to a register without behaviour of its own sets its writable fields subject to mode, type and seal. -/
  | registerWrite (i : Initiator) (a : Nat) (v : Word)
  /-- VSTK_IN_RANGE, R343: VSTK returns within 10 V to 165 V and condition fault 11/0x10 ends. -/
  | vstkInRange (level : BitVec 16)
  /-- READBACK_AGREEMENT, R298: The ILK source and return currents have agreed within 2 mA for DEB and RBERR and its fault condition end. -/
  | readbackAgreement (src ret : BitVec 16)
  /-- CHATTER_QUIET, R299: A safety input has made no transition for one full WIN and reads closed, so CHAT ends. -/
  | chatterQuiet (k : Fin 2)
  /-- COMMA_ALIGNMENT, R244: A training port has received 64 consecutive aligned COMMAs with the echo residual below its limit and starts sending TS1. -/
  | commaAlignment (port : Fin 4)
  /-- WAKE_TONE_ABSENT, R247: A tone held for 60 s has been absent for 10 ms and the detector watches that Strait again. -/
  | wakeToneAbsent (port : Fin 4)
  /-- SWP_POWER_RETRY, R430: One second after a power error SWPn is switched on again and the bus starts powering. -/
  | swpPowerRetry (n : Fin 2)
  /-- BASE_RATE_STROBE, R62: The shared decimator strobe yields a base-rate sample of every channel, written to the raw registers and the sample ports. -/
  | baseRateStrobe (x : StrobeSample)
  /-- READ_CLEAR_REGISTER, R10: A read of an RC field returns its value and clears the field. -/
  | readClearRegister (i : Initiator) (a : Nat)
  /-- EXTENSION_CSR_WRITE, R192: An engine writes an extension CSR such as ysp, yst, yr, yn or ym, changing consumed index, saturation flags or DFT state. -/
  | extensionCsrWrite (e : Fin 16) (csr : ExtCsr) (v : Word)
  /-- SAMPLE_INSTANT, R34: The sample instant S(k) of a tick arrives from fabric time and starts the tick's processing and the tick triggers of the engines. -/
  | sampleInstant
  /-- TICK_ORIGINATE, R37: At fabric time S(k) - L the harbour transmits one TICK symbol on each of its Straits. -/
  | tickOriginate
  /-- TICK_MISSING, R44: No TICK has been accepted by S(k) while LOCKED, so the island enters or stays in HOLDOVER and counts the held tick. -/
  | tickMissing
  /-- HOLDOVER_EXCEEDED, R45: HOLD_MAX consecutive held ticks are reached; a contained TMG fault is raised and snapshots carry INCOH. -/
  | holdoverExceeded
  /-- BANK_SWITCH, R47: All eight sample engines have posted, so the results of the tick are switched in and PSF, snapshot and downstream work proceed. -/
  | bankSwitch
  /-- BANK_SWITCH_DEADLINE, R47: TMG_BANK_DL expires before all sample engines have posted; the bank switches with late channels held and flagged LATE. -/
  | bankSwitchDeadline
  /-- PERIOD_SWITCH, R56: The announced switch tick S(k_sw) arrives and every island adopts the new period and epoch. -/
  | periodSwitch
  /-- OPEN_WIRE_STEP, R73: An open-wire rotation step falls due and its sources inject current into the taps of the step. -/
  | openWireStep
  /-- OPEN_WIRE_DWELL_END, R75: The dwell of a step ends; the sources switch off and Δ is evaluated for each affected channel. -/
  | openWireDwellEnd
  /-- NO_VALID_CURRENT, R98: Neither current channel is VALID for 8 consecutive ticks, raising the fault and a PSF off-demand. -/
  | noValidCurrent
  /-- CURRENT_PATH_DISAGREEMENT, R102: CNT consecutive disagreeing ticks between CS0 and CS1 set DISAGREE and raise the current path fault. -/
  | currentPathDisagreement
  /-- DIVERSITY_BIAS_BLOCK, R102: A block of 1,024 valid ticks completes and its mean of I0 - I1 is checked against ABS/4. -/
  | diversityBiasBlock
  /-- FULL_SWEEP_DUE, R130: The scheduled time of a full impedance sweep arrives and the sweep starts if nothing prevents it. -/
  | fullSweepDue
  /-- TEMP_PASS_DUE, R130: The scheduled time of a temperature pass arrives and the pass starts, waits or is skipped. -/
  | tempPassDue
  /-- SWEEP_WINDOW_START, R115: The settle interval ends and a demodulation window begins at a sample instant. -/
  | sweepWindowStart
  /-- SWEEP_WINDOW_END, R126: A window's last sample is taken and the sample engines form the complex amplitudes and impedances of its bins. -/
  | sweepWindowEnd
  /-- FALLBACK_STOP, R165: No valid cell results reach BAL for 100 ms and the passive fallback stops. -/
  | fallbackStop
  /-- AUX_SCAN_START, R169: The scan period expires and the auxiliary converter starts a 20-slot scan. -/
  | auxScanStart
  /-- THROTTLE_GRACE_EXPIRY, R177: The grace timer expires and the enforced throttle level becomes the target level. -/
  | throttleGraceExpiry
  /-- THROTTLE_STEP_DOWN, R179: H has stayed below the level's threshold less hysteresis for REL seconds and the enforced level falls by one. -/
  | throttleStepDown
  /-- THERMAL_SHUTDOWN_RELEASE, R183: Both release comparators read below 140 °C after 5 s and the part restarts into HOLD. -/
  | thermalShutdownRelease
  /-- PERF_DUMP, R215: At S(k) with k mod N = 0 the counters of all engines are captured and written as a dump record. -/
  | perfDump
  /-- HAZARD_HOLD_EXPIRY, R239: The HAZARD hold time expires and further HAZARDs are forwarded again. -/
  | hazardHoldExpiry
  /-- COLLECTION_CLOSE, R261: QUIET_MS or ROUND_MS expires and the harbour closes collection, classifies the map and assigns or reruns. -/
  | collectionClose
  /-- TABLE_INSTALL, R263: At S(k_c) the island installs its staged address, tables, positions and routes. -/
  | tableInstall
  /-- SOUNDING_HOLDOFF_END, R274: The sounding holdoff ends and a pending LINKEV starts a round. -/
  | soundingHoldoffEnd
  /-- HARBOUR_LISTEN_END, R276: The listen phase ends and the harbour-configured part becomes active or stands by. -/
  | harbourListenEnd
  /-- HARBOUR_LOSS, R276: A standby with AUTO hears no TICK or SOUND for LOSS_MS and takes over as harbour. -/
  | harbourLoss
  /-- DARK_PULSE, R297: The TP interval expires and SO_TEST switches off for 200 µs. -/
  | darkPulse
  /-- CAUSEWAY_DECISION, R312: The WAIT deadline expires and the harbour decides the cycle's outcome for each expected island. -/
  | causewayDecision
  /-- HEARTBEAT_LOST, R16: The stack die loses the logic-die heartbeat and treats it as an off-demand. -/
  | heartbeatLost
  /-- SHADOW_WINDOW_CLOSE, R333: A shadow window expires and faults are no longer treated as consequential of it. -/
  | shadowWindowClose
  /-- POWER_ON_RESET, R341: VSTK falls below 8.0 V and a cold reset resets everything. -/
  | powerOnReset
  /-- START_UP_COMPLETE, R363: Step 8 ends and the part enters its start mode or HOLD. -/
  | startUpComplete
  /-- MODE_TRANSITION_COMPLETE, R348: A pending mode transition completes and the new mode's domain states apply. -/
  | modeTransitionComplete
  /-- SERVICE_TIMEOUT, R354: No privileged write for TMO_S returns the part from SERVICE to RUN. -/
  | serviceTimeout
  /-- WATCH_BURST, R351: The WATCH interval expires and a burst powers up, samples cells and current and starts a scan. -/
  | watchBurst
  /-- WATCH_BURST_END, R467: The burst's scan completes, one bank switch publishes results, PSF compares and triggered engines start. -/
  | watchBurstEnd
  /-- WAKE_PIN, R352: WAKE goes high for 1 ms after being low 10 ms and raises a wake request. -/
  | wakePin
  /-- WAKE_PIN_STUCK, R352: WAKE stays high for 60 s, raising fault 0/0x16 or setting WSTUCK in SHIP. -/
  | wakePinStuck
  /-- RST_N_LOW, R357: RST_N is low for 20 µs and a warm reset begins. -/
  | rstNLow
  /-- RST_N_RELEASE, R357: RST_N rises and the warm reset ends. -/
  | rstNRelease
  /-- RST_N_FAILED_CLOSED, R358: RST_N is still low after 2 s and the part leaves reset ignoring the pin. -/
  | rstNFailedClosed
  /-- RST_N_HIGH_SEEN, R358: RST_N has been high for 10 ms and the failed-closed condition ends. -/
  | rstNHighSeen
  /-- RAIL_OUT_OF_TOLERANCE, R344: The 5 V rail is outside ±5 % for 10 µs, a fatal fault. -/
  | railOutOfTolerance
  /-- VIO_OVERLOAD, R346: VIO load stays above 50 mA for 1 ms and fault 11/0x12 stands. -/
  | vioOverload
  /-- OSCILLATOR_DEVIATION, R319: The reference and PD0 oscillators differ by more than 2 % for 1 ms, a fatal clock fault. -/
  | oscillatorDeviation
  /-- PD0_OSCILLATOR_STOPPED, R319: The PD0 oscillator stops, a fatal clock fault. -/
  | pd0OscillatorStopped
  /-- CFG_SWITCH_APPLY, R397: At S(k_sw) the target configuration is installed and sealed, the part disarms and engines re-enter. -/
  | cfgSwitchApply
  /-- TW_WAKE_MATCH, R425: In SHIP or WATCH the address matcher recognises the address, ACKs, holds SCL and raises a wake request. -/
  | twWakeMatch
  /-- FLASH_TIMEOUT, R439: A flash operation exceeds its bound and is counted with fault 0/0x10. -/
  | flashTimeout
  /-- SC_QUIET, R108: The short-circuit comparator has been below threshold continuously for 1 ms and PSF_SC_STAT.QUIET is set. -/
  | scQuiet
  /-- HEARTBEAT_RESTORED, R16: The logic-die heartbeat returns on the safety channel and the stack die raises the fatal fault for the loss. -/
  | heartbeatRestored
  /-- RAIL_IN_TOLERANCE, R344: The internal 5 V rail returns within ±5 % and fatal condition 11/0x13 ends. -/
  | railInTolerance
  /-- VIO_LOAD_NORMAL, R346: The VIO load falls back to 50 mA or less and condition fault 11/0x12 ends. -/
  | vioLoadNormal
  /-- OSCILLATOR_AGREEMENT, R319: The reference and PD0 oscillators agree within 2 % again and fatal condition 12/0x10 ends. -/
  | oscillatorAgreement
  /-- PD0_OSCILLATOR_RUNNING, R319: The PD0 oscillator runs again and fatal condition 12/0x11 ends. -/
  | pd0OscillatorRunning
  /-- WAKE_PIN_RELEASE, R352: WAKE has been low for 10 ms, ending condition fault 0/0x16 and re-enabling the pin as a wake source. -/
  | wakePinRelease
  /-- FLASH_SUSPEND_COMPLETE, R360: The flash reports that a program or erase suspend has completed, letting a pending warm reset take effect or thermal shutdown switch VIO and the domains off. -/
  | flashSuspendComplete
  deriving DecidableEq, Repr

end Sys2Proof
end

