-- ==== Sys2Proof/Config.lean ====
section
/-! DEFINITION. What the manual leaves open: constants with no body, so that no proof can see a value. -/

namespace Sys2Proof.Config

/-- A value the manual does not state, one for each value of the model's counter `State.free` (DESIGN CHOICE, log entry 3). -/
opaque freeValue (w : Nat) : Nat → BitVec w

/-- What the supplies read in a millisecond of RUN: VSTK, VAUX in 10 mV (R367, DESIGN CHOICE, log entry 138). -/
opaque supplyAt : Nat → BitVec 32

/-- Which way a quotient exactly half-way between two integers is rounded where the manual only says "rounded"
(DESIGN CHOICE, log entry 4): true is upward. -/
opaque tieUp : Int → Int → Bool

/-- By how much the twiddle of yd.dft for r and N lies off the nearest integer, cosine and sine (R194, DESIGN CHOICE, log entry 5). -/
opaque twiddleErr : Nat → Nat → Int × Int

/-- Symbol slots per tick that admission charges for the event-driven frames of a class, whose rate the manual does not state
(R53, DESIGN CHOICE, log entry 26): 0 THROTTLE frames, 1 NOTIFY frames. -/
opaque eventSlots : Nat → Nat

/-- How many frames the local delivery buffer of an island holds (R256, DESIGN CHOICE, log entry 11). -/
opaque localBuffer : Nat

/-- The OTP factory value of a trim register as OTP holds it, at a quarter of the register's resolution; for TMG_PORTn_ASYM in the
register's LSB. The OTP words are read through the registers only and their layout is not stated (R369, R405, DESIGN CHOICE, log
entry 33). -/
opaque factoryTrim : Nat → Int

/-- The OTP value of a point of CREF, by channel (0 and 1 current, 2 to 33 cells, 34 to 49 auxiliary inputs) and point in the
order of Table 14.1: nV for cells and currents, 0.001 codes for auxiliary inputs (R370, DESIGN CHOICE, log entry 33). -/
opaque refPoint : Nat → Nat → Int

end Sys2Proof.Config
end

