-- ==== Sys2Proof/Machine/Bits.lean ====
section
/-! DEFINITION. Bit fields, signed numbers, saturation, rounding, byte order: the plain helpers of every family. -/

namespace Sys2Proof.Machine

/-- The `w`-bit field of `x` whose lowest bit is `lo`. -/
def fieldOf (x lo w : Nat) : Nat := x / 2 ^ lo % 2 ^ w

/-- `x` with its `w`-bit field at `lo` replaced by the low `w` bits of `v`. -/
def withField (x lo w v : Nat) : Nat :=
  x % 2 ^ lo + v % 2 ^ w * 2 ^ lo + x / 2 ^ (lo + w) * 2 ^ (lo + w)

/-- Bit `i` of `x`. -/
def bitOf (x i : Nat) : Bool := x / 2 ^ i % 2 == 1

/-- A Bool as a one-bit number. -/
def b2n (b : Bool) : Nat := if b then 1 else 0

/-- `x` with bit `i` set. -/
def setBitN (x i : Nat) : Nat := if bitOf x i then x else x + 2 ^ i

/-- `x` with bit `i` clear. -/
def clrBitN (x i : Nat) : Nat := if bitOf x i then x - 2 ^ i else x

/-- `x` with bit `i` set to `b`. -/
def putBitN (x i : Nat) (b : Bool) : Nat := if b then setBitN x i else clrBitN x i

/-- The positions of the set bits of `x` below `n`, ascending. -/
def bitsOf (n x : Nat) : List Nat := (List.range n).filter (bitOf x)

/-- The number with exactly the listed bits set. -/
def ofBits (l : List Nat) : Nat := l.foldl setBitN 0

/-- The two's complement value of the low `w` bits of `x`. -/
def toI (w x : Nat) : Int :=
  if x % 2 ^ w < 2 ^ (w - 1) then (x % 2 ^ w : Nat) else ((x % 2 ^ w : Nat) : Int) - (2 ^ w : Nat)

/-- The `w`-bit two's complement pattern of `z`. -/
def ofI (w : Nat) (z : Int) : Nat := (z % (2 ^ w : Nat)).toNat

/-- `z` limited to `lo` to `hi`. -/
def clampI (lo hi z : Int) : Int := if z < lo then lo else if hi < z then hi else z

/-- `z` limited to the signed `w`-bit range. -/
def satI (w : Nat) (z : Int) : Int := clampI (-(2 ^ (w - 1) : Nat)) ((2 ^ (w - 1) : Nat) - 1) z

/-- `x` limited to `lo` to `hi` (DESIGN CHOICE, log entry 10). -/
def clampN (lo hi x : Nat) : Nat := if x < lo then lo else if hi < x then hi else x

/-- The quotient `a / b` rounded to the nearest integer. A tie goes the way `Config.tieUp` says (DESIGN CHOICE, log entry 4). -/
def rdivI (a : Int) (b : Nat) : Int :=
  let q := a / (b : Int)
  let r := a % (b : Int)
  if 2 * r < b then q
  else if (b : Int) < 2 * r then q + 1
  else if Config.tieUp a b then q + 1 else q

/-- The quotient of naturals rounded to nearest, ties as `rdivI` (DESIGN CHOICE, log entry 4). -/
def rdivN (a b : Nat) : Nat := (rdivI a b).toNat

/-- The quotient rounded upward. -/
def cdivN (a b : Nat) : Nat := (a + b - 1) / b

/-- The integer square root, rounded down, by Newton's rule on a fuel of the bit length. -/
def isqrtGo : Nat → Nat → Nat → Nat
  | 0, _, x => x
  | k + 1, n, x =>
    let y := (x + n / x) / 2
    if y < x then isqrtGo k n y else x

/-- The integer square root of `n`, rounded down. -/
def isqrt (n : Nat) : Nat := if n = 0 then 0 else isqrtGo (n.log2 + 2) n (2 ^ (n.log2 / 2 + 1))

/-- The low `k` bytes of `x`, least significant first (R8). -/
def leBytes : Nat → Nat → List Byte
  | 0, _ => []
  | k + 1, x => BitVec.ofNat 8 x :: leBytes k (x / 256)

/-- The number whose bytes, least significant first, are the list (R8). -/
def ofLE : List Byte → Nat
  | [] => 0
  | b :: t => b.toNat + 256 * ofLE t

/-- The byte at offset `i` of a payload, 0 beyond its end. -/
def byteAt (l : List Byte) (i : Nat) : Nat := (l.getD i 0).toNat

/-- The little-endian number of `k` bytes at offset `i` of a payload. -/
def leAt (l : List Byte) (i k : Nat) : Nat := ofLE ((l.drop i).take k)

/-- Element `i` of a vector, `d` beyond its end. -/
def vget {α : Type} {n : Nat} (v : Vector α n) (i : Nat) (d : α) : α := v.toList.getD i d

/-- A vector with element `i` replaced, unchanged when `i` is beyond its end. -/
def vset {α : Type} {n : Nat} (v : Vector α n) (i : Nat) (x : α) : Vector α n :=
  if h : i < n then v.set i x h else v

/-- The bytes `a` up to (not including) `b` join the ranges received, which stay ascending and apart. -/
def addRange (a b : Nat) : List (Nat × Nat) → List (Nat × Nat)
  | [] => [(a, b)]
  | (c, d) :: t =>
    if b < c then (a, b) :: (c, d) :: t
    else if d < a then (c, d) :: addRange a b t
    else addRange (min a c) (max b d) t

/-- The number of distinct bytes received. -/
def rangeSum (l : List (Nat × Nat)) : Nat := (l.map fun r => r.2 - r.1).foldl (· + ·) 0

/-- The first range below `n` that a list of ranges, ascending and apart, leaves out. -/
def firstGap (n : Nat) : List (Nat × Nat) → Option (Nat × Nat)
  | [] => if 0 < n then some (0, n) else none
  | (a, b) :: t =>
    if 0 < a then some (0, min a n)
    else if n ≤ b then none
    else match t with
      | (c, _) :: _ => some (b, min c n)
      | [] => some (b, n)

end Sys2Proof.Machine
end

