-- ==== Sys2Proof/Machine/Checks.lean ====
section
/-! DEFINITION. The check values of the manual: CRC-32C (R228), CRC-32 (R310), CRC-8 and the bit-serial engine behind
the CRC units (R440). -/

namespace Sys2Proof.Machine

/-- `k` steps of a reflected CRC register `c` with the reflected polynomial `p`. -/
def crcStep (p : Nat) : Nat → Nat → Nat
  | 0, c => c
  | k + 1, c => crcStep p k (if c % 2 = 1 then (c / 2) ^^^ p else c / 2)

/-- A reflected CRC register after the bytes of a list. -/
def crcRefl (p : Nat) : Nat → List Byte → Nat
  | c, [] => c
  | c, b :: t => crcRefl p (crcStep p 8 (c ^^^ b.toNat)) t

/-- `k` steps of a CRC register of `w` bits, most significant bit first, with polynomial `p`. -/
def crcStepMsb (w p : Nat) : Nat → Nat → Nat
  | 0, c => c
  | k + 1, c =>
    crcStepMsb w p k (if bitOf c (w - 1) then (c * 2 % 2 ^ w) ^^^ p else c * 2 % 2 ^ w)

/-- A CRC register of `w` ≥ 8 bits, most significant bit first, after the bytes of a list. -/
def crcMsb (w p : Nat) : Nat → List Byte → Nat
  | c, [] => c
  | c, b :: t => crcMsb w p (crcStepMsb w p 8 (c ^^^ (b.toNat * 2 ^ (w - 8)))) t

/-- CRC-32C: polynomial 0x1EDC_6F41 reflected, initial value and final XOR all ones (R228). -/
def crc32c (l : List Byte) : Nat := crcRefl 0x82F63B78 0xFFFFFFFF l ^^^ 0xFFFFFFFF

/-- CRC-32 of IEEE 802.3, the safety CRC (R310). -/
def crc32 (l : List Byte) : Nat := crcRefl 0xEDB88320 0xFFFFFFFF l ^^^ 0xFFFFFFFF

end Sys2Proof.Machine
end

