-- ==== Sys2Proof/Machine/Line.lean ====
section
/-! DEFINITION. The line of a Strait (R221 to R224, R228, R242, R243): the 8b/10b code groups with their running disparity, the
symbols of Table 9.2, what a receiver removes from around a frame, and the bytes of time-exchange and training sequences. -/

namespace Sys2Proof.Machine

/-! ## 8b/10b (R221; the code of IEEE 802.3 Clause 36: PRESUMED, log entry 221) -/

/-- The six bits abcdei of D.x, and of K28 as x = 32, at negative running disparity, bit a as the most significant. -/
def sixNeg : List Nat :=
  [0b100111, 0b011101, 0b101101, 0b110001, 0b110101, 0b101001, 0b011001, 0b111000,
   0b111001, 0b100101, 0b010101, 0b110100, 0b001101, 0b101100, 0b011100, 0b010111,
   0b011011, 0b100011, 0b010011, 0b110010, 0b001011, 0b101010, 0b011010, 0b111010,
   0b110011, 0b100110, 0b010110, 0b110110, 0b001110, 0b101110, 0b011110, 0b101011, 0b001111]

/-- The four bits fghj of D.x.y at negative running disparity, y = 7 in its primary form, bit f as the most significant. -/
def fourNeg : List Nat := [0b1011, 0b1001, 0b0101, 0b1100, 0b1101, 0b1010, 0b0110, 0b1110]

/-- The four bits of K.x.y at negative running disparity. -/
def fourNegK : List Nat := [0b1011, 0b0110, 0b1010, 0b1100, 0b1101, 0b0101, 0b1001, 0b0111]

/-- The number of ones among the low `n` bits. -/
def ones (n x : Nat) : Nat := (bitsOf n x).length

/-- The six-bit half of x at running disparity `plus`: unbalanced halves and D.7 are complemented. -/
def six (plus : Bool) (x : Nat) : Nat :=
  let v := sixNeg.getD x 0
  if plus && (ones 6 v != 3 || x == 7) then 63 - v else v

/-- D.x.7 takes its alternate form where the primary one would make a run of five. -/
def altSeven (plus : Bool) (x : Nat) : Bool := if plus then x == 11 || x == 13 || x == 14 else x == 17 || x == 18 || x == 20

/-- The four-bit half of a data or special code group at running disparity `plus`. -/
def four (plus k : Bool) (x y : Nat) : Nat :=
  if k then (let v := fourNegK.getD y 0; if plus then 15 - v else v)
  else
    let v := if y = 7 ∧ altSeven plus x then 0b0111 else fourNeg.getD y 0
    if plus && (ones 4 v != 2 || y == 3) then 15 - v else v

/-- The running disparity after `v`, `n` bits long: the sign of an unbalanced one. -/
def disparity (plus : Bool) (n v : Nat) : Bool :=
  if n < 2 * ones n v then true else if 2 * ones n v < n then false else plus

/-- A received symbol: a data byte, a special code group K.x.y as x + 32 × y, or a code violation. -/
inductive LineSym where
  | data (b : Byte)
  | k (c : Nat)
  | bad
  deriving DecidableEq, Repr

/-- The special code groups of Table 9.2 (R221). -/
def kComma : Nat := 28 + 32 * 5
@[inherit_doc kComma]
def kSof : Nat := 27 + 32 * 7
@[inherit_doc kComma]
def kEof : Nat := 29 + 32 * 7
@[inherit_doc kComma]
def kAbort : Nat := 30 + 32 * 7
@[inherit_doc kComma]
def kHazard : Nat := 28 + 32 * 1
@[inherit_doc kComma]
def kTick : Nat := 28 + 32 * 2
@[inherit_doc kComma]
def kCredit : Nat := 23 + 32 * 7
@[inherit_doc kComma]
def kFill : Nat := 28
@[inherit_doc kComma]
def kTimex : Nat := 28 + 32 * 4
@[inherit_doc kComma]
def kTrain : Nat := 28 + 32 * 3

/-- The code group of a symbol at running disparity `plus`, and the disparity after it. -/
def encodeSym (plus : Bool) (z : LineSym) : BitVec 10 × Bool :=
  let c : Nat × Bool := match z with
    | .data b => (b.toNat, false)
    | .k c => (c, true)
    | .bad => (0, false)
  let x := if c.2 && c.1 % 32 == 28 then 32 else c.1 % 32
  let h := six plus x
  let p := disparity plus 6 h
  let l := four p c.2 (c.1 % 32) (c.1 / 32)
  (BitVec.ofNat 10 (h * 16 + l), disparity p 4 l)

/-- The symbol of a received code group at running disparity `plus`, and the disparity after it: a group that stands in no column, or
in the other column, is a code violation. -/
def decodeSym (plus : Bool) (g : BitVec 10) : LineSym × Bool :=
  let h := g.toNat / 16
  let l := g.toNat % 16
  let p := disparity plus 6 h
  let z : LineSym := match (List.range 33).find? fun x => six plus x == h with
    | none => .bad
    | some 32 =>
      match (List.range 8).find? fun y => four p true 28 y == l with
      | some y => .k (28 + 32 * y)
      | none => .bad
    | some x =>
      match (List.range 8).find? fun y => four p false x y == l with
      | some y => .data (BitVec.ofNat 8 (x + 32 * y))
      | none =>
        if (x = 23 ∨ x = 27 ∨ x = 29 ∨ x = 30) ∧ four p true x 7 = l then .k (x + 32 * 7) else .bad
  (z, disparity p 4 l)

/-- Code groups decoded one after the other (PRESUMED, log entry 221). -/
def decodeLine : Bool → List (BitVec 10) → List LineSym
  | _, [] => []
  | plus, g :: t => let r := decodeSym plus g; r.1 :: decodeLine r.2 t

/-- Symbols coded one after the other (PRESUMED, log entry 221). -/
def encodeLine : Bool → List LineSym → List (BitVec 10)
  | _, [] => []
  | plus, z :: t => let r := encodeSym plus z; r.1 :: encodeLine r.2 t

/-! ## Frames on the line -/

/-- A frame as a receiver parses it (R223, R224): the bytes between SOF and the end, how it ends, a disturbance at a byte position, the
FILL symbols and all the symbols removed, the state of the buffer. -/
structure HeardFrame where
  bytes : List Byte
  ending : FrameEnd
  upset : Option (Nat × LineUpset)
  fills : Nat
  removed : Nat
  ecc : BufEcc
  deriving DecidableEq, Repr

/-- The symbols after SOF up to the frame's end (R223): HAZARD, TICK, FILL and CREDIT sequences are removed; `skip` bytes of such a
sequence are still to come. What follows a disturbance is consumed unread (R229). A line that falls silent is a link-down
(PRESUMED, log entry 221). -/
def parseLine (ecc : BufEcc) : List LineSym → Nat → List Byte → Nat → Nat → HeardFrame
  | [], _, l, fills, rem => ⟨l.reverse, .abort, some (l.length, .linkDown), fills, rem, ecc⟩
  | .bad :: _, _, l, fills, rem => ⟨l.reverse, .abort, some (l.length, .violation), fills, rem, ecc⟩
  | .data b :: t, skip, l, fills, rem =>
    if skip = 0 then parseLine ecc t 0 (b :: l) fills rem else parseLine ecc t (skip - 1) l fills (rem + 1)
  | .k c :: t, skip, l, fills, rem =>
    if c = kHazard ∨ c = kTick then parseLine ecc t skip l fills (rem + 1)
    else if c = kFill then parseLine ecc t skip l (fills + 1) (rem + 1)
    else if c = kCredit then parseLine ecc t 2 l fills (rem + 1)
    else if c = kEof then ⟨l.reverse, .eof, none, fills, rem, ecc⟩
    else if c = kAbort then ⟨l.reverse, .abort, none, fills, rem, ecc⟩
    else if c = kSof ∨ c = kComma ∨ c = kTimex ∨ c = kTrain then ⟨l.reverse, .abort, some (l.length, .symbol), fills, rem, ecc⟩
    else ⟨l.reverse, .abort, some (l.length, .violation), fills, rem, ecc⟩

/-- The frame that a receiver hears in the code groups after SOF (PRESUMED, log entry 221). -/
def hear (w : WireFrame) : HeardFrame := parseLine w.ecc (decodeLine w.plus w.groups) 0 [] 0 0

/-! ## Time-exchange and training sequences -/

/-- The bytes of a time-exchange request after K28.4 (Table 9.7). -/
def timexRequestBytes (seq : Nat) : List Byte := [1, BitVec.ofNat 8 seq, ~~~BitVec.ofNat 8 seq]

/-- The bytes of a time-exchange reply after K28.4 (Table 9.7). -/
def timexReplyBytes (r : TimexReply) : List Byte :=
  let b := [2, r.seq] ++ leBytes 8 (r.t2 / 16) ++ leBytes 8 (r.t3 / 16) ++ leBytes 1 (r.t2 % 16 + r.t3 % 16 * 16) ++
    leBytes 6 r.tick ++ leBytes 4 r.off ++ leBytes 2 r.res ++ leBytes 3 r.period ++ leBytes 8 r.epoch ++ leBytes 8 r.utc.toNat ++
    leBytes 6 r.ksw ++ leBytes 3 r.pnew ++ leBytes 1 (r.lock.val + 4 * b2n r.harbour + 8 * b2n r.pchg)
  b ++ leBytes 4 (crc32c b)

/-- A received time-exchange reply (Table 9.7): `crcOk` says that it is a whole reply whose CRC holds. -/
def parseReply (l : List Byte) : TimexReply :=
  let f := byteAt l 59
  { seq := l.getD 1 0, t2 := leAt l 2 8 * 16 + byteAt l 18 % 16, t3 := leAt l 10 8 * 16 + byteAt l 18 / 16, tick := leAt l 19 6,
    off := leAt l 25 4, res := leAt l 29 2, period := leAt l 31 3, epoch := leAt l 34 8, utc := BitVec.ofNat 64 (leAt l 42 8),
    ksw := leAt l 50 6, pnew := leAt l 56 3, lock := Fin.ofNat 4 f, harbour := bitOf f 2, pchg := bitOf f 3,
    crcOk := decide (l.length = 64) && byteAt l 0 == 2 && crc32c (l.take 60) == leAt l 60 4 }

/-- The bytes of a TRAIN ordered set after K28.3 (Table 9.8). -/
def trainBytes (t : TrainSet) : List Byte :=
  let b := leBytes 1 (if t.ts2 then 2 else 1) ++ leBytes 8 t.uid.toNat ++ leBytes 1 (t.port.val + 4 * t.role.val) ++ [t.ver] ++
    t.allot.toList ++ [t.cap]
  b ++ leBytes 4 (crc32c b)

/-- A received TRAIN ordered set (Table 9.8): `crcOk` says that it is a whole TS1 or TS2 whose CRC holds. -/
def parseTrain (l : List Byte) : TrainSet :=
  { ts2 := byteAt l 0 == 2, uid := BitVec.ofNat 64 (leAt l 1 8), port := Fin.ofNat 4 (byteAt l 9), role := Fin.ofNat 8 (byteAt l 9 / 4),
    ver := l.getD 10 0, allot := #v[l.getD 11 0, l.getD 12 0, l.getD 13 0, l.getD 14 0, l.getD 15 0, l.getD 16 0],
    cap := l.getD 17 0,
    crcOk := decide (l.length = 22) && (byteAt l 0 == 1 || byteAt l 0 == 2) && crc32c (l.take 18) == leAt l 18 4 }

end Sys2Proof.Machine
end

