-- ==== Sys2Proof/Machine/Store.lean ====
section
/-! DEFINITION. Sparse storage: a list of (address, value) pairs in one canonical form, addresses strictly rising and
no entry equal to what an unlisted address reads as. -/

namespace Sys2Proof.Machine

/-- What address `a` reads as: its entry, or the value of an unlisted address. -/
def sparseGet {α : Type} (dflt : Nat → α) : List (Nat × α) → Nat → α
  | [], a => dflt a
  | (b, w) :: t, a => if a < b then dflt a else if a = b then w else sparseGet dflt t a

/-- The list after `a` is given the value `v`; the canonical form is kept. -/
def sparseSet {α : Type} [DecidableEq α] (dflt : Nat → α) : List (Nat × α) → Nat → α → List (Nat × α)
  | [], a, v => if v = dflt a then [] else [(a, v)]
  | (b, w) :: t, a, v =>
    if a < b then (if v = dflt a then (b, w) :: t else (a, v) :: (b, w) :: t)
    else if a = b then (if v = dflt a then t else (a, v) :: t)
    else (b, w) :: sparseSet dflt t a v

/-- The canonical form: addresses strictly above `lo` and rising, no entry at its default. -/
def sparseWfFrom {α : Type} [DecidableEq α] (dflt : Nat → α) : Nat → List (Nat × α) → Bool
  | _, [] => true
  | lo, (b, w) :: t => decide (lo ≤ b) && decide (w ≠ dflt b) && sparseWfFrom dflt (b + 1) t

/-- The canonical form of a sparse store. -/
def sparseWf {α : Type} [DecidableEq α] (dflt : Nat → α) (l : List (Nat × α)) : Bool := sparseWfFrom dflt 0 l

/-- The store after the entries at addresses `lo` up to (not including) `hi` are given up. -/
def sparseDrop {α : Type} (lo hi : Nat) (l : List (Nat × α)) : List (Nat × α) :=
  l.filter fun e => !(decide (lo ≤ e.1) && decide (e.1 < hi))

/-- The value of every unlisted byte of the addressed memories (R342: volatile contents after power-up, DESIGN CHOICE, log entry 7). -/
def memDefault : Nat → Byte := fun _ => 0

/-- The value of every unlisted byte of the flash: the erased value (PRESUMED, log entry 8). -/
def flashDefault : Nat → Byte := fun _ => 0xFF

/-- The canonical form of the byte memory. -/
abbrev Memory.wf (m : List (Nat × Byte)) : Prop := sparseWf memDefault m = true

/-- Consecutive bytes read from address `a` on. -/
def bytesAt (dflt : Nat → Byte) (m : List (Nat × Byte)) (a : Nat) : Nat → List Byte
  | 0 => []
  | k + 1 => sparseGet dflt m a :: bytesAt dflt m (a + 1) k

/-- Consecutive bytes written from address `a` on. -/
def putBytes (dflt : Nat → Byte) : List (Nat × Byte) → Nat → List Byte → List (Nat × Byte)
  | m, _, [] => m
  | m, a, b :: t => putBytes dflt (sparseSet dflt m a b) (a + 1) t

end Sys2Proof.Machine
end

