-- ==== Sys2Proof/Machine/RegMap.lean ====
section
/-! DEFINITION. The register map (R443, R450, R451): every register of Tables 2.6 to 16.7 with its fields, their types
(R10), reset values and the modes in which it may be written (R12). -/

namespace Sys2Proof.Machine

/-- The field types of Table 0.3. -/
inductive Kind where
  | ro | rw | rw1c | wo | rc | rws
  deriving DecidableEq, Repr

/-- One field: name, lowest bit, width, type, reset value of instance 0, 1, … (the last one given repeats). -/
structure FieldDesc where
  kind : Kind
  name : String
  lo : Nat
  width : Nat
  resets : List Nat
  deriving DecidableEq, Repr

/-- One register or register array: name, address of instance 0, instances and stride in one or two indices, the modes
that may write it (bit m is mode m of Table 13.12), its fields. -/
structure RegDesc where
  name : String
  first : Nat
  n1 : Nat
  s1 : Nat
  n2 : Nat
  s2 : Nat
  modes : Nat
  fields : List FieldDesc
  deriving DecidableEq, Repr

/-- Registers of block MGT, part 1. -/
def regsMGT0 : List RegDesc := [
  ⟨"MGT_ADMIT_CODE", 0x0, 1, 0x0, 1, 0x0, 60,
    [⟨.ro, "CODE", 0, 8, [0]⟩, ⟨.ro, "IDX", 8, 8, [0]⟩, ⟨.ro, "LOAD", 16, 16, [0]⟩]⟩,
  ⟨"MGT_CFG_STAT", 0x4, 1, 0x0, 1, 0x0, 60,
    [⟨.ro, "SLOT", 0, 1, [0]⟩, ⟨.ro, "BASE", 1, 1, [0]⟩, ⟨.ro, "FORCED", 2, 1, [0]⟩, ⟨.ro, "PROB", 3, 1, [0]⟩, ⟨.ro, "VERSION", 8, 24, [0]⟩]⟩,
  ⟨"MGT_CFG_SWITCH", 0x8, 1, 0x0, 1, 0x0, 60,
    [⟨.wo, "SLOT", 0, 1, [0]⟩, ⟨.wo, "GO", 31, 1, [0]⟩]⟩,
  ⟨"MGT_CFG_SW_STAT", 0xC, 1, 0x0, 1, 0x0, 60,
    [⟨.ro, "PEND", 0, 1, [0]⟩, ⟨.ro, "STATUS", 8, 8, [0]⟩, ⟨.rc, "N", 16, 16, [0]⟩]⟩,
  ⟨"MGT_CFG_KSW_LO", 0x10, 1, 0x0, 1, 0x0, 60,
    [⟨.rw, "V", 0, 32, [0]⟩]⟩,
  ⟨"MGT_CFG_KSW_HI", 0x14, 1, 0x0, 1, 0x0, 60,
    [⟨.rw, "V", 0, 16, [0]⟩]⟩,
  ⟨"MGT_SLOT_CTRL", 0x18, 1, 0x0, 1, 0x0, 16,
    [⟨.wo, "REJECT", 0, 4, [0]⟩, ⟨.wo, "KEY", 16, 16, [0]⟩]⟩,
  ⟨"MGT_FW_STAT", 0x1C, 1, 0x0, 1, 0x0, 60,
    [⟨.ro, "SLOT", 0, 1, [0]⟩, ⟨.ro, "FORCED", 1, 1, [0]⟩, ⟨.ro, "PROB", 2, 1, [0]⟩, ⟨.ro, "RECOVERY", 3, 1, [0]⟩]⟩,
  ⟨"MGT_SLOTs_HDR", 0x20, 4, 0x10, 1, 0x0, 60,
    [⟨.ro, "PRESENT", 0, 1, [0]⟩, ⟨.ro, "COMMIT", 1, 1, [0]⟩, ⟨.ro, "VERIFIED", 2, 1, [0]⟩, ⟨.ro, "REJECTED", 3, 1, [0]⟩, ⟨.ro, "PASSED", 4, 1, [0]⟩, ⟨.ro, "SIGNED", 5, 1, [0]⟩, ⟨.ro, "INFORCE", 6, 1, [0]⟩, ⟨.ro, "BUSY", 7, 1, [0]⟩, ⟨.ro, "FAIL", 8, 8, [0]⟩]⟩,
  ⟨"MGT_SLOTs_VER", 0x24, 4, 0x10, 1, 0x0, 60,
    [⟨.ro, "V", 0, 32, [0]⟩]⟩,
  ⟨"MGT_SLOTs_TS_LO", 0x28, 4, 0x10, 1, 0x0, 60,
    [⟨.ro, "V", 0, 32, [0]⟩]⟩,
  ⟨"MGT_SLOTs_TS_HI", 0x2C, 4, 0x10, 1, 0x0, 60,
    [⟨.ro, "V", 0, 32, [0]⟩]⟩,
  ⟨"MGT_PROB_CFG", 0x60, 1, 0x0, 1, 0x0, 60,
    [⟨.rws, "MIN", 0, 11, [10]⟩]⟩,
  ⟨"MGT_PROB_STAT", 0x64, 1, 0x0, 1, 0x0, 60,
    [⟨.ro, "REM", 0, 24, [0]⟩, ⟨.ro, "SLOTS", 24, 4, [0]⟩]⟩,
  ⟨"MGT_UPD_CTRL", 0x68, 1, 0x0, 1, 0x0, 60,
    [⟨.wo, "OPEN", 0, 1, [0]⟩, ⟨.wo, "VERIFY", 1, 1, [0]⟩, ⟨.wo, "WRITE", 2, 1, [0]⟩, ⟨.wo, "CLOSE", 3, 1, [0]⟩, ⟨.rw, "KIND", 4, 1, [0]⟩, ⟨.rw, "TAG", 16, 16, [0]⟩]⟩,
  ⟨"MGT_UPD_LEN", 0x6C, 1, 0x0, 1, 0x0, 60,
    [⟨.rw, "V", 0, 22, [0]⟩]⟩,
  ⟨"MGT_UPD_STAT", 0x70, 1, 0x0, 1, 0x0, 60,
    [⟨.ro, "STATE", 0, 3, [0]⟩, ⟨.ro, "CODE", 8, 8, [0]⟩, ⟨.rc, "DISC", 16, 16, [0]⟩]⟩,
  ⟨"MGT_UPD_RCVD", 0x74, 1, 0x0, 1, 0x0, 60,
    [⟨.ro, "V", 0, 22, [0]⟩]⟩,
  ⟨"MGT_LOG_CFG", 0x78, 1, 0x0, 1, 0x0, 60,
    [⟨.rws, "PUSH", 0, 1, [0]⟩, ⟨.rws, "RATE", 4, 4, [2]⟩, ⟨.rws, "DEST", 8, 8, [0]⟩]⟩,
  ⟨"MGT_LOG_STAT", 0x7C, 1, 0x0, 1, 0x0, 60,
    [⟨.ro, "WPTR", 0, 17, [0]⟩]⟩,
  ⟨"MGT_LOG_LOST", 0x80, 1, 0x0, 1, 0x0, 60,
    [⟨.rc, "N", 0, 16, [0]⟩]⟩,
  ⟨"MGT_LOG_WRk", 0x84, 4, 0x4, 1, 0x0, 60,
    [⟨.rw, "V", 0, 32, [0]⟩]⟩,
  ⟨"MGT_LOG_POST", 0x94, 1, 0x0, 1, 0x0, 60,
    [⟨.wo, "V", 0, 32, [0]⟩]⟩,
  ⟨"MGT_OTP_CTRL", 0x98, 1, 0x0, 1, 0x0, 16,
    [⟨.wo, "TGT", 0, 1, [0]⟩, ⟨.wo, "GO", 31, 1, [0]⟩]⟩,
  ⟨"MGT_OTP_KEY", 0x9C, 1, 0x0, 1, 0x0, 16,
    [⟨.wo, "KEY", 0, 16, [0]⟩]⟩,
  ⟨"MGT_OTP_STAT", 0xA0, 1, 0x0, 1, 0x0, 60,
    [⟨.ro, "CODE", 0, 8, [0]⟩, ⟨.ro, "BUSY", 8, 1, [0]⟩]⟩,
  ⟨"MGT_OTP_DATAk", 0xA4, 8, 0x4, 1, 0x0, 16,
    [⟨.rw, "V", 0, 32, [0]⟩]⟩,
  ⟨"MGT_FL_STAT", 0xC4, 1, 0x0, 1, 0x0, 60,
    [⟨.ro, "JEDEC", 0, 24, [0]⟩, ⟨.ro, "BUSY", 24, 1, [0]⟩, ⟨.ro, "SUSP", 25, 1, [0]⟩]⟩,
  ⟨"MGT_FL_CNT", 0xC8, 1, 0x0, 1, 0x0, 60,
    [⟨.ro, "ERASE", 0, 16, [0]⟩, ⟨.ro, "FAIL", 16, 16, [0]⟩]⟩,
  ⟨"MGT_MODE_REQ", 0x200, 1, 0x0, 1, 0x0, 62,
    [⟨.wo, "MODE", 0, 3, [0]⟩]⟩,
  ⟨"MGT_MODE_KEY", 0x204, 1, 0x0, 1, 0x0, 62,
    [⟨.wo, "KEY", 0, 16, [0]⟩]⟩,
  ⟨"MGT_MODE_STAT", 0x208, 1, 0x0, 1, 0x0, 62,
    [⟨.ro, "MODE", 0, 3, [6]⟩, ⟨.ro, "PREV", 4, 3, [6]⟩, ⟨.ro, "PEND", 7, 1, [0]⟩, ⟨.ro, "TGT", 8, 3, [0]⟩, ⟨.ro, "CODE", 16, 8, [0]⟩, ⟨.ro, "SVC_REM", 24, 8, [0]⟩]⟩,
  ⟨"MGT_MODE_T_LO", 0x20C, 1, 0x0, 1, 0x0, 62,
    [⟨.ro, "V", 0, 32, [0]⟩]⟩,
  ⟨"MGT_MODE_T_HI", 0x210, 1, 0x0, 1, 0x0, 62,
    [⟨.ro, "V", 0, 32, [0]⟩]⟩,
  ⟨"MGT_PWR_CFG", 0x214, 1, 0x0, 1, 0x0, 62,
    [⟨.rws, "START", 0, 1, [0]⟩, ⟨.rws, "VAUX_EN", 1, 1, [1]⟩]⟩,
  ⟨"MGT_PWR_STAT", 0x218, 1, 0x0, 1, 0x0, 62,
    [⟨.ro, "ON", 0, 10, [1]⟩, ⟨.ro, "RET", 16, 10, [0]⟩, ⟨.ro, "VAUXACT", 28, 1, [0]⟩]⟩,
  ⟨"MGT_SUPPLY", 0x21C, 1, 0x0, 1, 0x0, 62,
    [⟨.ro, "VSTK", 0, 16, [0]⟩, ⟨.ro, "VAUX", 16, 16, [0]⟩]⟩,
  ⟨"MGT_WATCH_CFG", 0x220, 1, 0x0, 1, 0x0, 62,
    [⟨.rws, "INT_S", 0, 6, [10]⟩]⟩,
  ⟨"MGT_WAKE_CFG", 0x224, 1, 0x0, 1, 0x0, 62,
    [⟨.rws, "PIN", 0, 1, [1]⟩, ⟨.rws, "TONE", 1, 1, [1]⟩, ⟨.rws, "TW", 2, 1, [1]⟩, ⟨.rws, "ZW", 3, 1, [1]⟩, ⟨.rws, "DEM", 4, 1, [1]⟩, ⟨.rws, "PROT", 5, 1, [1]⟩]⟩,
  ⟨"MGT_WAKE_STAT", 0x228, 1, 0x0, 1, 0x0, 62,
    [⟨.ro, "LAST", 0, 6, [0]⟩, ⟨.ro, "WSTUCK", 8, 1, [0]⟩, ⟨.rc, "N", 16, 16, [0]⟩]⟩]

/-- Registers of block MGT, part 2. -/
def regsMGT1 : List RegDesc := [
  ⟨"MGT_RST_CAUSE", 0x22C, 1, 0x0, 1, 0x0, 62,
    [⟨.rw1c, "POR", 0, 1, [1]⟩, ⟨.rw1c, "RSTN", 1, 1, [0]⟩, ⟨.rw1c, "RSTN_FC", 2, 1, [0]⟩, ⟨.rw1c, "SW", 3, 1, [0]⟩, ⟨.rw1c, "THERM", 4, 1, [0]⟩, ⟨.rw1c, "HOLDC", 5, 1, [0]⟩, ⟨.rw1c, "SHIPW", 6, 1, [0]⟩]⟩,
  ⟨"MGT_RST_CNT", 0x230, 1, 0x0, 1, 0x0, 62,
    [⟨.ro, "WARM", 0, 16, [0]⟩, ⟨.ro, "FC", 16, 16, [0]⟩]⟩,
  ⟨"MGT_SWRST", 0x234, 1, 0x0, 1, 0x0, 62,
    [⟨.wo, "KEY", 0, 16, [0]⟩]⟩,
  ⟨"MGT_SVC_CFG", 0x238, 1, 0x0, 1, 0x0, 62,
    [⟨.rws, "TMO_S", 0, 12, [600]⟩]⟩,
  ⟨"MGT_STARTUP", 0x23C, 1, 0x0, 1, 0x0, 62,
    [⟨.ro, "STEP", 0, 4, [0]⟩, ⟨.ro, "DONE", 4, 1, [0]⟩, ⟨.ro, "STOP", 5, 1, [0]⟩, ⟨.ro, "TIME", 16, 16, [0]⟩]⟩,
  ⟨"MGT_RTC_LO", 0x240, 1, 0x0, 1, 0x0, 62,
    [⟨.ro, "V", 0, 32, [0]⟩]⟩,
  ⟨"MGT_RTC_HI", 0x244, 1, 0x0, 1, 0x0, 62,
    [⟨.ro, "V", 0, 32, [0]⟩]⟩,
  ⟨"MGT_SHIP_CNT", 0x248, 1, 0x0, 1, 0x0, 62,
    [⟨.ro, "N", 0, 16, [0]⟩, ⟨.ro, "SECS", 16, 16, [0]⟩]⟩,
  ⟨"MGT_PD0_FATAL", 0x24C, 1, 0x0, 1, 0x0, 62,
    [⟨.ro, "VALID", 0, 1, [0]⟩, ⟨.ro, "SRC", 8, 4, [0]⟩, ⟨.ro, "CODE", 16, 8, [0]⟩]⟩,
  ⟨"MGT_CAL_CTRL", 0x280, 1, 0x0, 1, 0x0, 28,
    [⟨.rw, "PROC", 0, 5, [31]⟩, ⟨.wo, "ABORT", 8, 1, [0]⟩, ⟨.wo, "STORE", 9, 1, [0]⟩]⟩,
  ⟨"MGT_CAL_CELLSEL", 0x284, 1, 0x0, 1, 0x0, 28,
    [⟨.rw, "V", 0, 32, [0xFFFFFFFF]⟩]⟩,
  ⟨"MGT_CAL_OTHSEL", 0x288, 1, 0x0, 1, 0x0, 28,
    [⟨.rw, "AUX", 0, 16, [0xFFFF]⟩, ⟨.rw, "CUR", 16, 2, [3]⟩]⟩,
  ⟨"MGT_CAL_CFG", 0x28C, 1, 0x0, 1, 0x0, 28,
    [⟨.rws, "SETTLE", 0, 4, [4]⟩, ⟨.rws, "AVG", 4, 8, [16]⟩, ⟨.rws, "DTMAX", 12, 8, [20]⟩, ⟨.rws, "SU", 20, 3, [7]⟩]⟩,
  ⟨"MGT_CAL_STAT", 0x290, 1, 0x0, 1, 0x0, 28,
    [⟨.ro, "STATE", 0, 2, [0]⟩, ⟨.ro, "PROC", 2, 3, [0]⟩, ⟨.ro, "CHAN", 5, 5, [0]⟩, ⟨.ro, "POINT", 10, 2, [0]⟩, ⟨.ro, "REASON", 16, 8, [0]⟩]⟩,
  ⟨"MGT_CAL_SURES", 0x294, 1, 0x0, 1, 0x0, 28,
    [⟨.ro, "CELL", 0, 8, [0]⟩, ⟨.ro, "CUR", 8, 8, [0]⟩, ⟨.ro, "AUX", 16, 8, [0]⟩]⟩,
  ⟨"MGT_CAL_SLOT", 0x298, 1, 0x0, 1, 0x0, 28,
    [⟨.ro, "ACT", 0, 2, [0]⟩, ⟨.ro, "VA", 2, 1, [0]⟩, ⟨.ro, "VB", 3, 1, [0]⟩, ⟨.ro, "TRIMREQ", 4, 1, [0]⟩]⟩,
  ⟨"MGT_CAL_GEN", 0x29C, 1, 0x0, 1, 0x0, 28,
    [⟨.ro, "V", 0, 32, [0]⟩]⟩,
  ⟨"MGT_CAL_T_LO", 0x2A0, 1, 0x0, 1, 0x0, 28,
    [⟨.ro, "V", 0, 32, [0]⟩]⟩,
  ⟨"MGT_CAL_T_HI", 0x2A4, 1, 0x0, 1, 0x0, 28,
    [⟨.ro, "V", 0, 32, [0]⟩]⟩,
  ⟨"MGT_CAL_CNT", 0x2A8, 1, 0x0, 1, 0x0, 28,
    [⟨.rc, "DONE", 0, 16, [0]⟩, ⟨.rc, "ABT", 16, 16, [0]⟩]⟩,
  ⟨"MGT_CAL_REFCHK", 0x2AC, 1, 0x0, 1, 0x0, 28,
    [⟨.ro, "DEV", 0, 16, [0]⟩, ⟨.ro, "OK", 31, 1, [0]⟩]⟩,
  ⟨"MGT_TW_CFG", 0x400, 1, 0x0, 1, 0x0, 62,
    [⟨.rws, "TMO_MS", 0, 6, [25]⟩, ⟨.rws, "PECREQ", 8, 1, [0]⟩]⟩,
  ⟨"MGT_TW_STAT", 0x404, 1, 0x0, 1, 0x0, 62,
    [⟨.ro, "ADDR", 0, 7, [0]⟩, ⟨.ro, "K", 8, 4, [0]⟩, ⟨.ro, "BUSY", 12, 1, [0]⟩, ⟨.ro, "ERR", 16, 4, [0]⟩]⟩,
  ⟨"MGT_TW_PTR", 0x408, 1, 0x0, 1, 0x0, 62,
    [⟨.ro, "V", 0, 32, [0]⟩]⟩,
  ⟨"MGT_TW_CNT0", 0x40C, 1, 0x0, 1, 0x0, 62,
    [⟨.rc, "TRANS", 0, 16, [0]⟩, ⟨.rc, "NACK", 16, 16, [0]⟩]⟩,
  ⟨"MGT_TW_CNT1", 0x410, 1, 0x0, 1, 0x0, 62,
    [⟨.rc, "PEC", 0, 8, [0]⟩, ⟨.rc, "TMO", 8, 8, [0]⟩, ⟨.rc, "ACC", 16, 8, [0]⟩, ⟨.rc, "WAKE", 24, 8, [0]⟩]⟩,
  ⟨"MGT_TW_ERRCAP", 0x414, 1, 0x0, 1, 0x0, 62,
    [⟨.ro, "V", 0, 32, [0]⟩]⟩,
  ⟨"MGT_NOTIFY_CFG", 0x418, 1, 0x0, 1, 0x0, 62,
    [⟨.rws, "EN", 0, 1, [1]⟩, ⟨.rws, "FSCL", 1, 2, [0]⟩, ⟨.rws, "MASK", 8, 3, [7]⟩]⟩,
  ⟨"MGT_NOTIFY_PEND", 0x41C, 1, 0x0, 1, 0x0, 62,
    [⟨.rw1c, "E", 1, 4, [0]⟩, ⟨.rw1c, "J", 16, 16, [0]⟩]⟩,
  ⟨"MGT_NOTIFY_STAT", 0x420, 1, 0x0, 1, 0x0, 62,
    [⟨.ro, "QCNT", 0, 4, [0]⟩, ⟨.ro, "SENDING", 4, 1, [0]⟩, ⟨.ro, "RETRY", 8, 4, [0]⟩, ⟨.rc, "OVF", 16, 8, [0]⟩]⟩,
  ⟨"MGT_NOTIFY_CNT", 0x424, 1, 0x0, 1, 0x0, 62,
    [⟨.rc, "DELIV", 0, 16, [0]⟩, ⟨.rc, "ARB", 16, 8, [0]⟩, ⟨.rc, "NACK", 24, 8, [0]⟩]⟩,
  ⟨"MGT_NOTIFY_SEND", 0x428, 1, 0x0, 1, 0x0, 62,
    [⟨.wo, "EVT", 0, 4, [0]⟩, ⟨.wo, "INFO", 8, 8, [0]⟩]⟩,
  ⟨"MGT_NOTIFY_Qe_WORD", 0x440, 8, 0x8, 1, 0x0, 62,
    [⟨.ro, "EVT", 0, 8, [0]⟩, ⟨.ro, "INFO", 8, 8, [0]⟩, ⟨.ro, "VALID", 31, 1, [0]⟩]⟩,
  ⟨"MGT_NOTIFY_Qe_T", 0x444, 8, 0x8, 1, 0x0, 62,
    [⟨.ro, "V", 0, 32, [0]⟩]⟩,
  ⟨"MGT_FL_LOAD", 0x480, 1, 0x0, 1, 0x0, 62,
    [⟨.ro, "KB", 0, 16, [0]⟩, ⟨.ro, "MS", 16, 16, [0]⟩]⟩,
  ⟨"MGT_FL_SUSP", 0x484, 1, 0x0, 1, 0x0, 62,
    [⟨.rc, "N", 0, 16, [0]⟩, ⟨.rc, "LAT", 16, 16, [0]⟩]⟩,
  ⟨"MGT_FL_LASTOP", 0x488, 1, 0x0, 1, 0x0, 62,
    [⟨.ro, "CMD", 0, 8, [0]⟩, ⟨.ro, "ADDR", 8, 24, [0]⟩]⟩,
  ⟨"MGT_FL_ERR", 0x48C, 1, 0x0, 1, 0x0, 62,
    [⟨.rc, "TMO", 0, 16, [0]⟩, ⟨.rc, "ID", 16, 16, [0]⟩]⟩,
  ⟨"MGT_CRCu_CTRL", 0x4C0, 4, 0x20, 1, 0x0, 62,
    [⟨.rw, "POLY", 0, 2, [0]⟩, ⟨.rw, "DIR", 2, 1, [0]⟩, ⟨.wo, "START", 3, 1, [0]⟩, ⟨.wo, "END", 4, 1, [0]⟩, ⟨.wo, "CLAIM", 8, 1, [0]⟩, ⟨.wo, "REL", 9, 1, [0]⟩]⟩,
  ⟨"MGT_CRCu_STAT", 0x4C4, 4, 0x20, 1, 0x0, 62,
    [⟨.ro, "BUSY", 0, 1, [0]⟩, ⟨.ro, "DONE", 1, 1, [0]⟩, ⟨.ro, "OK", 2, 1, [0]⟩, ⟨.ro, "OWNER", 8, 5, [0]⟩]⟩]

/-- Registers of block MGT, part 3. -/
def regsMGT2 : List RegDesc := [
  ⟨"MGT_CRCu_DATA", 0x4C8, 4, 0x20, 1, 0x0, 62,
    [⟨.wo, "V", 0, 32, [0]⟩]⟩,
  ⟨"MGT_CRCu_RESULT", 0x4CC, 4, 0x20, 1, 0x0, 62,
    [⟨.ro, "V", 0, 32, [0]⟩]⟩,
  ⟨"MGT_CRCu_LEN", 0x4D0, 4, 0x20, 1, 0x0, 62,
    [⟨.ro, "V", 0, 32, [0]⟩]⟩,
  ⟨"MGT_CRCu_RXCHK", 0x4D4, 4, 0x20, 1, 0x0, 62,
    [⟨.ro, "V", 0, 32, [0]⟩]⟩,
  ⟨"MGT_CRCu_CNT", 0x4D8, 4, 0x20, 1, 0x0, 62,
    [⟨.rc, "N", 0, 16, [0]⟩, ⟨.rc, "MIS", 16, 16, [0]⟩]⟩,
  ⟨"MGT_CRCu_STATE", 0x4DC, 4, 0x20, 1, 0x0, 62,
    [⟨.rw, "V", 0, 32, [0]⟩]⟩,
  ⟨"MGT_SWBn_CFG", 0x600, 2, 0x80, 1, 0x0, 62,
    [⟨.rws, "EN", 0, 1, [0]⟩, ⟨.rws, "WATCH", 1, 1, [0]⟩, ⟨.rws, "SEC", 2, 1, [0]⟩, ⟨.rws, "DIAG", 3, 1, [1]⟩, ⟨.rws, "PWRUP_MS", 8, 8, [20]⟩]⟩,
  ⟨"MGT_SWBn_PER", 0x604, 2, 0x80, 1, 0x0, 62,
    [⟨.rws, "PRI_MS", 0, 14, [100]⟩, ⟨.rws, "SEC_MS", 16, 14, [1000]⟩]⟩,
  ⟨"MGT_SWBn_CTRL", 0x608, 2, 0x80, 1, 0x0, 62,
    [⟨.wo, "KIND", 0, 2, [0]⟩, ⟨.wo, "GO", 7, 1, [0]⟩]⟩,
  ⟨"MGT_SWBn_STAT", 0x60C, 2, 0x80, 1, 0x0, 62,
    [⟨.ro, "STATE", 0, 3, [0]⟩, ⟨.ro, "PWR", 3, 1, [0]⟩, ⟨.ro, "FAULT", 5, 1, [0]⟩, ⟨.ro, "ERRS", 8, 8, [0]⟩, ⟨.ro, "LASTERR", 16, 4, [0]⟩, ⟨.rw1c, "IDCHG", 20, 1, [0]⟩]⟩,
  ⟨"MGT_SWBn_ID_LO", 0x610, 2, 0x80, 1, 0x0, 62,
    [⟨.ro, "V", 0, 32, [0]⟩]⟩,
  ⟨"MGT_SWBn_ID_HI", 0x614, 2, 0x80, 1, 0x0, 62,
    [⟨.ro, "V", 0, 32, [0]⟩]⟩,
  ⟨"MGT_SWBn_PRI", 0x618, 2, 0x80, 1, 0x0, 62,
    [⟨.ro, "VALUE", 0, 16, [0]⟩, ⟨.ro, "VALID", 16, 1, [0]⟩, ⟨.ro, "HELD", 17, 1, [0]⟩, ⟨.ro, "SERR", 18, 1, [0]⟩]⟩,
  ⟨"MGT_SWBn_SEC", 0x61C, 2, 0x80, 1, 0x0, 62,
    [⟨.ro, "VALUE", 0, 16, [0]⟩, ⟨.ro, "VALID", 16, 1, [0]⟩, ⟨.ro, "HELD", 17, 1, [0]⟩, ⟨.ro, "SERR", 18, 1, [0]⟩]⟩,
  ⟨"MGT_SWBn_DIAG", 0x620, 2, 0x80, 1, 0x0, 62,
    [⟨.ro, "V", 0, 32, [0]⟩]⟩,
  ⟨"MGT_SWBn_PRI_TLO", 0x624, 2, 0x80, 1, 0x0, 62,
    [⟨.ro, "V", 0, 32, [0]⟩]⟩,
  ⟨"MGT_SWBn_PRI_THI", 0x628, 2, 0x80, 1, 0x0, 62,
    [⟨.ro, "V", 0, 32, [0]⟩]⟩,
  ⟨"MGT_SWBn_CNT0", 0x62C, 2, 0x80, 1, 0x0, 62,
    [⟨.rc, "TRIG", 0, 16, [0]⟩, ⟨.rc, "OK", 16, 16, [0]⟩]⟩,
  ⟨"MGT_SWBn_CNT1", 0x630, 2, 0x80, 1, 0x0, 62,
    [⟨.rc, "NORSP", 0, 8, [0]⟩, ⟨.rc, "FRAME", 8, 8, [0]⟩, ⟨.rc, "CRC", 16, 8, [0]⟩, ⟨.rc, "KIND", 24, 8, [0]⟩]⟩,
  ⟨"MGT_SWBn_CNT2", 0x634, 2, 0x80, 1, 0x0, 62,
    [⟨.rc, "PWR", 0, 8, [0]⟩, ⟨.rc, "SERR", 8, 8, [0]⟩, ⟨.rc, "ID", 16, 8, [0]⟩]⟩,
  ⟨"MGT_SWBn_RAWj", 0x638, 2, 0x80, 3, 0x4, 62,
    [⟨.ro, "V", 0, 32, [0]⟩]⟩,
  ⟨"MGT_SWBn_TIM", 0x644, 2, 0x80, 1, 0x0, 62,
    [⟨.ro, "DELAY", 0, 10, [0]⟩, ⟨.ro, "BIT", 16, 8, [0]⟩]⟩,
  ⟨"MGT_SWBn_HWPTR", 0x648, 2, 0x80, 1, 0x0, 62,
    [⟨.ro, "IDX", 0, 6, [0]⟩]⟩,
  ⟨"MGT_SWBn_HISTm", 0x800, 2, 0x100, 64, 0x4, 62,
    [⟨.ro, "VALUE", 0, 16, [0]⟩, ⟨.ro, "K", 16, 16, [0]⟩]⟩]

/-- The registers of block MGT (Table 17.4). -/
def regsMGT : List RegDesc := regsMGT0 ++ regsMGT1 ++ regsMGT2

/-- Registers of block TMG, part 1. -/
def regsTMG0 : List RegDesc := [
  ⟨"TMG_CTRL", 0x10000, 1, 0x0, 1, 0x0, 28,
    [⟨.rw, "EN", 0, 1, [1]⟩, ⟨.wo, "FORCE_ACQ", 1, 1, [0]⟩]⟩,
  ⟨"TMG_PERIOD", 0x10004, 1, 0x0, 1, 0x0, 28,
    [⟨.rws, "P_US", 0, 20, [1000]⟩]⟩,
  ⟨"TMG_PERIOD_ACT", 0x10008, 1, 0x0, 1, 0x0, 28,
    [⟨.ro, "P", 0, 20, [1000]⟩]⟩,
  ⟨"TMG_LEAD", 0x1000C, 1, 0x0, 1, 0x0, 28,
    [⟨.rws, "LEAD_US", 0, 7, [10]⟩]⟩,
  ⟨"TMG_FT_LO", 0x10010, 1, 0x0, 1, 0x0, 28,
    [⟨.ro, "V", 0, 32, [0]⟩]⟩,
  ⟨"TMG_FT_HI", 0x10014, 1, 0x0, 1, 0x0, 28,
    [⟨.ro, "V", 0, 32, [0]⟩]⟩,
  ⟨"TMG_TICK_LO", 0x10018, 1, 0x0, 1, 0x0, 28,
    [⟨.ro, "V", 0, 32, [0]⟩]⟩,
  ⟨"TMG_TICK_HI", 0x1001C, 1, 0x0, 1, 0x0, 28,
    [⟨.ro, "V", 0, 16, [0]⟩]⟩,
  ⟨"TMG_EPOCH_LO", 0x10020, 1, 0x0, 1, 0x0, 28,
    [⟨.ro, "V", 0, 32, [0]⟩]⟩,
  ⟨"TMG_EPOCH_HI", 0x10024, 1, 0x0, 1, 0x0, 28,
    [⟨.ro, "V", 0, 32, [0]⟩]⟩,
  ⟨"TMG_UTC_OFS_LO", 0x10028, 1, 0x0, 1, 0x0, 28,
    [⟨.rw, "V", 0, 32, [0]⟩]⟩,
  ⟨"TMG_UTC_OFS_HI", 0x1002C, 1, 0x0, 1, 0x0, 28,
    [⟨.rw, "V", 0, 32, [0]⟩]⟩,
  ⟨"TMG_STAT", 0x10030, 1, 0x0, 1, 0x0, 28,
    [⟨.ro, "STATE", 0, 2, [1]⟩, ⟨.ro, "UPSTREAM", 2, 2, [0]⟩, ⟨.ro, "HARBOUR", 4, 1, [0]⟩, ⟨.ro, "PCHG_PEND", 5, 1, [0]⟩, ⟨.rw1c, "LATE", 6, 1, [0]⟩, ⟨.rw1c, "INCOH", 7, 1, [0]⟩, ⟨.ro, "NB", 16, 15, [32]⟩]⟩,
  ⟨"TMG_PATH_OFS", 0x10034, 1, 0x0, 1, 0x0, 28,
    [⟨.ro, "V", 0, 32, [0]⟩]⟩,
  ⟨"TMG_PHASE_ERR", 0x10038, 1, 0x0, 1, 0x0, 28,
    [⟨.ro, "V", 0, 32, [0]⟩]⟩,
  ⟨"TMG_SERVO", 0x1003C, 1, 0x0, 1, 0x0, 28,
    [⟨.rws, "GAIN", 0, 2, [2]⟩, ⟨.rws, "OUTLIER", 2, 6, [8]⟩, ⟨.rws, "HOLD_MAX", 8, 8, [8]⟩]⟩,
  ⟨"TMG_TICK_REJ", 0x10040, 1, 0x0, 1, 0x0, 28,
    [⟨.rc, "OUTL", 0, 16, [0]⟩, ⟨.rc, "HAZ", 16, 16, [0]⟩]⟩,
  ⟨"TMG_HOLD_CNT", 0x10044, 1, 0x0, 1, 0x0, 28,
    [⟨.ro, "RUN", 0, 16, [0]⟩, ⟨.ro, "TOTAL", 16, 16, [0]⟩]⟩,
  ⟨"TMG_BANK_DL", 0x10048, 1, 0x0, 1, 0x0, 28,
    [⟨.rws, "DL", 0, 3, [4]⟩]⟩,
  ⟨"TMG_OVR_CFG", 0x1004C, 1, 0x0, 1, 0x0, 28,
    [⟨.rws, "MAX", 0, 4, [3]⟩]⟩,
  ⟨"TMG_PORTn_DLY", 0x10050, 4, 0x4, 1, 0x0, 28,
    [⟨.ro, "D", 0, 24, [0]⟩, ⟨.ro, "VALID", 31, 1, [0]⟩]⟩,
  ⟨"TMG_PORTn_ASYM", 0x10060, 4, 0x4, 1, 0x0, 28,
    [⟨.ro, "V", 0, 32, [0]⟩]⟩,
  ⟨"TMG_PORTn_XCNT", 0x10070, 4, 0x4, 1, 0x0, 28,
    [⟨.rc, "N", 0, 16, [0]⟩, ⟨.rc, "DISC", 16, 16, [0]⟩]⟩,
  ⟨"TMG_ENGn_ADM", 0x10080, 16, 0x4, 1, 0x0, 28,
    [⟨.ro, "CYC", 0, 28, [0]⟩]⟩,
  ⟨"TMG_ENGn_CYC", 0x100C0, 16, 0x4, 1, 0x0, 28,
    [⟨.ro, "CYC", 0, 28, [0]⟩]⟩,
  ⟨"TMG_ENGn_PEAK", 0x10100, 16, 0x4, 1, 0x0, 28,
    [⟨.ro, "CYC", 0, 28, [0]⟩, ⟨.rw1c, "CLR", 31, 1, [0]⟩]⟩,
  ⟨"TMG_ENGn_OVR", 0x10140, 16, 0x4, 1, 0x0, 28,
    [⟨.rc, "N", 0, 16, [0]⟩, ⟨.rc, "RUN", 16, 4, [0]⟩]⟩]

/-- The registers of block TMG (Table 17.4). -/
def regsTMG : List RegDesc := regsTMG0

/-- Registers of block CMF, part 1. -/
def regsCMF0 : List RegDesc := [
  ⟨"CMF_CTRL", 0x20000, 1, 0x0, 1, 0x0, 28,
    [⟨.rw, "EN", 0, 1, [1]⟩, ⟨.rws, "OW_EN", 1, 1, [1]⟩, ⟨.rws, "MINMAX_EN", 2, 1, [1]⟩]⟩,
  ⟨"CMF_STAT", 0x20004, 1, 0x0, 1, 0x0, 28,
    [⟨.ro, "BANK", 0, 1, [0]⟩, ⟨.ro, "OW_STEP", 1, 2, [0]⟩, ⟨.ro, "OW_ACTIVE", 3, 1, [0]⟩, ⟨.ro, "TRIM_ACT", 4, 1, [0]⟩, ⟨.ro, "MODE_ACT", 5, 2, [0]⟩, ⟨.ro, "N_ACT", 8, 6, [0]⟩]⟩,
  ⟨"CMF_BANK_TAG", 0x20008, 1, 0x0, 1, 0x0, 28,
    [⟨.ro, "V", 0, 32, [0]⟩]⟩,
  ⟨"CMF_CELLS", 0x2000C, 1, 0x0, 1, 0x0, 28,
    [⟨.rws, "N", 0, 6, [32]⟩]⟩,
  ⟨"CMF_FILT_CFG", 0x20010, 1, 0x0, 1, 0x0, 28,
    [⟨.rws, "MODE", 0, 2, [0]⟩, ⟨.ro, "GD", 8, 24, [0]⟩]⟩,
  ⟨"CMF_OW_CFG", 0x20014, 1, 0x0, 1, 0x0, 28,
    [⟨.rws, "STEP_MS", 0, 12, [250]⟩, ⟨.rws, "DWELL", 12, 4, [1]⟩, ⟨.rws, "THR", 16, 8, [15]⟩, ⟨.rws, "CONF", 24, 4, [2]⟩]⟩,
  ⟨"CMF_OW_STAT", 0x20018, 1, 0x0, 1, 0x0, 28,
    [⟨.ro, "STEP", 0, 2, [0]⟩, ⟨.ro, "ROT", 16, 16, [0]⟩]⟩,
  ⟨"CMF_OW_TAP_LO", 0x2001C, 1, 0x0, 1, 0x0, 28,
    [⟨.ro, "V", 0, 32, [0]⟩]⟩,
  ⟨"CMF_OW_TAP_HI", 0x20020, 1, 0x0, 1, 0x0, 28,
    [⟨.ro, "T32", 0, 1, [0]⟩]⟩,
  ⟨"CMF_SNAP_CFG", 0x20024, 1, 0x0, 1, 0x0, 28,
    [⟨.rws, "EN", 0, 1, [1]⟩, ⟨.rws, "DELTA", 1, 1, [0]⟩, ⟨.rws, "DECIM", 2, 3, [0]⟩, ⟨.rw, "DECIM_IMP", 5, 3, [0]⟩, ⟨.rws, "KEY", 8, 8, [8]⟩, ⟨.rws, "DEST", 16, 8, [0]⟩, ⟨.ro, "PHASE", 24, 6, [0]⟩]⟩,
  ⟨"CMF_SNAP_RING", 0x20028, 1, 0x0, 1, 0x0, 28,
    [⟨.rws, "BASE", 0, 12, [768]⟩, ⟨.rws, "DEPTH", 12, 4, [10]⟩, ⟨.ro, "WPTR", 16, 16, [0]⟩]⟩,
  ⟨"CMF_SUM_V", 0x2002C, 1, 0x0, 1, 0x0, 28,
    [⟨.ro, "SUM", 0, 31, [0]⟩, ⟨.ro, "VALID", 31, 1, [0]⟩]⟩,
  ⟨"CMF_VMIN", 0x20030, 1, 0x0, 1, 0x0, 28,
    [⟨.ro, "V", 0, 24, [0]⟩, ⟨.ro, "IDX", 24, 5, [0]⟩, ⟨.ro, "VALID", 31, 1, [0]⟩]⟩,
  ⟨"CMF_VMAX", 0x20034, 1, 0x0, 1, 0x0, 28,
    [⟨.ro, "V", 0, 24, [0]⟩, ⟨.ro, "IDX", 24, 5, [0]⟩, ⟨.ro, "VALID", 31, 1, [0]⟩]⟩,
  ⟨"CMF_TEST", 0x20038, 1, 0x0, 1, 0x0, 16,
    [⟨.rw, "SEL", 0, 5, [0]⟩, ⟨.rw, "REF", 5, 1, [0]⟩, ⟨.wo, "FORCE_MOD", 6, 1, [0]⟩, ⟨.wo, "FORCE_OW", 7, 1, [0]⟩]⟩,
  ⟨"CMF_FLAGS_OR", 0x2003C, 1, 0x0, 1, 0x0, 28,
    [⟨.ro, "F", 0, 16, [0]⟩]⟩,
  ⟨"CMF_GRPg_STAT", 0x20040, 8, 0x4, 1, 0x0, 28,
    [⟨.ro, "LAST", 0, 16, [0]⟩, ⟨.ro, "LATE", 16, 8, [0]⟩, ⟨.ro, "FENCED", 24, 1, [0]⟩]⟩,
  ⟨"CMF_GRPg_POST", 0x20060, 8, 0x4, 1, 0x0, 28,
    [⟨.ro, "T", 0, 16, [0]⟩, ⟨.rc, "MAX", 16, 16, [0]⟩]⟩,
  ⟨"CMF_CELLn_V", 0x20100, 32, 0x10, 1, 0x0, 28,
    [⟨.ro, "V", 0, 32, [0]⟩]⟩,
  ⟨"CMF_CELLn_FLAG", 0x20104, 32, 0x10, 1, 0x0, 28,
    [⟨.ro, "VALID", 0, 1, [0]⟩, ⟨.ro, "STALE", 1, 1, [0]⟩, ⟨.ro, "LATE", 2, 1, [0]⟩, ⟨.ro, "OWI", 3, 1, [0]⟩, ⟨.ro, "OW", 4, 1, [0]⟩, ⟨.ro, "RANGE", 5, 1, [0]⟩, ⟨.ro, "MOD", 6, 1, [0]⟩, ⟨.ro, "UNUSED", 7, 1, [0]⟩, ⟨.ro, "DCOV", 8, 1, [0]⟩, ⟨.ro, "DCUV", 9, 1, [0]⟩, ⟨.ro, "DISAGREE", 10, 1, [0]⟩, ⟨.ro, "TRIMREQ", 11, 1, [0]⟩, ⟨.ro, "HOLDOVER", 12, 1, [0]⟩, ⟨.ro, "INCOH", 13, 1, [0]⟩, ⟨.ro, "FERRY", 14, 1, [0]⟩, ⟨.ro, "TEST", 15, 1, [0]⟩, ⟨.ro, "SEQ", 16, 16, [0]⟩]⟩,
  ⟨"CMF_CELLn_MIN", 0x20108, 32, 0x10, 1, 0x0, 28,
    [⟨.ro, "V", 0, 32, [0]⟩]⟩,
  ⟨"CMF_CELLn_MAX", 0x2010C, 32, 0x10, 1, 0x0, 28,
    [⟨.ro, "V", 0, 32, [0]⟩]⟩,
  ⟨"CMF_TRIMn_OFS", 0x20300, 32, 0x10, 1, 0x0, 24,
    [⟨.rw, "V", 0, 20, [0]⟩]⟩,
  ⟨"CMF_TRIMn_GAIN", 0x20304, 32, 0x10, 1, 0x0, 24,
    [⟨.rw, "V", 0, 24, [0]⟩]⟩,
  ⟨"CMF_TRIMn_QUAD", 0x20308, 32, 0x10, 1, 0x0, 24,
    [⟨.rw, "V", 0, 16, [0]⟩]⟩,
  ⟨"CMF_TRIMn_TC", 0x2030C, 32, 0x10, 1, 0x0, 24,
    [⟨.rw, "V", 0, 16, [0]⟩]⟩,
  ⟨"CMF_DIAGn_OW", 0x20500, 32, 0x8, 1, 0x0, 28,
    [⟨.ro, "D", 0, 24, [0]⟩, ⟨.ro, "N", 24, 8, [0]⟩]⟩,
  ⟨"CMF_DIAGn_CNT", 0x20504, 32, 0x8, 1, 0x0, 28,
    [⟨.rc, "RANGE", 0, 8, [0]⟩, ⟨.rc, "MOD", 8, 8, [0]⟩, ⟨.rc, "LATE", 16, 8, [0]⟩, ⟨.rc, "DIS", 24, 8, [0]⟩]⟩,
  ⟨"CMF_TFIR_COEFm", 0x20600, 32, 0x4, 1, 0x0, 28,
    [⟨.rws, "C", 0, 18, [4096]⟩]⟩,
  ⟨"CMF_RAWn_m", 0x21000, 32, 0x80, 32, 0x4, 28,
    [⟨.ro, "V", 0, 24, [0]⟩]⟩]

/-- The registers of block CMF (Table 17.4). -/
def regsCMF : List RegDesc := regsCMF0

/-- Registers of block CSI, part 1. -/
def regsCSI0 : List RegDesc := [
  ⟨"CSI_CTRL", 0x30000, 1, 0x0, 1, 0x0, 28,
    [⟨.rw, "EN", 0, 1, [1]⟩, ⟨.rws, "POL0", 1, 1, [0]⟩, ⟨.rws, "POL1", 2, 1, [0]⟩, ⟨.rw, "TEST0", 3, 2, [0]⟩, ⟨.rw, "TEST1", 5, 2, [0]⟩, ⟨.rws, "NO_CS1", 7, 1, [0]⟩]⟩,
  ⟨"CSI_STAT", 0x30004, 1, 0x0, 1, 0x0, 28,
    [⟨.ro, "ZW", 0, 1, [0]⟩, ⟨.ro, "SC_ACT", 1, 1, [0]⟩, ⟨.ro, "MAIN", 2, 2, [0]⟩, ⟨.ro, "TRIM_ACT", 4, 1, [0]⟩]⟩,
  ⟨"CSI_DIV_CFG", 0x30008, 1, 0x0, 1, 0x0, 28,
    [⟨.rws, "ABS", 0, 12, [20]⟩, ⟨.rws, "REL", 12, 8, [10]⟩, ⟨.rws, "CNT", 20, 4, [8]⟩]⟩,
  ⟨"CSI_DIV_STAT", 0x3000C, 1, 0x0, 1, 0x0, 28,
    [⟨.ro, "MEAN", 0, 24, [0]⟩, ⟨.rw1c, "BIAS", 24, 1, [0]⟩, ⟨.rc, "DIS", 25, 7, [0]⟩]⟩,
  ⟨"CSI_QCTRL", 0x30010, 1, 0x0, 1, 0x0, 28,
    [⟨.wo, "LOAD", 0, 1, [0]⟩, ⟨.wo, "CLR1", 1, 1, [0]⟩]⟩,
  ⟨"CSI_QSTAT", 0x30014, 1, 0x0, 1, 0x0, 28,
    [⟨.rw1c, "QSUB", 0, 1, [0]⟩, ⟨.rw1c, "QEST", 1, 1, [0]⟩, ⟨.rw1c, "QGAP", 2, 1, [0]⟩, ⟨.rw1c, "QSAT", 3, 1, [0]⟩, ⟨.rw1c, "LOADED", 4, 1, [0]⟩, ⟨.ro, "LOAD_PEND", 5, 1, [0]⟩]⟩,
  ⟨"CSI_QACC_LO", 0x30018, 1, 0x0, 1, 0x0, 28,
    [⟨.ro, "V", 0, 32, [0]⟩]⟩,
  ⟨"CSI_QACC_HI", 0x3001C, 1, 0x0, 1, 0x0, 28,
    [⟨.ro, "V", 0, 32, [0]⟩]⟩,
  ⟨"CSI_QACC_RES", 0x30020, 1, 0x0, 1, 0x0, 28,
    [⟨.ro, "V", 0, 20, [0]⟩]⟩,
  ⟨"CSI_QACC1_LO", 0x30024, 1, 0x0, 1, 0x0, 28,
    [⟨.ro, "V", 0, 32, [0]⟩]⟩,
  ⟨"CSI_QACC1_HI", 0x30028, 1, 0x0, 1, 0x0, 28,
    [⟨.ro, "V", 0, 32, [0]⟩]⟩,
  ⟨"CSI_QACC1_RES", 0x3002C, 1, 0x0, 1, 0x0, 28,
    [⟨.ro, "V", 0, 20, [0]⟩]⟩,
  ⟨"CSI_QPRE_LO", 0x30030, 1, 0x0, 1, 0x0, 28,
    [⟨.rw, "V", 0, 32, [0]⟩]⟩,
  ⟨"CSI_QPRE_HI", 0x30034, 1, 0x0, 1, 0x0, 28,
    [⟨.rw, "V", 0, 32, [0]⟩]⟩,
  ⟨"CSI_QGAP", 0x30038, 1, 0x0, 1, 0x0, 28,
    [⟨.rc, "SEC", 0, 32, [0]⟩]⟩,
  ⟨"CSI_ZW_CFG", 0x3003C, 1, 0x0, 1, 0x0, 28,
    [⟨.rws, "CODE", 0, 8, [20]⟩]⟩,
  ⟨"CSI_CSn_V", 0x30040, 2, 0x20, 1, 0x0, 28,
    [⟨.ro, "V", 0, 32, [0]⟩]⟩,
  ⟨"CSI_CSn_I", 0x30044, 2, 0x20, 1, 0x0, 28,
    [⟨.ro, "V", 0, 32, [0]⟩]⟩,
  ⟨"CSI_CSn_FLAG", 0x30048, 2, 0x20, 1, 0x0, 28,
    [⟨.ro, "VALID", 0, 1, [0]⟩, ⟨.ro, "STALE", 1, 1, [0]⟩, ⟨.ro, "TCHOLD", 3, 1, [0]⟩, ⟨.ro, "RANGE", 5, 1, [0]⟩, ⟨.ro, "MOD", 6, 1, [0]⟩, ⟨.ro, "UNUSED", 7, 1, [0]⟩, ⟨.ro, "DISAGREE", 10, 1, [0]⟩, ⟨.ro, "TRIMREQ", 11, 1, [0]⟩, ⟨.ro, "HOLDOVER", 12, 1, [0]⟩, ⟨.ro, "INCOH", 13, 1, [0]⟩, ⟨.ro, "TEST", 15, 1, [0]⟩, ⟨.ro, "SEQ", 16, 16, [0]⟩]⟩,
  ⟨"CSI_CSn_SHUNT", 0x3004C, 2, 0x20, 1, 0x0, 28,
    [⟨.rws, "R0", 0, 24, [0x186A0]⟩]⟩,
  ⟨"CSI_CSn_TCO", 0x30050, 2, 0x20, 1, 0x0, 28,
    [⟨.rws, "ALPHA", 0, 16, [0]⟩, ⟨.rws, "AXSEL", 16, 5, [31]⟩]⟩,
  ⟨"CSI_CSn_TRIM_OFS", 0x30054, 2, 0x20, 1, 0x0, 24,
    [⟨.rw, "V", 0, 20, [0]⟩]⟩,
  ⟨"CSI_CSn_TRIM_GAIN", 0x30058, 2, 0x20, 1, 0x0, 24,
    [⟨.rw, "V", 0, 24, [0]⟩]⟩,
  ⟨"CSI_CSn_PEAK", 0x3005C, 2, 0x20, 1, 0x0, 28,
    [⟨.rc, "V", 0, 31, [0]⟩, ⟨.rc, "SIGN", 31, 1, [0]⟩]⟩,
  ⟨"CSI_RAWn_m", 0x30100, 2, 0x80, 32, 0x4, 28,
    [⟨.ro, "V", 0, 24, [0]⟩]⟩,
  ⟨"CSI_IMP_BINb_CFG", 0x30200, 24, 0x4, 1, 0x0, 28,
    [⟨.rws, "F", 0, 19, [0]⟩, ⟨.rws, "STAGE", 19, 3, [0]⟩, ⟨.rws, "SRC", 22, 2, [0]⟩, ⟨.rws, "AMP", 24, 8, [0]⟩]⟩,
  ⟨"CSI_IMP_CTRL", 0x30260, 1, 0x0, 1, 0x0, 28,
    [⟨.rws, "EN", 0, 1, [0]⟩, ⟨.wo, "START", 1, 1, [0]⟩, ⟨.wo, "TSTART", 2, 1, [0]⟩, ⟨.wo, "STOP", 3, 1, [0]⟩, ⟨.rws, "CONC", 4, 4, [4]⟩, ⟨.rws, "MPER", 8, 8, [16]⟩, ⟨.rws, "SETTLE", 16, 8, [20]⟩, ⟨.wo, "TRELRN", 24, 1, [0]⟩]⟩,
  ⟨"CSI_IMP_STAT", 0x30264, 1, 0x0, 1, 0x0, 28,
    [⟨.ro, "BUSY", 0, 1, [0]⟩, ⟨.ro, "KIND", 1, 1, [0]⟩, ⟨.ro, "STAGE", 2, 3, [0]⟩, ⟨.ro, "WIN", 5, 5, [0]⟩, ⟨.ro, "PASSIVE", 10, 1, [0]⟩, ⟨.ro, "PLAN_ERR", 11, 1, [0]⟩, ⟨.ro, "PLAN_MIS", 12, 1, [0]⟩, ⟨.ro, "TPEND", 13, 1, [0]⟩, ⟨.ro, "TID", 16, 16, [0]⟩]⟩,
  ⟨"CSI_IMP_SCHED", 0x30268, 1, 0x0, 1, 0x0, 28,
    [⟨.rws, "FULL_MIN", 0, 12, [60]⟩, ⟨.rws, "TEMP_S", 12, 8, [10]⟩, ⟨.rws, "STAGGER", 20, 1, [1]⟩]⟩,
  ⟨"CSI_IMP_EXC", 0x3026C, 1, 0x0, 1, 0x0, 28,
    [⟨.rws, "IMIN", 0, 8, [20]⟩, ⟨.rws, "PHMASK", 8, 8, [255]⟩]⟩,
  ⟨"CSI_IMP_PASV", 0x30270, 1, 0x0, 1, 0x0, 28,
    [⟨.rws, "THR", 0, 12, [500]⟩, ⟨.rws, "TRIES", 12, 4, [4]⟩]⟩,
  ⟨"CSI_IMP_PLAN", 0x30274, 1, 0x0, 1, 0x0, 28,
    [⟨.rw, "SLOT", 0, 4, [0]⟩, ⟨.rw, "SLOTS_L2", 4, 3, [0]⟩, ⟨.rw, "GROUP", 8, 8, [0]⟩, ⟨.rw, "NGROUP", 16, 8, [0]⟩]⟩,
  ⟨"CSI_IMP_RING", 0x30278, 1, 0x0, 1, 0x0, 28,
    [⟨.rws, "BASE", 0, 8, [32]⟩, ⟨.rws, "DEPTH", 8, 4, [8]⟩, ⟨.ro, "WPTR", 16, 12, [0]⟩]⟩,
  ⟨"CSI_IMP_SEQ", 0x3027C, 1, 0x0, 1, 0x0, 28,
    [⟨.ro, "V", 0, 32, [0]⟩]⟩,
  ⟨"CSI_IMP_CLIP", 0x30280, 1, 0x0, 1, 0x0, 28,
    [⟨.rc, "AMP", 0, 16, [0]⟩, ⟨.rc, "REM", 16, 16, [0]⟩]⟩,
  ⟨"CSI_IMP_ABORT", 0x30284, 1, 0x0, 1, 0x0, 28,
    [⟨.ro, "CODE", 0, 8, [0]⟩, ⟨.ro, "STAGE", 8, 3, [0]⟩, ⟨.ro, "N", 16, 16, [0]⟩]⟩,
  ⟨"CSI_IMP_TCFG", 0x30288, 1, 0x0, 1, 0x0, 28,
    [⟨.rws, "BIN", 0, 5, [31]⟩, ⟨.rws, "IREST", 8, 8, [10]⟩, ⟨.rws, "SPREAD", 16, 8, [20]⟩]⟩,
  ⟨"CSI_IMP_TLRN", 0x3028C, 1, 0x0, 1, 0x0, 28,
    [⟨.ro, "V", 0, 32, [0]⟩]⟩,
  ⟨"CSI_IMP_TTBLj", 0x30290, 16, 0x4, 1, 0x0, 28,
    [⟨.rws, "PH", 0, 16, [0]⟩, ⟨.rws, "T", 16, 16, [0]⟩]⟩,
  ⟨"CSI_IMP_TMAPk", 0x302D0, 4, 0x4, 1, 0x0, 28,
    [⟨.rws, "M0", 0, 5, [0]⟩, ⟨.rws, "E0", 7, 1, [0]⟩, ⟨.rws, "M1", 8, 5, [0]⟩, ⟨.rws, "E1", 15, 1, [0]⟩, ⟨.rws, "M2", 16, 5, [0]⟩, ⟨.rws, "E2", 23, 1, [0]⟩, ⟨.rws, "M3", 24, 5, [0]⟩, ⟨.rws, "E3", 31, 1, [0]⟩]⟩]

/-- Registers of block CSI, part 2. -/
def regsCSI1 : List RegDesc := [
  ⟨"CSI_IMP_THOT", 0x302E0, 1, 0x0, 1, 0x0, 28,
    [⟨.ro, "IDX", 0, 8, [0]⟩, ⟨.ro, "T", 16, 16, [0]⟩]⟩,
  ⟨"CSI_IMP_EST_RING", 0x302E4, 1, 0x0, 1, 0x0, 28,
    [⟨.rws, "BASE", 0, 10, [448]⟩, ⟨.rws, "DEPTH", 12, 4, [10]⟩, ⟨.ro, "WPTR", 16, 16, [0]⟩]⟩,
  ⟨"CSI_IMP_LAST_LO", 0x302E8, 1, 0x0, 1, 0x0, 28,
    [⟨.ro, "V", 0, 32, [0]⟩]⟩,
  ⟨"CSI_IMP_LAST_HI", 0x302EC, 1, 0x0, 1, 0x0, 28,
    [⟨.ro, "V", 0, 32, [0]⟩]⟩,
  ⟨"CSI_IMP_PCNT", 0x302F0, 1, 0x0, 1, 0x0, 28,
    [⟨.rc, "ACC", 0, 16, [0]⟩, ⟨.rc, "NACC", 16, 16, [0]⟩]⟩,
  ⟨"CSI_IMP_TREND", 0x302F4, 1, 0x0, 1, 0x0, 28,
    [⟨.rws, "BIN0", 0, 5, [31]⟩, ⟨.rws, "BIN1", 8, 5, [31]⟩, ⟨.rws, "BIN2", 16, 5, [31]⟩, ⟨.rws, "BIN3", 24, 5, [31]⟩]⟩,
  ⟨"CSI_IMP_INV", 0x302F8, 1, 0x0, 1, 0x0, 28,
    [⟨.rc, "EXC", 0, 8, [0]⟩, ⟨.rc, "HELD", 8, 8, [0]⟩, ⟨.rc, "LOWI", 16, 8, [0]⟩, ⟨.rc, "LATE", 24, 8, [0]⟩]⟩,
  ⟨"CSI_IMP_XMIS", 0x302FC, 1, 0x0, 1, 0x0, 28,
    [⟨.ro, "PHASE", 0, 3, [0]⟩, ⟨.rc, "CNT", 8, 8, [0]⟩, ⟨.ro, "DEV", 16, 16, [0]⟩]⟩]

/-- The registers of block CSI (Table 17.4). -/
def regsCSI : List RegDesc := regsCSI0 ++ regsCSI1

/-- Registers of block AUX, part 1. -/
def regsAUX0 : List RegDesc := [
  ⟨"AUX_CTRL", 0x40000, 1, 0x0, 1, 0x0, 28,
    [⟨.rw, "EN", 0, 1, [1]⟩]⟩,
  ⟨"AUX_STAT", 0x40004, 1, 0x0, 1, 0x0, 28,
    [⟨.ro, "SCAN", 0, 16, [0]⟩, ⟨.ro, "REFBAD", 16, 1, [0]⟩]⟩,
  ⟨"AUX_SCAN", 0x40008, 1, 0x0, 1, 0x0, 28,
    [⟨.rws, "PER_MS", 0, 10, [10]⟩]⟩,
  ⟨"AUX_REF", 0x4000C, 1, 0x0, 1, 0x0, 28,
    [⟨.ro, "V", 0, 16, [0]⟩, ⟨.ro, "OK", 31, 1, [0]⟩]⟩,
  ⟨"AUX_PLAUS", 0x40010, 1, 0x0, 1, 0x0, 28,
    [⟨.rws, "STEP", 0, 8, [50]⟩, ⟨.rws, "DDIE", 8, 8, [25]⟩]⟩,
  ⟨"AUX_TLIM", 0x40014, 1, 0x0, 1, 0x0, 28,
    [⟨.rws, "HI", 0, 11, [650]⟩, ⟨.rws, "HYST", 12, 4, [2]⟩, ⟨.rws, "QCNT", 16, 4, [3]⟩]⟩,
  ⟨"AUX_TRATE", 0x40018, 1, 0x0, 1, 0x0, 28,
    [⟨.rws, "RATE", 0, 10, [50]⟩, ⟨.rws, "WIN", 10, 6, [10]⟩, ⟨.rws, "QCNT", 16, 4, [2]⟩]⟩,
  ⟨"AUX_TLIM_STAT", 0x4001C, 1, 0x0, 1, 0x0, 28,
    [⟨.ro, "HI", 0, 16, [0]⟩, ⟨.ro, "RATE", 16, 16, [0]⟩]⟩,
  ⟨"AUX_LT_STAT", 0x40020, 1, 0x0, 1, 0x0, 28,
    [⟨.ro, "CHG", 0, 16, [0]⟩, ⟨.ro, "DSG", 16, 16, [0]⟩]⟩,
  ⟨"AUX_THR_CFG", 0x40024, 1, 0x0, 1, 0x0, 28,
    [⟨.rws, "T1", 0, 8, [125]⟩, ⟨.rws, "T2", 8, 8, [135]⟩, ⟨.rws, "T3", 16, 8, [145]⟩, ⟨.rws, "HYST", 24, 4, [5]⟩, ⟨.rws, "HN", 28, 1, [1]⟩]⟩,
  ⟨"AUX_THR_TIME", 0x40028, 1, 0x0, 1, 0x0, 28,
    [⟨.rws, "GRACE", 0, 7, [20]⟩, ⟨.rws, "REL", 8, 7, [10]⟩]⟩,
  ⟨"AUX_THR_CTRL", 0x4002C, 1, 0x0, 1, 0x0, 28,
    [⟨.rw, "FLOOR", 0, 2, [0]⟩, ⟨.wo, "ENF", 2, 1, [0]⟩]⟩,
  ⟨"AUX_THR_STAT", 0x40030, 1, 0x0, 1, 0x0, 28,
    [⟨.ro, "LE", 0, 2, [0]⟩, ⟨.ro, "LT", 2, 2, [0]⟩, ⟨.ro, "GRACE_RUN", 4, 1, [0]⟩, ⟨.ro, "SFAIL", 5, 1, [0]⟩, ⟨.ro, "REM", 8, 8, [0]⟩, ⟨.ro, "HOT", 16, 3, [0]⟩, ⟨.ro, "H", 20, 12, [0]⟩]⟩,
  ⟨"AUX_TDIE_MAX", 0x40034, 1, 0x0, 1, 0x0, 28,
    [⟨.rc, "T", 0, 16, [0]⟩, ⟨.rc, "SENS", 16, 3, [0]⟩, ⟨.rc, "NEW", 31, 1, [0]⟩]⟩,
  ⟨"AUX_SHDN", 0x40038, 1, 0x0, 1, 0x0, 28,
    [⟨.ro, "CNT", 0, 16, [0]⟩, ⟨.ro, "LAST", 16, 3, [0]⟩, ⟨.ro, "TRIP", 19, 1, [0]⟩]⟩,
  ⟨"AUX_THR_CNT", 0x4003C, 1, 0x0, 1, 0x0, 28,
    [⟨.rc, "REQ", 0, 8, [0]⟩, ⟨.rc, "ENF", 8, 8, [0]⟩, ⟨.rc, "WD", 16, 8, [0]⟩, ⟨.rc, "SF", 24, 8, [0]⟩]⟩,
  ⟨"AUX_TEV_WPTR", 0x40040, 1, 0x0, 1, 0x0, 28,
    [⟨.ro, "IDX", 0, 4, [0]⟩]⟩,
  ⟨"AUX_LEV_WPTR", 0x40044, 1, 0x0, 1, 0x0, 28,
    [⟨.ro, "IDX", 0, 4, [0]⟩]⟩,
  ⟨"AUX_RATE_MAX", 0x40048, 1, 0x0, 1, 0x0, 28,
    [⟨.rc, "R", 0, 16, [0]⟩, ⟨.rc, "IN", 16, 4, [0]⟩, ⟨.rc, "NEW", 31, 1, [0]⟩]⟩,
  ⟨"AUX_WIN_STAT", 0x4004C, 1, 0x0, 1, 0x0, 28,
    [⟨.ro, "B", 0, 16, [0]⟩]⟩,
  ⟨"AUX_INi_CFG", 0x40100, 16, 0x40, 1, 0x0, 28,
    [⟨.rws, "MODE", 0, 2, [0]⟩, ⟨.rws, "LIM", 2, 1, [0]⟩, ⟨.rws, "RPU", 16, 16, [1000]⟩]⟩,
  ⟨"AUX_INi_NTC", 0x40104, 16, 0x40, 1, 0x0, 28,
    [⟨.rws, "R25", 0, 16, [1000]⟩, ⟨.rws, "B", 16, 16, [3435]⟩]⟩,
  ⟨"AUX_INi_VAL", 0x40108, 16, 0x40, 1, 0x0, 28,
    [⟨.ro, "V", 0, 32, [0]⟩]⟩,
  ⟨"AUX_INi_RAW", 0x4010C, 16, 0x40, 1, 0x0, 28,
    [⟨.ro, "V", 0, 18, [0]⟩]⟩,
  ⟨"AUX_INi_FLAG", 0x40110, 16, 0x40, 1, 0x0, 28,
    [⟨.ro, "VALID", 0, 1, [0]⟩, ⟨.ro, "BROKEN", 1, 1, [0]⟩, ⟨.ro, "IMPL", 2, 1, [0]⟩, ⟨.ro, "REF", 3, 1, [0]⟩, ⟨.ro, "STALE", 4, 1, [0]⟩, ⟨.ro, "HI", 5, 1, [0]⟩, ⟨.ro, "RATE", 6, 1, [0]⟩, ⟨.ro, "RNA", 7, 1, [0]⟩, ⟨.ro, "LTC", 8, 1, [0]⟩, ⟨.ro, "LTD", 9, 1, [0]⟩, ⟨.ro, "WIN", 10, 1, [0]⟩, ⟨.ro, "SEQ", 16, 16, [0]⟩]⟩,
  ⟨"AUX_INi_RATE", 0x40114, 16, 0x40, 1, 0x0, 28,
    [⟨.ro, "R", 0, 16, [0]⟩]⟩,
  ⟨"AUX_INi_TMAX", 0x40118, 16, 0x40, 1, 0x0, 28,
    [⟨.rc, "V", 0, 16, [0]⟩, ⟨.rc, "NEW", 31, 1, [0]⟩]⟩,
  ⟨"AUX_INi_TMIN", 0x4011C, 16, 0x40, 1, 0x0, 28,
    [⟨.rc, "V", 0, 16, [0]⟩, ⟨.rc, "NEW", 31, 1, [0]⟩]⟩,
  ⟨"AUX_INi_LCNT", 0x40120, 16, 0x40, 1, 0x0, 28,
    [⟨.rc, "HI", 0, 8, [0]⟩, ⟨.rc, "RATE", 8, 8, [0]⟩, ⟨.rc, "LTC", 16, 8, [0]⟩, ⟨.rc, "LTD", 24, 8, [0]⟩]⟩,
  ⟨"AUX_INi_TRIM_OFS", 0x40124, 16, 0x40, 1, 0x0, 24,
    [⟨.rw, "V", 0, 16, [0]⟩]⟩,
  ⟨"AUX_INi_TRIM_GAIN", 0x40128, 16, 0x40, 1, 0x0, 24,
    [⟨.rw, "V", 0, 24, [0]⟩]⟩,
  ⟨"AUX_INi_AWIN", 0x4012C, 16, 0x40, 1, 0x0, 28,
    [⟨.rws, "LO", 0, 16, [0]⟩, ⟨.rws, "HI", 16, 16, [0x7530]⟩]⟩,
  ⟨"AUX_INi_TSTAMP", 0x40130, 16, 0x40, 1, 0x0, 28,
    [⟨.ro, "V", 0, 32, [0]⟩]⟩,
  ⟨"AUX_TDd_VAL", 0x40500, 6, 0x20, 1, 0x0, 28,
    [⟨.ro, "T", 0, 16, [0]⟩]⟩,
  ⟨"AUX_TDd_FLAG", 0x40504, 6, 0x20, 1, 0x0, 28,
    [⟨.ro, "VALID", 0, 1, [0]⟩, ⟨.ro, "IMPL", 1, 1, [0]⟩, ⟨.ro, "TRIP", 2, 1, [0]⟩, ⟨.ro, "SEQ", 16, 16, [0]⟩]⟩,
  ⟨"AUX_TDd_MAX", 0x40508, 6, 0x20, 1, 0x0, 28,
    [⟨.rc, "V", 0, 16, [0]⟩, ⟨.rc, "NEW", 31, 1, [0]⟩]⟩,
  ⟨"AUX_TDd_MIN", 0x4050C, 6, 0x20, 1, 0x0, 28,
    [⟨.rc, "V", 0, 16, [0]⟩, ⟨.rc, "NEW", 31, 1, [0]⟩]⟩,
  ⟨"AUX_TDd_TRIM", 0x40510, 6, 0x20, 1, 0x0, 28,
    [⟨.ro, "V", 0, 16, [0]⟩]⟩,
  ⟨"AUX_TDd_HOT", 0x40514, 6, 0x20, 1, 0x0, 28,
    [⟨.ro, "V", 0, 32, [0]⟩]⟩,
  ⟨"AUX_TDd_ICNT", 0x40518, 6, 0x20, 1, 0x0, 28,
    [⟨.rc, "V", 0, 16, [0]⟩]⟩]

/-- Registers of block AUX, part 2. -/
def regsAUX1 : List RegDesc := [
  ⟨"AUX_TDd_TSTAMP", 0x4051C, 6, 0x20, 1, 0x0, 28,
    [⟨.ro, "V", 0, 32, [0]⟩]⟩,
  ⟨"AUX_LTi_THR", 0x405C0, 16, 0x4, 1, 0x0, 28,
    [⟨.rw, "CHG", 0, 8, [60]⟩, ⟨.rw, "DSG", 8, 8, [25]⟩, ⟨.rws, "HYST", 16, 4, [3]⟩, ⟨.rws, "ENC", 20, 1, [1]⟩, ⟨.rws, "END", 21, 1, [1]⟩]⟩,
  ⟨"AUX_TEVn_TLO", 0x40600, 16, 0x10, 1, 0x0, 28,
    [⟨.ro, "V", 0, 32, [0]⟩]⟩,
  ⟨"AUX_TEVn_THI", 0x40604, 16, 0x10, 1, 0x0, 28,
    [⟨.ro, "V", 0, 32, [0]⟩]⟩,
  ⟨"AUX_TEVn_INFO", 0x40608, 16, 0x10, 1, 0x0, 28,
    [⟨.ro, "FROM", 0, 2, [0]⟩, ⟨.ro, "TO", 2, 2, [0]⟩, ⟨.ro, "CAUSE", 4, 4, [0]⟩, ⟨.ro, "SENSOR", 8, 3, [0]⟩]⟩,
  ⟨"AUX_TEVn_VAL", 0x4060C, 16, 0x10, 1, 0x0, 28,
    [⟨.ro, "H", 0, 16, [0]⟩]⟩,
  ⟨"AUX_LEVn_TLO", 0x40700, 16, 0x10, 1, 0x0, 28,
    [⟨.ro, "V", 0, 32, [0]⟩]⟩,
  ⟨"AUX_LEVn_THI", 0x40704, 16, 0x10, 1, 0x0, 28,
    [⟨.ro, "V", 0, 32, [0]⟩]⟩,
  ⟨"AUX_LEVn_INFO", 0x40708, 16, 0x10, 1, 0x0, 28,
    [⟨.ro, "INPUT", 0, 4, [0]⟩, ⟨.ro, "KIND", 4, 2, [0]⟩, ⟨.ro, "REL", 6, 1, [0]⟩]⟩,
  ⟨"AUX_LEVn_VAL", 0x4070C, 16, 0x10, 1, 0x0, 28,
    [⟨.ro, "T", 0, 16, [0]⟩, ⟨.ro, "R", 16, 16, [0]⟩]⟩]

/-- The registers of block AUX (Table 17.4). -/
def regsAUX : List RegDesc := regsAUX0 ++ regsAUX1

/-- Registers of block BAL, part 1. -/
def regsBAL0 : List RegDesc := [
  ⟨"BAL_CTRL", 0x50000, 1, 0x0, 1, 0x0, 28,
    [⟨.rw, "EN", 0, 1, [1]⟩, ⟨.rws, "RSEC", 8, 8, [50]⟩, ⟨.rws, "SCAN_S", 16, 8, [60]⟩]⟩,
  ⟨"BAL_STAT", 0x50004, 1, 0x0, 1, 0x0, 28,
    [⟨.ro, "RUN", 0, 8, [0]⟩, ⟨.ro, "FB", 8, 8, [0]⟩, ⟨.ro, "FEN", 16, 8, [0]⟩, ⟨.ro, "THR", 24, 2, [0]⟩, ⟨.ro, "EXC", 26, 1, [0]⟩, ⟨.ro, "OFF", 27, 1, [0]⟩]⟩,
  ⟨"BAL_LIMIT", 0x50008, 1, 0x0, 1, 0x0, 28,
    [⟨.rws, "OVM", 0, 6, [5]⟩, ⟨.rws, "UVM", 8, 6, [5]⟩, ⟨.rws, "HYST", 16, 4, [2]⟩]⟩,
  ⟨"BAL_ICAP", 0x5000C, 1, 0x0, 1, 0x0, 28,
    [⟨.rws, "AVG", 0, 9, [300]⟩, ⟨.rws, "PK", 16, 7, [120]⟩]⟩,
  ⟨"BAL_SLOT", 0x50010, 1, 0x0, 1, 0x0, 28,
    [⟨.rws, "SLOT_MS", 0, 10, [100]⟩]⟩,
  ⟨"BAL_BLEED", 0x50014, 1, 0x0, 1, 0x0, 28,
    [⟨.rws, "RBL", 0, 6, [27]⟩, ⟨.rws, "VMIN", 8, 8, [165]⟩, ⟨.rws, "EN", 16, 1, [1]⟩]⟩,
  ⟨"BAL_SEC", 0x50018, 1, 0x0, 1, 0x0, 28,
    [⟨.ro, "I", 0, 16, [0]⟩, ⟨.ro, "EFF", 16, 10, [0]⟩]⟩,
  ⟨"BAL_CLIPS", 0x5001C, 1, 0x0, 1, 0x0, 28,
    [⟨.rc, "CAP", 0, 8, [0]⟩, ⟨.rc, "MARGIN", 8, 8, [0]⟩, ⟨.rc, "THROTTLE", 16, 8, [0]⟩, ⟨.rc, "RATIO", 24, 8, [0]⟩]⟩,
  ⟨"BAL_PHp_CMD", 0x50100, 8, 0x40, 1, 0x0, 28,
    [⟨.rw, "I_SET", 0, 9, [0]⟩, ⟨.rw, "MODE", 9, 2, [0]⟩, ⟨.rw, "CELL", 12, 2, [0]⟩]⟩,
  ⟨"BAL_PHp_ACT", 0x50104, 8, 0x40, 1, 0x0, 28,
    [⟨.ro, "I_ACT", 0, 9, [0]⟩, ⟨.ro, "SRC", 9, 2, [0]⟩, ⟨.ro, "POS", 12, 2, [0]⟩, ⟨.ro, "AGE", 16, 2, [0]⟩, ⟨.ro, "CAP_EFF", 23, 9, [0]⟩]⟩,
  ⟨"BAL_PHp_CFG", 0x50108, 8, 0x40, 1, 0x0, 28,
    [⟨.rws, "EN", 0, 1, [1]⟩, ⟨.rws, "FSW", 1, 4, [12]⟩, ⟨.rws, "NRATIO", 5, 6, [32]⟩, ⟨.rws, "RSENSE", 11, 5, [10]⟩, ⟨.rws, "RRMASK", 16, 4, [15]⟩, ⟨.rws, "BLEED_EN", 20, 1, [1]⟩]⟩,
  ⟨"BAL_PHp_TLIM", 0x5010C, 8, 0x40, 1, 0x0, 28,
    [⟨.rw, "CAP", 0, 9, [300]⟩]⟩,
  ⟨"BAL_PHp_STAT", 0x50110, 8, 0x40, 1, 0x0, 28,
    [⟨.ro, "STATE", 0, 3, [0]⟩, ⟨.ro, "POS", 3, 2, [0]⟩, ⟨.ro, "SELV", 5, 1, [0]⟩, ⟨.ro, "FENCED", 6, 1, [0]⟩, ⟨.ro, "FALLBACK", 7, 1, [0]⟩, ⟨.ro, "EXC", 8, 1, [0]⟩, ⟨.ro, "SWEEP", 9, 1, [0]⟩, ⟨.ro, "RATIO_OOR", 10, 1, [0]⟩, ⟨.ro, "THR", 11, 2, [0]⟩, ⟨.ro, "DIR", 13, 1, [0]⟩]⟩,
  ⟨"BAL_PHp_IPRI", 0x50114, 8, 0x40, 1, 0x0, 28,
    [⟨.ro, "I", 0, 16, [0]⟩]⟩,
  ⟨"BAL_PHp_IPK", 0x50118, 8, 0x40, 1, 0x0, 28,
    [⟨.rc, "I", 0, 13, [0]⟩]⟩,
  ⟨"BAL_PHp_VGB", 0x5011C, 8, 0x40, 1, 0x0, 28,
    [⟨.ro, "V", 0, 16, [0]⟩, ⟨.ro, "STEP", 16, 3, [0]⟩]⟩,
  ⟨"BAL_PHp_SELCNT", 0x50120, 8, 0x40, 1, 0x0, 28,
    [⟨.rc, "CHG", 0, 16, [0]⟩, ⟨.rc, "SCAN", 16, 8, [0]⟩]⟩,
  ⟨"BAL_PHp_FAULT", 0x50124, 8, 0x40, 1, 0x0, 28,
    [⟨.rw1c, "SELCHK", 0, 1, [0]⟩, ⟨.rw1c, "GBDIS", 1, 1, [0]⟩, ⟨.rw1c, "SCAN", 2, 1, [0]⟩, ⟨.rw1c, "GATE", 3, 1, [0]⟩, ⟨.rw1c, "OCP", 4, 1, [0]⟩, ⟨.rw1c, "NOSEC", 5, 1, [0]⟩, ⟨.rw1c, "CMDXFER", 6, 1, [0]⟩, ⟨.rw1c, "ENGFEN", 7, 1, [0]⟩, ⟨.rw1c, "DRIVE", 8, 7, [0]⟩]⟩,
  ⟨"BAL_PHp_ECHG", 0x50128, 8, 0x40, 1, 0x0, 28,
    [⟨.ro, "V", 0, 32, [0]⟩]⟩,
  ⟨"BAL_PHp_EDIS", 0x5012C, 8, 0x40, 1, 0x0, 28,
    [⟨.ro, "V", 0, 32, [0]⟩]⟩,
  ⟨"BAL_PHp_CLIP", 0x50130, 8, 0x40, 1, 0x0, 28,
    [⟨.rc, "CAP", 0, 16, [0]⟩, ⟨.rc, "THR", 16, 16, [0]⟩]⟩,
  ⟨"BAL_PHp_RUNT", 0x50134, 8, 0x40, 1, 0x0, 28,
    [⟨.ro, "V", 0, 32, [0]⟩]⟩,
  ⟨"BAL_PHp_TEST", 0x50138, 8, 0x40, 1, 0x0, 16,
    [⟨.wo, "SCAN", 0, 1, [0]⟩, ⟨.rw, "BLT", 1, 1, [0]⟩, ⟨.rw, "POS", 2, 2, [0]⟩]⟩,
  ⟨"BAL_PHp_BLT", 0x5013C, 8, 0x40, 1, 0x0, 28,
    [⟨.ro, "V", 0, 32, [0]⟩]⟩,
  ⟨"BAL_CELLc_TGT", 0x50400, 32, 0x20, 1, 0x0, 28,
    [⟨.rw, "V", 0, 32, [0]⟩]⟩,
  ⟨"BAL_CELLc_REM", 0x50404, 32, 0x20, 1, 0x0, 28,
    [⟨.ro, "V", 0, 32, [0]⟩]⟩,
  ⟨"BAL_CELLc_QIN", 0x50408, 32, 0x20, 1, 0x0, 28,
    [⟨.ro, "V", 0, 32, [0]⟩]⟩,
  ⟨"BAL_CELLc_QOUT", 0x5040C, 32, 0x20, 1, 0x0, 28,
    [⟨.ro, "V", 0, 32, [0]⟩]⟩,
  ⟨"BAL_CELLc_STAT", 0x50410, 32, 0x20, 1, 0x0, 28,
    [⟨.ro, "ELIG", 0, 1, [0]⟩, ⟨.ro, "SEL", 1, 1, [0]⟩, ⟨.ro, "OVINH", 2, 1, [0]⟩, ⟨.ro, "UVINH", 3, 1, [0]⟩, ⟨.ro, "INVAL", 4, 1, [0]⟩, ⟨.ro, "DONE", 5, 1, [0]⟩, ⟨.ro, "BLEED", 6, 1, [0]⟩, ⟨.ro, "NOSEL", 7, 1, [0]⟩]⟩,
  ⟨"BAL_CELLc_BLQ", 0x50414, 32, 0x20, 1, 0x0, 28,
    [⟨.ro, "V", 0, 32, [0]⟩]⟩,
  ⟨"BAL_CELLc_TSEL", 0x50418, 32, 0x20, 1, 0x0, 28,
    [⟨.ro, "V", 0, 32, [0]⟩]⟩,
  ⟨"BAL_CELLc_CLIP", 0x5041C, 32, 0x20, 1, 0x0, 28,
    [⟨.rc, "OV", 0, 16, [0]⟩, ⟨.rc, "UV", 16, 16, [0]⟩]⟩]

/-- The registers of block BAL (Table 17.4). -/
def regsBAL : List RegDesc := regsBAL0

/-- Registers of block PSF, part 1. -/
def regsPSF0 : List RegDesc := [
  ⟨"PSF_CTRL", 0x60000, 1, 0x0, 1, 0x0, 60,
    [⟨.rws, "DCST_EN", 0, 1, [1]⟩, ⟨.rws, "SCST_EN", 1, 1, [1]⟩]⟩,
  ⟨"PSF_STAT", 0x60004, 1, 0x0, 1, 0x0, 60,
    [⟨.ro, "ARMED", 0, 1, [0]⟩, ⟨.ro, "LOCKOUT", 1, 1, [0]⟩, ⟨.ro, "HOLD", 2, 1, [0]⟩, ⟨.ro, "OFFDEM", 3, 1, [0]⟩, ⟨.ro, "CCD", 4, 1, [0]⟩, ⟨.ro, "ILK_SEEN", 5, 1, [0]⟩, ⟨.ro, "ILK_SELF", 6, 1, [0]⟩, ⟨.ro, "HARBOUR", 7, 1, [0]⟩, ⟨.ro, "PT_OUT", 8, 3, [0]⟩]⟩,
  ⟨"PSF_DEM_STAT", 0x60008, 1, 0x0, 1, 0x0, 60,
    [⟨.ro, "SRC", 0, 22, [0]⟩]⟩,
  ⟨"PSF_DEM_LATCH", 0x6000C, 1, 0x0, 1, 0x0, 60,
    [⟨.rw1c, "SRC", 0, 22, [0]⟩]⟩,
  ⟨"PSF_DEM_CLR", 0x60010, 1, 0x0, 1, 0x0, 60,
    [⟨.wo, "SRC", 0, 22, [0]⟩]⟩,
  ⟨"PSF_DEM_T_LO", 0x60014, 1, 0x0, 1, 0x0, 60,
    [⟨.ro, "V", 0, 32, [0]⟩]⟩,
  ⟨"PSF_DEM_T_HI", 0x60018, 1, 0x0, 1, 0x0, 60,
    [⟨.ro, "V", 0, 32, [0]⟩]⟩,
  ⟨"PSF_OFFREQ", 0x6001C, 1, 0x0, 1, 0x0, 62,
    [⟨.wo, "SET", 0, 1, [0]⟩, ⟨.wo, "CLR", 1, 1, [0]⟩]⟩,
  ⟨"PSF_OV_CFG", 0x60020, 1, 0x0, 1, 0x0, 60,
    [⟨.rw, "LIM", 0, 13, [4250]⟩, ⟨.rws, "HYST", 16, 4, [5]⟩, ⟨.rws, "QT", 24, 8, [4]⟩]⟩,
  ⟨"PSF_UV_CFG", 0x60024, 1, 0x0, 1, 0x0, 60,
    [⟨.rw, "LIM", 0, 13, [2500]⟩, ⟨.rws, "HYST", 16, 4, [5]⟩, ⟨.rws, "QT", 24, 8, [4]⟩]⟩,
  ⟨"PSF_OC_CFG", 0x60028, 1, 0x0, 1, 0x0, 60,
    [⟨.rw, "CHG", 0, 16, [3000]⟩, ⟨.rw, "DSG", 16, 16, [6000]⟩]⟩,
  ⟨"PSF_OC_QCFG", 0x6002C, 1, 0x0, 1, 0x0, 60,
    [⟨.rws, "QCHG", 0, 8, [10]⟩, ⟨.rws, "QDSG", 8, 8, [10]⟩, ⟨.rws, "HYST", 16, 16, [50]⟩]⟩,
  ⟨"PSF_CCHG_CFG", 0x60030, 1, 0x0, 1, 0x0, 60,
    [⟨.rws, "I", 0, 12, [20]⟩, ⟨.rws, "QT", 12, 8, [10]⟩]⟩,
  ⟨"PSF_SC_CFG", 0x60034, 1, 0x0, 1, 0x0, 60,
    [⟨.rws, "CODE", 0, 8, [100]⟩, ⟨.rws, "DG", 8, 1, [1]⟩]⟩,
  ⟨"PSF_SC_STAT", 0x60038, 1, 0x0, 1, 0x0, 60,
    [⟨.rw1c, "TRIP", 0, 1, [0]⟩, ⟨.ro, "QUIET", 1, 1, [0]⟩, ⟨.ro, "POL", 2, 1, [0]⟩, ⟨.ro, "CNT", 8, 8, [0]⟩]⟩,
  ⟨"PSF_HAZ_CFG", 0x6003C, 1, 0x0, 1, 0x0, 60,
    [⟨.rws, "TXMASK", 0, 22, [0x36F37F]⟩]⟩,
  ⟨"PSF_HAZ_STAT", 0x60040, 1, 0x0, 1, 0x0, 60,
    [⟨.ro, "MADE", 0, 16, [0]⟩, ⟨.ro, "RCVD", 16, 16, [0]⟩]⟩,
  ⟨"PSF_CHATTER_MAX", 0x60044, 1, 0x0, 1, 0x0, 60,
    [⟨.rws, "MAX", 0, 8, [8]⟩, ⟨.rws, "WIN", 8, 16, [1000]⟩]⟩,
  ⟨"PSF_ILK_SELFTEST", 0x60048, 1, 0x0, 1, 0x0, 60,
    [⟨.rws, "EN", 0, 1, [0]⟩, ⟨.rws, "MS", 8, 8, [20]⟩]⟩,
  ⟨"PSF_ARM", 0x6004C, 1, 0x0, 1, 0x0, 60,
    [⟨.wo, "REQ", 0, 1, [0]⟩, ⟨.wo, "DIS", 1, 1, [0]⟩]⟩,
  ⟨"PSF_ARM_STAT", 0x60050, 1, 0x0, 1, 0x0, 60,
    [⟨.ro, "CODE", 0, 8, [0]⟩, ⟨.ro, "PEND", 8, 1, [0]⟩, ⟨.rc, "REF", 16, 16, [0]⟩]⟩,
  ⟨"PSF_OUT_CMD", 0x60054, 1, 0x0, 1, 0x0, 60,
    [⟨.rw, "ON", 0, 3, [0]⟩, ⟨.wo, "OFF", 4, 3, [0]⟩]⟩,
  ⟨"PSF_PT_CFG", 0x60058, 1, 0x0, 1, 0x0, 60,
    [⟨.rws, "PER", 0, 6, [10]⟩, ⟨.rws, "W", 8, 10, [200]⟩]⟩,
  ⟨"PSF_LOCKOUT_KEY", 0x6005C, 1, 0x0, 1, 0x0, 62,
    [⟨.wo, "KEY", 0, 16, [0]⟩]⟩,
  ⟨"PSF_LOCKOUT_STAT", 0x60060, 1, 0x0, 1, 0x0, 60,
    [⟨.ro, "LOCK", 0, 1, [0]⟩, ⟨.ro, "KEYOK", 1, 1, [0]⟩, ⟨.ro, "ILKCYC", 2, 1, [0]⟩, ⟨.ro, "CAUSE", 4, 4, [0]⟩, ⟨.ro, "OUT", 8, 2, [0]⟩, ⟨.rc, "KEYERR", 16, 8, [0]⟩]⟩,
  ⟨"PSF_ONEPATH_MAX", 0x60064, 1, 0x0, 1, 0x0, 60,
    [⟨.rws, "MAX", 0, 4, [2]⟩]⟩,
  ⟨"PSF_CWAY_CFG", 0x60068, 1, 0x0, 1, 0x0, 60,
    [⟨.rws, "CYC", 0, 10, [10]⟩, ⟨.rws, "WAIT", 12, 12, [200]⟩, ⟨.rws, "SINGLE_OK", 24, 1, [0]⟩, ⟨.rws, "EN", 25, 1, [1]⟩, ⟨.rws, "HAZCHK", 26, 1, [1]⟩]⟩,
  ⟨"PSF_CWAY_STAT", 0x6006C, 1, 0x0, 1, 0x0, 60,
    [⟨.ro, "BV", 0, 1, [0]⟩, ⟨.ro, "SENT", 16, 16, [0]⟩]⟩,
  ⟨"PSF_CWAY_SEQ", 0x60070, 1, 0x0, 1, 0x0, 60,
    [⟨.ro, "V", 0, 32, [0]⟩]⟩,
  ⟨"PSF_CWAY_CNT0", 0x60074, 1, 0x0, 1, 0x0, 60,
    [⟨.rc, "TWO", 0, 16, [0]⟩, ⟨.rc, "ONE", 16, 16, [0]⟩]⟩,
  ⟨"PSF_CWAY_CNT1", 0x60078, 1, 0x0, 1, 0x0, 60,
    [⟨.rc, "NONE", 0, 8, [0]⟩, ⟨.rc, "SCRC", 8, 8, [0]⟩, ⟨.rc, "WRONG", 16, 8, [0]⟩, ⟨.rc, "NEXP", 24, 8, [0]⟩]⟩,
  ⟨"PSF_CW_IDX", 0x6007C, 1, 0x0, 1, 0x0, 60,
    [⟨.rw, "IDX", 0, 8, [1]⟩]⟩,
  ⟨"PSF_CW_ISL", 0x60080, 1, 0x0, 1, 0x0, 60,
    [⟨.ro, "LASTOK", 0, 16, [0]⟩, ⟨.ro, "CNT", 16, 4, [0]⟩, ⟨.ro, "OUT", 20, 3, [0]⟩]⟩,
  ⟨"PSF_SAFE_RX", 0x60084, 1, 0x0, 1, 0x0, 60,
    [⟨.ro, "ADDR", 0, 8, [0]⟩, ⟨.ro, "REASON", 8, 4, [0]⟩, ⟨.rc, "CNT", 16, 16, [0]⟩]⟩,
  ⟨"PSF_HB_STAT", 0x60088, 1, 0x0, 1, 0x0, 60,
    [⟨.ro, "LOST", 0, 1, [0]⟩, ⟨.rc, "N", 16, 16, [0]⟩]⟩,
  ⟨"PSF_DCST_STAT", 0x6008C, 1, 0x0, 1, 0x0, 60,
    [⟨.ro, "CH", 0, 5, [0]⟩, ⟨.rc, "FAIL", 16, 16, [0]⟩]⟩,
  ⟨"PSF_SCST_STAT", 0x60090, 1, 0x0, 1, 0x0, 60,
    [⟨.ro, "PASS", 0, 1, [0]⟩, ⟨.rc, "FAIL", 16, 16, [0]⟩]⟩,
  ⟨"PSF_CLIPS", 0x60094, 1, 0x0, 1, 0x0, 60,
    [⟨.rc, "CEIL", 0, 8, [0]⟩, ⟨.rc, "TIGHT", 8, 8, [0]⟩, ⟨.rc, "CYCW", 16, 8, [0]⟩]⟩,
  ⟨"PSF_EV_WPTR", 0x60098, 1, 0x0, 1, 0x0, 60,
    [⟨.ro, "IDX", 0, 4, [0]⟩]⟩,
  ⟨"PSF_DEM_CNT", 0x6009C, 1, 0x0, 1, 0x0, 60,
    [⟨.rc, "N", 0, 16, [0]⟩, ⟨.rc, "HAZ", 16, 16, [0]⟩]⟩]

/-- Registers of block PSF, part 2. -/
def regsPSF1 : List RegDesc := [
  ⟨"PSF_OTPk", 0x600C0, 8, 0x4, 1, 0x0, 60,
    [⟨.ro, "V", 0, 32, [0]⟩]⟩,
  ⟨"PSF_SIi_CFG", 0x600E0, 1, 0x10, 1, 0x0, 60,
    [⟨.rws, "DEB", 0, 8, [20]⟩, ⟨.rws, "TP", 8, 10, [100]⟩]⟩,
  ⟨"PSF_SIi_CFG", 0x600F0, 1, 0x10, 1, 0x0, 60,
    [⟨.rws, "DEB", 0, 8, [50]⟩]⟩,
  ⟨"PSF_SIi_STAT", 0x600E4, 2, 0x10, 1, 0x0, 60,
    [⟨.ro, "CLOSED", 0, 1, [0]⟩, ⟨.ro, "DEMAND", 1, 1, [0]⟩, ⟨.ro, "CHAT", 2, 1, [0]⟩, ⟨.ro, "XFEED", 3, 1, [0]⟩, ⟨.ro, "RBERR", 4, 1, [0]⟩]⟩,
  ⟨"PSF_SIi_CNT", 0x600E8, 2, 0x10, 1, 0x0, 60,
    [⟨.rc, "TRANS", 0, 16, [0]⟩, ⟨.rc, "FLT", 16, 16, [0]⟩]⟩,
  ⟨"PSF_SIi_RB", 0x600EC, 2, 0x10, 1, 0x0, 60,
    [⟨.ro, "SRC", 0, 16, [0]⟩, ⟨.ro, "RET", 16, 16, [0]⟩]⟩,
  ⟨"PSF_DCn_CFG", 0x60100, 32, 0x4, 1, 0x0, 60,
    [⟨.rws, "OV", 0, 8, [215]⟩, ⟨.rws, "UV", 8, 8, [100]⟩, ⟨.rws, "QOV", 16, 8, [8]⟩, ⟨.rws, "QUV", 24, 8, [8]⟩]⟩,
  ⟨"PSF_DCn_STAT", 0x60180, 32, 0x4, 1, 0x0, 60,
    [⟨.ro, "OVQ", 0, 1, [0]⟩, ⟨.ro, "UVQ", 1, 1, [0]⟩, ⟨.ro, "EN", 2, 1, [0]⟩, ⟨.ro, "STFAIL", 3, 1, [0]⟩, ⟨.rc, "OVN", 8, 8, [0]⟩, ⟨.rc, "UVN", 16, 8, [0]⟩]⟩,
  ⟨"PSF_OUTo_CFG", 0x60200, 3, 0x20, 1, 0x0, 60,
    [⟨.rws, "FBT", 0, 8, [50]⟩, ⟨.rws, "FBPOL", 8, 1, [0]⟩]⟩,
  ⟨"PSF_OUTo_STAT", 0x60204, 3, 0x20, 1, 0x0, 60,
    [⟨.ro, "ON", 0, 1, [0]⟩, ⟨.ro, "CMD", 1, 1, [0]⟩, ⟨.ro, "FB", 2, 1, [0]⟩, ⟨.ro, "PULSE", 3, 1, [0]⟩]⟩,
  ⟨"PSF_OUTo_FB", 0x60208, 3, 0x20, 1, 0x0, 60,
    [⟨.ro, "V", 0, 16, [0]⟩]⟩,
  ⟨"PSF_OUTo_PTCNT", 0x6020C, 3, 0x20, 1, 0x0, 60,
    [⟨.rc, "PASS", 0, 16, [0]⟩, ⟨.rc, "FAIL", 16, 8, [0]⟩, ⟨.rc, "DISC", 24, 8, [0]⟩]⟩,
  ⟨"PSF_OUTo_PTLAST", 0x60210, 3, 0x20, 1, 0x0, 60,
    [⟨.ro, "V", 0, 32, [0]⟩]⟩,
  ⟨"PSF_OUTo_ONT", 0x60214, 3, 0x20, 1, 0x0, 60,
    [⟨.ro, "V", 0, 32, [0]⟩]⟩,
  ⟨"PSF_OUTo_SWCNT", 0x60218, 3, 0x20, 1, 0x0, 60,
    [⟨.ro, "ON", 0, 16, [0]⟩, ⟨.rc, "REF", 16, 16, [0]⟩]⟩,
  ⟨"PSF_OUTo_FLT", 0x6021C, 3, 0x20, 1, 0x0, 60,
    [⟨.rw1c, "STATIC_ON", 0, 1, [0]⟩, ⟨.rw1c, "STATIC_OFF", 1, 1, [0]⟩, ⟨.rw1c, "PULSE", 2, 1, [0]⟩]⟩,
  ⟨"PSF_CW_PRESk", 0x60300, 8, 0x4, 1, 0x0, 60,
    [⟨.ro, "V", 0, 32, [0]⟩]⟩,
  ⟨"PSF_CW_ONEk", 0x60320, 8, 0x4, 1, 0x0, 60,
    [⟨.ro, "V", 0, 32, [0]⟩]⟩,
  ⟨"PSF_CW_DEGk", 0x60340, 8, 0x4, 1, 0x0, 60,
    [⟨.ro, "V", 0, 32, [0]⟩]⟩,
  ⟨"PSF_CW_DEMk", 0x60360, 8, 0x4, 1, 0x0, 60,
    [⟨.rw1c, "V", 0, 32, [0]⟩]⟩,
  ⟨"PSF_CW_MISk", 0x60380, 8, 0x4, 1, 0x0, 60,
    [⟨.rw1c, "V", 0, 32, [0]⟩]⟩,
  ⟨"PSF_EVn_TLO", 0x60400, 16, 0x10, 1, 0x0, 60,
    [⟨.ro, "V", 0, 32, [0]⟩]⟩,
  ⟨"PSF_EVn_THI", 0x60404, 16, 0x10, 1, 0x0, 60,
    [⟨.ro, "V", 0, 32, [0]⟩]⟩,
  ⟨"PSF_EVn_INFO", 0x60408, 16, 0x10, 1, 0x0, 60,
    [⟨.ro, "KIND", 0, 4, [0]⟩, ⟨.ro, "CAUSE", 8, 5, [0]⟩, ⟨.ro, "CODE", 16, 8, [0]⟩, ⟨.ro, "ADDR", 24, 8, [0]⟩]⟩,
  ⟨"PSF_EVn_DEM", 0x6040C, 16, 0x10, 1, 0x0, 60,
    [⟨.ro, "V", 0, 32, [0]⟩]⟩]

/-- The registers of block PSF (Table 17.4). -/
def regsPSF : List RegDesc := regsPSF0 ++ regsPSF1

/-- Registers of block FAB, part 1. -/
def regsFAB0 : List RegDesc := [
  ⟨"FAB_CTRL", 0x70000, 1, 0x0, 1, 0x0, 60,
    [⟨.rw, "EN", 0, 1, [1]⟩]⟩,
  ⟨"FAB_STAT", 0x70004, 1, 0x0, 1, 0x0, 60,
    [⟨.ro, "UP", 0, 4, [0]⟩, ⟨.ro, "HOLDOFF", 4, 1, [0]⟩, ⟨.ro, "LISTEN", 8, 4, [0]⟩]⟩,
  ⟨"FAB_HAZ_CFG", 0x70008, 1, 0x0, 1, 0x0, 60,
    [⟨.rws, "REP", 0, 3, [4]⟩, ⟨.rws, "HOLD", 4, 12, [20]⟩]⟩,
  ⟨"FAB_HAZ_STAT", 0x7000C, 1, 0x0, 1, 0x0, 60,
    [⟨.ro, "SRC", 0, 3, [0]⟩]⟩,
  ⟨"FAB_HAZ_T_LO", 0x70010, 1, 0x0, 1, 0x0, 60,
    [⟨.ro, "V", 0, 32, [0]⟩]⟩,
  ⟨"FAB_HAZ_T_HI", 0x70014, 1, 0x0, 1, 0x0, 60,
    [⟨.ro, "V", 0, 32, [0]⟩]⟩,
  ⟨"FAB_HAZ_CNT", 0x70018, 1, 0x0, 1, 0x0, 60,
    [⟨.rc, "ACC", 0, 16, [0]⟩, ⟨.rc, "ORIG", 16, 16, [0]⟩]⟩,
  ⟨"FAB_UID_LO", 0x7001C, 1, 0x0, 1, 0x0, 60,
    [⟨.ro, "V", 0, 32, [0]⟩]⟩,
  ⟨"FAB_UID_HI", 0x70020, 1, 0x0, 1, 0x0, 60,
    [⟨.ro, "V", 0, 32, [0]⟩]⟩,
  ⟨"FAB_TRAIN_CFG", 0x70024, 1, 0x0, 1, 0x0, 60,
    [⟨.rws, "TRIES", 0, 5, [16]⟩, ⟨.rws, "RETRY_MS", 8, 8, [10]⟩, ⟨.rws, "BACKOFF_S", 16, 8, [1]⟩]⟩,
  ⟨"FAB_WAKE_CFG", 0x70028, 1, 0x0, 1, 0x0, 60,
    [⟨.rws, "TONE_US", 0, 13, [1000]⟩]⟩,
  ⟨"FAB_WAKE_STAT", 0x7002C, 1, 0x0, 1, 0x0, 60,
    [⟨.rw1c, "TONE", 0, 4, [0]⟩, ⟨.rw1c, "HELD", 4, 4, [0]⟩]⟩,
  ⟨"FAB_DROPr", 0x70030, 8, 0x4, 1, 0x0, 60,
    [⟨.rc, "V", 0, 32, [0]⟩]⟩,
  ⟨"FAB_BUFECC", 0x70050, 1, 0x0, 1, 0x0, 60,
    [⟨.rc, "CORR", 0, 16, [0]⟩, ⟨.rc, "UNC", 16, 16, [0]⟩]⟩,
  ⟨"FAB_LINKEV", 0x70054, 1, 0x0, 1, 0x0, 60,
    [⟨.ro, "N", 0, 16, [0]⟩, ⟨.ro, "PORT", 16, 2, [0]⟩, ⟨.ro, "UP", 18, 1, [0]⟩]⟩,
  ⟨"FAB_PORTn_CFG", 0x71000, 4, 0x100, 1, 0x0, 60,
    [⟨.rws, "EN", 0, 1, [1]⟩, ⟨.rws, "ROLE", 1, 3, [0]⟩, ⟨.rws, "HAZIN", 4, 1, [1]⟩, ⟨.rws, "HAZOUT", 5, 1, [1]⟩, ⟨.rws, "CUT", 6, 1, [1]⟩, ⟨.rws, "WAKEIN", 7, 1, [1]⟩, ⟨.rws, "WAKEOUT", 8, 1, [1]⟩, ⟨.rws, "AMP", 9, 5, [8]⟩, ⟨.rws, "STALL_MS", 16, 8, [10]⟩]⟩,
  ⟨"FAB_PORTn_CTRL", 0x71004, 4, 0x100, 1, 0x0, 60,
    [⟨.wo, "RETRAIN", 0, 1, [0]⟩, ⟨.wo, "WAKE", 1, 1, [0]⟩]⟩,
  ⟨"FAB_PORTn_STAT", 0x71008, 4, 0x100, 1, 0x0, 60,
    [⟨.ro, "STATE", 0, 3, [0]⟩, ⟨.ro, "UPSTREAM", 3, 1, [0]⟩, ⟨.ro, "DLYVALID", 4, 1, [0]⟩, ⟨.ro, "CWAIT", 5, 1, [0]⟩, ⟨.rw1c, "TONE", 6, 1, [0]⟩, ⟨.ro, "ECHOBAD", 7, 1, [0]⟩]⟩,
  ⟨"FAB_PORTn_TRAIN", 0x7100C, 4, 0x100, 1, 0x0, 60,
    [⟨.ro, "STEP", 0, 3, [0]⟩, ⟨.ro, "ATT", 8, 8, [0]⟩, ⟨.ro, "LASTFAIL", 16, 4, [0]⟩]⟩,
  ⟨"FAB_PORTn_PEER_ID_LO", 0x71010, 4, 0x100, 1, 0x0, 60,
    [⟨.ro, "V", 0, 32, [0]⟩]⟩,
  ⟨"FAB_PORTn_PEER_ID_HI", 0x71014, 4, 0x100, 1, 0x0, 60,
    [⟨.ro, "V", 0, 32, [0]⟩]⟩,
  ⟨"FAB_PORTn_PEER_INFO", 0x71018, 4, 0x100, 1, 0x0, 60,
    [⟨.ro, "PORT", 0, 2, [0]⟩, ⟨.ro, "ROLE", 2, 3, [0]⟩, ⟨.ro, "VER", 8, 8, [0]⟩, ⟨.ro, "CAP", 16, 8, [0]⟩]⟩,
  ⟨"FAB_PORTn_BUF0", 0x7101C, 4, 0x100, 1, 0x0, 60,
    [⟨.rws, "Q0", 0, 8, [10]⟩, ⟨.rws, "Q1", 8, 8, [10]⟩, ⟨.rws, "Q2", 16, 8, [16]⟩, ⟨.rws, "Q3", 24, 8, [16]⟩]⟩,
  ⟨"FAB_PORTn_BUF1", 0x71020, 4, 0x100, 1, 0x0, 60,
    [⟨.rws, "Q4", 0, 8, [38]⟩, ⟨.rws, "Q5", 8, 8, [38]⟩]⟩,
  ⟨"FAB_PORTn_CRED0", 0x71024, 4, 0x100, 1, 0x0, 60,
    [⟨.ro, "V", 0, 32, [0]⟩]⟩,
  ⟨"FAB_PORTn_CRED1", 0x71028, 4, 0x100, 1, 0x0, 60,
    [⟨.ro, "V", 0, 16, [0]⟩]⟩,
  ⟨"FAB_PORTn_LINE", 0x7102C, 4, 0x100, 1, 0x0, 60,
    [⟨.ro, "ECHO", 0, 8, [0]⟩, ⟨.ro, "SNR", 8, 8, [0]⟩, ⟨.ro, "LOCK", 16, 1, [0]⟩]⟩,
  ⟨"FAB_PORTn_DOWNCAUSE", 0x71030, 4, 0x100, 1, 0x0, 60,
    [⟨.ro, "CODE", 0, 4, [0]⟩]⟩,
  ⟨"FAB_PORTn_UPTIME", 0x71034, 4, 0x100, 1, 0x0, 60,
    [⟨.ro, "V", 0, 32, [0]⟩]⟩,
  ⟨"FAB_PORTn_LAT", 0x71038, 4, 0x100, 1, 0x0, 60,
    [⟨.rc, "V", 0, 10, [0]⟩]⟩,
  ⟨"FAB_PORTn_TEST", 0x7103C, 4, 0x100, 1, 0x0, 16,
    [⟨.rw, "LOOP", 0, 1, [0]⟩, ⟨.rw, "PRBS", 1, 1, [0]⟩]⟩,
  ⟨"FAB_PORTn_CNTm", 0x71040, 4, 0x100, 24, 0x4, 60,
    [⟨.rc, "V", 0, 32, [0]⟩]⟩,
  ⟨"FAB_PORTn_RXQq", 0x710A0, 4, 0x100, 6, 0x4, 60,
    [⟨.ro, "OCC", 0, 8, [0]⟩, ⟨.rc, "HIGH", 8, 8, [0]⟩]⟩,
  ⟨"FAB_PORTn_TXQq", 0x710B8, 4, 0x100, 6, 0x4, 60,
    [⟨.ro, "N", 0, 8, [0]⟩, ⟨.ro, "WAIT", 16, 16, [0]⟩]⟩,
  ⟨"FAB_PORTn_ERRCAP0", 0x710D0, 4, 0x100, 1, 0x0, 60,
    [⟨.ro, "V", 0, 32, [0]⟩]⟩,
  ⟨"FAB_PORTn_ERRCAP1", 0x710D4, 4, 0x100, 1, 0x0, 60,
    [⟨.ro, "V", 0, 32, [0]⟩]⟩,
  ⟨"FAB_PORTn_ERRCAP2", 0x710D8, 4, 0x100, 1, 0x0, 60,
    [⟨.ro, "REASON", 0, 4, [0]⟩, ⟨.rc, "N", 16, 16, [0]⟩]⟩,
  ⟨"FAB_PORTn_ERRCAP3", 0x710DC, 4, 0x100, 1, 0x0, 60,
    [⟨.ro, "V", 0, 32, [0]⟩]⟩,
  ⟨"FAB_PORTn_PRBSERR", 0x710E0, 4, 0x100, 1, 0x0, 60,
    [⟨.rc, "V", 0, 32, [0]⟩]⟩,
  ⟨"FAB_NET_CTRL", 0x72000, 1, 0x0, 1, 0x0, 60,
    [⟨.wo, "SOUND", 0, 1, [0]⟩, ⟨.wo, "TAKEOVER", 1, 1, [0]⟩, ⟨.wo, "ATCLR", 2, 1, [0]⟩]⟩]

/-- Registers of block FAB, part 2. -/
def regsFAB1 : List RegDesc := [
  ⟨"FAB_NET_CFG", 0x72004, 1, 0x0, 1, 0x0, 60,
    [⟨.rws, "ROLE", 0, 2, [0]⟩, ⟨.rws, "AUTO", 2, 1, [0]⟩, ⟨.rws, "PREV_EN", 3, 1, [1]⟩]⟩,
  ⟨"FAB_NET_STAT", 0x72008, 1, 0x0, 1, 0x0, 60,
    [⟨.ro, "ADDR", 0, 8, [254]⟩, ⟨.ro, "ASSIGNED", 8, 1, [0]⟩, ⟨.ro, "HARBOUR", 9, 1, [0]⟩, ⟨.ro, "STANDBY", 10, 1, [0]⟩, ⟨.ro, "SND", 11, 2, [0]⟩, ⟨.rw1c, "EDITED", 13, 1, [0]⟩, ⟨.ro, "TCHG", 14, 1, [0]⟩, ⟨.ro, "UNSET", 15, 1, [0]⟩, ⟨.ro, "ROUND", 16, 16, [0]⟩]⟩,
  ⟨"FAB_SND_CFG", 0x7200C, 1, 0x0, 1, 0x0, 60,
    [⟨.rws, "QUIET_MS", 0, 8, [10]⟩, ⟨.rws, "ROUND_MS", 8, 12, [500]⟩, ⟨.rws, "ACK_MS", 20, 8, [20]⟩, ⟨.rws, "HOLDOFF_S", 28, 4, [1]⟩]⟩,
  ⟨"FAB_SND_STAT", 0x72010, 1, 0x0, 1, 0x0, 60,
    [⟨.ro, "RERUN", 0, 3, [0]⟩, ⟨.ro, "UNSET", 8, 1, [0]⟩, ⟨.ro, "TREE", 9, 1, [0]⟩, ⟨.ro, "BEYOND", 10, 1, [0]⟩, ⟨.ro, "RELEASED", 11, 1, [0]⟩, ⟨.ro, "BBEYOND", 12, 1, [0]⟩, ⟨.ro, "ROUND", 16, 16, [0]⟩]⟩,
  ⟨"FAB_SND_CNT", 0x72014, 1, 0x0, 1, 0x0, 60,
    [⟨.rc, "ROUNDS", 0, 8, [0]⟩, ⟨.rc, "RERUNS", 8, 8, [0]⟩, ⟨.rc, "UNSET", 16, 8, [0]⟩, ⟨.rc, "LATE", 24, 8, [0]⟩]⟩,
  ⟨"FAB_TERM", 0x72018, 1, 0x0, 1, 0x0, 60,
    [⟨.ro, "TERM", 0, 16, [0]⟩]⟩,
  ⟨"FAB_HUID_LO", 0x7201C, 1, 0x0, 1, 0x0, 60,
    [⟨.ro, "V", 0, 32, [0]⟩]⟩,
  ⟨"FAB_HUID_HI", 0x72020, 1, 0x0, 1, 0x0, 60,
    [⟨.ro, "V", 0, 32, [0]⟩]⟩,
  ⟨"FAB_TOPO", 0x72024, 1, 0x0, 1, 0x0, 60,
    [⟨.ro, "KIND", 0, 2, [0]⟩, ⟨.ro, "N", 8, 8, [0]⟩, ⟨.ro, "L", 16, 8, [0]⟩, ⟨.ro, "HPOS", 24, 7, [0]⟩]⟩,
  ⟨"FAB_POS", 0x72028, 1, 0x0, 1, 0x0, 60,
    [⟨.ro, "POS", 0, 7, [0]⟩, ⟨.ro, "RAIL", 7, 1, [0]⟩, ⟨.ro, "DEPTH", 8, 7, [0]⟩, ⟨.ro, "UPSTREAM", 16, 2, [0]⟩, ⟨.ro, "UPV", 18, 1, [0]⟩, ⟨.ro, "DLPORT", 20, 2, [0]⟩, ⟨.ro, "DLV", 22, 1, [0]⟩]⟩,
  ⟨"FAB_BCAST", 0x7202C, 1, 0x0, 1, 0x0, 60,
    [⟨.ro, "PARENT", 0, 2, [0]⟩, ⟨.ro, "PV", 2, 1, [0]⟩, ⟨.ro, "CHILD", 4, 4, [0]⟩]⟩,
  ⟨"FAB_ADDR_HOLD", 0x72030, 1, 0x0, 1, 0x0, 60,
    [⟨.rws, "HOLD_S", 0, 12, [600]⟩]⟩,
  ⟨"FAB_AT_IDX", 0x72034, 1, 0x0, 1, 0x0, 60,
    [⟨.rw, "IDX", 0, 8, [1]⟩]⟩,
  ⟨"FAB_AT_UID_LO", 0x72038, 1, 0x0, 1, 0x0, 60,
    [⟨.ro, "V", 0, 32, [0]⟩]⟩,
  ⟨"FAB_AT_UID_HI", 0x7203C, 1, 0x0, 1, 0x0, 60,
    [⟨.ro, "V", 0, 32, [0]⟩]⟩,
  ⟨"FAB_AT_STATE", 0x72040, 1, 0x0, 1, 0x0, 60,
    [⟨.ro, "STATE", 0, 2, [0]⟩, ⟨.ro, "REMAIN", 4, 12, [0]⟩, ⟨.ro, "ROUND", 16, 16, [0]⟩]⟩,
  ⟨"FAB_AT_SUM", 0x72044, 1, 0x0, 1, 0x0, 60,
    [⟨.ro, "PRES", 0, 8, [0]⟩, ⟨.ro, "HELD", 8, 8, [0]⟩, ⟨.ro, "FREE", 16, 8, [0]⟩, ⟨.ro, "AMAX", 24, 8, [0]⟩]⟩,
  ⟨"FAB_HOST_FWD", 0x72048, 1, 0x0, 1, 0x0, 60,
    [⟨.rws, "F", 0, 6, [61]⟩]⟩,
  ⟨"FAB_HBR_CFG", 0x7204C, 1, 0x0, 1, 0x0, 60,
    [⟨.rws, "LOSS_MS", 0, 10, [20]⟩, ⟨.rws, "LISTEN_MS", 16, 10, [200]⟩]⟩,
  ⟨"FAB_RA_CFG", 0x72050, 1, 0x0, 1, 0x0, 60,
    [⟨.rws, "TMO_MS", 0, 8, [5]⟩, ⟨.rws, "TRIES", 8, 4, [3]⟩, ⟨.rws, "WIN", 12, 3, [4]⟩]⟩,
  ⟨"FAB_RA_STAT", 0x72054, 1, 0x0, 1, 0x0, 60,
    [⟨.ro, "BUSY", 0, 16, [0]⟩, ⟨.ro, "SERV", 16, 8, [0]⟩]⟩,
  ⟨"FAB_RA_CNT0", 0x72058, 1, 0x0, 1, 0x0, 60,
    [⟨.rc, "SERVED", 0, 16, [0]⟩, ⟨.rc, "FENCED", 16, 16, [0]⟩]⟩,
  ⟨"FAB_RA_CNT1", 0x7205C, 1, 0x0, 1, 0x0, 60,
    [⟨.rc, "TMO", 0, 16, [0]⟩, ⟨.rc, "RETRY", 16, 16, [0]⟩]⟩,
  ⟨"FAB_RA_CNT2", 0x72060, 1, 0x0, 1, 0x0, 60,
    [⟨.rc, "DUP", 0, 16, [0]⟩, ⟨.rc, "REF", 16, 16, [0]⟩]⟩,
  ⟨"FAB_MEMRD_CFG", 0x72064, 1, 0x0, 1, 0x0, 60,
    [⟨.rws, "RATE", 0, 4, [4]⟩, ⟨.rws, "MAXS", 4, 4, [2]⟩]⟩,
  ⟨"FAB_MEMRD_STAT", 0x72068, 1, 0x0, 1, 0x0, 60,
    [⟨.ro, "ACT", 0, 4, [0]⟩, ⟨.rc, "DONE", 16, 16, [0]⟩]⟩,
  ⟨"FAB_CWAY_RT", 0x7206C, 1, 0x0, 1, 0x0, 60,
    [⟨.ro, "APORT", 0, 2, [0]⟩, ⟨.ro, "AHOPS", 8, 6, [0]⟩, ⟨.ro, "BPORT", 16, 2, [0]⟩, ⟨.ro, "BV", 18, 1, [0]⟩, ⟨.ro, "BHOPS", 24, 6, [0]⟩]⟩,
  ⟨"FAB_UNSET_CNT", 0x72070, 1, 0x0, 1, 0x0, 60,
    [⟨.ro, "N", 0, 8, [0]⟩]⟩,
  ⟨"FAB_SVC_CFG", 0x72074, 1, 0x0, 1, 0x0, 60,
    [⟨.rws, "WR", 0, 1, [1]⟩]⟩,
  ⟨"FAB_COMMIT_TICK", 0x72078, 1, 0x0, 1, 0x0, 60,
    [⟨.ro, "V", 0, 32, [0]⟩]⟩,
  ⟨"FAB_PORTn_SND", 0x72080, 4, 0x20, 1, 0x0, 60,
    [⟨.ro, "PEER_ADDR", 0, 8, [0xFE]⟩, ⟨.ro, "UNSET", 8, 1, [0]⟩, ⟨.ro, "PARENT", 9, 1, [0]⟩, ⟨.ro, "BCHILD", 10, 1, [0]⟩, ⟨.ro, "RING", 11, 1, [0]⟩, ⟨.ro, "RUNG", 12, 1, [0]⟩]⟩,
  ⟨"FAB_PORTn_SCNTm", 0x72084, 4, 0x20, 5, 0x4, 60,
    [⟨.rc, "V", 0, 32, [0]⟩]⟩,
  ⟨"FAB_RASs_CTRL", 0x72100, 16, 0x20, 1, 0x0, 60,
    [⟨.rw, "DST", 0, 8, [0]⟩, ⟨.rw, "OP", 8, 2, [0]⟩, ⟨.rw, "COUNT", 16, 7, [1]⟩, ⟨.rw, "HOSTTAG", 23, 1, [0]⟩, ⟨.wo, "GO", 31, 1, [0]⟩]⟩,
  ⟨"FAB_RASs_ADDR", 0x72104, 16, 0x20, 1, 0x0, 60,
    [⟨.rw, "V", 0, 32, [0]⟩]⟩,
  ⟨"FAB_RASs_WDATA", 0x72108, 16, 0x20, 1, 0x0, 60,
    [⟨.rw, "V", 0, 32, [0]⟩]⟩,
  ⟨"FAB_RASs_RDATA", 0x7210C, 16, 0x20, 1, 0x0, 60,
    [⟨.ro, "V", 0, 32, [0]⟩]⟩,
  ⟨"FAB_RASs_BUF", 0x72110, 16, 0x20, 1, 0x0, 60,
    [⟨.rw, "V", 0, 32, [0]⟩]⟩,
  ⟨"FAB_RASs_STAT", 0x72114, 16, 0x20, 1, 0x0, 60,
    [⟨.ro, "STATE", 0, 2, [0]⟩, ⟨.ro, "CODE", 8, 8, [0]⟩, ⟨.ro, "DONE_WORDS", 16, 7, [0]⟩, ⟨.ro, "SENT", 24, 3, [0]⟩]⟩,
  ⟨"FAB_RASs_SEQ", 0x72118, 16, 0x20, 1, 0x0, 60,
    [⟨.ro, "SEQ", 0, 16, [0]⟩, ⟨.ro, "TAG", 16, 16, [0]⟩]⟩,
  ⟨"FAB_RASs_LAT", 0x7211C, 16, 0x20, 1, 0x0, 60,
    [⟨.ro, "US", 0, 20, [0]⟩]⟩]

/-- Registers of block FAB, part 3. -/
def regsFAB2 : List RegDesc := [
  ⟨"FAB_RTd", 0x72400, 241, 0x4, 1, 0x0, 16,
    [⟨.rw, "PORT", 0, 2, [0]⟩, ⟨.rw, "VALID", 2, 1, [0]⟩, ⟨.rw, "LOCAL", 4, 1, [0]⟩, ⟨.rw, "ALT", 5, 2, [0]⟩, ⟨.rw, "AVALID", 7, 1, [0]⟩]⟩,
  ⟨"FAB_MAPa", 0x72800, 241, 0x4, 1, 0x0, 60,
    [⟨.ro, "V", 0, 32, [0]⟩]⟩,
  ⟨"FAB_POSa", 0x72C00, 241, 0x4, 1, 0x0, 60,
    [⟨.ro, "POS", 0, 7, [0]⟩, ⟨.ro, "RAIL", 7, 1, [0]⟩, ⟨.ro, "DEPTH", 8, 7, [0]⟩, ⟨.ro, "UPSTREAM", 16, 2, [0]⟩, ⟨.ro, "UPV", 18, 1, [0]⟩, ⟨.ro, "DLPORT", 20, 2, [0]⟩, ⟨.ro, "DLV", 22, 1, [0]⟩]⟩]

/-- The registers of block FAB (Table 17.4). -/
def regsFAB : List RegDesc := regsFAB0 ++ regsFAB1 ++ regsFAB2

/-- Registers of block ENG, part 1. -/
def regsENG0 : List RegDesc := [
  ⟨"ENG_CTRL", 0x80000, 1, 0x0, 1, 0x0, 28,
    [⟨.rws, "RMAX", 0, 4, [4]⟩, ⟨.rws, "RWIN", 4, 12, [600]⟩]⟩,
  ⟨"ENG_STAT", 0x80004, 1, 0x0, 1, 0x0, 28,
    [⟨.ro, "AWAKE", 0, 16, [0]⟩, ⟨.ro, "HALF", 16, 1, [0]⟩]⟩,
  ⟨"ENG_FENCED", 0x80008, 1, 0x0, 1, 0x0, 28,
    [⟨.ro, "F", 0, 16, [0]⟩, ⟨.ro, "PERM", 16, 16, [0]⟩]⟩,
  ⟨"ENG_RESTART", 0x8000C, 1, 0x0, 1, 0x0, 16,
    [⟨.wo, "B", 0, 16, [0]⟩]⟩,
  ⟨"ENG_MBX_TMO", 0x80010, 1, 0x0, 1, 0x0, 62,
    [⟨.rws, "TMO", 0, 8, [4]⟩]⟩,
  ⟨"ENG_PERF_DUMP", 0x80014, 1, 0x0, 1, 0x0, 62,
    [⟨.rw, "N", 0, 16, [0]⟩]⟩,
  ⟨"ENG_PERF_RING", 0x80018, 1, 0x0, 1, 0x0, 28,
    [⟨.rws, "BASE", 0, 10, [480]⟩, ⟨.rws, "DEPTH", 12, 4, [8]⟩, ⟨.ro, "WPTR", 16, 11, [0]⟩]⟩,
  ⟨"ENG_PERF_SEQ", 0x8001C, 1, 0x0, 1, 0x0, 28,
    [⟨.ro, "V", 0, 32, [0]⟩]⟩,
  ⟨"ENG_PERF_LOSS", 0x80020, 1, 0x0, 1, 0x0, 28,
    [⟨.rc, "N", 0, 16, [0]⟩]⟩,
  ⟨"ENG_UPD_CTRL", 0x80024, 1, 0x0, 1, 0x0, 28,
    [⟨.rw, "ENG", 0, 4, [0]⟩, ⟨.rw, "IMG", 8, 8, [0]⟩, ⟨.wo, "GO", 31, 1, [0]⟩]⟩,
  ⟨"ENG_UPD_STAT", 0x80028, 1, 0x0, 1, 0x0, 28,
    [⟨.ro, "CODE", 0, 8, [0]⟩, ⟨.ro, "ENG", 8, 4, [0]⟩]⟩,
  ⟨"ENG_ECC", 0x8002C, 1, 0x0, 1, 0x0, 28,
    [⟨.rc, "CORR", 0, 16, [0]⟩, ⟨.rc, "UNC", 16, 16, [0]⟩]⟩,
  ⟨"ENG_ACC_ERR", 0x80030, 1, 0x0, 1, 0x0, 28,
    [⟨.ro, "ENG", 0, 4, [0]⟩, ⟨.ro, "TYPE", 4, 2, [0]⟩]⟩,
  ⟨"ENG_TRIG", 0x80034, 1, 0x0, 1, 0x0, 28,
    [⟨.ro, "B", 0, 16, [0]⟩]⟩,
  ⟨"ENG_BUILD", 0x80038, 1, 0x0, 1, 0x0, 28,
    [⟨.ro, "V", 0, 32, [0]⟩]⟩,
  ⟨"ENG_ADM", 0x8003C, 1, 0x0, 1, 0x0, 28,
    [⟨.ro, "W", 0, 24, [0]⟩]⟩,
  ⟨"ENG_SHAREDk", 0x80040, 16, 0x4, 1, 0x0, 62,
    [⟨.rw, "V", 0, 32, [0]⟩]⟩,
  ⟨"ENG_SEMk", 0x80080, 32, 0x4, 1, 0x0, 62,
    [⟨.wo, "ACQ", 0, 1, [0]⟩, ⟨.wo, "REL", 1, 1, [0]⟩, ⟨.ro, "OWNER", 16, 5, [0]⟩]⟩,
  ⟨"ENG_n_CTRL", 0x81000, 16, 0x200, 1, 0x0, 28,
    [⟨.rw, "EN", 0, 1, [1]⟩, ⟨.rws, "MBXEV", 1, 1, [1]⟩, ⟨.rws, "LNKEV", 2, 1, [0, 0, 0, 0, 0, 0, 0, 0, 0, 0, 0, 0, 1, 1, 0, 1]⟩, ⟨.ro, "TRIG", 3, 2, [0]⟩]⟩,
  ⟨"ENG_n_STAT", 0x81004, 16, 0x200, 1, 0x0, 28,
    [⟨.ro, "STATE", 0, 3, [0]⟩, ⟨.ro, "POSTED", 3, 1, [0]⟩, ⟨.ro, "OVR", 4, 1, [0]⟩, ⟨.rw1c, "SPOVR", 5, 1, [0]⟩, ⟨.rw1c, "STOVF", 6, 1, [0]⟩, ⟨.ro, "YEC", 8, 9, [0]⟩]⟩,
  ⟨"ENG_n_ENTRY", 0x81008, 16, 0x200, 1, 0x0, 28,
    [⟨.ro, "V", 0, 32, [0]⟩]⟩,
  ⟨"ENG_n_EVENTRY", 0x8100C, 16, 0x200, 1, 0x0, 28,
    [⟨.ro, "V", 0, 32, [0]⟩]⟩,
  ⟨"ENG_n_TRAP", 0x81010, 16, 0x200, 1, 0x0, 28,
    [⟨.ro, "V", 0, 32, [0]⟩]⟩,
  ⟨"ENG_n_TVAL", 0x81014, 16, 0x200, 1, 0x0, 28,
    [⟨.ro, "V", 0, 32, [0]⟩]⟩,
  ⟨"ENG_n_TPC", 0x81018, 16, 0x200, 1, 0x0, 28,
    [⟨.ro, "V", 0, 32, [0]⟩]⟩,
  ⟨"ENG_n_RSTCNT", 0x8101C, 16, 0x200, 1, 0x0, 28,
    [⟨.ro, "N", 0, 16, [0]⟩, ⟨.ro, "WIN", 16, 4, [0]⟩, ⟨.ro, "CAUSE", 24, 8, [0]⟩]⟩,
  ⟨"ENG_n_FWVER", 0x81020, 16, 0x200, 1, 0x0, 28,
    [⟨.ro, "V", 0, 32, [0]⟩]⟩,
  ⟨"ENG_n_LMEM", 0x81024, 16, 0x200, 1, 0x0, 28,
    [⟨.ro, "LEN", 0, 17, [0]⟩, ⟨.ro, "CRCOK", 31, 1, [0]⟩]⟩,
  ⟨"ENG_n_MEMERR", 0x81028, 16, 0x200, 1, 0x0, 28,
    [⟨.rc, "CORR", 0, 16, [0]⟩, ⟨.rc, "UNC", 16, 16, [0]⟩]⟩,
  ⟨"ENG_n_CLK", 0x8102C, 16, 0x200, 1, 0x0, 28,
    [⟨.ro, "DIV", 0, 1, [0]⟩]⟩,
  ⟨"ENG_n_DBG", 0x81030, 16, 0x200, 1, 0x0, 16,
    [⟨.rw, "HALT", 0, 1, [0]⟩, ⟨.wo, "STEP", 1, 1, [0]⟩, ⟨.rw, "BKEN", 2, 1, [0]⟩]⟩,
  ⟨"ENG_n_BKPT", 0x81034, 16, 0x200, 1, 0x0, 16,
    [⟨.rw, "V", 0, 32, [0]⟩]⟩,
  ⟨"ENG_n_STAGE", 0x81038, 16, 0x200, 1, 0x0, 28,
    [⟨.ro, "N", 0, 8, [0]⟩, ⟨.rc, "MAX", 8, 8, [0]⟩]⟩,
  ⟨"ENG_n_EVCNT", 0x8103C, 16, 0x200, 1, 0x0, 28,
    [⟨.ro, "RUN", 0, 8, [0]⟩, ⟨.rc, "DEF", 16, 16, [0]⟩]⟩,
  ⟨"ENG_n_MBX_TXHDR", 0x81040, 16, 0x200, 1, 0x0, 62,
    [⟨.rw, "DST", 0, 4, [0]⟩, ⟨.rw, "TAG", 4, 3, [0]⟩, ⟨.rw, "RREQ", 7, 1, [0]⟩, ⟨.rw, "REPLY", 8, 1, [0]⟩, ⟨.rw, "STATUS", 9, 3, [0]⟩]⟩,
  ⟨"ENG_n_MBX_TXPAY", 0x81044, 16, 0x200, 1, 0x0, 62,
    [⟨.wo, "V", 0, 32, [0]⟩]⟩,
  ⟨"ENG_n_MBX_TXSTAT", 0x81048, 16, 0x200, 1, 0x0, 62,
    [⟨.ro, "BUSY", 0, 1, [0]⟩, ⟨.ro, "TAGS", 8, 8, [0]⟩, ⟨.rc, "FDROP", 16, 8, [0]⟩, ⟨.rc, "REF", 24, 8, [0]⟩]⟩,
  ⟨"ENG_n_MBX_RXHDR", 0x8104C, 16, 0x200, 1, 0x0, 62,
    [⟨.ro, "SRC", 0, 4, [0]⟩, ⟨.ro, "TAG", 4, 3, [0]⟩, ⟨.ro, "RREQ", 7, 1, [0]⟩, ⟨.ro, "REPLY", 8, 1, [0]⟩, ⟨.ro, "STATUS", 9, 3, [0]⟩, ⟨.ro, "EMPTY", 31, 1, [1]⟩]⟩,
  ⟨"ENG_n_MBX_RXPAY", 0x81050, 16, 0x200, 1, 0x0, 62,
    [⟨.ro, "V", 0, 32, [0]⟩]⟩,
  ⟨"ENG_n_MBX_RXPOP", 0x81054, 16, 0x200, 1, 0x0, 62,
    [⟨.wo, "POP", 0, 1, [0]⟩]⟩]

/-- Registers of block ENG, part 2. -/
def regsENG1 : List RegDesc := [
  ⟨"ENG_n_MBX_RXSTAT", 0x81058, 16, 0x200, 1, 0x0, 62,
    [⟨.ro, "COUNT", 0, 5, [0]⟩, ⟨.rc, "HWM", 8, 5, [0]⟩, ⟨.rc, "DROP", 16, 16, [0]⟩]⟩,
  ⟨"ENG_n_MBX_CFG", 0x8105C, 16, 0x200, 1, 0x0, 62,
    [⟨.rws, "WM", 0, 5, [1]⟩]⟩,
  ⟨"ENG_n_TASKt_CFG", 0x81080, 16, 0x200, 16, 0x4, 28,
    [⟨.ro, "COST", 0, 20, [0]⟩, ⟨.ro, "UNIT", 20, 2, [3]⟩, ⟨.ro, "ESS", 22, 1, [0]⟩, ⟨.ro, "PRE", 23, 1, [0]⟩, ⟨.ro, "COUNT", 24, 7, [0]⟩]⟩,
  ⟨"ENG_n_TASKt_USED", 0x810C0, 16, 0x200, 16, 0x4, 28,
    [⟨.rc, "MAX", 0, 20, [0]⟩, ⟨.rw1c, "EXC", 31, 1, [0]⟩]⟩,
  ⟨"ENG_n_CYC_LO", 0x81100, 16, 0x200, 1, 0x0, 28,
    [⟨.ro, "V", 0, 32, [0]⟩]⟩,
  ⟨"ENG_n_CYC_HI", 0x81104, 16, 0x200, 1, 0x0, 28,
    [⟨.ro, "V", 0, 32, [0]⟩]⟩,
  ⟨"ENG_n_PERF_OVF", 0x81108, 16, 0x200, 1, 0x0, 62,
    [⟨.rw1c, "PMC", 0, 6, [0]⟩, ⟨.rw1c, "CYC", 6, 1, [0]⟩]⟩,
  ⟨"ENG_n_PERF_UACC", 0x8110C, 16, 0x200, 1, 0x0, 62,
    [⟨.rw, "CY", 0, 1, [0]⟩, ⟨.rw, "PM", 1, 6, [0]⟩]⟩,
  ⟨"ENG_n_PMCk_SEL", 0x81110, 16, 0x200, 6, 0x4, 62,
    [⟨.rw, "EVT", 0, 8, [0]⟩]⟩,
  ⟨"ENG_n_YST", 0x81128, 16, 0x200, 1, 0x0, 28,
    [⟨.ro, "SAT", 0, 4, [0]⟩]⟩,
  ⟨"ENG_n_TICKSEQ", 0x8112C, 16, 0x200, 1, 0x0, 28,
    [⟨.ro, "V", 0, 32, [0]⟩]⟩,
  ⟨"ENG_n_PMCk_LO", 0x81140, 16, 0x200, 6, 0x8, 62,
    [⟨.rw, "V", 0, 32, [0]⟩]⟩,
  ⟨"ENG_n_PMCk_HI", 0x81144, 16, 0x200, 6, 0x8, 62,
    [⟨.rw, "V", 0, 16, [0]⟩]⟩]

/-- The registers of block ENG (Table 17.4). -/
def regsENG : List RegDesc := regsENG0 ++ regsENG1

/-- Registers of block MEM, part 1. -/
def regsMEM0 : List RegDesc := [
  ⟨"MEM_CTRL", 0x90000, 1, 0x0, 1, 0x0, 60,
    [⟨.rws, "SCRUB_EN", 0, 1, [1]⟩]⟩,
  ⟨"MEM_RETAIN", 0x90004, 1, 0x0, 1, 0x0, 62,
    [⟨.rw, "RETAIN", 0, 1, [0]⟩]⟩,
  ⟨"MEM_STAT", 0x90008, 1, 0x0, 1, 0x0, 60,
    [⟨.ro, "LTLOST", 0, 1, [0]⟩, ⟨.ro, "BANK", 1, 1, [0]⟩, ⟨.ro, "FLUSHING", 2, 1, [0]⟩]⟩,
  ⟨"MEM_LG_ECC", 0x9000C, 1, 0x0, 1, 0x0, 60,
    [⟨.rc, "CORR", 0, 16, [0]⟩, ⟨.rc, "UNC", 16, 16, [0]⟩]⟩,
  ⟨"MEM_LT_ECC", 0x90010, 1, 0x0, 1, 0x0, 60,
    [⟨.rc, "CORR", 0, 16, [0]⟩, ⟨.rc, "UNC", 16, 16, [0]⟩]⟩,
  ⟨"MEM_SCRUB_CFG", 0x90014, 1, 0x0, 1, 0x0, 60,
    [⟨.rws, "PASS_MIN", 0, 12, [60]⟩]⟩,
  ⟨"MEM_SCRUB_STAT", 0x90018, 1, 0x0, 1, 0x0, 60,
    [⟨.ro, "PASSES", 0, 16, [0]⟩, ⟨.ro, "PROG", 24, 8, [0]⟩]⟩,
  ⟨"MEM_LT_FLUSH", 0x9001C, 1, 0x0, 1, 0x0, 60,
    [⟨.ro, "N", 0, 16, [0]⟩, ⟨.rc, "FAIL", 16, 16, [0]⟩]⟩,
  ⟨"MEM_LT_GEN", 0x90020, 1, 0x0, 1, 0x0, 60,
    [⟨.ro, "V", 0, 32, [0]⟩]⟩,
  ⟨"MEM_LT_T_LO", 0x90024, 1, 0x0, 1, 0x0, 60,
    [⟨.ro, "V", 0, 32, [0]⟩]⟩,
  ⟨"MEM_LT_T_HI", 0x90028, 1, 0x0, 1, 0x0, 60,
    [⟨.ro, "V", 0, 32, [0]⟩]⟩,
  ⟨"MEM_LT_CTRL", 0x9002C, 1, 0x0, 1, 0x0, 60,
    [⟨.wo, "FLUSH", 0, 1, [0]⟩, ⟨.wo, "CLEAR", 1, 1, [0]⟩]⟩,
  ⟨"MEM_LT_KEY", 0x90030, 1, 0x0, 1, 0x0, 60,
    [⟨.wo, "KEY", 0, 16, [0]⟩]⟩,
  ⟨"MEM_LT_VBND", 0x90034, 1, 0x0, 1, 0x0, 60,
    [⟨.rws, "E1", 0, 8, [150]⟩, ⟨.rws, "E2", 8, 8, [180]⟩, ⟨.rws, "E3", 16, 8, [205]⟩]⟩,
  ⟨"MEM_LT_TBND", 0x90038, 1, 0x0, 1, 0x0, 60,
    [⟨.rws, "E1", 0, 8, [0]⟩, ⟨.rws, "E2", 8, 8, [25]⟩, ⟨.rws, "E3", 16, 8, [45]⟩]⟩,
  ⟨"MEM_LT_IBND", 0x9003C, 1, 0x0, 1, 0x0, 60,
    [⟨.rws, "STEP", 0, 16, [250]⟩]⟩,
  ⟨"MEM_WINw_BASE_FIX", 0x90100, 4, 0x10, 1, 0x0, 60,
    [⟨.ro, "B", 16, 16, [0, 64, 144, 180]⟩]⟩,
  ⟨"MEM_WINw_LIMIT_FIX", 0x90104, 4, 0x10, 1, 0x0, 60,
    [⟨.ro, "L", 16, 16, [63, 143, 179, 183]⟩]⟩,
  ⟨"MEM_WINw_PERM_FIX", 0x90108, 4, 0x10, 1, 0x0, 60,
    [⟨.ro, "P", 0, 19, [0x40000, 0x40000, 0x78000, 0x40000]⟩]⟩,
  ⟨"MEM_WINw_STAT", 0x9010C, 16, 0x10, 1, 0x0, 60,
    [⟨.rc, "REF", 0, 16, [0]⟩]⟩,
  ⟨"MEM_WINw_BASE", 0x90140, 12, 0x10, 1, 0x0, 60,
    [⟨.rws, "B", 16, 16, [0]⟩]⟩,
  ⟨"MEM_WINw_LIMIT", 0x90144, 12, 0x10, 1, 0x0, 60,
    [⟨.rws, "L", 16, 16, [0]⟩]⟩,
  ⟨"MEM_WINw_PERM", 0x90148, 12, 0x10, 1, 0x0, 60,
    [⟨.rws, "P", 0, 19, [0]⟩]⟩,
  ⟨"MEM_LTAa_BASE", 0x90200, 16, 0x10, 1, 0x0, 60,
    [⟨.ro, "V", 0, 32, [0, 4096, 0x3000, 0x5000, 0x10000, 0x100000, 0, 0, 0, 0, 0, 0, 0, 0, 0xFFE000, 0xFFF000]⟩]⟩,
  ⟨"MEM_LTAa_SIZE", 0x90204, 16, 0x10, 1, 0x0, 60,
    [⟨.ro, "V", 0, 32, [4096, 8192, 8192, 8192, 0x10000, 0x400000, 0, 0, 0, 0, 0, 0, 0, 0, 4096, 4096]⟩]⟩,
  ⟨"MEM_LTAa_PERM_LOW", 0x90208, 4, 0x10, 1, 0x0, 60,
    [⟨.ro, "P", 0, 19, [0]⟩]⟩,
  ⟨"MEM_LTAa_STAT", 0x9020C, 16, 0x10, 1, 0x0, 60,
    [⟨.rc, "UNC", 0, 16, [0]⟩]⟩,
  ⟨"MEM_LTA4_PERM", 0x90248, 1, 0x0, 1, 0x0, 60,
    [⟨.rws, "P", 0, 19, [0x38000]⟩]⟩,
  ⟨"MEM_LTAa_PERM_HIGH", 0x90258, 11, 0x10, 1, 0x0, 60,
    [⟨.ro, "P", 0, 19, [0]⟩]⟩,
  ⟨"MEM_ECAPe_ADDR", 0x90300, 8, 0x20, 1, 0x0, 60,
    [⟨.ro, "V", 0, 32, [0]⟩]⟩,
  ⟨"MEM_ECAPe_INIT", 0x90304, 8, 0x20, 1, 0x0, 60,
    [⟨.ro, "V", 0, 8, [0]⟩]⟩,
  ⟨"MEM_ECAPe_SYN", 0x90308, 8, 0x20, 1, 0x0, 60,
    [⟨.ro, "V", 0, 16, [0]⟩]⟩,
  ⟨"MEM_ECAPe_TLO", 0x9030C, 8, 0x20, 1, 0x0, 60,
    [⟨.ro, "V", 0, 32, [0]⟩]⟩,
  ⟨"MEM_ECAPe_THI", 0x90310, 8, 0x20, 1, 0x0, 60,
    [⟨.ro, "V", 0, 32, [0]⟩]⟩,
  ⟨"MEM_ECAPe_INFO", 0x90314, 8, 0x20, 1, 0x0, 60,
    [⟨.ro, "MEMORY", 0, 1, [0]⟩, ⟨.ro, "UNCORR", 1, 1, [0]⟩, ⟨.ro, "VALID", 31, 1, [0]⟩]⟩]

/-- The registers of block MEM (Table 17.4). -/
def regsMEM : List RegDesc := regsMEM0

/-- Registers of block FCR, part 1. -/
def regsFCR0 : List RegDesc := [
  ⟨"FCR_STATUS", 0xA0000, 1, 0x0, 1, 0x0, 28,
    [⟨.ro, "SRC", 0, 16, [0]⟩, ⟨.ro, "FATAL", 31, 1, [0]⟩]⟩,
  ⟨"FCR_ACK", 0xA0004, 1, 0x0, 1, 0x0, 62,
    [⟨.wo, "SRC", 0, 16, [0]⟩, ⟨.wo, "FATAL", 31, 1, [0]⟩]⟩,
  ⟨"FCR_ACTIVE", 0xA0008, 1, 0x0, 1, 0x0, 28,
    [⟨.ro, "SRC", 0, 16, [0]⟩, ⟨.ro, "FOK", 30, 1, [0]⟩, ⟨.ro, "FSTAND", 31, 1, [0]⟩]⟩,
  ⟨"FCR_CTRL", 0xA000C, 1, 0x0, 1, 0x0, 28,
    [⟨.rws, "CORQ", 0, 1, [0]⟩, ⟨.rws, "NTF", 1, 1, [1]⟩]⟩,
  ⟨"FCR_QUIET", 0xA0010, 1, 0x0, 1, 0x0, 28,
    [⟨.rws, "MS", 0, 16, [1000]⟩]⟩,
  ⟨"FCR_SHADOW", 0xA0014, 1, 0x0, 1, 0x0, 28,
    [⟨.rws, "US", 0, 11, [200]⟩, ⟨.ro, "OPEN", 15, 1, [0]⟩, ⟨.rc, "CONSEQ", 16, 16, [0]⟩]⟩,
  ⟨"FCR_CORR_LIM", 0xA0018, 1, 0x0, 1, 0x0, 28,
    [⟨.rws, "LIM", 0, 16, [64]⟩]⟩,
  ⟨"FCR_FORCE", 0xA001C, 1, 0x0, 1, 0x0, 28,
    [⟨.wo, "SRC", 0, 16, [0]⟩]⟩,
  ⟨"FCR_FORCE_EN", 0xA0020, 1, 0x0, 1, 0x0, 28,
    [⟨.rws, "EN", 0, 1, [0]⟩]⟩,
  ⟨"FCR_FORCE_CODE", 0xA0024, 1, 0x0, 1, 0x0, 28,
    [⟨.rw, "CODE", 0, 8, [0]⟩, ⟨.rw, "INST", 8, 8, [0]⟩]⟩,
  ⟨"FCR_Q_STAT", 0xA0028, 1, 0x0, 1, 0x0, 28,
    [⟨.ro, "COUNT", 0, 6, [0]⟩, ⟨.ro, "NEWEST", 8, 5, [0]⟩, ⟨.ro, "FULL", 16, 1, [0]⟩, ⟨.rc, "OVF", 24, 8, [0]⟩]⟩,
  ⟨"FCR_Q_OCC", 0xA002C, 1, 0x0, 1, 0x0, 28,
    [⟨.ro, "V", 0, 32, [0]⟩]⟩,
  ⟨"FCR_FB_ADDR", 0xA0030, 1, 0x0, 1, 0x0, 28,
    [⟨.ro, "V", 0, 32, [0]⟩]⟩,
  ⟨"FCR_FB_INFO", 0xA0034, 1, 0x0, 1, 0x0, 62,
    [⟨.rw1c, "VALID", 0, 1, [0]⟩, ⟨.ro, "TYPE", 1, 2, [0]⟩, ⟨.ro, "INIT", 3, 5, [0]⟩, ⟨.ro, "SRC", 8, 4, [0]⟩, ⟨.ro, "CLASS", 12, 2, [0]⟩, ⟨.ro, "CODE", 16, 8, [0]⟩, ⟨.ro, "MORE", 24, 8, [0]⟩]⟩,
  ⟨"FCR_FB_T_LO", 0xA0038, 1, 0x0, 1, 0x0, 28,
    [⟨.ro, "V", 0, 32, [0]⟩]⟩,
  ⟨"FCR_FB_T_HI", 0xA003C, 1, 0x0, 1, 0x0, 28,
    [⟨.ro, "V", 0, 32, [0]⟩]⟩,
  ⟨"FCR_SRCs_STAT", 0xA0100, 16, 0x8, 1, 0x0, 28,
    [⟨.ro, "ACTIVE", 0, 1, [0]⟩, ⟨.ro, "CLASS", 1, 2, [0]⟩, ⟨.ro, "QUIET", 3, 1, [0]⟩, ⟨.ro, "CODE", 8, 8, [0]⟩, ⟨.ro, "QREM", 16, 16, [0]⟩]⟩,
  ⟨"FCR_SRCs_CNT", 0xA0104, 16, 0x8, 1, 0x0, 28,
    [⟨.ro, "REC", 0, 16, [0]⟩, ⟨.rc, "CORR", 16, 16, [0]⟩]⟩,
  ⟨"FCR_HQi_INFO", 0xA0400, 32, 0x20, 1, 0x0, 28,
    [⟨.ro, "SRC", 0, 4, [0]⟩, ⟨.ro, "CLASS", 4, 2, [0]⟩, ⟨.ro, "CONSEQ", 6, 1, [0]⟩, ⟨.ro, "FORCED", 7, 1, [0]⟩, ⟨.ro, "CODE", 8, 8, [0]⟩, ⟨.ro, "REPEAT", 16, 8, [0]⟩, ⟨.ro, "CAUSE", 24, 5, [0]⟩, ⟨.ro, "ACTIVE", 29, 1, [0]⟩, ⟨.ro, "VALID", 31, 1, [0]⟩]⟩,
  ⟨"FCR_HQi_TLO", 0xA0404, 32, 0x20, 1, 0x0, 28,
    [⟨.ro, "V", 0, 32, [0]⟩]⟩,
  ⟨"FCR_HQi_THI", 0xA0408, 32, 0x20, 1, 0x0, 28,
    [⟨.ro, "V", 0, 32, [0]⟩]⟩,
  ⟨"FCR_HQi_D0", 0xA040C, 32, 0x20, 1, 0x0, 28,
    [⟨.ro, "V", 0, 32, [0]⟩]⟩,
  ⟨"FCR_HQi_D1", 0xA0410, 32, 0x20, 1, 0x0, 28,
    [⟨.ro, "V", 0, 32, [0]⟩]⟩]

/-- The registers of block FCR (Table 17.4). -/
def regsFCR : List RegDesc := regsFCR0

/-- The registers of the block that holds address `a` (Table 17.1). -/
def blockRegs (a : Nat) : List RegDesc :=
  match a / 0x10000 with
  | 0 => regsMGT
  | 1 => regsTMG
  | 2 => regsCMF
  | 3 => regsCSI
  | 4 => regsAUX
  | 5 => regsBAL
  | 6 => regsPSF
  | 7 => regsFAB
  | 8 => regsENG
  | 9 => regsMEM
  | 10 => regsFCR
  | _ => []

/-- The array indices of address `a` in row `r`, if `a` is one of its instances. -/
def RegDesc.indexOf? (r : RegDesc) (a : Nat) : Option (Nat × Nat) :=
  if a < r.first then none
  else
    let o := a - r.first
    let i := if r.s1 = 0 then 0 else o / r.s1
    let o1 := o - i * r.s1
    let j := if r.s2 = 0 then 0 else o1 / r.s2
    if i < r.n1 ∧ j < r.n2 ∧ o1 = j * r.s2 then some (i, j) else none

/-- The row and indices of the register at address `a` (R444: none where no register lies). -/
def findReg : List RegDesc → Nat → Option (RegDesc × Nat × Nat)
  | [], _ => none
  | r :: t, a =>
    match r.indexOf? a with
    | some (i, j) => some (r, i, j)
    | none => findReg t a

/-- The register at address `a` (DESIGN CHOICE, log entry 1). -/
def regAt (a : Nat) : Option (RegDesc × Nat × Nat) := findReg (blockRegs a) a

/-- The reset value of a field in instance `i` (DESIGN CHOICE, log entry 1). -/
def FieldDesc.resetOf : List Nat → Nat → Nat
  | [], _ => 0
  | [x], _ => x
  | x :: _, 0 => x
  | _ :: t, i + 1 => FieldDesc.resetOf t i

/-- The reset word of row `r` in instance `i`. -/
def RegDesc.resetWord (r : RegDesc) (i : Nat) : Word :=
  BitVec.ofNat 32 ((r.fields.map fun f => FieldDesc.resetOf f.resets i * 2 ^ f.lo).foldl (· + ·) 0)

/-- The reset word of address `a`, 0 where no register lies (DESIGN CHOICE, log entry 1). -/
def resetWord (a : Nat) : Word :=
  match regAt a with
  | some (r, i, _) => r.resetWord i
  | none => 0

/-- Every register row of the part. -/
def allRegs : List RegDesc :=
  regsMGT ++ regsTMG ++ regsCMF ++ regsCSI ++ regsAUX ++ regsBAL ++ regsPSF ++ regsFAB ++ regsENG ++ regsMEM ++ regsFCR

/-- Where the low words of the 64-bit registers lie: first address, instances and stride in two indices (R9). -/
structure PairDesc where
  first : Nat
  n1 : Nat
  s1 : Nat
  n2 : Nat
  s2 : Nat
  deriving DecidableEq, Repr

/-- The 64-bit registers (R9, R450). -/
def pairRows : List PairDesc := [
  ⟨0x10010, 1, 0x0, 1, 0x0⟩,
  ⟨0x10018, 1, 0x0, 1, 0x0⟩,
  ⟨0x10020, 1, 0x0, 1, 0x0⟩,
  ⟨0x10028, 1, 0x0, 1, 0x0⟩,
  ⟨0x60014, 1, 0x0, 1, 0x0⟩,
  ⟨0x60400, 16, 0x10, 1, 0x0⟩,
  ⟨0xA0038, 1, 0x0, 1, 0x0⟩,
  ⟨0xA0404, 32, 0x20, 1, 0x0⟩,
  ⟨0x20C, 1, 0x0, 1, 0x0⟩,
  ⟨0x240, 1, 0x0, 1, 0x0⟩,
  ⟨0x70010, 1, 0x0, 1, 0x0⟩,
  ⟨0x7001C, 1, 0x0, 1, 0x0⟩,
  ⟨0x71010, 4, 0x100, 1, 0x0⟩,
  ⟨0x7201C, 1, 0x0, 1, 0x0⟩,
  ⟨0x72038, 1, 0x0, 1, 0x0⟩,
  ⟨0x2001C, 1, 0x0, 1, 0x0⟩,
  ⟨0x30018, 1, 0x0, 1, 0x0⟩,
  ⟨0x30024, 1, 0x0, 1, 0x0⟩,
  ⟨0x30030, 1, 0x0, 1, 0x0⟩,
  ⟨0x302E8, 1, 0x0, 1, 0x0⟩,
  ⟨0x40600, 16, 0x10, 1, 0x0⟩,
  ⟨0x40700, 16, 0x10, 1, 0x0⟩,
  ⟨0x81100, 16, 0x200, 1, 0x0⟩,
  ⟨0x81140, 16, 0x200, 6, 0x8⟩,
  ⟨0x2A0, 1, 0x0, 1, 0x0⟩,
  ⟨0x10, 1, 0x0, 1, 0x0⟩,
  ⟨0x28, 4, 0x10, 1, 0x0⟩,
  ⟨0x90024, 1, 0x0, 1, 0x0⟩,
  ⟨0x9030C, 8, 0x20, 1, 0x0⟩,
  ⟨0x610, 2, 0x80, 1, 0x0⟩,
  ⟨0x624, 2, 0x80, 1, 0x0⟩]

/-- Address `a` holds the low word of a 64-bit register. -/
def isLowWord (a : Nat) : Bool :=
  pairRows.any fun r => (RegDesc.indexOf? ⟨"", r.first, r.n1, r.s1, r.n2, r.s2, 0, []⟩ a).isSome

end Sys2Proof.Machine
end

