-- ==== Sys2Proof/Machine/RegNames.lean ====
section
/-! DEFINITION. The names of the registers and fields the meanings use: addresses of the register map, and fields of them.
An array register takes its index, as in the manual. -/

namespace Sys2Proof.Machine

/-- A field of a register: address, lowest bit, width. -/
structure Fld where
  addr : Nat
  lo : Nat
  width : Nat
  deriving DecidableEq, Repr

/-- TMG_CTRL (Table 2.6). -/
def TMG_CTRL : Nat := 0x10000
/-- EN[0:0], RW. -/
def TMG_CTRL_EN : Fld := ⟨TMG_CTRL, 0, 1⟩
/-- TMG_PERIOD (Table 2.6). -/
def TMG_PERIOD : Nat := 0x10004
/-- P_US[19:0], RWS. -/
def TMG_PERIOD_P_US : Fld := ⟨TMG_PERIOD, 0, 20⟩
/-- TMG_PERIOD_ACT (Table 2.6). -/
def TMG_PERIOD_ACT : Nat := 0x10008
/-- P[19:0], RO. -/
def TMG_PERIOD_ACT_P : Fld := ⟨TMG_PERIOD_ACT, 0, 20⟩
/-- TMG_LEAD (Table 2.6). -/
def TMG_LEAD : Nat := 0x1000C
/-- LEAD_US[6:0], RWS. -/
def TMG_LEAD_LEAD_US : Fld := ⟨TMG_LEAD, 0, 7⟩
/-- TMG_FT_LO (Table 2.6). -/
def TMG_FT_LO : Nat := 0x10010
/-- TMG_TICK_LO (Table 2.6). -/
def TMG_TICK_LO : Nat := 0x10018
/-- TMG_EPOCH_LO (Table 2.6). -/
def TMG_EPOCH_LO : Nat := 0x10020
/-- TMG_UTC_OFS_LO (Table 2.6). -/
def TMG_UTC_OFS_LO : Nat := 0x10028
/-- TMG_STAT (Table 2.6). -/
def TMG_STAT : Nat := 0x10030
/-- STATE[1:0], RO. -/
def TMG_STAT_STATE : Fld := ⟨TMG_STAT, 0, 2⟩
/-- UPSTREAM[3:2], RO. -/
def TMG_STAT_UPSTREAM : Fld := ⟨TMG_STAT, 2, 2⟩
/-- HARBOUR[4:4], RO. -/
def TMG_STAT_HARBOUR : Fld := ⟨TMG_STAT, 4, 1⟩
/-- PCHG_PEND[5:5], RO. -/
def TMG_STAT_PCHG_PEND : Fld := ⟨TMG_STAT, 5, 1⟩
/-- LATE[6:6], RW1C. -/
def TMG_STAT_LATE : Fld := ⟨TMG_STAT, 6, 1⟩
/-- INCOH[7:7], RW1C. -/
def TMG_STAT_INCOH : Fld := ⟨TMG_STAT, 7, 1⟩
/-- NB[30:16], RO. -/
def TMG_STAT_NB : Fld := ⟨TMG_STAT, 16, 15⟩
/-- TMG_PATH_OFS (Table 2.6). -/
def TMG_PATH_OFS : Nat := 0x10034
/-- V[31:0], RO. -/
def TMG_PATH_OFS_V : Fld := ⟨TMG_PATH_OFS, 0, 32⟩
/-- TMG_PHASE_ERR (Table 2.6). -/
def TMG_PHASE_ERR : Nat := 0x10038
/-- V[31:0], RO. -/
def TMG_PHASE_ERR_V : Fld := ⟨TMG_PHASE_ERR, 0, 32⟩
/-- TMG_SERVO (Table 2.6). -/
def TMG_SERVO : Nat := 0x1003C
/-- GAIN[1:0], RWS. -/
def TMG_SERVO_GAIN : Fld := ⟨TMG_SERVO, 0, 2⟩
/-- OUTLIER[7:2], RWS. -/
def TMG_SERVO_OUTLIER : Fld := ⟨TMG_SERVO, 2, 6⟩
/-- HOLD_MAX[15:8], RWS. -/
def TMG_SERVO_HOLD_MAX : Fld := ⟨TMG_SERVO, 8, 8⟩
/-- TMG_TICK_REJ (Table 2.6). -/
def TMG_TICK_REJ : Nat := 0x10040
/-- OUTL[15:0], RC. -/
def TMG_TICK_REJ_OUTL : Fld := ⟨TMG_TICK_REJ, 0, 16⟩
/-- HAZ[31:16], RC. -/
def TMG_TICK_REJ_HAZ : Fld := ⟨TMG_TICK_REJ, 16, 16⟩
/-- TMG_HOLD_CNT (Table 2.6). -/
def TMG_HOLD_CNT : Nat := 0x10044
/-- RUN[15:0], RO. -/
def TMG_HOLD_CNT_RUN : Fld := ⟨TMG_HOLD_CNT, 0, 16⟩
/-- TOTAL[31:16], RO. -/
def TMG_HOLD_CNT_TOTAL : Fld := ⟨TMG_HOLD_CNT, 16, 16⟩
/-- TMG_BANK_DL (Table 2.6). -/
def TMG_BANK_DL : Nat := 0x10048
/-- DL[2:0], RWS. -/
def TMG_BANK_DL_DL : Fld := ⟨TMG_BANK_DL, 0, 3⟩
/-- TMG_OVR_CFG (Table 2.6). -/
def TMG_OVR_CFG : Nat := 0x1004C
/-- MAX[3:0], RWS. -/
def TMG_OVR_CFG_MAX : Fld := ⟨TMG_OVR_CFG, 0, 4⟩
/-- TMG_PORTn_DLY (Table 2.6). -/
def TMG_PORTn_DLY (n : Nat) : Nat := 0x10050 + n * 0x4
/-- D[23:0], RO. -/
def TMG_PORTn_DLY_D (n : Nat) : Fld := ⟨TMG_PORTn_DLY n, 0, 24⟩
/-- VALID[31:31], RO. -/
def TMG_PORTn_DLY_VALID (n : Nat) : Fld := ⟨TMG_PORTn_DLY n, 31, 1⟩
/-- TMG_PORTn_ASYM (Table 2.6). -/
def TMG_PORTn_ASYM (n : Nat) : Nat := 0x10060 + n * 0x4
/-- TMG_PORTn_XCNT (Table 2.6). -/
def TMG_PORTn_XCNT (n : Nat) : Nat := 0x10070 + n * 0x4
/-- N[15:0], RC. -/
def TMG_PORTn_XCNT_N (n : Nat) : Fld := ⟨TMG_PORTn_XCNT n, 0, 16⟩
/-- DISC[31:16], RC. -/
def TMG_PORTn_XCNT_DISC (n : Nat) : Fld := ⟨TMG_PORTn_XCNT n, 16, 16⟩
/-- TMG_ENGn_ADM (Table 2.6). -/
def TMG_ENGn_ADM (n : Nat) : Nat := 0x10080 + n * 0x4
/-- CYC[27:0], RO. -/
def TMG_ENGn_ADM_CYC (n : Nat) : Fld := ⟨TMG_ENGn_ADM n, 0, 28⟩
/-- TMG_ENGn_CYC (Table 2.6). -/
def TMG_ENGn_CYC (n : Nat) : Nat := 0x100C0 + n * 0x4
/-- CYC[27:0], RO. -/
def TMG_ENGn_CYC_CYC (n : Nat) : Fld := ⟨TMG_ENGn_CYC n, 0, 28⟩
/-- TMG_ENGn_PEAK (Table 2.6). -/
def TMG_ENGn_PEAK (n : Nat) : Nat := 0x10100 + n * 0x4
/-- CYC[27:0], RO. -/
def TMG_ENGn_PEAK_CYC (n : Nat) : Fld := ⟨TMG_ENGn_PEAK n, 0, 28⟩
/-- TMG_ENGn_OVR (Table 2.6). -/
def TMG_ENGn_OVR (n : Nat) : Nat := 0x10140 + n * 0x4
/-- N[15:0], RC. -/
def TMG_ENGn_OVR_N (n : Nat) : Fld := ⟨TMG_ENGn_OVR n, 0, 16⟩
/-- RUN[19:16], RC. -/
def TMG_ENGn_OVR_RUN (n : Nat) : Fld := ⟨TMG_ENGn_OVR n, 16, 4⟩
/-- PSF_CTRL (Table 11.12). -/
def PSF_CTRL : Nat := 0x60000
/-- DCST_EN[0:0], RWS. -/
def PSF_CTRL_DCST_EN : Fld := ⟨PSF_CTRL, 0, 1⟩
/-- SCST_EN[1:1], RWS. -/
def PSF_CTRL_SCST_EN : Fld := ⟨PSF_CTRL, 1, 1⟩
/-- PSF_STAT (Table 11.12). -/
def PSF_STAT : Nat := 0x60004
/-- ARMED[0:0], RO. -/
def PSF_STAT_ARMED : Fld := ⟨PSF_STAT, 0, 1⟩
/-- LOCKOUT[1:1], RO. -/
def PSF_STAT_LOCKOUT : Fld := ⟨PSF_STAT, 1, 1⟩
/-- HOLD[2:2], RO. -/
def PSF_STAT_HOLD : Fld := ⟨PSF_STAT, 2, 1⟩
/-- OFFDEM[3:3], RO. -/
def PSF_STAT_OFFDEM : Fld := ⟨PSF_STAT, 3, 1⟩
/-- CCD[4:4], RO. -/
def PSF_STAT_CCD : Fld := ⟨PSF_STAT, 4, 1⟩
/-- ILK_SEEN[5:5], RO. -/
def PSF_STAT_ILK_SEEN : Fld := ⟨PSF_STAT, 5, 1⟩
/-- ILK_SELF[6:6], RO. -/
def PSF_STAT_ILK_SELF : Fld := ⟨PSF_STAT, 6, 1⟩
/-- PT_OUT[10:8], RO. -/
def PSF_STAT_PT_OUT : Fld := ⟨PSF_STAT, 8, 3⟩
/-- PSF_DEM_STAT (Table 11.12). -/
def PSF_DEM_STAT : Nat := 0x60008
/-- PSF_DEM_LATCH (Table 11.12). -/
def PSF_DEM_LATCH : Nat := 0x6000C
/-- PSF_DEM_CLR (Table 11.12). -/
def PSF_DEM_CLR : Nat := 0x60010
/-- PSF_DEM_T_LO (Table 11.12). -/
def PSF_DEM_T_LO : Nat := 0x60014
/-- PSF_OFFREQ (Table 11.12). -/
def PSF_OFFREQ : Nat := 0x6001C
/-- PSF_OV_CFG (Table 11.12). -/
def PSF_OV_CFG : Nat := 0x60020
/-- LIM[12:0], RW. -/
def PSF_OV_CFG_LIM : Fld := ⟨PSF_OV_CFG, 0, 13⟩
/-- HYST[19:16], RWS. -/
def PSF_OV_CFG_HYST : Fld := ⟨PSF_OV_CFG, 16, 4⟩
/-- QT[31:24], RWS. -/
def PSF_OV_CFG_QT : Fld := ⟨PSF_OV_CFG, 24, 8⟩
/-- PSF_UV_CFG (Table 11.12). -/
def PSF_UV_CFG : Nat := 0x60024
/-- LIM[12:0], RW. -/
def PSF_UV_CFG_LIM : Fld := ⟨PSF_UV_CFG, 0, 13⟩
/-- HYST[19:16], RWS. -/
def PSF_UV_CFG_HYST : Fld := ⟨PSF_UV_CFG, 16, 4⟩
/-- QT[31:24], RWS. -/
def PSF_UV_CFG_QT : Fld := ⟨PSF_UV_CFG, 24, 8⟩
/-- PSF_OC_CFG (Table 11.12). -/
def PSF_OC_CFG : Nat := 0x60028
/-- CHG[15:0], RW. -/
def PSF_OC_CFG_CHG : Fld := ⟨PSF_OC_CFG, 0, 16⟩
/-- DSG[31:16], RW. -/
def PSF_OC_CFG_DSG : Fld := ⟨PSF_OC_CFG, 16, 16⟩
/-- PSF_OC_QCFG (Table 11.12). -/
def PSF_OC_QCFG : Nat := 0x6002C
/-- QCHG[7:0], RWS. -/
def PSF_OC_QCFG_QCHG : Fld := ⟨PSF_OC_QCFG, 0, 8⟩
/-- QDSG[15:8], RWS. -/
def PSF_OC_QCFG_QDSG : Fld := ⟨PSF_OC_QCFG, 8, 8⟩
/-- HYST[31:16], RWS. -/
def PSF_OC_QCFG_HYST : Fld := ⟨PSF_OC_QCFG, 16, 16⟩
/-- PSF_CCHG_CFG (Table 11.12). -/
def PSF_CCHG_CFG : Nat := 0x60030
/-- I[11:0], RWS. -/
def PSF_CCHG_CFG_I : Fld := ⟨PSF_CCHG_CFG, 0, 12⟩
/-- QT[19:12], RWS. -/
def PSF_CCHG_CFG_QT : Fld := ⟨PSF_CCHG_CFG, 12, 8⟩
/-- PSF_SC_CFG (Table 11.12). -/
def PSF_SC_CFG : Nat := 0x60034
/-- PSF_SC_STAT (Table 11.12). -/
def PSF_SC_STAT : Nat := 0x60038
/-- TRIP[0:0], RW1C. -/
def PSF_SC_STAT_TRIP : Fld := ⟨PSF_SC_STAT, 0, 1⟩
/-- QUIET[1:1], RO. -/
def PSF_SC_STAT_QUIET : Fld := ⟨PSF_SC_STAT, 1, 1⟩
/-- POL[2:2], RO. -/
def PSF_SC_STAT_POL : Fld := ⟨PSF_SC_STAT, 2, 1⟩
/-- CNT[15:8], RO. -/
def PSF_SC_STAT_CNT : Fld := ⟨PSF_SC_STAT, 8, 8⟩
/-- PSF_HAZ_CFG (Table 11.12). -/
def PSF_HAZ_CFG : Nat := 0x6003C
/-- TXMASK[21:0], RWS. -/
def PSF_HAZ_CFG_TXMASK : Fld := ⟨PSF_HAZ_CFG, 0, 22⟩
/-- PSF_HAZ_STAT (Table 11.12). -/
def PSF_HAZ_STAT : Nat := 0x60040
/-- MADE[15:0], RO. -/
def PSF_HAZ_STAT_MADE : Fld := ⟨PSF_HAZ_STAT, 0, 16⟩
/-- RCVD[31:16], RO. -/
def PSF_HAZ_STAT_RCVD : Fld := ⟨PSF_HAZ_STAT, 16, 16⟩
/-- PSF_CHATTER_MAX (Table 11.12). -/
def PSF_CHATTER_MAX : Nat := 0x60044
/-- MAX[7:0], RWS. -/
def PSF_CHATTER_MAX_MAX : Fld := ⟨PSF_CHATTER_MAX, 0, 8⟩
/-- WIN[23:8], RWS. -/
def PSF_CHATTER_MAX_WIN : Fld := ⟨PSF_CHATTER_MAX, 8, 16⟩
/-- PSF_ILK_SELFTEST (Table 11.12). -/
def PSF_ILK_SELFTEST : Nat := 0x60048
/-- EN[0:0], RWS. -/
def PSF_ILK_SELFTEST_EN : Fld := ⟨PSF_ILK_SELFTEST, 0, 1⟩
/-- MS[15:8], RWS. -/
def PSF_ILK_SELFTEST_MS : Fld := ⟨PSF_ILK_SELFTEST, 8, 8⟩
/-- PSF_ARM (Table 11.12). -/
def PSF_ARM : Nat := 0x6004C
/-- PSF_ARM_STAT (Table 11.12). -/
def PSF_ARM_STAT : Nat := 0x60050
/-- CODE[7:0], RO. -/
def PSF_ARM_STAT_CODE : Fld := ⟨PSF_ARM_STAT, 0, 8⟩
/-- PEND[8:8], RO. -/
def PSF_ARM_STAT_PEND : Fld := ⟨PSF_ARM_STAT, 8, 1⟩
/-- REF[31:16], RC. -/
def PSF_ARM_STAT_REF : Fld := ⟨PSF_ARM_STAT, 16, 16⟩
/-- PSF_OUT_CMD (Table 11.12). -/
def PSF_OUT_CMD : Nat := 0x60054
/-- ON[2:0], RW. -/
def PSF_OUT_CMD_ON : Fld := ⟨PSF_OUT_CMD, 0, 3⟩
/-- PSF_PT_CFG (Table 11.12). -/
def PSF_PT_CFG : Nat := 0x60058
/-- PER[5:0], RWS. -/
def PSF_PT_CFG_PER : Fld := ⟨PSF_PT_CFG, 0, 6⟩
/-- W[17:8], RWS. -/
def PSF_PT_CFG_W : Fld := ⟨PSF_PT_CFG, 8, 10⟩
/-- PSF_LOCKOUT_KEY (Table 11.12). -/
def PSF_LOCKOUT_KEY : Nat := 0x6005C
/-- PSF_LOCKOUT_STAT (Table 11.12). -/
def PSF_LOCKOUT_STAT : Nat := 0x60060
/-- LOCK[0:0], RO. -/
def PSF_LOCKOUT_STAT_LOCK : Fld := ⟨PSF_LOCKOUT_STAT, 0, 1⟩
/-- KEYOK[1:1], RO. -/
def PSF_LOCKOUT_STAT_KEYOK : Fld := ⟨PSF_LOCKOUT_STAT, 1, 1⟩
/-- ILKCYC[2:2], RO. -/
def PSF_LOCKOUT_STAT_ILKCYC : Fld := ⟨PSF_LOCKOUT_STAT, 2, 1⟩
/-- CAUSE[7:4], RO. -/
def PSF_LOCKOUT_STAT_CAUSE : Fld := ⟨PSF_LOCKOUT_STAT, 4, 4⟩
/-- OUT[9:8], RO. -/
def PSF_LOCKOUT_STAT_OUT : Fld := ⟨PSF_LOCKOUT_STAT, 8, 2⟩
/-- KEYERR[23:16], RC. -/
def PSF_LOCKOUT_STAT_KEYERR : Fld := ⟨PSF_LOCKOUT_STAT, 16, 8⟩
/-- PSF_ONEPATH_MAX (Table 11.12). -/
def PSF_ONEPATH_MAX : Nat := 0x60064
/-- MAX[3:0], RWS. -/
def PSF_ONEPATH_MAX_MAX : Fld := ⟨PSF_ONEPATH_MAX, 0, 4⟩
/-- PSF_CWAY_CFG (Table 11.12). -/
def PSF_CWAY_CFG : Nat := 0x60068
/-- CYC[9:0], RWS. -/
def PSF_CWAY_CFG_CYC : Fld := ⟨PSF_CWAY_CFG, 0, 10⟩
/-- WAIT[23:12], RWS. -/
def PSF_CWAY_CFG_WAIT : Fld := ⟨PSF_CWAY_CFG, 12, 12⟩
/-- SINGLE_OK[24:24], RWS. -/
def PSF_CWAY_CFG_SINGLE_OK : Fld := ⟨PSF_CWAY_CFG, 24, 1⟩
/-- EN[25:25], RWS. -/
def PSF_CWAY_CFG_EN : Fld := ⟨PSF_CWAY_CFG, 25, 1⟩
/-- HAZCHK[26:26], RWS. -/
def PSF_CWAY_CFG_HAZCHK : Fld := ⟨PSF_CWAY_CFG, 26, 1⟩
/-- PSF_CWAY_STAT (Table 11.12). -/
def PSF_CWAY_STAT : Nat := 0x6006C
/-- BV[0:0], RO. -/
def PSF_CWAY_STAT_BV : Fld := ⟨PSF_CWAY_STAT, 0, 1⟩
/-- SENT[31:16], RO. -/
def PSF_CWAY_STAT_SENT : Fld := ⟨PSF_CWAY_STAT, 16, 16⟩
/-- PSF_CWAY_SEQ (Table 11.12). -/
def PSF_CWAY_SEQ : Nat := 0x60070
/-- PSF_CWAY_CNT0 (Table 11.12). -/
def PSF_CWAY_CNT0 : Nat := 0x60074
/-- TWO[15:0], RC. -/
def PSF_CWAY_CNT0_TWO : Fld := ⟨PSF_CWAY_CNT0, 0, 16⟩
/-- ONE[31:16], RC. -/
def PSF_CWAY_CNT0_ONE : Fld := ⟨PSF_CWAY_CNT0, 16, 16⟩
/-- PSF_CWAY_CNT1 (Table 11.12). -/
def PSF_CWAY_CNT1 : Nat := 0x60078
/-- NONE[7:0], RC. -/
def PSF_CWAY_CNT1_NONE : Fld := ⟨PSF_CWAY_CNT1, 0, 8⟩
/-- SCRC[15:8], RC. -/
def PSF_CWAY_CNT1_SCRC : Fld := ⟨PSF_CWAY_CNT1, 8, 8⟩
/-- WRONG[23:16], RC. -/
def PSF_CWAY_CNT1_WRONG : Fld := ⟨PSF_CWAY_CNT1, 16, 8⟩
/-- NEXP[31:24], RC. -/
def PSF_CWAY_CNT1_NEXP : Fld := ⟨PSF_CWAY_CNT1, 24, 8⟩
/-- PSF_CW_IDX (Table 11.12). -/
def PSF_CW_IDX : Nat := 0x6007C
/-- IDX[7:0], RW. -/
def PSF_CW_IDX_IDX : Fld := ⟨PSF_CW_IDX, 0, 8⟩
/-- PSF_CW_ISL (Table 11.12). -/
def PSF_CW_ISL : Nat := 0x60080
/-- PSF_SAFE_RX (Table 11.12). -/
def PSF_SAFE_RX : Nat := 0x60084
/-- ADDR[7:0], RO. -/
def PSF_SAFE_RX_ADDR : Fld := ⟨PSF_SAFE_RX, 0, 8⟩
/-- REASON[11:8], RO. -/
def PSF_SAFE_RX_REASON : Fld := ⟨PSF_SAFE_RX, 8, 4⟩
/-- CNT[31:16], RC. -/
def PSF_SAFE_RX_CNT : Fld := ⟨PSF_SAFE_RX, 16, 16⟩
/-- PSF_HB_STAT (Table 11.12). -/
def PSF_HB_STAT : Nat := 0x60088
/-- LOST[0:0], RO. -/
def PSF_HB_STAT_LOST : Fld := ⟨PSF_HB_STAT, 0, 1⟩
/-- N[31:16], RC. -/
def PSF_HB_STAT_N : Fld := ⟨PSF_HB_STAT, 16, 16⟩
/-- PSF_DCST_STAT (Table 11.12). -/
def PSF_DCST_STAT : Nat := 0x6008C
/-- CH[4:0], RO. -/
def PSF_DCST_STAT_CH : Fld := ⟨PSF_DCST_STAT, 0, 5⟩
/-- FAIL[31:16], RC. -/
def PSF_DCST_STAT_FAIL : Fld := ⟨PSF_DCST_STAT, 16, 16⟩
/-- PSF_SCST_STAT (Table 11.12). -/
def PSF_SCST_STAT : Nat := 0x60090
/-- PASS[0:0], RO. -/
def PSF_SCST_STAT_PASS : Fld := ⟨PSF_SCST_STAT, 0, 1⟩
/-- FAIL[31:16], RC. -/
def PSF_SCST_STAT_FAIL : Fld := ⟨PSF_SCST_STAT, 16, 16⟩
/-- PSF_CLIPS (Table 11.12). -/
def PSF_CLIPS : Nat := 0x60094
/-- CEIL[7:0], RC. -/
def PSF_CLIPS_CEIL : Fld := ⟨PSF_CLIPS, 0, 8⟩
/-- TIGHT[15:8], RC. -/
def PSF_CLIPS_TIGHT : Fld := ⟨PSF_CLIPS, 8, 8⟩
/-- CYCW[23:16], RC. -/
def PSF_CLIPS_CYCW : Fld := ⟨PSF_CLIPS, 16, 8⟩
/-- PSF_EV_WPTR (Table 11.12). -/
def PSF_EV_WPTR : Nat := 0x60098
/-- IDX[3:0], RO. -/
def PSF_EV_WPTR_IDX : Fld := ⟨PSF_EV_WPTR, 0, 4⟩
/-- PSF_DEM_CNT (Table 11.12). -/
def PSF_DEM_CNT : Nat := 0x6009C
/-- N[15:0], RC. -/
def PSF_DEM_CNT_N : Fld := ⟨PSF_DEM_CNT, 0, 16⟩
/-- HAZ[31:16], RC. -/
def PSF_DEM_CNT_HAZ : Fld := ⟨PSF_DEM_CNT, 16, 16⟩
/-- PSF_OTPk (Table 11.12). -/
def PSF_OTPk (n : Nat) : Nat := 0x600C0 + n * 0x4
/-- PSF_SIi_CFG (Table 11.12). -/
def PSF_SIi_CFG (n : Nat) : Nat := 0x600E0 + n * 0x10
/-- TP[17:8], RWS. -/
def PSF_SIi_CFG_TP (n : Nat) : Fld := ⟨PSF_SIi_CFG n, 8, 10⟩
@[inherit_doc PSF_SIi_CFG]
def PSF_SIi_CFG_DEB (n : Nat) : Fld := ⟨PSF_SIi_CFG n, 0, 8⟩
/-- PSF_OUTo_CFG (Table 11.12). -/
def PSF_OUTo_CFG (n : Nat) : Nat := 0x60200 + n * 0x20
@[inherit_doc PSF_OUTo_CFG]
def PSF_OUTo_CFG_FBT (n : Nat) : Fld := ⟨PSF_OUTo_CFG n, 0, 8⟩
@[inherit_doc PSF_OUTo_CFG]
def PSF_OUTo_CFG_FBPOL (n : Nat) : Fld := ⟨PSF_OUTo_CFG n, 8, 1⟩
/-- PSF_SIi_STAT (Table 11.12). -/
def PSF_SIi_STAT (n : Nat) : Nat := 0x600E4 + n * 0x10
/-- CLOSED[0:0], RO. -/
def PSF_SIi_STAT_CLOSED (n : Nat) : Fld := ⟨PSF_SIi_STAT n, 0, 1⟩
/-- DEMAND[1:1], RO. -/
def PSF_SIi_STAT_DEMAND (n : Nat) : Fld := ⟨PSF_SIi_STAT n, 1, 1⟩
/-- CHAT[2:2], RO. -/
def PSF_SIi_STAT_CHAT (n : Nat) : Fld := ⟨PSF_SIi_STAT n, 2, 1⟩
/-- XFEED[3:3], RO. -/
def PSF_SIi_STAT_XFEED (n : Nat) : Fld := ⟨PSF_SIi_STAT n, 3, 1⟩
/-- RBERR[4:4], RO. -/
def PSF_SIi_STAT_RBERR (n : Nat) : Fld := ⟨PSF_SIi_STAT n, 4, 1⟩
/-- PSF_SIi_CNT (Table 11.12). -/
def PSF_SIi_CNT (n : Nat) : Nat := 0x600E8 + n * 0x10
/-- TRANS[15:0], RC. -/
def PSF_SIi_CNT_TRANS (n : Nat) : Fld := ⟨PSF_SIi_CNT n, 0, 16⟩
/-- FLT[31:16], RC. -/
def PSF_SIi_CNT_FLT (n : Nat) : Fld := ⟨PSF_SIi_CNT n, 16, 16⟩
/-- PSF_SIi_RB (Table 11.12). -/
def PSF_SIi_RB (n : Nat) : Nat := 0x600EC + n * 0x10
/-- SRC[15:0], RO. -/
def PSF_SIi_RB_SRC (n : Nat) : Fld := ⟨PSF_SIi_RB n, 0, 16⟩
/-- RET[31:16], RO. -/
def PSF_SIi_RB_RET (n : Nat) : Fld := ⟨PSF_SIi_RB n, 16, 16⟩
/-- PSF_DCn_CFG (Table 11.12). -/
def PSF_DCn_CFG (n : Nat) : Nat := 0x60100 + n * 0x4
/-- OV[7:0], RWS. -/
def PSF_DCn_CFG_OV (n : Nat) : Fld := ⟨PSF_DCn_CFG n, 0, 8⟩
/-- UV[15:8], RWS. -/
def PSF_DCn_CFG_UV (n : Nat) : Fld := ⟨PSF_DCn_CFG n, 8, 8⟩
/-- PSF_DCn_STAT (Table 11.12). -/
def PSF_DCn_STAT (n : Nat) : Nat := 0x60180 + n * 0x4
/-- OVQ[0:0], RO. -/
def PSF_DCn_STAT_OVQ (n : Nat) : Fld := ⟨PSF_DCn_STAT n, 0, 1⟩
/-- UVQ[1:1], RO. -/
def PSF_DCn_STAT_UVQ (n : Nat) : Fld := ⟨PSF_DCn_STAT n, 1, 1⟩
/-- EN[2:2], RO. -/
def PSF_DCn_STAT_EN (n : Nat) : Fld := ⟨PSF_DCn_STAT n, 2, 1⟩
/-- STFAIL[3:3], RO. -/
def PSF_DCn_STAT_STFAIL (n : Nat) : Fld := ⟨PSF_DCn_STAT n, 3, 1⟩
/-- OVN[15:8], RC. -/
def PSF_DCn_STAT_OVN (n : Nat) : Fld := ⟨PSF_DCn_STAT n, 8, 8⟩
/-- UVN[23:16], RC. -/
def PSF_DCn_STAT_UVN (n : Nat) : Fld := ⟨PSF_DCn_STAT n, 16, 8⟩
/-- PSF_OUTo_STAT (Table 11.12). -/
def PSF_OUTo_STAT (n : Nat) : Nat := 0x60204 + n * 0x20
/-- ON[0:0], RO. -/
def PSF_OUTo_STAT_ON (n : Nat) : Fld := ⟨PSF_OUTo_STAT n, 0, 1⟩
/-- CMD[1:1], RO. -/
def PSF_OUTo_STAT_CMD (n : Nat) : Fld := ⟨PSF_OUTo_STAT n, 1, 1⟩
/-- FB[2:2], RO. -/
def PSF_OUTo_STAT_FB (n : Nat) : Fld := ⟨PSF_OUTo_STAT n, 2, 1⟩
/-- PULSE[3:3], RO. -/
def PSF_OUTo_STAT_PULSE (n : Nat) : Fld := ⟨PSF_OUTo_STAT n, 3, 1⟩
/-- PSF_OUTo_FB (Table 11.12). -/
def PSF_OUTo_FB (n : Nat) : Nat := 0x60208 + n * 0x20
/-- V[15:0], RO. -/
def PSF_OUTo_FB_V (n : Nat) : Fld := ⟨PSF_OUTo_FB n, 0, 16⟩
/-- PSF_OUTo_PTCNT (Table 11.12). -/
def PSF_OUTo_PTCNT (n : Nat) : Nat := 0x6020C + n * 0x20
/-- PASS[15:0], RC. -/
def PSF_OUTo_PTCNT_PASS (n : Nat) : Fld := ⟨PSF_OUTo_PTCNT n, 0, 16⟩
/-- FAIL[23:16], RC. -/
def PSF_OUTo_PTCNT_FAIL (n : Nat) : Fld := ⟨PSF_OUTo_PTCNT n, 16, 8⟩
/-- DISC[31:24], RC. -/
def PSF_OUTo_PTCNT_DISC (n : Nat) : Fld := ⟨PSF_OUTo_PTCNT n, 24, 8⟩
/-- PSF_OUTo_PTLAST (Table 11.12). -/
def PSF_OUTo_PTLAST (n : Nat) : Nat := 0x60210 + n * 0x20
/-- PSF_OUTo_ONT (Table 11.12). -/
def PSF_OUTo_ONT (n : Nat) : Nat := 0x60214 + n * 0x20
/-- PSF_OUTo_SWCNT (Table 11.12). -/
def PSF_OUTo_SWCNT (n : Nat) : Nat := 0x60218 + n * 0x20
/-- ON[15:0], RO. -/
def PSF_OUTo_SWCNT_ON (n : Nat) : Fld := ⟨PSF_OUTo_SWCNT n, 0, 16⟩
/-- REF[31:16], RC. -/
def PSF_OUTo_SWCNT_REF (n : Nat) : Fld := ⟨PSF_OUTo_SWCNT n, 16, 16⟩
/-- PSF_OUTo_FLT (Table 11.12). -/
def PSF_OUTo_FLT (n : Nat) : Nat := 0x6021C + n * 0x20
/-- STATIC_ON[0:0], RW1C. -/
def PSF_OUTo_FLT_STATIC_ON (n : Nat) : Fld := ⟨PSF_OUTo_FLT n, 0, 1⟩
/-- STATIC_OFF[1:1], RW1C. -/
def PSF_OUTo_FLT_STATIC_OFF (n : Nat) : Fld := ⟨PSF_OUTo_FLT n, 1, 1⟩
/-- PULSE[2:2], RW1C. -/
def PSF_OUTo_FLT_PULSE (n : Nat) : Fld := ⟨PSF_OUTo_FLT n, 2, 1⟩
/-- PSF_CW_PRESk (Table 11.12). -/
def PSF_CW_PRESk (n : Nat) : Nat := 0x60300 + n * 0x4
/-- PSF_CW_ONEk (Table 11.12). -/
def PSF_CW_ONEk (n : Nat) : Nat := 0x60320 + n * 0x4
/-- PSF_CW_DEGk (Table 11.12). -/
def PSF_CW_DEGk (n : Nat) : Nat := 0x60340 + n * 0x4
/-- PSF_CW_DEMk (Table 11.12). -/
def PSF_CW_DEMk (n : Nat) : Nat := 0x60360 + n * 0x4
/-- PSF_CW_MISk (Table 11.12). -/
def PSF_CW_MISk (n : Nat) : Nat := 0x60380 + n * 0x4
/-- PSF_EVn_TLO (Table 11.12). -/
def PSF_EVn_TLO (n : Nat) : Nat := 0x60400 + n * 0x10
/-- PSF_EVn_INFO (Table 11.12). -/
def PSF_EVn_INFO (n : Nat) : Nat := 0x60408 + n * 0x10
/-- PSF_EVn_DEM (Table 11.12). -/
def PSF_EVn_DEM (n : Nat) : Nat := 0x6040C + n * 0x10
/-- FCR_STATUS (Table 12.5). -/
def FCR_STATUS : Nat := 0xA0000
/-- SRC[15:0], RO. -/
def FCR_STATUS_SRC : Fld := ⟨FCR_STATUS, 0, 16⟩
/-- FATAL[31:31], RO. -/
def FCR_STATUS_FATAL : Fld := ⟨FCR_STATUS, 31, 1⟩
/-- FCR_ACK (Table 12.5). -/
def FCR_ACK : Nat := 0xA0004
/-- FCR_ACTIVE (Table 12.5). -/
def FCR_ACTIVE : Nat := 0xA0008
/-- FCR_CTRL (Table 12.5). -/
def FCR_CTRL : Nat := 0xA000C
/-- CORQ[0:0], RWS. -/
def FCR_CTRL_CORQ : Fld := ⟨FCR_CTRL, 0, 1⟩
/-- NTF[1:1], RWS. -/
def FCR_CTRL_NTF : Fld := ⟨FCR_CTRL, 1, 1⟩
/-- FCR_QUIET (Table 12.5). -/
def FCR_QUIET : Nat := 0xA0010
/-- MS[15:0], RWS. -/
def FCR_QUIET_MS : Fld := ⟨FCR_QUIET, 0, 16⟩
/-- FCR_SHADOW (Table 12.5). -/
def FCR_SHADOW : Nat := 0xA0014
/-- US[10:0], RWS. -/
def FCR_SHADOW_US : Fld := ⟨FCR_SHADOW, 0, 11⟩
/-- CONSEQ[31:16], RC. -/
def FCR_SHADOW_CONSEQ : Fld := ⟨FCR_SHADOW, 16, 16⟩
/-- FCR_CORR_LIM (Table 12.5). -/
def FCR_CORR_LIM : Nat := 0xA0018
/-- LIM[15:0], RWS. -/
def FCR_CORR_LIM_LIM : Fld := ⟨FCR_CORR_LIM, 0, 16⟩
/-- FCR_FORCE (Table 12.5). -/
def FCR_FORCE : Nat := 0xA001C
/-- FCR_FORCE_EN (Table 12.5). -/
def FCR_FORCE_EN : Nat := 0xA0020
/-- EN[0:0], RWS. -/
def FCR_FORCE_EN_EN : Fld := ⟨FCR_FORCE_EN, 0, 1⟩
/-- FCR_FORCE_CODE (Table 12.5). -/
def FCR_FORCE_CODE : Nat := 0xA0024
/-- CODE[7:0], RW. -/
def FCR_FORCE_CODE_CODE : Fld := ⟨FCR_FORCE_CODE, 0, 8⟩
/-- INST[15:8], RW. -/
def FCR_FORCE_CODE_INST : Fld := ⟨FCR_FORCE_CODE, 8, 8⟩
/-- FCR_Q_STAT (Table 12.5). -/
def FCR_Q_STAT : Nat := 0xA0028
/-- NEWEST[12:8], RO. -/
def FCR_Q_STAT_NEWEST : Fld := ⟨FCR_Q_STAT, 8, 5⟩
/-- OVF[31:24], RC. -/
def FCR_Q_STAT_OVF : Fld := ⟨FCR_Q_STAT, 24, 8⟩
/-- FCR_Q_OCC (Table 12.5). -/
def FCR_Q_OCC : Nat := 0xA002C
/-- FCR_FB_ADDR (Table 12.5). -/
def FCR_FB_ADDR : Nat := 0xA0030
/-- FCR_FB_INFO (Table 12.5). -/
def FCR_FB_INFO : Nat := 0xA0034
/-- VALID[0:0], RW1C. -/
def FCR_FB_INFO_VALID : Fld := ⟨FCR_FB_INFO, 0, 1⟩
/-- TYPE[2:1], RO. -/
def FCR_FB_INFO_TYPE : Fld := ⟨FCR_FB_INFO, 1, 2⟩
/-- INIT[7:3], RO. -/
def FCR_FB_INFO_INIT : Fld := ⟨FCR_FB_INFO, 3, 5⟩
/-- SRC[11:8], RO. -/
def FCR_FB_INFO_SRC : Fld := ⟨FCR_FB_INFO, 8, 4⟩
/-- CLASS[13:12], RO. -/
def FCR_FB_INFO_CLASS : Fld := ⟨FCR_FB_INFO, 12, 2⟩
/-- CODE[23:16], RO. -/
def FCR_FB_INFO_CODE : Fld := ⟨FCR_FB_INFO, 16, 8⟩
/-- MORE[31:24], RO. -/
def FCR_FB_INFO_MORE : Fld := ⟨FCR_FB_INFO, 24, 8⟩
/-- FCR_FB_T_LO (Table 12.5). -/
def FCR_FB_T_LO : Nat := 0xA0038
/-- FCR_SRCs_STAT (Table 12.5). -/
def FCR_SRCs_STAT (n : Nat) : Nat := 0xA0100 + n * 0x8
/-- CODE[15:8], RO. -/
def FCR_SRCs_STAT_CODE (n : Nat) : Fld := ⟨FCR_SRCs_STAT n, 8, 8⟩
/-- FCR_SRCs_CNT (Table 12.5). -/
def FCR_SRCs_CNT (n : Nat) : Nat := 0xA0104 + n * 0x8
/-- REC[15:0], RO. -/
def FCR_SRCs_CNT_REC (n : Nat) : Fld := ⟨FCR_SRCs_CNT n, 0, 16⟩
/-- CORR[31:16], RC. -/
def FCR_SRCs_CNT_CORR (n : Nat) : Fld := ⟨FCR_SRCs_CNT n, 16, 16⟩
/-- FCR_HQi_INFO (Table 12.5). -/
def FCR_HQi_INFO (n : Nat) : Nat := 0xA0400 + n * 0x20
/-- SRC[3:0], RO. -/
def FCR_HQi_INFO_SRC (n : Nat) : Fld := ⟨FCR_HQi_INFO n, 0, 4⟩
/-- CLASS[5:4], RO. -/
def FCR_HQi_INFO_CLASS (n : Nat) : Fld := ⟨FCR_HQi_INFO n, 4, 2⟩
/-- CONSEQ[6:6], RO. -/
def FCR_HQi_INFO_CONSEQ (n : Nat) : Fld := ⟨FCR_HQi_INFO n, 6, 1⟩
/-- FORCED[7:7], RO. -/
def FCR_HQi_INFO_FORCED (n : Nat) : Fld := ⟨FCR_HQi_INFO n, 7, 1⟩
/-- CODE[15:8], RO. -/
def FCR_HQi_INFO_CODE (n : Nat) : Fld := ⟨FCR_HQi_INFO n, 8, 8⟩
/-- REPEAT[23:16], RO. -/
def FCR_HQi_INFO_REPEAT (n : Nat) : Fld := ⟨FCR_HQi_INFO n, 16, 8⟩
/-- CAUSE[28:24], RO. -/
def FCR_HQi_INFO_CAUSE (n : Nat) : Fld := ⟨FCR_HQi_INFO n, 24, 5⟩
/-- ACTIVE[29:29], RO. -/
def FCR_HQi_INFO_ACTIVE (n : Nat) : Fld := ⟨FCR_HQi_INFO n, 29, 1⟩
/-- VALID[31:31], RO. -/
def FCR_HQi_INFO_VALID (n : Nat) : Fld := ⟨FCR_HQi_INFO n, 31, 1⟩
/-- FCR_HQi_TLO (Table 12.5). -/
def FCR_HQi_TLO (n : Nat) : Nat := 0xA0404 + n * 0x20
/-- FCR_HQi_D0 (Table 12.5). -/
def FCR_HQi_D0 (n : Nat) : Nat := 0xA040C + n * 0x20
/-- FCR_HQi_D1 (Table 12.5). -/
def FCR_HQi_D1 (n : Nat) : Nat := 0xA0410 + n * 0x20
/-- MGT_MODE_REQ (Table 13.11). -/
def MGT_MODE_REQ : Nat := 0x200
/-- MGT_MODE_KEY (Table 13.11). -/
def MGT_MODE_KEY : Nat := 0x204
/-- MGT_MODE_STAT (Table 13.11). -/
def MGT_MODE_STAT : Nat := 0x208
/-- MODE[2:0], RO. -/
def MGT_MODE_STAT_MODE : Fld := ⟨MGT_MODE_STAT, 0, 3⟩
/-- PREV[6:4], RO. -/
def MGT_MODE_STAT_PREV : Fld := ⟨MGT_MODE_STAT, 4, 3⟩
/-- PEND[7:7], RO. -/
def MGT_MODE_STAT_PEND : Fld := ⟨MGT_MODE_STAT, 7, 1⟩
/-- TGT[10:8], RO. -/
def MGT_MODE_STAT_TGT : Fld := ⟨MGT_MODE_STAT, 8, 3⟩
/-- CODE[23:16], RO. -/
def MGT_MODE_STAT_CODE : Fld := ⟨MGT_MODE_STAT, 16, 8⟩
/-- MGT_MODE_T_LO (Table 13.11). -/
def MGT_MODE_T_LO : Nat := 0x20C
/-- MGT_PWR_CFG (Table 13.11). -/
def MGT_PWR_CFG : Nat := 0x214
/-- START[0:0], RWS. -/
def MGT_PWR_CFG_START : Fld := ⟨MGT_PWR_CFG, 0, 1⟩
/-- VAUX_EN[1:1], RWS. -/
def MGT_PWR_CFG_VAUX_EN : Fld := ⟨MGT_PWR_CFG, 1, 1⟩
/-- MGT_PWR_STAT (Table 13.11). -/
def MGT_PWR_STAT : Nat := 0x218
/-- ON[9:0], RO. -/
def MGT_PWR_STAT_ON : Fld := ⟨MGT_PWR_STAT, 0, 10⟩
/-- RET[25:16], RO. -/
def MGT_PWR_STAT_RET : Fld := ⟨MGT_PWR_STAT, 16, 10⟩
/-- VAUXACT[28:28], RO. -/
def MGT_PWR_STAT_VAUXACT : Fld := ⟨MGT_PWR_STAT, 28, 1⟩
/-- MGT_SUPPLY (Table 13.11). -/
def MGT_SUPPLY : Nat := 0x21C
/-- VSTK[15:0], RO. -/
def MGT_SUPPLY_VSTK : Fld := ⟨MGT_SUPPLY, 0, 16⟩
/-- VAUX[31:16], RO. -/
def MGT_SUPPLY_VAUX : Fld := ⟨MGT_SUPPLY, 16, 16⟩
/-- MGT_WATCH_CFG (Table 13.11). -/
def MGT_WATCH_CFG : Nat := 0x220
/-- INT_S[5:0], RWS. -/
def MGT_WATCH_CFG_INT_S : Fld := ⟨MGT_WATCH_CFG, 0, 6⟩
/-- MGT_WAKE_CFG (Table 13.11). -/
def MGT_WAKE_CFG : Nat := 0x224
/-- TW[2:2], RWS. -/
def MGT_WAKE_CFG_TW : Fld := ⟨MGT_WAKE_CFG, 2, 1⟩
/-- MGT_WAKE_STAT (Table 13.11). -/
def MGT_WAKE_STAT : Nat := 0x228
/-- LAST[5:0], RO. -/
def MGT_WAKE_STAT_LAST : Fld := ⟨MGT_WAKE_STAT, 0, 6⟩
/-- WSTUCK[8:8], RO. -/
def MGT_WAKE_STAT_WSTUCK : Fld := ⟨MGT_WAKE_STAT, 8, 1⟩
/-- N[31:16], RC. -/
def MGT_WAKE_STAT_N : Fld := ⟨MGT_WAKE_STAT, 16, 16⟩
/-- MGT_RST_CAUSE (Table 13.11). -/
def MGT_RST_CAUSE : Nat := 0x22C
/-- RSTN_FC[2:2], RW1C. -/
def MGT_RST_CAUSE_RSTN_FC : Fld := ⟨MGT_RST_CAUSE, 2, 1⟩
/-- THERM[4:4], RW1C. -/
def MGT_RST_CAUSE_THERM : Fld := ⟨MGT_RST_CAUSE, 4, 1⟩
/-- HOLDC[5:5], RW1C. -/
def MGT_RST_CAUSE_HOLDC : Fld := ⟨MGT_RST_CAUSE, 5, 1⟩
/-- SHIPW[6:6], RW1C. -/
def MGT_RST_CAUSE_SHIPW : Fld := ⟨MGT_RST_CAUSE, 6, 1⟩
/-- MGT_RST_CNT (Table 13.11). -/
def MGT_RST_CNT : Nat := 0x230
/-- WARM[15:0], RO. -/
def MGT_RST_CNT_WARM : Fld := ⟨MGT_RST_CNT, 0, 16⟩
/-- FC[31:16], RO. -/
def MGT_RST_CNT_FC : Fld := ⟨MGT_RST_CNT, 16, 16⟩
/-- MGT_SWRST (Table 13.11). -/
def MGT_SWRST : Nat := 0x234
/-- MGT_SVC_CFG (Table 13.11). -/
def MGT_SVC_CFG : Nat := 0x238
/-- TMO_S[11:0], RWS. -/
def MGT_SVC_CFG_TMO_S : Fld := ⟨MGT_SVC_CFG, 0, 12⟩
/-- MGT_STARTUP (Table 13.11). -/
def MGT_STARTUP : Nat := 0x23C
/-- STEP[3:0], RO. -/
def MGT_STARTUP_STEP : Fld := ⟨MGT_STARTUP, 0, 4⟩
/-- DONE[4:4], RO. -/
def MGT_STARTUP_DONE : Fld := ⟨MGT_STARTUP, 4, 1⟩
/-- STOP[5:5], RO. -/
def MGT_STARTUP_STOP : Fld := ⟨MGT_STARTUP, 5, 1⟩
/-- TIME[31:16], RO. -/
def MGT_STARTUP_TIME : Fld := ⟨MGT_STARTUP, 16, 16⟩
/-- MGT_RTC_LO (Table 13.11). -/
def MGT_RTC_LO : Nat := 0x240
/-- MGT_SHIP_CNT (Table 13.11). -/
def MGT_SHIP_CNT : Nat := 0x248
/-- N[15:0], RO. -/
def MGT_SHIP_CNT_N : Fld := ⟨MGT_SHIP_CNT, 0, 16⟩
/-- SECS[31:16], RO. -/
def MGT_SHIP_CNT_SECS : Fld := ⟨MGT_SHIP_CNT, 16, 16⟩
/-- MGT_PD0_FATAL (Table 13.11). -/
def MGT_PD0_FATAL : Nat := 0x24C
/-- VALID[0:0], RO. -/
def MGT_PD0_FATAL_VALID : Fld := ⟨MGT_PD0_FATAL, 0, 1⟩
/-- SRC[11:8], RO. -/
def MGT_PD0_FATAL_SRC : Fld := ⟨MGT_PD0_FATAL, 8, 4⟩
/-- CODE[23:16], RO. -/
def MGT_PD0_FATAL_CODE : Fld := ⟨MGT_PD0_FATAL, 16, 8⟩
/-- FAB_CTRL (Table 9.12). -/
def FAB_CTRL : Nat := 0x70000
/-- EN[0:0], RW. -/
def FAB_CTRL_EN : Fld := ⟨FAB_CTRL, 0, 1⟩
/-- FAB_STAT (Table 9.12). -/
def FAB_STAT : Nat := 0x70004
/-- UP[3:0], RO. -/
def FAB_STAT_UP : Fld := ⟨FAB_STAT, 0, 4⟩
/-- HOLDOFF[4:4], RO. -/
def FAB_STAT_HOLDOFF : Fld := ⟨FAB_STAT, 4, 1⟩
/-- LISTEN[11:8], RO. -/
def FAB_STAT_LISTEN : Fld := ⟨FAB_STAT, 8, 4⟩
/-- FAB_HAZ_CFG (Table 9.12). -/
def FAB_HAZ_CFG : Nat := 0x70008
/-- REP[2:0], RWS. -/
def FAB_HAZ_CFG_REP : Fld := ⟨FAB_HAZ_CFG, 0, 3⟩
/-- HOLD[15:4], RWS. -/
def FAB_HAZ_CFG_HOLD : Fld := ⟨FAB_HAZ_CFG, 4, 12⟩
/-- FAB_HAZ_STAT (Table 9.12). -/
def FAB_HAZ_STAT : Nat := 0x7000C
/-- SRC[2:0], RO. -/
def FAB_HAZ_STAT_SRC : Fld := ⟨FAB_HAZ_STAT, 0, 3⟩
/-- FAB_HAZ_T_LO (Table 9.12). -/
def FAB_HAZ_T_LO : Nat := 0x70010
/-- FAB_HAZ_CNT (Table 9.12). -/
def FAB_HAZ_CNT : Nat := 0x70018
/-- ACC[15:0], RC. -/
def FAB_HAZ_CNT_ACC : Fld := ⟨FAB_HAZ_CNT, 0, 16⟩
/-- ORIG[31:16], RC. -/
def FAB_HAZ_CNT_ORIG : Fld := ⟨FAB_HAZ_CNT, 16, 16⟩
/-- FAB_UID_LO (Table 9.12). -/
def FAB_UID_LO : Nat := 0x7001C
/-- FAB_TRAIN_CFG (Table 9.12). -/
def FAB_TRAIN_CFG : Nat := 0x70024
/-- TRIES[4:0], RWS. -/
def FAB_TRAIN_CFG_TRIES : Fld := ⟨FAB_TRAIN_CFG, 0, 5⟩
/-- RETRY_MS[15:8], RWS. -/
def FAB_TRAIN_CFG_RETRY_MS : Fld := ⟨FAB_TRAIN_CFG, 8, 8⟩
/-- BACKOFF_S[23:16], RWS. -/
def FAB_TRAIN_CFG_BACKOFF_S : Fld := ⟨FAB_TRAIN_CFG, 16, 8⟩
/-- FAB_WAKE_CFG (Table 9.12). -/
def FAB_WAKE_CFG : Nat := 0x70028
/-- TONE_US[12:0], RWS. -/
def FAB_WAKE_CFG_TONE_US : Fld := ⟨FAB_WAKE_CFG, 0, 13⟩
/-- FAB_WAKE_STAT (Table 9.12). -/
def FAB_WAKE_STAT : Nat := 0x7002C
/-- TONE[3:0], RW1C. -/
def FAB_WAKE_STAT_TONE : Fld := ⟨FAB_WAKE_STAT, 0, 4⟩
/-- HELD[7:4], RW1C. -/
def FAB_WAKE_STAT_HELD : Fld := ⟨FAB_WAKE_STAT, 4, 4⟩
/-- FAB_DROPr (Table 9.12). -/
def FAB_DROPr (n : Nat) : Nat := 0x70030 + n * 0x4
/-- FAB_BUFECC (Table 9.12). -/
def FAB_BUFECC : Nat := 0x70050
/-- CORR[15:0], RC. -/
def FAB_BUFECC_CORR : Fld := ⟨FAB_BUFECC, 0, 16⟩
/-- UNC[31:16], RC. -/
def FAB_BUFECC_UNC : Fld := ⟨FAB_BUFECC, 16, 16⟩
/-- FAB_LINKEV (Table 9.12). -/
def FAB_LINKEV : Nat := 0x70054
/-- N[15:0], RO. -/
def FAB_LINKEV_N : Fld := ⟨FAB_LINKEV, 0, 16⟩
/-- PORT[17:16], RO. -/
def FAB_LINKEV_PORT : Fld := ⟨FAB_LINKEV, 16, 2⟩
/-- UP[18:18], RO. -/
def FAB_LINKEV_UP : Fld := ⟨FAB_LINKEV, 18, 1⟩
/-- FAB_PORTn_CFG (Table 9.12). -/
def FAB_PORTn_CFG (n : Nat) : Nat := 0x71000 + n * 0x100
/-- EN[0:0], RWS. -/
def FAB_PORTn_CFG_EN (n : Nat) : Fld := ⟨FAB_PORTn_CFG n, 0, 1⟩
/-- ROLE[3:1], RWS. -/
def FAB_PORTn_CFG_ROLE (n : Nat) : Fld := ⟨FAB_PORTn_CFG n, 1, 3⟩
/-- HAZIN[4:4], RWS. -/
def FAB_PORTn_CFG_HAZIN (n : Nat) : Fld := ⟨FAB_PORTn_CFG n, 4, 1⟩
/-- HAZOUT[5:5], RWS. -/
def FAB_PORTn_CFG_HAZOUT (n : Nat) : Fld := ⟨FAB_PORTn_CFG n, 5, 1⟩
/-- CUT[6:6], RWS. -/
def FAB_PORTn_CFG_CUT (n : Nat) : Fld := ⟨FAB_PORTn_CFG n, 6, 1⟩
/-- WAKEIN[7:7], RWS. -/
def FAB_PORTn_CFG_WAKEIN (n : Nat) : Fld := ⟨FAB_PORTn_CFG n, 7, 1⟩
/-- WAKEOUT[8:8], RWS. -/
def FAB_PORTn_CFG_WAKEOUT (n : Nat) : Fld := ⟨FAB_PORTn_CFG n, 8, 1⟩
/-- STALL_MS[23:16], RWS. -/
def FAB_PORTn_CFG_STALL_MS (n : Nat) : Fld := ⟨FAB_PORTn_CFG n, 16, 8⟩
/-- FAB_PORTn_CTRL (Table 9.12). -/
def FAB_PORTn_CTRL (n : Nat) : Nat := 0x71004 + n * 0x100
/-- FAB_PORTn_STAT (Table 9.12). -/
def FAB_PORTn_STAT (n : Nat) : Nat := 0x71008 + n * 0x100
/-- STATE[2:0], RO. -/
def FAB_PORTn_STAT_STATE (n : Nat) : Fld := ⟨FAB_PORTn_STAT n, 0, 3⟩
/-- UPSTREAM[3:3], RO. -/
def FAB_PORTn_STAT_UPSTREAM (n : Nat) : Fld := ⟨FAB_PORTn_STAT n, 3, 1⟩
/-- DLYVALID[4:4], RO. -/
def FAB_PORTn_STAT_DLYVALID (n : Nat) : Fld := ⟨FAB_PORTn_STAT n, 4, 1⟩
/-- TONE[6:6], RW1C. -/
def FAB_PORTn_STAT_TONE (n : Nat) : Fld := ⟨FAB_PORTn_STAT n, 6, 1⟩
/-- ECHOBAD[7:7], RO. -/
def FAB_PORTn_STAT_ECHOBAD (n : Nat) : Fld := ⟨FAB_PORTn_STAT n, 7, 1⟩
/-- FAB_PORTn_TRAIN (Table 9.12). -/
def FAB_PORTn_TRAIN (n : Nat) : Nat := 0x7100C + n * 0x100
/-- STEP[2:0], RO. -/
def FAB_PORTn_TRAIN_STEP (n : Nat) : Fld := ⟨FAB_PORTn_TRAIN n, 0, 3⟩
/-- ATT[15:8], RO. -/
def FAB_PORTn_TRAIN_ATT (n : Nat) : Fld := ⟨FAB_PORTn_TRAIN n, 8, 8⟩
/-- LASTFAIL[19:16], RO. -/
def FAB_PORTn_TRAIN_LASTFAIL (n : Nat) : Fld := ⟨FAB_PORTn_TRAIN n, 16, 4⟩
/-- FAB_PORTn_PEER_ID_LO (Table 9.12). -/
def FAB_PORTn_PEER_ID_LO (n : Nat) : Nat := 0x71010 + n * 0x100
/-- FAB_PORTn_PEER_INFO (Table 9.12). -/
def FAB_PORTn_PEER_INFO (n : Nat) : Nat := 0x71018 + n * 0x100
/-- PORT[1:0], RO. -/
def FAB_PORTn_PEER_INFO_PORT (n : Nat) : Fld := ⟨FAB_PORTn_PEER_INFO n, 0, 2⟩
/-- ROLE[4:2], RO. -/
def FAB_PORTn_PEER_INFO_ROLE (n : Nat) : Fld := ⟨FAB_PORTn_PEER_INFO n, 2, 3⟩
/-- VER[15:8], RO. -/
def FAB_PORTn_PEER_INFO_VER (n : Nat) : Fld := ⟨FAB_PORTn_PEER_INFO n, 8, 8⟩
/-- CAP[23:16], RO. -/
def FAB_PORTn_PEER_INFO_CAP (n : Nat) : Fld := ⟨FAB_PORTn_PEER_INFO n, 16, 8⟩
/-- FAB_PORTn_BUF0 (Table 9.12). -/
def FAB_PORTn_BUF0 (n : Nat) : Nat := 0x7101C + n * 0x100
/-- Q0[7:0], RWS. -/
def FAB_PORTn_BUF0_Q0 (n : Nat) : Fld := ⟨FAB_PORTn_BUF0 n, 0, 8⟩
/-- Q1[15:8], RWS. -/
def FAB_PORTn_BUF0_Q1 (n : Nat) : Fld := ⟨FAB_PORTn_BUF0 n, 8, 8⟩
/-- Q2[23:16], RWS. -/
def FAB_PORTn_BUF0_Q2 (n : Nat) : Fld := ⟨FAB_PORTn_BUF0 n, 16, 8⟩
/-- Q3[31:24], RWS. -/
def FAB_PORTn_BUF0_Q3 (n : Nat) : Fld := ⟨FAB_PORTn_BUF0 n, 24, 8⟩
/-- FAB_PORTn_BUF1 (Table 9.12). -/
def FAB_PORTn_BUF1 (n : Nat) : Nat := 0x71020 + n * 0x100
/-- Q4[7:0], RWS. -/
def FAB_PORTn_BUF1_Q4 (n : Nat) : Fld := ⟨FAB_PORTn_BUF1 n, 0, 8⟩
/-- Q5[15:8], RWS. -/
def FAB_PORTn_BUF1_Q5 (n : Nat) : Fld := ⟨FAB_PORTn_BUF1 n, 8, 8⟩
/-- FAB_PORTn_CRED0 (Table 9.12). -/
def FAB_PORTn_CRED0 (n : Nat) : Nat := 0x71024 + n * 0x100
/-- FAB_PORTn_CRED1 (Table 9.12). -/
def FAB_PORTn_CRED1 (n : Nat) : Nat := 0x71028 + n * 0x100
/-- V[15:0], RO. -/
def FAB_PORTn_CRED1_V (n : Nat) : Fld := ⟨FAB_PORTn_CRED1 n, 0, 16⟩
/-- FAB_PORTn_LINE (Table 9.12). -/
def FAB_PORTn_LINE (n : Nat) : Nat := 0x7102C + n * 0x100
/-- LOCK[16:16], RO. -/
def FAB_PORTn_LINE_LOCK (n : Nat) : Fld := ⟨FAB_PORTn_LINE n, 16, 1⟩
/-- FAB_PORTn_DOWNCAUSE (Table 9.12). -/
def FAB_PORTn_DOWNCAUSE (n : Nat) : Nat := 0x71030 + n * 0x100
/-- CODE[3:0], RO. -/
def FAB_PORTn_DOWNCAUSE_CODE (n : Nat) : Fld := ⟨FAB_PORTn_DOWNCAUSE n, 0, 4⟩
/-- FAB_PORTn_UPTIME (Table 9.12). -/
def FAB_PORTn_UPTIME (n : Nat) : Nat := 0x71034 + n * 0x100
/-- FAB_PORTn_LAT (Table 9.12). -/
def FAB_PORTn_LAT (n : Nat) : Nat := 0x71038 + n * 0x100
/-- V[9:0], RC. -/
def FAB_PORTn_LAT_V (n : Nat) : Fld := ⟨FAB_PORTn_LAT n, 0, 10⟩
/-- FAB_PORTn_TEST (Table 9.12). -/
def FAB_PORTn_TEST (n : Nat) : Nat := 0x7103C + n * 0x100
/-- PRBS[1:1], RW. -/
def FAB_PORTn_TEST_PRBS (n : Nat) : Fld := ⟨FAB_PORTn_TEST n, 1, 1⟩
/-- FAB_PORTn_CNTm (Table 9.12). -/
def FAB_PORTn_CNTm (n m : Nat) : Nat := 0x71040 + n * 0x100 + m * 0x4
/-- FAB_PORTn_RXQq (Table 9.12). -/
def FAB_PORTn_RXQq (n m : Nat) : Nat := 0x710A0 + n * 0x100 + m * 0x4
/-- OCC[7:0], RO. -/
def FAB_PORTn_RXQq_OCC (n m : Nat) : Fld := ⟨FAB_PORTn_RXQq n m, 0, 8⟩
/-- HIGH[15:8], RC. -/
def FAB_PORTn_RXQq_HIGH (n m : Nat) : Fld := ⟨FAB_PORTn_RXQq n m, 8, 8⟩
/-- FAB_PORTn_TXQq (Table 9.12). -/
def FAB_PORTn_TXQq (n m : Nat) : Nat := 0x710B8 + n * 0x100 + m * 0x4
/-- N[7:0], RO. -/
def FAB_PORTn_TXQq_N (n m : Nat) : Fld := ⟨FAB_PORTn_TXQq n m, 0, 8⟩
/-- FAB_PORTn_ERRCAP0 (Table 9.12). -/
def FAB_PORTn_ERRCAP0 (n : Nat) : Nat := 0x710D0 + n * 0x100
/-- FAB_PORTn_ERRCAP1 (Table 9.12). -/
def FAB_PORTn_ERRCAP1 (n : Nat) : Nat := 0x710D4 + n * 0x100
/-- FAB_PORTn_ERRCAP2 (Table 9.12). -/
def FAB_PORTn_ERRCAP2 (n : Nat) : Nat := 0x710D8 + n * 0x100
/-- REASON[3:0], RO. -/
def FAB_PORTn_ERRCAP2_REASON (n : Nat) : Fld := ⟨FAB_PORTn_ERRCAP2 n, 0, 4⟩
/-- N[31:16], RC. -/
def FAB_PORTn_ERRCAP2_N (n : Nat) : Fld := ⟨FAB_PORTn_ERRCAP2 n, 16, 16⟩
/-- FAB_PORTn_ERRCAP3 (Table 9.12). -/
def FAB_PORTn_ERRCAP3 (n : Nat) : Nat := 0x710DC + n * 0x100
/-- FAB_PORTn_PRBSERR (Table 9.12). -/
def FAB_PORTn_PRBSERR (n : Nat) : Nat := 0x710E0 + n * 0x100
/-- V[31:0], RC. -/
def FAB_PORTn_PRBSERR_V (n : Nat) : Fld := ⟨FAB_PORTn_PRBSERR n, 0, 32⟩
/-- FAB_NET_CTRL (Table 10.6). -/
def FAB_NET_CTRL : Nat := 0x72000
/-- FAB_NET_CFG (Table 10.6). -/
def FAB_NET_CFG : Nat := 0x72004
/-- ROLE[1:0], RWS. -/
def FAB_NET_CFG_ROLE : Fld := ⟨FAB_NET_CFG, 0, 2⟩
/-- AUTO[2:2], RWS. -/
def FAB_NET_CFG_AUTO : Fld := ⟨FAB_NET_CFG, 2, 1⟩
/-- PREV_EN[3:3], RWS. -/
def FAB_NET_CFG_PREV_EN : Fld := ⟨FAB_NET_CFG, 3, 1⟩
/-- FAB_NET_STAT (Table 10.6). -/
def FAB_NET_STAT : Nat := 0x72008
/-- ADDR[7:0], RO. -/
def FAB_NET_STAT_ADDR : Fld := ⟨FAB_NET_STAT, 0, 8⟩
/-- ASSIGNED[8:8], RO. -/
def FAB_NET_STAT_ASSIGNED : Fld := ⟨FAB_NET_STAT, 8, 1⟩
/-- HARBOUR[9:9], RO. -/
def FAB_NET_STAT_HARBOUR : Fld := ⟨FAB_NET_STAT, 9, 1⟩
/-- STANDBY[10:10], RO. -/
def FAB_NET_STAT_STANDBY : Fld := ⟨FAB_NET_STAT, 10, 1⟩
/-- SND[12:11], RO. -/
def FAB_NET_STAT_SND : Fld := ⟨FAB_NET_STAT, 11, 2⟩
/-- EDITED[13:13], RW1C. -/
def FAB_NET_STAT_EDITED : Fld := ⟨FAB_NET_STAT, 13, 1⟩
/-- TCHG[14:14], RO. -/
def FAB_NET_STAT_TCHG : Fld := ⟨FAB_NET_STAT, 14, 1⟩
/-- UNSET[15:15], RO. -/
def FAB_NET_STAT_UNSET : Fld := ⟨FAB_NET_STAT, 15, 1⟩
/-- ROUND[31:16], RO. -/
def FAB_NET_STAT_ROUND : Fld := ⟨FAB_NET_STAT, 16, 16⟩
/-- FAB_SND_CFG (Table 10.6). -/
def FAB_SND_CFG : Nat := 0x7200C
/-- QUIET_MS[7:0], RWS. -/
def FAB_SND_CFG_QUIET_MS : Fld := ⟨FAB_SND_CFG, 0, 8⟩
/-- ROUND_MS[19:8], RWS. -/
def FAB_SND_CFG_ROUND_MS : Fld := ⟨FAB_SND_CFG, 8, 12⟩
/-- ACK_MS[27:20], RWS. -/
def FAB_SND_CFG_ACK_MS : Fld := ⟨FAB_SND_CFG, 20, 8⟩
/-- HOLDOFF_S[31:28], RWS. -/
def FAB_SND_CFG_HOLDOFF_S : Fld := ⟨FAB_SND_CFG, 28, 4⟩
/-- FAB_SND_STAT (Table 10.6). -/
def FAB_SND_STAT : Nat := 0x72010
/-- RERUN[2:0], RO. -/
def FAB_SND_STAT_RERUN : Fld := ⟨FAB_SND_STAT, 0, 3⟩
/-- UNSET[8:8], RO. -/
def FAB_SND_STAT_UNSET : Fld := ⟨FAB_SND_STAT, 8, 1⟩
/-- TREE[9:9], RO. -/
def FAB_SND_STAT_TREE : Fld := ⟨FAB_SND_STAT, 9, 1⟩
/-- BEYOND[10:10], RO. -/
def FAB_SND_STAT_BEYOND : Fld := ⟨FAB_SND_STAT, 10, 1⟩
/-- RELEASED[11:11], RO. -/
def FAB_SND_STAT_RELEASED : Fld := ⟨FAB_SND_STAT, 11, 1⟩
/-- BBEYOND[12:12], RO. -/
def FAB_SND_STAT_BBEYOND : Fld := ⟨FAB_SND_STAT, 12, 1⟩
/-- ROUND[31:16], RO. -/
def FAB_SND_STAT_ROUND : Fld := ⟨FAB_SND_STAT, 16, 16⟩
/-- FAB_SND_CNT (Table 10.6). -/
def FAB_SND_CNT : Nat := 0x72014
/-- ROUNDS[7:0], RC. -/
def FAB_SND_CNT_ROUNDS : Fld := ⟨FAB_SND_CNT, 0, 8⟩
/-- RERUNS[15:8], RC. -/
def FAB_SND_CNT_RERUNS : Fld := ⟨FAB_SND_CNT, 8, 8⟩
/-- UNSET[23:16], RC. -/
def FAB_SND_CNT_UNSET : Fld := ⟨FAB_SND_CNT, 16, 8⟩
/-- LATE[31:24], RC. -/
def FAB_SND_CNT_LATE : Fld := ⟨FAB_SND_CNT, 24, 8⟩
/-- FAB_TERM (Table 10.6). -/
def FAB_TERM : Nat := 0x72018
/-- TERM[15:0], RO. -/
def FAB_TERM_TERM : Fld := ⟨FAB_TERM, 0, 16⟩
/-- FAB_HUID_LO (Table 10.6). -/
def FAB_HUID_LO : Nat := 0x7201C
/-- FAB_TOPO (Table 10.6). -/
def FAB_TOPO : Nat := 0x72024
/-- KIND[1:0], RO. -/
def FAB_TOPO_KIND : Fld := ⟨FAB_TOPO, 0, 2⟩
/-- N[15:8], RO. -/
def FAB_TOPO_N : Fld := ⟨FAB_TOPO, 8, 8⟩
/-- L[23:16], RO. -/
def FAB_TOPO_L : Fld := ⟨FAB_TOPO, 16, 8⟩
/-- HPOS[30:24], RO. -/
def FAB_TOPO_HPOS : Fld := ⟨FAB_TOPO, 24, 7⟩
/-- FAB_POS (Table 10.6). -/
def FAB_POS : Nat := 0x72028
/-- RAIL[7:7], RO. -/
def FAB_POS_RAIL : Fld := ⟨FAB_POS, 7, 1⟩
/-- UPSTREAM[17:16], RO. -/
def FAB_POS_UPSTREAM : Fld := ⟨FAB_POS, 16, 2⟩
/-- UPV[18:18], RO. -/
def FAB_POS_UPV : Fld := ⟨FAB_POS, 18, 1⟩
/-- DLPORT[21:20], RO. -/
def FAB_POS_DLPORT : Fld := ⟨FAB_POS, 20, 2⟩
/-- DLV[22:22], RO. -/
def FAB_POS_DLV : Fld := ⟨FAB_POS, 22, 1⟩
/-- FAB_BCAST (Table 10.6). -/
def FAB_BCAST : Nat := 0x7202C
/-- PARENT[1:0], RO. -/
def FAB_BCAST_PARENT : Fld := ⟨FAB_BCAST, 0, 2⟩
/-- PV[2:2], RO. -/
def FAB_BCAST_PV : Fld := ⟨FAB_BCAST, 2, 1⟩
/-- CHILD[7:4], RO. -/
def FAB_BCAST_CHILD : Fld := ⟨FAB_BCAST, 4, 4⟩
/-- FAB_ADDR_HOLD (Table 10.6). -/
def FAB_ADDR_HOLD : Nat := 0x72030
/-- HOLD_S[11:0], RWS. -/
def FAB_ADDR_HOLD_HOLD_S : Fld := ⟨FAB_ADDR_HOLD, 0, 12⟩
/-- FAB_AT_IDX (Table 10.6). -/
def FAB_AT_IDX : Nat := 0x72034
/-- IDX[7:0], RW. -/
def FAB_AT_IDX_IDX : Fld := ⟨FAB_AT_IDX, 0, 8⟩
/-- FAB_AT_UID_LO (Table 10.6). -/
def FAB_AT_UID_LO : Nat := 0x72038
/-- FAB_AT_SUM (Table 10.6). -/
def FAB_AT_SUM : Nat := 0x72044
/-- FAB_HOST_FWD (Table 10.6). -/
def FAB_HOST_FWD : Nat := 0x72048
/-- F[5:0], RWS. -/
def FAB_HOST_FWD_F : Fld := ⟨FAB_HOST_FWD, 0, 6⟩
/-- FAB_HBR_CFG (Table 10.6). -/
def FAB_HBR_CFG : Nat := 0x7204C
/-- LOSS_MS[9:0], RWS. -/
def FAB_HBR_CFG_LOSS_MS : Fld := ⟨FAB_HBR_CFG, 0, 10⟩
/-- LISTEN_MS[25:16], RWS. -/
def FAB_HBR_CFG_LISTEN_MS : Fld := ⟨FAB_HBR_CFG, 16, 10⟩
/-- FAB_RA_CFG (Table 10.6). -/
def FAB_RA_CFG : Nat := 0x72050
/-- TMO_MS[7:0], RWS. -/
def FAB_RA_CFG_TMO_MS : Fld := ⟨FAB_RA_CFG, 0, 8⟩
/-- TRIES[11:8], RWS. -/
def FAB_RA_CFG_TRIES : Fld := ⟨FAB_RA_CFG, 8, 4⟩
/-- WIN[14:12], RWS. -/
def FAB_RA_CFG_WIN : Fld := ⟨FAB_RA_CFG, 12, 3⟩
/-- FAB_RA_STAT (Table 10.6). -/
def FAB_RA_STAT : Nat := 0x72054
/-- BUSY[15:0], RO. -/
def FAB_RA_STAT_BUSY : Fld := ⟨FAB_RA_STAT, 0, 16⟩
/-- FAB_RA_CNT0 (Table 10.6). -/
def FAB_RA_CNT0 : Nat := 0x72058
/-- SERVED[15:0], RC. -/
def FAB_RA_CNT0_SERVED : Fld := ⟨FAB_RA_CNT0, 0, 16⟩
/-- FENCED[31:16], RC. -/
def FAB_RA_CNT0_FENCED : Fld := ⟨FAB_RA_CNT0, 16, 16⟩
/-- FAB_RA_CNT1 (Table 10.6). -/
def FAB_RA_CNT1 : Nat := 0x7205C
/-- TMO[15:0], RC. -/
def FAB_RA_CNT1_TMO : Fld := ⟨FAB_RA_CNT1, 0, 16⟩
/-- RETRY[31:16], RC. -/
def FAB_RA_CNT1_RETRY : Fld := ⟨FAB_RA_CNT1, 16, 16⟩
/-- FAB_RA_CNT2 (Table 10.6). -/
def FAB_RA_CNT2 : Nat := 0x72060
/-- DUP[15:0], RC. -/
def FAB_RA_CNT2_DUP : Fld := ⟨FAB_RA_CNT2, 0, 16⟩
/-- REF[31:16], RC. -/
def FAB_RA_CNT2_REF : Fld := ⟨FAB_RA_CNT2, 16, 16⟩
/-- FAB_MEMRD_CFG (Table 10.6). -/
def FAB_MEMRD_CFG : Nat := 0x72064
/-- RATE[3:0], RWS. -/
def FAB_MEMRD_CFG_RATE : Fld := ⟨FAB_MEMRD_CFG, 0, 4⟩
/-- MAXS[7:4], RWS. -/
def FAB_MEMRD_CFG_MAXS : Fld := ⟨FAB_MEMRD_CFG, 4, 4⟩
/-- FAB_MEMRD_STAT (Table 10.6). -/
def FAB_MEMRD_STAT : Nat := 0x72068
/-- ACT[3:0], RO. -/
def FAB_MEMRD_STAT_ACT : Fld := ⟨FAB_MEMRD_STAT, 0, 4⟩
/-- DONE[31:16], RC. -/
def FAB_MEMRD_STAT_DONE : Fld := ⟨FAB_MEMRD_STAT, 16, 16⟩
/-- FAB_CWAY_RT (Table 10.6). -/
def FAB_CWAY_RT : Nat := 0x7206C
/-- AHOPS[13:8], RO. -/
def FAB_CWAY_RT_AHOPS : Fld := ⟨FAB_CWAY_RT, 8, 6⟩
/-- BV[18:18], RO. -/
def FAB_CWAY_RT_BV : Fld := ⟨FAB_CWAY_RT, 18, 1⟩
/-- FAB_UNSET_CNT (Table 10.6). -/
def FAB_UNSET_CNT : Nat := 0x72070
/-- N[7:0], RO. -/
def FAB_UNSET_CNT_N : Fld := ⟨FAB_UNSET_CNT, 0, 8⟩
/-- FAB_SVC_CFG (Table 10.6). -/
def FAB_SVC_CFG : Nat := 0x72074
/-- WR[0:0], RWS. -/
def FAB_SVC_CFG_WR : Fld := ⟨FAB_SVC_CFG, 0, 1⟩
/-- FAB_COMMIT_TICK (Table 10.6). -/
def FAB_COMMIT_TICK : Nat := 0x72078
/-- FAB_PORTn_SND (Table 10.6). -/
def FAB_PORTn_SND (n : Nat) : Nat := 0x72080 + n * 0x20
/-- PEER_ADDR[7:0], RO. -/
def FAB_PORTn_SND_PEER_ADDR (n : Nat) : Fld := ⟨FAB_PORTn_SND n, 0, 8⟩
/-- UNSET[8:8], RO. -/
def FAB_PORTn_SND_UNSET (n : Nat) : Fld := ⟨FAB_PORTn_SND n, 8, 1⟩
/-- PARENT[9:9], RO. -/
def FAB_PORTn_SND_PARENT (n : Nat) : Fld := ⟨FAB_PORTn_SND n, 9, 1⟩
/-- BCHILD[10:10], RO. -/
def FAB_PORTn_SND_BCHILD (n : Nat) : Fld := ⟨FAB_PORTn_SND n, 10, 1⟩
/-- RING[11:11], RO. -/
def FAB_PORTn_SND_RING (n : Nat) : Fld := ⟨FAB_PORTn_SND n, 11, 1⟩
/-- RUNG[12:12], RO. -/
def FAB_PORTn_SND_RUNG (n : Nat) : Fld := ⟨FAB_PORTn_SND n, 12, 1⟩
/-- FAB_PORTn_SCNTm (Table 10.6). -/
def FAB_PORTn_SCNTm (n m : Nat) : Nat := 0x72084 + n * 0x20 + m * 0x4
/-- FAB_RASs_CTRL (Table 10.6). -/
def FAB_RASs_CTRL (n : Nat) : Nat := 0x72100 + n * 0x20
/-- DST[7:0], RW. -/
def FAB_RASs_CTRL_DST (n : Nat) : Fld := ⟨FAB_RASs_CTRL n, 0, 8⟩
/-- OP[9:8], RW. -/
def FAB_RASs_CTRL_OP (n : Nat) : Fld := ⟨FAB_RASs_CTRL n, 8, 2⟩
/-- COUNT[22:16], RW. -/
def FAB_RASs_CTRL_COUNT (n : Nat) : Fld := ⟨FAB_RASs_CTRL n, 16, 7⟩
/-- HOSTTAG[23:23], RW. -/
def FAB_RASs_CTRL_HOSTTAG (n : Nat) : Fld := ⟨FAB_RASs_CTRL n, 23, 1⟩
/-- FAB_RASs_ADDR (Table 10.6). -/
def FAB_RASs_ADDR (n : Nat) : Nat := 0x72104 + n * 0x20
/-- FAB_RASs_WDATA (Table 10.6). -/
def FAB_RASs_WDATA (n : Nat) : Nat := 0x72108 + n * 0x20
/-- FAB_RASs_RDATA (Table 10.6). -/
def FAB_RASs_RDATA (n : Nat) : Nat := 0x7210C + n * 0x20
/-- FAB_RASs_BUF (Table 10.6). -/
def FAB_RASs_BUF (n : Nat) : Nat := 0x72110 + n * 0x20
/-- FAB_RASs_STAT (Table 10.6). -/
def FAB_RASs_STAT (n : Nat) : Nat := 0x72114 + n * 0x20
/-- STATE[1:0], RO. -/
def FAB_RASs_STAT_STATE (n : Nat) : Fld := ⟨FAB_RASs_STAT n, 0, 2⟩
/-- CODE[15:8], RO. -/
def FAB_RASs_STAT_CODE (n : Nat) : Fld := ⟨FAB_RASs_STAT n, 8, 8⟩
/-- DONE_WORDS[22:16], RO. -/
def FAB_RASs_STAT_DONE_WORDS (n : Nat) : Fld := ⟨FAB_RASs_STAT n, 16, 7⟩
/-- SENT[26:24], RO. -/
def FAB_RASs_STAT_SENT (n : Nat) : Fld := ⟨FAB_RASs_STAT n, 24, 3⟩
/-- FAB_RASs_SEQ (Table 10.6). -/
def FAB_RASs_SEQ (n : Nat) : Nat := 0x72118 + n * 0x20
/-- SEQ[15:0], RO. -/
def FAB_RASs_SEQ_SEQ (n : Nat) : Fld := ⟨FAB_RASs_SEQ n, 0, 16⟩
/-- TAG[31:16], RO. -/
def FAB_RASs_SEQ_TAG (n : Nat) : Fld := ⟨FAB_RASs_SEQ n, 16, 16⟩
/-- FAB_RASs_LAT (Table 10.6). -/
def FAB_RASs_LAT (n : Nat) : Nat := 0x7211C + n * 0x20
/-- US[19:0], RO. -/
def FAB_RASs_LAT_US (n : Nat) : Fld := ⟨FAB_RASs_LAT n, 0, 20⟩
/-- FAB_RTd (Table 10.6). -/
def FAB_RTd (n : Nat) : Nat := 0x72400 + n * 0x4
/-- PORT[1:0], RW. -/
def FAB_RTd_PORT (n : Nat) : Fld := ⟨FAB_RTd n, 0, 2⟩
/-- VALID[2:2], RW. -/
def FAB_RTd_VALID (n : Nat) : Fld := ⟨FAB_RTd n, 2, 1⟩
/-- LOCAL[4:4], RW. -/
def FAB_RTd_LOCAL (n : Nat) : Fld := ⟨FAB_RTd n, 4, 1⟩
/-- ALT[6:5], RW. -/
def FAB_RTd_ALT (n : Nat) : Fld := ⟨FAB_RTd n, 5, 2⟩
/-- FAB_MAPa (Table 10.6). -/
def FAB_MAPa (n : Nat) : Nat := 0x72800 + n * 0x4
/-- FAB_POSa (Table 10.6). -/
def FAB_POSa (n : Nat) : Nat := 0x72C00 + n * 0x4
/-- CMF_CTRL (Table 3.10). -/
def CMF_CTRL : Nat := 0x20000
/-- EN[0:0], RW. -/
def CMF_CTRL_EN : Fld := ⟨CMF_CTRL, 0, 1⟩
/-- OW_EN[1:1], RWS. -/
def CMF_CTRL_OW_EN : Fld := ⟨CMF_CTRL, 1, 1⟩
/-- MINMAX_EN[2:2], RWS. -/
def CMF_CTRL_MINMAX_EN : Fld := ⟨CMF_CTRL, 2, 1⟩
/-- CMF_STAT (Table 3.10). -/
def CMF_STAT : Nat := 0x20004
/-- BANK[0:0], RO. -/
def CMF_STAT_BANK : Fld := ⟨CMF_STAT, 0, 1⟩
/-- OW_STEP[2:1], RO. -/
def CMF_STAT_OW_STEP : Fld := ⟨CMF_STAT, 1, 2⟩
/-- OW_ACTIVE[3:3], RO. -/
def CMF_STAT_OW_ACTIVE : Fld := ⟨CMF_STAT, 3, 1⟩
/-- TRIM_ACT[4:4], RO. -/
def CMF_STAT_TRIM_ACT : Fld := ⟨CMF_STAT, 4, 1⟩
/-- MODE_ACT[6:5], RO. -/
def CMF_STAT_MODE_ACT : Fld := ⟨CMF_STAT, 5, 2⟩
/-- N_ACT[13:8], RO. -/
def CMF_STAT_N_ACT : Fld := ⟨CMF_STAT, 8, 6⟩
/-- CMF_BANK_TAG (Table 3.10). -/
def CMF_BANK_TAG : Nat := 0x20008
/-- CMF_CELLS (Table 3.10). -/
def CMF_CELLS : Nat := 0x2000C
/-- N[5:0], RWS. -/
def CMF_CELLS_N : Fld := ⟨CMF_CELLS, 0, 6⟩
/-- CMF_FILT_CFG (Table 3.10). -/
def CMF_FILT_CFG : Nat := 0x20010
/-- MODE[1:0], RWS. -/
def CMF_FILT_CFG_MODE : Fld := ⟨CMF_FILT_CFG, 0, 2⟩
/-- GD[31:8], RO. -/
def CMF_FILT_CFG_GD : Fld := ⟨CMF_FILT_CFG, 8, 24⟩
/-- CMF_OW_CFG (Table 3.10). -/
def CMF_OW_CFG : Nat := 0x20014
/-- STEP_MS[11:0], RWS. -/
def CMF_OW_CFG_STEP_MS : Fld := ⟨CMF_OW_CFG, 0, 12⟩
/-- DWELL[15:12], RWS. -/
def CMF_OW_CFG_DWELL : Fld := ⟨CMF_OW_CFG, 12, 4⟩
/-- THR[23:16], RWS. -/
def CMF_OW_CFG_THR : Fld := ⟨CMF_OW_CFG, 16, 8⟩
/-- CONF[27:24], RWS. -/
def CMF_OW_CFG_CONF : Fld := ⟨CMF_OW_CFG, 24, 4⟩
/-- CMF_OW_STAT (Table 3.10). -/
def CMF_OW_STAT : Nat := 0x20018
/-- STEP[1:0], RO. -/
def CMF_OW_STAT_STEP : Fld := ⟨CMF_OW_STAT, 0, 2⟩
/-- ROT[31:16], RO. -/
def CMF_OW_STAT_ROT : Fld := ⟨CMF_OW_STAT, 16, 16⟩
/-- CMF_OW_TAP_LO (Table 3.10). -/
def CMF_OW_TAP_LO : Nat := 0x2001C
/-- CMF_OW_TAP_HI (Table 3.10). -/
def CMF_OW_TAP_HI : Nat := 0x20020
/-- T32[0:0], RO. -/
def CMF_OW_TAP_HI_T32 : Fld := ⟨CMF_OW_TAP_HI, 0, 1⟩
/-- CMF_SNAP_CFG (Table 3.10). -/
def CMF_SNAP_CFG : Nat := 0x20024
/-- EN[0:0], RWS. -/
def CMF_SNAP_CFG_EN : Fld := ⟨CMF_SNAP_CFG, 0, 1⟩
/-- DELTA[1:1], RWS. -/
def CMF_SNAP_CFG_DELTA : Fld := ⟨CMF_SNAP_CFG, 1, 1⟩
/-- DECIM[4:2], RWS. -/
def CMF_SNAP_CFG_DECIM : Fld := ⟨CMF_SNAP_CFG, 2, 3⟩
/-- DECIM_IMP[7:5], RW. -/
def CMF_SNAP_CFG_DECIM_IMP : Fld := ⟨CMF_SNAP_CFG, 5, 3⟩
/-- KEY[15:8], RWS. -/
def CMF_SNAP_CFG_KEY : Fld := ⟨CMF_SNAP_CFG, 8, 8⟩
/-- DEST[23:16], RWS. -/
def CMF_SNAP_CFG_DEST : Fld := ⟨CMF_SNAP_CFG, 16, 8⟩
/-- PHASE[29:24], RO. -/
def CMF_SNAP_CFG_PHASE : Fld := ⟨CMF_SNAP_CFG, 24, 6⟩
/-- CMF_SNAP_RING (Table 3.10). -/
def CMF_SNAP_RING : Nat := 0x20028
/-- BASE[11:0], RWS. -/
def CMF_SNAP_RING_BASE : Fld := ⟨CMF_SNAP_RING, 0, 12⟩
/-- DEPTH[15:12], RWS. -/
def CMF_SNAP_RING_DEPTH : Fld := ⟨CMF_SNAP_RING, 12, 4⟩
/-- WPTR[31:16], RO. -/
def CMF_SNAP_RING_WPTR : Fld := ⟨CMF_SNAP_RING, 16, 16⟩
/-- CMF_SUM_V (Table 3.10). -/
def CMF_SUM_V : Nat := 0x2002C
/-- SUM[30:0], RO. -/
def CMF_SUM_V_SUM : Fld := ⟨CMF_SUM_V, 0, 31⟩
/-- VALID[31:31], RO. -/
def CMF_SUM_V_VALID : Fld := ⟨CMF_SUM_V, 31, 1⟩
/-- CMF_VMIN (Table 3.10). -/
def CMF_VMIN : Nat := 0x20030
/-- CMF_VMAX (Table 3.10). -/
def CMF_VMAX : Nat := 0x20034
/-- CMF_TEST (Table 3.10). -/
def CMF_TEST : Nat := 0x20038
/-- SEL[4:0], RW. -/
def CMF_TEST_SEL : Fld := ⟨CMF_TEST, 0, 5⟩
/-- REF[5:5], RW. -/
def CMF_TEST_REF : Fld := ⟨CMF_TEST, 5, 1⟩
/-- CMF_FLAGS_OR (Table 3.10). -/
def CMF_FLAGS_OR : Nat := 0x2003C
/-- F[15:0], RO. -/
def CMF_FLAGS_OR_F : Fld := ⟨CMF_FLAGS_OR, 0, 16⟩
/-- CMF_GRPg_STAT (Table 3.10). -/
def CMF_GRPg_STAT (n : Nat) : Nat := 0x20040 + n * 0x4
/-- LAST[15:0], RO. -/
def CMF_GRPg_STAT_LAST (n : Nat) : Fld := ⟨CMF_GRPg_STAT n, 0, 16⟩
/-- LATE[23:16], RO. -/
def CMF_GRPg_STAT_LATE (n : Nat) : Fld := ⟨CMF_GRPg_STAT n, 16, 8⟩
/-- FENCED[24:24], RO. -/
def CMF_GRPg_STAT_FENCED (n : Nat) : Fld := ⟨CMF_GRPg_STAT n, 24, 1⟩
/-- CMF_GRPg_POST (Table 3.10). -/
def CMF_GRPg_POST (n : Nat) : Nat := 0x20060 + n * 0x4
/-- T[15:0], RO. -/
def CMF_GRPg_POST_T (n : Nat) : Fld := ⟨CMF_GRPg_POST n, 0, 16⟩
/-- MAX[31:16], RC. -/
def CMF_GRPg_POST_MAX (n : Nat) : Fld := ⟨CMF_GRPg_POST n, 16, 16⟩
/-- CMF_CELLn_V (Table 3.10). -/
def CMF_CELLn_V (n : Nat) : Nat := 0x20100 + n * 0x10
/-- CMF_CELLn_FLAG (Table 3.10). -/
def CMF_CELLn_FLAG (n : Nat) : Nat := 0x20104 + n * 0x10
/-- VALID[0:0], RO. -/
def CMF_CELLn_FLAG_VALID (n : Nat) : Fld := ⟨CMF_CELLn_FLAG n, 0, 1⟩
/-- STALE[1:1], RO. -/
def CMF_CELLn_FLAG_STALE (n : Nat) : Fld := ⟨CMF_CELLn_FLAG n, 1, 1⟩
/-- LATE[2:2], RO. -/
def CMF_CELLn_FLAG_LATE (n : Nat) : Fld := ⟨CMF_CELLn_FLAG n, 2, 1⟩
/-- OWI[3:3], RO. -/
def CMF_CELLn_FLAG_OWI (n : Nat) : Fld := ⟨CMF_CELLn_FLAG n, 3, 1⟩
/-- OW[4:4], RO. -/
def CMF_CELLn_FLAG_OW (n : Nat) : Fld := ⟨CMF_CELLn_FLAG n, 4, 1⟩
/-- RANGE[5:5], RO. -/
def CMF_CELLn_FLAG_RANGE (n : Nat) : Fld := ⟨CMF_CELLn_FLAG n, 5, 1⟩
/-- DISAGREE[10:10], RO. -/
def CMF_CELLn_FLAG_DISAGREE (n : Nat) : Fld := ⟨CMF_CELLn_FLAG n, 10, 1⟩
/-- CMF_CELLn_MIN (Table 3.10). -/
def CMF_CELLn_MIN (n : Nat) : Nat := 0x20108 + n * 0x10
/-- CMF_CELLn_MAX (Table 3.10). -/
def CMF_CELLn_MAX (n : Nat) : Nat := 0x2010C + n * 0x10
/-- CMF_TRIMn_OFS (Table 3.10). -/
def CMF_TRIMn_OFS (n : Nat) : Nat := 0x20300 + n * 0x10
/-- CMF_TRIMn_GAIN (Table 3.10). -/
def CMF_TRIMn_GAIN (n : Nat) : Nat := 0x20304 + n * 0x10
/-- CMF_TRIMn_QUAD (Table 3.10). -/
def CMF_TRIMn_QUAD (n : Nat) : Nat := 0x20308 + n * 0x10
/-- CMF_TRIMn_TC (Table 3.10). -/
def CMF_TRIMn_TC (n : Nat) : Nat := 0x2030C + n * 0x10
/-- CMF_DIAGn_OW (Table 3.10). -/
def CMF_DIAGn_OW (n : Nat) : Nat := 0x20500 + n * 0x8
/-- D[23:0], RO. -/
def CMF_DIAGn_OW_D (n : Nat) : Fld := ⟨CMF_DIAGn_OW n, 0, 24⟩
/-- N[31:24], RO. -/
def CMF_DIAGn_OW_N (n : Nat) : Fld := ⟨CMF_DIAGn_OW n, 24, 8⟩
/-- CMF_DIAGn_CNT (Table 3.10). -/
def CMF_DIAGn_CNT (n : Nat) : Nat := 0x20504 + n * 0x8
/-- RANGE[7:0], RC. -/
def CMF_DIAGn_CNT_RANGE (n : Nat) : Fld := ⟨CMF_DIAGn_CNT n, 0, 8⟩
/-- MOD[15:8], RC. -/
def CMF_DIAGn_CNT_MOD (n : Nat) : Fld := ⟨CMF_DIAGn_CNT n, 8, 8⟩
/-- LATE[23:16], RC. -/
def CMF_DIAGn_CNT_LATE (n : Nat) : Fld := ⟨CMF_DIAGn_CNT n, 16, 8⟩
/-- DIS[31:24], RC. -/
def CMF_DIAGn_CNT_DIS (n : Nat) : Fld := ⟨CMF_DIAGn_CNT n, 24, 8⟩
/-- CMF_TFIR_COEFm (Table 3.10). -/
def CMF_TFIR_COEFm (n : Nat) : Nat := 0x20600 + n * 0x4
/-- CMF_RAWn_m (Table 3.10). -/
def CMF_RAWn_m (n m : Nat) : Nat := 0x21000 + n * 0x80 + m * 0x4
/-- CSI_CTRL (Table 4.4). -/
def CSI_CTRL : Nat := 0x30000
/-- EN[0:0], RW. -/
def CSI_CTRL_EN : Fld := ⟨CSI_CTRL, 0, 1⟩
/-- POL0[1:1], RWS. -/
def CSI_CTRL_POL0 : Fld := ⟨CSI_CTRL, 1, 1⟩
/-- POL1[2:2], RWS. -/
def CSI_CTRL_POL1 : Fld := ⟨CSI_CTRL, 2, 1⟩
/-- TEST0[4:3], RW. -/
def CSI_CTRL_TEST0 : Fld := ⟨CSI_CTRL, 3, 2⟩
/-- TEST1[6:5], RW. -/
def CSI_CTRL_TEST1 : Fld := ⟨CSI_CTRL, 5, 2⟩
/-- NO_CS1[7:7], RWS. -/
def CSI_CTRL_NO_CS1 : Fld := ⟨CSI_CTRL, 7, 1⟩
/-- CSI_STAT (Table 4.4). -/
def CSI_STAT : Nat := 0x30004
/-- ZW[0:0], RO. -/
def CSI_STAT_ZW : Fld := ⟨CSI_STAT, 0, 1⟩
/-- SC_ACT[1:1], RO. -/
def CSI_STAT_SC_ACT : Fld := ⟨CSI_STAT, 1, 1⟩
/-- MAIN[3:2], RO. -/
def CSI_STAT_MAIN : Fld := ⟨CSI_STAT, 2, 2⟩
/-- TRIM_ACT[4:4], RO. -/
def CSI_STAT_TRIM_ACT : Fld := ⟨CSI_STAT, 4, 1⟩
/-- CSI_DIV_CFG (Table 4.4). -/
def CSI_DIV_CFG : Nat := 0x30008
/-- ABS[11:0], RWS. -/
def CSI_DIV_CFG_ABS : Fld := ⟨CSI_DIV_CFG, 0, 12⟩
/-- REL[19:12], RWS. -/
def CSI_DIV_CFG_REL : Fld := ⟨CSI_DIV_CFG, 12, 8⟩
/-- CNT[23:20], RWS. -/
def CSI_DIV_CFG_CNT : Fld := ⟨CSI_DIV_CFG, 20, 4⟩
/-- CSI_DIV_STAT (Table 4.4). -/
def CSI_DIV_STAT : Nat := 0x3000C
/-- MEAN[23:0], RO. -/
def CSI_DIV_STAT_MEAN : Fld := ⟨CSI_DIV_STAT, 0, 24⟩
/-- BIAS[24:24], RW1C. -/
def CSI_DIV_STAT_BIAS : Fld := ⟨CSI_DIV_STAT, 24, 1⟩
/-- DIS[31:25], RC. -/
def CSI_DIV_STAT_DIS : Fld := ⟨CSI_DIV_STAT, 25, 7⟩
/-- CSI_QCTRL (Table 4.4). -/
def CSI_QCTRL : Nat := 0x30010
/-- CSI_QSTAT (Table 4.4). -/
def CSI_QSTAT : Nat := 0x30014
/-- QSUB[0:0], RW1C. -/
def CSI_QSTAT_QSUB : Fld := ⟨CSI_QSTAT, 0, 1⟩
/-- QEST[1:1], RW1C. -/
def CSI_QSTAT_QEST : Fld := ⟨CSI_QSTAT, 1, 1⟩
/-- QGAP[2:2], RW1C. -/
def CSI_QSTAT_QGAP : Fld := ⟨CSI_QSTAT, 2, 1⟩
/-- QSAT[3:3], RW1C. -/
def CSI_QSTAT_QSAT : Fld := ⟨CSI_QSTAT, 3, 1⟩
/-- LOADED[4:4], RW1C. -/
def CSI_QSTAT_LOADED : Fld := ⟨CSI_QSTAT, 4, 1⟩
/-- LOAD_PEND[5:5], RO. -/
def CSI_QSTAT_LOAD_PEND : Fld := ⟨CSI_QSTAT, 5, 1⟩
/-- CSI_QACC_LO (Table 4.4). -/
def CSI_QACC_LO : Nat := 0x30018
/-- CSI_QACC_RES (Table 4.4). -/
def CSI_QACC_RES : Nat := 0x30020
/-- CSI_QACC1_LO (Table 4.4). -/
def CSI_QACC1_LO : Nat := 0x30024
/-- CSI_QACC1_RES (Table 4.4). -/
def CSI_QACC1_RES : Nat := 0x3002C
/-- CSI_QPRE_LO (Table 4.4). -/
def CSI_QPRE_LO : Nat := 0x30030
/-- CSI_QGAP (Table 4.4). -/
def CSI_QGAP : Nat := 0x30038
/-- CSI_CSn_V (Table 4.4). -/
def CSI_CSn_V (n : Nat) : Nat := 0x30040 + n * 0x20
/-- CSI_CSn_I (Table 4.4). -/
def CSI_CSn_I (n : Nat) : Nat := 0x30044 + n * 0x20
/-- CSI_CSn_FLAG (Table 4.4). -/
def CSI_CSn_FLAG (n : Nat) : Nat := 0x30048 + n * 0x20
/-- VALID[0:0], RO. -/
def CSI_CSn_FLAG_VALID (n : Nat) : Fld := ⟨CSI_CSn_FLAG n, 0, 1⟩
/-- DISAGREE[10:10], RO. -/
def CSI_CSn_FLAG_DISAGREE (n : Nat) : Fld := ⟨CSI_CSn_FLAG n, 10, 1⟩
/-- CSI_CSn_SHUNT (Table 4.4). -/
def CSI_CSn_SHUNT (n : Nat) : Nat := 0x3004C + n * 0x20
/-- R0[23:0], RWS. -/
def CSI_CSn_SHUNT_R0 (n : Nat) : Fld := ⟨CSI_CSn_SHUNT n, 0, 24⟩
/-- CSI_CSn_TCO (Table 4.4). -/
def CSI_CSn_TCO (n : Nat) : Nat := 0x30050 + n * 0x20
/-- ALPHA[15:0], RWS. -/
def CSI_CSn_TCO_ALPHA (n : Nat) : Fld := ⟨CSI_CSn_TCO n, 0, 16⟩
/-- AXSEL[20:16], RWS. -/
def CSI_CSn_TCO_AXSEL (n : Nat) : Fld := ⟨CSI_CSn_TCO n, 16, 5⟩
/-- CSI_CSn_TRIM_OFS (Table 4.4). -/
def CSI_CSn_TRIM_OFS (n : Nat) : Nat := 0x30054 + n * 0x20
/-- CSI_CSn_TRIM_GAIN (Table 4.4). -/
def CSI_CSn_TRIM_GAIN (n : Nat) : Nat := 0x30058 + n * 0x20
/-- CSI_CSn_PEAK (Table 4.4). -/
def CSI_CSn_PEAK (n : Nat) : Nat := 0x3005C + n * 0x20
/-- V[30:0], RC. -/
def CSI_CSn_PEAK_V (n : Nat) : Fld := ⟨CSI_CSn_PEAK n, 0, 31⟩
/-- SIGN[31:31], RC. -/
def CSI_CSn_PEAK_SIGN (n : Nat) : Fld := ⟨CSI_CSn_PEAK n, 31, 1⟩
/-- CSI_RAWn_m (Table 4.4). -/
def CSI_RAWn_m (n m : Nat) : Nat := 0x30100 + n * 0x80 + m * 0x4
/-- CSI_IMP_BINb_CFG (Table 5.6). -/
def CSI_IMP_BINb_CFG (n : Nat) : Nat := 0x30200 + n * 0x4
/-- F[18:0], RWS. -/
def CSI_IMP_BINb_CFG_F (n : Nat) : Fld := ⟨CSI_IMP_BINb_CFG n, 0, 19⟩
/-- STAGE[21:19], RWS. -/
def CSI_IMP_BINb_CFG_STAGE (n : Nat) : Fld := ⟨CSI_IMP_BINb_CFG n, 19, 3⟩
/-- SRC[23:22], RWS. -/
def CSI_IMP_BINb_CFG_SRC (n : Nat) : Fld := ⟨CSI_IMP_BINb_CFG n, 22, 2⟩
/-- AMP[31:24], RWS. -/
def CSI_IMP_BINb_CFG_AMP (n : Nat) : Fld := ⟨CSI_IMP_BINb_CFG n, 24, 8⟩
/-- CSI_IMP_CTRL (Table 5.6). -/
def CSI_IMP_CTRL : Nat := 0x30260
/-- EN[0:0], RWS. -/
def CSI_IMP_CTRL_EN : Fld := ⟨CSI_IMP_CTRL, 0, 1⟩
/-- CONC[7:4], RWS. -/
def CSI_IMP_CTRL_CONC : Fld := ⟨CSI_IMP_CTRL, 4, 4⟩
/-- MPER[15:8], RWS. -/
def CSI_IMP_CTRL_MPER : Fld := ⟨CSI_IMP_CTRL, 8, 8⟩
/-- SETTLE[23:16], RWS. -/
def CSI_IMP_CTRL_SETTLE : Fld := ⟨CSI_IMP_CTRL, 16, 8⟩
/-- CSI_IMP_STAT (Table 5.6). -/
def CSI_IMP_STAT : Nat := 0x30264
/-- BUSY[0:0], RO. -/
def CSI_IMP_STAT_BUSY : Fld := ⟨CSI_IMP_STAT, 0, 1⟩
/-- KIND[1:1], RO. -/
def CSI_IMP_STAT_KIND : Fld := ⟨CSI_IMP_STAT, 1, 1⟩
/-- STAGE[4:2], RO. -/
def CSI_IMP_STAT_STAGE : Fld := ⟨CSI_IMP_STAT, 2, 3⟩
/-- WIN[9:5], RO. -/
def CSI_IMP_STAT_WIN : Fld := ⟨CSI_IMP_STAT, 5, 5⟩
/-- PASSIVE[10:10], RO. -/
def CSI_IMP_STAT_PASSIVE : Fld := ⟨CSI_IMP_STAT, 10, 1⟩
/-- PLAN_ERR[11:11], RO. -/
def CSI_IMP_STAT_PLAN_ERR : Fld := ⟨CSI_IMP_STAT, 11, 1⟩
/-- PLAN_MIS[12:12], RO. -/
def CSI_IMP_STAT_PLAN_MIS : Fld := ⟨CSI_IMP_STAT, 12, 1⟩
/-- TPEND[13:13], RO. -/
def CSI_IMP_STAT_TPEND : Fld := ⟨CSI_IMP_STAT, 13, 1⟩
/-- CSI_IMP_SCHED (Table 5.6). -/
def CSI_IMP_SCHED : Nat := 0x30268
/-- FULL_MIN[11:0], RWS. -/
def CSI_IMP_SCHED_FULL_MIN : Fld := ⟨CSI_IMP_SCHED, 0, 12⟩
/-- TEMP_S[19:12], RWS. -/
def CSI_IMP_SCHED_TEMP_S : Fld := ⟨CSI_IMP_SCHED, 12, 8⟩
/-- STAGGER[20:20], RWS. -/
def CSI_IMP_SCHED_STAGGER : Fld := ⟨CSI_IMP_SCHED, 20, 1⟩
/-- CSI_IMP_EXC (Table 5.6). -/
def CSI_IMP_EXC : Nat := 0x3026C
/-- IMIN[7:0], RWS. -/
def CSI_IMP_EXC_IMIN : Fld := ⟨CSI_IMP_EXC, 0, 8⟩
/-- PHMASK[15:8], RWS. -/
def CSI_IMP_EXC_PHMASK : Fld := ⟨CSI_IMP_EXC, 8, 8⟩
/-- CSI_IMP_PASV (Table 5.6). -/
def CSI_IMP_PASV : Nat := 0x30270
/-- THR[11:0], RWS. -/
def CSI_IMP_PASV_THR : Fld := ⟨CSI_IMP_PASV, 0, 12⟩
/-- TRIES[15:12], RWS. -/
def CSI_IMP_PASV_TRIES : Fld := ⟨CSI_IMP_PASV, 12, 4⟩
/-- CSI_IMP_PLAN (Table 5.6). -/
def CSI_IMP_PLAN : Nat := 0x30274
/-- SLOT[3:0], RW. -/
def CSI_IMP_PLAN_SLOT : Fld := ⟨CSI_IMP_PLAN, 0, 4⟩
/-- SLOTS_L2[6:4], RW. -/
def CSI_IMP_PLAN_SLOTS_L2 : Fld := ⟨CSI_IMP_PLAN, 4, 3⟩
/-- GROUP[15:8], RW. -/
def CSI_IMP_PLAN_GROUP : Fld := ⟨CSI_IMP_PLAN, 8, 8⟩
/-- NGROUP[23:16], RW. -/
def CSI_IMP_PLAN_NGROUP : Fld := ⟨CSI_IMP_PLAN, 16, 8⟩
/-- CSI_IMP_RING (Table 5.6). -/
def CSI_IMP_RING : Nat := 0x30278
/-- BASE[7:0], RWS. -/
def CSI_IMP_RING_BASE : Fld := ⟨CSI_IMP_RING, 0, 8⟩
/-- DEPTH[11:8], RWS. -/
def CSI_IMP_RING_DEPTH : Fld := ⟨CSI_IMP_RING, 8, 4⟩
/-- WPTR[27:16], RO. -/
def CSI_IMP_RING_WPTR : Fld := ⟨CSI_IMP_RING, 16, 12⟩
/-- CSI_IMP_SEQ (Table 5.6). -/
def CSI_IMP_SEQ : Nat := 0x3027C
/-- CSI_IMP_CLIP (Table 5.6). -/
def CSI_IMP_CLIP : Nat := 0x30280
/-- AMP[15:0], RC. -/
def CSI_IMP_CLIP_AMP : Fld := ⟨CSI_IMP_CLIP, 0, 16⟩
/-- REM[31:16], RC. -/
def CSI_IMP_CLIP_REM : Fld := ⟨CSI_IMP_CLIP, 16, 16⟩
/-- CSI_IMP_ABORT (Table 5.6). -/
def CSI_IMP_ABORT : Nat := 0x30284
/-- CODE[7:0], RO. -/
def CSI_IMP_ABORT_CODE : Fld := ⟨CSI_IMP_ABORT, 0, 8⟩
/-- STAGE[10:8], RO. -/
def CSI_IMP_ABORT_STAGE : Fld := ⟨CSI_IMP_ABORT, 8, 3⟩
/-- N[31:16], RO. -/
def CSI_IMP_ABORT_N : Fld := ⟨CSI_IMP_ABORT, 16, 16⟩
/-- CSI_IMP_TCFG (Table 5.6). -/
def CSI_IMP_TCFG : Nat := 0x30288
/-- BIN[4:0], RWS. -/
def CSI_IMP_TCFG_BIN : Fld := ⟨CSI_IMP_TCFG, 0, 5⟩
/-- IREST[15:8], RWS. -/
def CSI_IMP_TCFG_IREST : Fld := ⟨CSI_IMP_TCFG, 8, 8⟩
/-- SPREAD[23:16], RWS. -/
def CSI_IMP_TCFG_SPREAD : Fld := ⟨CSI_IMP_TCFG, 16, 8⟩
/-- CSI_IMP_TLRN (Table 5.6). -/
def CSI_IMP_TLRN : Nat := 0x3028C
/-- CSI_IMP_TTBLj (Table 5.6). -/
def CSI_IMP_TTBLj (n : Nat) : Nat := 0x30290 + n * 0x4
/-- PH[15:0], RWS. -/
def CSI_IMP_TTBLj_PH (n : Nat) : Fld := ⟨CSI_IMP_TTBLj n, 0, 16⟩
/-- T[31:16], RWS. -/
def CSI_IMP_TTBLj_T (n : Nat) : Fld := ⟨CSI_IMP_TTBLj n, 16, 16⟩
/-- CSI_IMP_TMAPk (Table 5.6). -/
def CSI_IMP_TMAPk (n : Nat) : Nat := 0x302D0 + n * 0x4
/-- CSI_IMP_THOT (Table 5.6). -/
def CSI_IMP_THOT : Nat := 0x302E0
/-- IDX[7:0], RO. -/
def CSI_IMP_THOT_IDX : Fld := ⟨CSI_IMP_THOT, 0, 8⟩
/-- T[31:16], RO. -/
def CSI_IMP_THOT_T : Fld := ⟨CSI_IMP_THOT, 16, 16⟩
/-- CSI_IMP_EST_RING (Table 5.6). -/
def CSI_IMP_EST_RING : Nat := 0x302E4
/-- BASE[9:0], RWS. -/
def CSI_IMP_EST_RING_BASE : Fld := ⟨CSI_IMP_EST_RING, 0, 10⟩
/-- DEPTH[15:12], RWS. -/
def CSI_IMP_EST_RING_DEPTH : Fld := ⟨CSI_IMP_EST_RING, 12, 4⟩
/-- WPTR[31:16], RO. -/
def CSI_IMP_EST_RING_WPTR : Fld := ⟨CSI_IMP_EST_RING, 16, 16⟩
/-- CSI_IMP_LAST_LO (Table 5.6). -/
def CSI_IMP_LAST_LO : Nat := 0x302E8
/-- CSI_IMP_PCNT (Table 5.6). -/
def CSI_IMP_PCNT : Nat := 0x302F0
/-- ACC[15:0], RC. -/
def CSI_IMP_PCNT_ACC : Fld := ⟨CSI_IMP_PCNT, 0, 16⟩
/-- NACC[31:16], RC. -/
def CSI_IMP_PCNT_NACC : Fld := ⟨CSI_IMP_PCNT, 16, 16⟩
/-- CSI_IMP_TREND (Table 5.6). -/
def CSI_IMP_TREND : Nat := 0x302F4
/-- CSI_IMP_INV (Table 5.6). -/
def CSI_IMP_INV : Nat := 0x302F8
/-- EXC[7:0], RC. -/
def CSI_IMP_INV_EXC : Fld := ⟨CSI_IMP_INV, 0, 8⟩
/-- HELD[15:8], RC. -/
def CSI_IMP_INV_HELD : Fld := ⟨CSI_IMP_INV, 8, 8⟩
/-- LOWI[23:16], RC. -/
def CSI_IMP_INV_LOWI : Fld := ⟨CSI_IMP_INV, 16, 8⟩
/-- LATE[31:24], RC. -/
def CSI_IMP_INV_LATE : Fld := ⟨CSI_IMP_INV, 24, 8⟩
/-- CSI_IMP_XMIS (Table 5.6). -/
def CSI_IMP_XMIS : Nat := 0x302FC
/-- PHASE[2:0], RO. -/
def CSI_IMP_XMIS_PHASE : Fld := ⟨CSI_IMP_XMIS, 0, 3⟩
/-- CNT[15:8], RC. -/
def CSI_IMP_XMIS_CNT : Fld := ⟨CSI_IMP_XMIS, 8, 8⟩
/-- DEV[31:16], RO. -/
def CSI_IMP_XMIS_DEV : Fld := ⟨CSI_IMP_XMIS, 16, 16⟩
/-- BAL_CTRL (Table 6.6). -/
def BAL_CTRL : Nat := 0x50000
/-- EN[0:0], RW. -/
def BAL_CTRL_EN : Fld := ⟨BAL_CTRL, 0, 1⟩
/-- SCAN_S[23:16], RWS. -/
def BAL_CTRL_SCAN_S : Fld := ⟨BAL_CTRL, 16, 8⟩
/-- BAL_STAT (Table 6.6). -/
def BAL_STAT : Nat := 0x50004
/-- RUN[7:0], RO. -/
def BAL_STAT_RUN : Fld := ⟨BAL_STAT, 0, 8⟩
/-- FB[15:8], RO. -/
def BAL_STAT_FB : Fld := ⟨BAL_STAT, 8, 8⟩
/-- FEN[23:16], RO. -/
def BAL_STAT_FEN : Fld := ⟨BAL_STAT, 16, 8⟩
/-- THR[25:24], RO. -/
def BAL_STAT_THR : Fld := ⟨BAL_STAT, 24, 2⟩
/-- EXC[26:26], RO. -/
def BAL_STAT_EXC : Fld := ⟨BAL_STAT, 26, 1⟩
/-- OFF[27:27], RO. -/
def BAL_STAT_OFF : Fld := ⟨BAL_STAT, 27, 1⟩
/-- BAL_LIMIT (Table 6.6). -/
def BAL_LIMIT : Nat := 0x50008
/-- OVM[5:0], RWS. -/
def BAL_LIMIT_OVM : Fld := ⟨BAL_LIMIT, 0, 6⟩
/-- UVM[13:8], RWS. -/
def BAL_LIMIT_UVM : Fld := ⟨BAL_LIMIT, 8, 6⟩
/-- HYST[19:16], RWS. -/
def BAL_LIMIT_HYST : Fld := ⟨BAL_LIMIT, 16, 4⟩
/-- BAL_ICAP (Table 6.6). -/
def BAL_ICAP : Nat := 0x5000C
/-- AVG[8:0], RWS. -/
def BAL_ICAP_AVG : Fld := ⟨BAL_ICAP, 0, 9⟩
/-- BAL_SLOT (Table 6.6). -/
def BAL_SLOT : Nat := 0x50010
/-- SLOT_MS[9:0], RWS. -/
def BAL_SLOT_SLOT_MS : Fld := ⟨BAL_SLOT, 0, 10⟩
/-- BAL_BLEED (Table 6.6). -/
def BAL_BLEED : Nat := 0x50014
/-- VMIN[15:8], RWS. -/
def BAL_BLEED_VMIN : Fld := ⟨BAL_BLEED, 8, 8⟩
/-- EN[16:16], RWS. -/
def BAL_BLEED_EN : Fld := ⟨BAL_BLEED, 16, 1⟩
/-- BAL_SEC (Table 6.6). -/
def BAL_SEC : Nat := 0x50018
/-- I[15:0], RO. -/
def BAL_SEC_I : Fld := ⟨BAL_SEC, 0, 16⟩
/-- EFF[25:16], RO. -/
def BAL_SEC_EFF : Fld := ⟨BAL_SEC, 16, 10⟩
/-- BAL_CLIPS (Table 6.6). -/
def BAL_CLIPS : Nat := 0x5001C
/-- CAP[7:0], RC. -/
def BAL_CLIPS_CAP : Fld := ⟨BAL_CLIPS, 0, 8⟩
/-- MARGIN[15:8], RC. -/
def BAL_CLIPS_MARGIN : Fld := ⟨BAL_CLIPS, 8, 8⟩
/-- THROTTLE[23:16], RC. -/
def BAL_CLIPS_THROTTLE : Fld := ⟨BAL_CLIPS, 16, 8⟩
/-- RATIO[31:24], RC. -/
def BAL_CLIPS_RATIO : Fld := ⟨BAL_CLIPS, 24, 8⟩
/-- BAL_PHp_CMD (Table 6.6). -/
def BAL_PHp_CMD (n : Nat) : Nat := 0x50100 + n * 0x40
/-- I_SET[8:0], RW. -/
def BAL_PHp_CMD_I_SET (n : Nat) : Fld := ⟨BAL_PHp_CMD n, 0, 9⟩
/-- MODE[10:9], RW. -/
def BAL_PHp_CMD_MODE (n : Nat) : Fld := ⟨BAL_PHp_CMD n, 9, 2⟩
/-- CELL[13:12], RW. -/
def BAL_PHp_CMD_CELL (n : Nat) : Fld := ⟨BAL_PHp_CMD n, 12, 2⟩
/-- BAL_PHp_ACT (Table 6.6). -/
def BAL_PHp_ACT (n : Nat) : Nat := 0x50104 + n * 0x40
/-- I_ACT[8:0], RO. -/
def BAL_PHp_ACT_I_ACT (n : Nat) : Fld := ⟨BAL_PHp_ACT n, 0, 9⟩
/-- SRC[10:9], RO. -/
def BAL_PHp_ACT_SRC (n : Nat) : Fld := ⟨BAL_PHp_ACT n, 9, 2⟩
/-- POS[13:12], RO. -/
def BAL_PHp_ACT_POS (n : Nat) : Fld := ⟨BAL_PHp_ACT n, 12, 2⟩
/-- AGE[17:16], RO. -/
def BAL_PHp_ACT_AGE (n : Nat) : Fld := ⟨BAL_PHp_ACT n, 16, 2⟩
/-- CAP_EFF[31:23], RO. -/
def BAL_PHp_ACT_CAP_EFF (n : Nat) : Fld := ⟨BAL_PHp_ACT n, 23, 9⟩
/-- BAL_PHp_CFG (Table 6.6). -/
def BAL_PHp_CFG (n : Nat) : Nat := 0x50108 + n * 0x40
/-- EN[0:0], RWS. -/
def BAL_PHp_CFG_EN (n : Nat) : Fld := ⟨BAL_PHp_CFG n, 0, 1⟩
/-- NRATIO[10:5], RWS. -/
def BAL_PHp_CFG_NRATIO (n : Nat) : Fld := ⟨BAL_PHp_CFG n, 5, 6⟩
/-- RRMASK[19:16], RWS. -/
def BAL_PHp_CFG_RRMASK (n : Nat) : Fld := ⟨BAL_PHp_CFG n, 16, 4⟩
/-- BLEED_EN[20:20], RWS. -/
def BAL_PHp_CFG_BLEED_EN (n : Nat) : Fld := ⟨BAL_PHp_CFG n, 20, 1⟩
/-- BAL_PHp_TLIM (Table 6.6). -/
def BAL_PHp_TLIM (n : Nat) : Nat := 0x5010C + n * 0x40
/-- CAP[8:0], RW. -/
def BAL_PHp_TLIM_CAP (n : Nat) : Fld := ⟨BAL_PHp_TLIM n, 0, 9⟩
/-- BAL_PHp_STAT (Table 6.6). -/
def BAL_PHp_STAT (n : Nat) : Nat := 0x50110 + n * 0x40
/-- STATE[2:0], RO. -/
def BAL_PHp_STAT_STATE (n : Nat) : Fld := ⟨BAL_PHp_STAT n, 0, 3⟩
/-- POS[4:3], RO. -/
def BAL_PHp_STAT_POS (n : Nat) : Fld := ⟨BAL_PHp_STAT n, 3, 2⟩
/-- SELV[5:5], RO. -/
def BAL_PHp_STAT_SELV (n : Nat) : Fld := ⟨BAL_PHp_STAT n, 5, 1⟩
/-- FENCED[6:6], RO. -/
def BAL_PHp_STAT_FENCED (n : Nat) : Fld := ⟨BAL_PHp_STAT n, 6, 1⟩
/-- FALLBACK[7:7], RO. -/
def BAL_PHp_STAT_FALLBACK (n : Nat) : Fld := ⟨BAL_PHp_STAT n, 7, 1⟩
/-- EXC[8:8], RO. -/
def BAL_PHp_STAT_EXC (n : Nat) : Fld := ⟨BAL_PHp_STAT n, 8, 1⟩
/-- SWEEP[9:9], RO. -/
def BAL_PHp_STAT_SWEEP (n : Nat) : Fld := ⟨BAL_PHp_STAT n, 9, 1⟩
/-- RATIO_OOR[10:10], RO. -/
def BAL_PHp_STAT_RATIO_OOR (n : Nat) : Fld := ⟨BAL_PHp_STAT n, 10, 1⟩
/-- THR[12:11], RO. -/
def BAL_PHp_STAT_THR (n : Nat) : Fld := ⟨BAL_PHp_STAT n, 11, 2⟩
/-- DIR[13:13], RO. -/
def BAL_PHp_STAT_DIR (n : Nat) : Fld := ⟨BAL_PHp_STAT n, 13, 1⟩
/-- BAL_PHp_IPRI (Table 6.6). -/
def BAL_PHp_IPRI (n : Nat) : Nat := 0x50114 + n * 0x40
/-- I[15:0], RO. -/
def BAL_PHp_IPRI_I (n : Nat) : Fld := ⟨BAL_PHp_IPRI n, 0, 16⟩
/-- BAL_PHp_IPK (Table 6.6). -/
def BAL_PHp_IPK (n : Nat) : Nat := 0x50118 + n * 0x40
/-- I[12:0], RC. -/
def BAL_PHp_IPK_I (n : Nat) : Fld := ⟨BAL_PHp_IPK n, 0, 13⟩
/-- BAL_PHp_VGB (Table 6.6). -/
def BAL_PHp_VGB (n : Nat) : Nat := 0x5011C + n * 0x40
/-- V[15:0], RO. -/
def BAL_PHp_VGB_V (n : Nat) : Fld := ⟨BAL_PHp_VGB n, 0, 16⟩
/-- STEP[18:16], RO. -/
def BAL_PHp_VGB_STEP (n : Nat) : Fld := ⟨BAL_PHp_VGB n, 16, 3⟩
/-- BAL_PHp_SELCNT (Table 6.6). -/
def BAL_PHp_SELCNT (n : Nat) : Nat := 0x50120 + n * 0x40
/-- CHG[15:0], RC. -/
def BAL_PHp_SELCNT_CHG (n : Nat) : Fld := ⟨BAL_PHp_SELCNT n, 0, 16⟩
/-- SCAN[23:16], RC. -/
def BAL_PHp_SELCNT_SCAN (n : Nat) : Fld := ⟨BAL_PHp_SELCNT n, 16, 8⟩
/-- BAL_PHp_FAULT (Table 6.6). -/
def BAL_PHp_FAULT (n : Nat) : Nat := 0x50124 + n * 0x40
/-- DRIVE[14:8], RW1C. -/
def BAL_PHp_FAULT_DRIVE (n : Nat) : Fld := ⟨BAL_PHp_FAULT n, 8, 7⟩
/-- BAL_PHp_ECHG (Table 6.6). -/
def BAL_PHp_ECHG (n : Nat) : Nat := 0x50128 + n * 0x40
/-- BAL_PHp_EDIS (Table 6.6). -/
def BAL_PHp_EDIS (n : Nat) : Nat := 0x5012C + n * 0x40
/-- BAL_PHp_CLIP (Table 6.6). -/
def BAL_PHp_CLIP (n : Nat) : Nat := 0x50130 + n * 0x40
/-- CAP[15:0], RC. -/
def BAL_PHp_CLIP_CAP (n : Nat) : Fld := ⟨BAL_PHp_CLIP n, 0, 16⟩
/-- THR[31:16], RC. -/
def BAL_PHp_CLIP_THR (n : Nat) : Fld := ⟨BAL_PHp_CLIP n, 16, 16⟩
/-- BAL_PHp_RUNT (Table 6.6). -/
def BAL_PHp_RUNT (n : Nat) : Nat := 0x50134 + n * 0x40
/-- BAL_PHp_TEST (Table 6.6). -/
def BAL_PHp_TEST (n : Nat) : Nat := 0x50138 + n * 0x40
/-- POS[3:2], RW. -/
def BAL_PHp_TEST_POS (n : Nat) : Fld := ⟨BAL_PHp_TEST n, 2, 2⟩
/-- BAL_PHp_BLT (Table 6.6). -/
def BAL_PHp_BLT (n : Nat) : Nat := 0x5013C + n * 0x40
/-- BAL_CELLc_TGT (Table 6.6). -/
def BAL_CELLc_TGT (n : Nat) : Nat := 0x50400 + n * 0x20
/-- BAL_CELLc_REM (Table 6.6). -/
def BAL_CELLc_REM (n : Nat) : Nat := 0x50404 + n * 0x20
/-- BAL_CELLc_QIN (Table 6.6). -/
def BAL_CELLc_QIN (n : Nat) : Nat := 0x50408 + n * 0x20
/-- BAL_CELLc_QOUT (Table 6.6). -/
def BAL_CELLc_QOUT (n : Nat) : Nat := 0x5040C + n * 0x20
/-- BAL_CELLc_STAT (Table 6.6). -/
def BAL_CELLc_STAT (n : Nat) : Nat := 0x50410 + n * 0x20
/-- ELIG[0:0], RO. -/
def BAL_CELLc_STAT_ELIG (n : Nat) : Fld := ⟨BAL_CELLc_STAT n, 0, 1⟩
/-- SEL[1:1], RO. -/
def BAL_CELLc_STAT_SEL (n : Nat) : Fld := ⟨BAL_CELLc_STAT n, 1, 1⟩
/-- OVINH[2:2], RO. -/
def BAL_CELLc_STAT_OVINH (n : Nat) : Fld := ⟨BAL_CELLc_STAT n, 2, 1⟩
/-- UVINH[3:3], RO. -/
def BAL_CELLc_STAT_UVINH (n : Nat) : Fld := ⟨BAL_CELLc_STAT n, 3, 1⟩
/-- INVAL[4:4], RO. -/
def BAL_CELLc_STAT_INVAL (n : Nat) : Fld := ⟨BAL_CELLc_STAT n, 4, 1⟩
/-- DONE[5:5], RO. -/
def BAL_CELLc_STAT_DONE (n : Nat) : Fld := ⟨BAL_CELLc_STAT n, 5, 1⟩
/-- BLEED[6:6], RO. -/
def BAL_CELLc_STAT_BLEED (n : Nat) : Fld := ⟨BAL_CELLc_STAT n, 6, 1⟩
/-- NOSEL[7:7], RO. -/
def BAL_CELLc_STAT_NOSEL (n : Nat) : Fld := ⟨BAL_CELLc_STAT n, 7, 1⟩
/-- BAL_CELLc_BLQ (Table 6.6). -/
def BAL_CELLc_BLQ (n : Nat) : Nat := 0x50414 + n * 0x20
/-- BAL_CELLc_TSEL (Table 6.6). -/
def BAL_CELLc_TSEL (n : Nat) : Nat := 0x50418 + n * 0x20
/-- BAL_CELLc_CLIP (Table 6.6). -/
def BAL_CELLc_CLIP (n : Nat) : Nat := 0x5041C + n * 0x20
/-- OV[15:0], RC. -/
def BAL_CELLc_CLIP_OV (n : Nat) : Fld := ⟨BAL_CELLc_CLIP n, 0, 16⟩
/-- UV[31:16], RC. -/
def BAL_CELLc_CLIP_UV (n : Nat) : Fld := ⟨BAL_CELLc_CLIP n, 16, 16⟩
/-- AUX_CTRL (Table 7.7). -/
def AUX_CTRL : Nat := 0x40000
/-- EN[0:0], RW. -/
def AUX_CTRL_EN : Fld := ⟨AUX_CTRL, 0, 1⟩
/-- AUX_STAT (Table 7.7). -/
def AUX_STAT : Nat := 0x40004
/-- SCAN[15:0], RO. -/
def AUX_STAT_SCAN : Fld := ⟨AUX_STAT, 0, 16⟩
/-- REFBAD[16:16], RO. -/
def AUX_STAT_REFBAD : Fld := ⟨AUX_STAT, 16, 1⟩
/-- AUX_SCAN (Table 7.7). -/
def AUX_SCAN : Nat := 0x40008
/-- PER_MS[9:0], RWS. -/
def AUX_SCAN_PER_MS : Fld := ⟨AUX_SCAN, 0, 10⟩
/-- AUX_REF (Table 7.7). -/
def AUX_REF : Nat := 0x4000C
/-- V[15:0], RO. -/
def AUX_REF_V : Fld := ⟨AUX_REF, 0, 16⟩
/-- OK[31:31], RO. -/
def AUX_REF_OK : Fld := ⟨AUX_REF, 31, 1⟩
/-- AUX_PLAUS (Table 7.7). -/
def AUX_PLAUS : Nat := 0x40010
/-- STEP[7:0], RWS. -/
def AUX_PLAUS_STEP : Fld := ⟨AUX_PLAUS, 0, 8⟩
/-- DDIE[15:8], RWS. -/
def AUX_PLAUS_DDIE : Fld := ⟨AUX_PLAUS, 8, 8⟩
/-- AUX_TLIM (Table 7.7). -/
def AUX_TLIM : Nat := 0x40014
/-- HI[10:0], RWS. -/
def AUX_TLIM_HI : Fld := ⟨AUX_TLIM, 0, 11⟩
/-- HYST[15:12], RWS. -/
def AUX_TLIM_HYST : Fld := ⟨AUX_TLIM, 12, 4⟩
/-- QCNT[19:16], RWS. -/
def AUX_TLIM_QCNT : Fld := ⟨AUX_TLIM, 16, 4⟩
/-- AUX_TRATE (Table 7.7). -/
def AUX_TRATE : Nat := 0x40018
/-- RATE[9:0], RWS. -/
def AUX_TRATE_RATE : Fld := ⟨AUX_TRATE, 0, 10⟩
/-- WIN[15:10], RWS. -/
def AUX_TRATE_WIN : Fld := ⟨AUX_TRATE, 10, 6⟩
/-- QCNT[19:16], RWS. -/
def AUX_TRATE_QCNT : Fld := ⟨AUX_TRATE, 16, 4⟩
/-- AUX_TLIM_STAT (Table 7.7). -/
def AUX_TLIM_STAT : Nat := 0x4001C
/-- HI[15:0], RO. -/
def AUX_TLIM_STAT_HI : Fld := ⟨AUX_TLIM_STAT, 0, 16⟩
/-- RATE[31:16], RO. -/
def AUX_TLIM_STAT_RATE : Fld := ⟨AUX_TLIM_STAT, 16, 16⟩
/-- AUX_LT_STAT (Table 7.7). -/
def AUX_LT_STAT : Nat := 0x40020
/-- CHG[15:0], RO. -/
def AUX_LT_STAT_CHG : Fld := ⟨AUX_LT_STAT, 0, 16⟩
/-- DSG[31:16], RO. -/
def AUX_LT_STAT_DSG : Fld := ⟨AUX_LT_STAT, 16, 16⟩
/-- AUX_THR_CFG (Table 7.7). -/
def AUX_THR_CFG : Nat := 0x40024
/-- T1[7:0], RWS. -/
def AUX_THR_CFG_T1 : Fld := ⟨AUX_THR_CFG, 0, 8⟩
/-- T2[15:8], RWS. -/
def AUX_THR_CFG_T2 : Fld := ⟨AUX_THR_CFG, 8, 8⟩
/-- T3[23:16], RWS. -/
def AUX_THR_CFG_T3 : Fld := ⟨AUX_THR_CFG, 16, 8⟩
/-- HYST[27:24], RWS. -/
def AUX_THR_CFG_HYST : Fld := ⟨AUX_THR_CFG, 24, 4⟩
/-- HN[28:28], RWS. -/
def AUX_THR_CFG_HN : Fld := ⟨AUX_THR_CFG, 28, 1⟩
/-- AUX_THR_TIME (Table 7.7). -/
def AUX_THR_TIME : Nat := 0x40028
/-- GRACE[6:0], RWS. -/
def AUX_THR_TIME_GRACE : Fld := ⟨AUX_THR_TIME, 0, 7⟩
/-- REL[14:8], RWS. -/
def AUX_THR_TIME_REL : Fld := ⟨AUX_THR_TIME, 8, 7⟩
/-- AUX_THR_CTRL (Table 7.7). -/
def AUX_THR_CTRL : Nat := 0x4002C
/-- FLOOR[1:0], RW. -/
def AUX_THR_CTRL_FLOOR : Fld := ⟨AUX_THR_CTRL, 0, 2⟩
/-- AUX_THR_STAT (Table 7.7). -/
def AUX_THR_STAT : Nat := 0x40030
/-- LE[1:0], RO. -/
def AUX_THR_STAT_LE : Fld := ⟨AUX_THR_STAT, 0, 2⟩
/-- LT[3:2], RO. -/
def AUX_THR_STAT_LT : Fld := ⟨AUX_THR_STAT, 2, 2⟩
/-- GRACE_RUN[4:4], RO. -/
def AUX_THR_STAT_GRACE_RUN : Fld := ⟨AUX_THR_STAT, 4, 1⟩
/-- SFAIL[5:5], RO. -/
def AUX_THR_STAT_SFAIL : Fld := ⟨AUX_THR_STAT, 5, 1⟩
/-- REM[15:8], RO. -/
def AUX_THR_STAT_REM : Fld := ⟨AUX_THR_STAT, 8, 8⟩
/-- HOT[18:16], RO. -/
def AUX_THR_STAT_HOT : Fld := ⟨AUX_THR_STAT, 16, 3⟩
/-- H[31:20], RO. -/
def AUX_THR_STAT_H : Fld := ⟨AUX_THR_STAT, 20, 12⟩
/-- AUX_TDIE_MAX (Table 7.7). -/
def AUX_TDIE_MAX : Nat := 0x40034
/-- T[15:0], RC. -/
def AUX_TDIE_MAX_T : Fld := ⟨AUX_TDIE_MAX, 0, 16⟩
/-- SENS[18:16], RC. -/
def AUX_TDIE_MAX_SENS : Fld := ⟨AUX_TDIE_MAX, 16, 3⟩
/-- NEW[31:31], RC. -/
def AUX_TDIE_MAX_NEW : Fld := ⟨AUX_TDIE_MAX, 31, 1⟩
/-- AUX_SHDN (Table 7.7). -/
def AUX_SHDN : Nat := 0x40038
/-- CNT[15:0], RO. -/
def AUX_SHDN_CNT : Fld := ⟨AUX_SHDN, 0, 16⟩
/-- LAST[18:16], RO. -/
def AUX_SHDN_LAST : Fld := ⟨AUX_SHDN, 16, 3⟩
/-- TRIP[19:19], RO. -/
def AUX_SHDN_TRIP : Fld := ⟨AUX_SHDN, 19, 1⟩
/-- AUX_THR_CNT (Table 7.7). -/
def AUX_THR_CNT : Nat := 0x4003C
/-- REQ[7:0], RC. -/
def AUX_THR_CNT_REQ : Fld := ⟨AUX_THR_CNT, 0, 8⟩
/-- ENF[15:8], RC. -/
def AUX_THR_CNT_ENF : Fld := ⟨AUX_THR_CNT, 8, 8⟩
/-- WD[23:16], RC. -/
def AUX_THR_CNT_WD : Fld := ⟨AUX_THR_CNT, 16, 8⟩
/-- SF[31:24], RC. -/
def AUX_THR_CNT_SF : Fld := ⟨AUX_THR_CNT, 24, 8⟩
/-- AUX_TEV_WPTR (Table 7.7). -/
def AUX_TEV_WPTR : Nat := 0x40040
/-- IDX[3:0], RO. -/
def AUX_TEV_WPTR_IDX : Fld := ⟨AUX_TEV_WPTR, 0, 4⟩
/-- AUX_LEV_WPTR (Table 7.7). -/
def AUX_LEV_WPTR : Nat := 0x40044
/-- IDX[3:0], RO. -/
def AUX_LEV_WPTR_IDX : Fld := ⟨AUX_LEV_WPTR, 0, 4⟩
/-- AUX_RATE_MAX (Table 7.7). -/
def AUX_RATE_MAX : Nat := 0x40048
/-- R[15:0], RC. -/
def AUX_RATE_MAX_R : Fld := ⟨AUX_RATE_MAX, 0, 16⟩
/-- IN[19:16], RC. -/
def AUX_RATE_MAX_IN : Fld := ⟨AUX_RATE_MAX, 16, 4⟩
/-- NEW[31:31], RC. -/
def AUX_RATE_MAX_NEW : Fld := ⟨AUX_RATE_MAX, 31, 1⟩
/-- AUX_WIN_STAT (Table 7.7). -/
def AUX_WIN_STAT : Nat := 0x4004C
/-- B[15:0], RO. -/
def AUX_WIN_STAT_B : Fld := ⟨AUX_WIN_STAT, 0, 16⟩
/-- AUX_INi_CFG (Table 7.7). -/
def AUX_INi_CFG (n : Nat) : Nat := 0x40100 + n * 0x40
/-- MODE[1:0], RWS. -/
def AUX_INi_CFG_MODE (n : Nat) : Fld := ⟨AUX_INi_CFG n, 0, 2⟩
/-- LIM[2:2], RWS. -/
def AUX_INi_CFG_LIM (n : Nat) : Fld := ⟨AUX_INi_CFG n, 2, 1⟩
/-- RPU[31:16], RWS. -/
def AUX_INi_CFG_RPU (n : Nat) : Fld := ⟨AUX_INi_CFG n, 16, 16⟩
/-- AUX_INi_NTC (Table 7.7). -/
def AUX_INi_NTC (n : Nat) : Nat := 0x40104 + n * 0x40
/-- R25[15:0], RWS. -/
def AUX_INi_NTC_R25 (n : Nat) : Fld := ⟨AUX_INi_NTC n, 0, 16⟩
/-- B[31:16], RWS. -/
def AUX_INi_NTC_B (n : Nat) : Fld := ⟨AUX_INi_NTC n, 16, 16⟩
/-- AUX_INi_VAL (Table 7.7). -/
def AUX_INi_VAL (n : Nat) : Nat := 0x40108 + n * 0x40
/-- AUX_INi_RAW (Table 7.7). -/
def AUX_INi_RAW (n : Nat) : Nat := 0x4010C + n * 0x40
/-- AUX_INi_FLAG (Table 7.7). -/
def AUX_INi_FLAG (n : Nat) : Nat := 0x40110 + n * 0x40
/-- VALID[0:0], RO. -/
def AUX_INi_FLAG_VALID (n : Nat) : Fld := ⟨AUX_INi_FLAG n, 0, 1⟩
/-- BROKEN[1:1], RO. -/
def AUX_INi_FLAG_BROKEN (n : Nat) : Fld := ⟨AUX_INi_FLAG n, 1, 1⟩
/-- IMPL[2:2], RO. -/
def AUX_INi_FLAG_IMPL (n : Nat) : Fld := ⟨AUX_INi_FLAG n, 2, 1⟩
/-- HI[5:5], RO. -/
def AUX_INi_FLAG_HI (n : Nat) : Fld := ⟨AUX_INi_FLAG n, 5, 1⟩
/-- RATE[6:6], RO. -/
def AUX_INi_FLAG_RATE (n : Nat) : Fld := ⟨AUX_INi_FLAG n, 6, 1⟩
/-- RNA[7:7], RO. -/
def AUX_INi_FLAG_RNA (n : Nat) : Fld := ⟨AUX_INi_FLAG n, 7, 1⟩
/-- LTC[8:8], RO. -/
def AUX_INi_FLAG_LTC (n : Nat) : Fld := ⟨AUX_INi_FLAG n, 8, 1⟩
/-- LTD[9:9], RO. -/
def AUX_INi_FLAG_LTD (n : Nat) : Fld := ⟨AUX_INi_FLAG n, 9, 1⟩
/-- AUX_INi_RATE (Table 7.7). -/
def AUX_INi_RATE (n : Nat) : Nat := 0x40114 + n * 0x40
/-- AUX_INi_TMAX (Table 7.7). -/
def AUX_INi_TMAX (n : Nat) : Nat := 0x40118 + n * 0x40
/-- V[15:0], RC. -/
def AUX_INi_TMAX_V (n : Nat) : Fld := ⟨AUX_INi_TMAX n, 0, 16⟩
/-- NEW[31:31], RC. -/
def AUX_INi_TMAX_NEW (n : Nat) : Fld := ⟨AUX_INi_TMAX n, 31, 1⟩
/-- AUX_INi_TMIN (Table 7.7). -/
def AUX_INi_TMIN (n : Nat) : Nat := 0x4011C + n * 0x40
/-- V[15:0], RC. -/
def AUX_INi_TMIN_V (n : Nat) : Fld := ⟨AUX_INi_TMIN n, 0, 16⟩
/-- NEW[31:31], RC. -/
def AUX_INi_TMIN_NEW (n : Nat) : Fld := ⟨AUX_INi_TMIN n, 31, 1⟩
/-- AUX_INi_LCNT (Table 7.7). -/
def AUX_INi_LCNT (n : Nat) : Nat := 0x40120 + n * 0x40
/-- AUX_INi_TRIM_OFS (Table 7.7). -/
def AUX_INi_TRIM_OFS (n : Nat) : Nat := 0x40124 + n * 0x40
/-- AUX_INi_TRIM_GAIN (Table 7.7). -/
def AUX_INi_TRIM_GAIN (n : Nat) : Nat := 0x40128 + n * 0x40
/-- AUX_INi_AWIN (Table 7.7). -/
def AUX_INi_AWIN (n : Nat) : Nat := 0x4012C + n * 0x40
/-- LO[15:0], RWS. -/
def AUX_INi_AWIN_LO (n : Nat) : Fld := ⟨AUX_INi_AWIN n, 0, 16⟩
/-- HI[31:16], RWS. -/
def AUX_INi_AWIN_HI (n : Nat) : Fld := ⟨AUX_INi_AWIN n, 16, 16⟩
/-- AUX_INi_TSTAMP (Table 7.7). -/
def AUX_INi_TSTAMP (n : Nat) : Nat := 0x40130 + n * 0x40
/-- AUX_TDd_TRIM (Table 7.7). -/
def AUX_TDd_TRIM (n : Nat) : Nat := 0x40510 + n * 0x20
/-- AUX_TDd_TRIM.V (Table 7.7). -/
def AUX_TDd_TRIM_V (n : Nat) : Fld := ⟨AUX_TDd_TRIM n, 0, 16⟩
/-- AUX_TDd_VAL (Table 7.7). -/
def AUX_TDd_VAL (n : Nat) : Nat := 0x40500 + n * 0x20
/-- T[15:0], RO. -/
def AUX_TDd_VAL_T (n : Nat) : Fld := ⟨AUX_TDd_VAL n, 0, 16⟩
/-- AUX_TDd_FLAG (Table 7.7). -/
def AUX_TDd_FLAG (n : Nat) : Nat := 0x40504 + n * 0x20
/-- VALID[0:0], RO. -/
def AUX_TDd_FLAG_VALID (n : Nat) : Fld := ⟨AUX_TDd_FLAG n, 0, 1⟩
/-- IMPL[1:1], RO. -/
def AUX_TDd_FLAG_IMPL (n : Nat) : Fld := ⟨AUX_TDd_FLAG n, 1, 1⟩
/-- TRIP[2:2], RO. -/
def AUX_TDd_FLAG_TRIP (n : Nat) : Fld := ⟨AUX_TDd_FLAG n, 2, 1⟩
/-- SEQ[31:16], RO. -/
def AUX_TDd_FLAG_SEQ (n : Nat) : Fld := ⟨AUX_TDd_FLAG n, 16, 16⟩
/-- AUX_TDd_MAX (Table 7.7). -/
def AUX_TDd_MAX (n : Nat) : Nat := 0x40508 + n * 0x20
/-- V[15:0], RC. -/
def AUX_TDd_MAX_V (n : Nat) : Fld := ⟨AUX_TDd_MAX n, 0, 16⟩
/-- NEW[31:31], RC. -/
def AUX_TDd_MAX_NEW (n : Nat) : Fld := ⟨AUX_TDd_MAX n, 31, 1⟩
/-- AUX_TDd_MIN (Table 7.7). -/
def AUX_TDd_MIN (n : Nat) : Nat := 0x4050C + n * 0x20
/-- V[15:0], RC. -/
def AUX_TDd_MIN_V (n : Nat) : Fld := ⟨AUX_TDd_MIN n, 0, 16⟩
/-- NEW[31:31], RC. -/
def AUX_TDd_MIN_NEW (n : Nat) : Fld := ⟨AUX_TDd_MIN n, 31, 1⟩
/-- AUX_TDd_HOT (Table 7.7). -/
def AUX_TDd_HOT (n : Nat) : Nat := 0x40514 + n * 0x20
/-- AUX_TDd_ICNT (Table 7.7). -/
def AUX_TDd_ICNT (n : Nat) : Nat := 0x40518 + n * 0x20
/-- AUX_TDd_TSTAMP (Table 7.7). -/
def AUX_TDd_TSTAMP (n : Nat) : Nat := 0x4051C + n * 0x20
/-- AUX_LTi_THR (Table 7.7). -/
def AUX_LTi_THR (n : Nat) : Nat := 0x405C0 + n * 0x4
/-- CHG[7:0], RW. -/
def AUX_LTi_THR_CHG (n : Nat) : Fld := ⟨AUX_LTi_THR n, 0, 8⟩
/-- DSG[15:8], RW. -/
def AUX_LTi_THR_DSG (n : Nat) : Fld := ⟨AUX_LTi_THR n, 8, 8⟩
/-- HYST[19:16], RWS. -/
def AUX_LTi_THR_HYST (n : Nat) : Fld := ⟨AUX_LTi_THR n, 16, 4⟩
/-- ENC[20:20], RWS. -/
def AUX_LTi_THR_ENC (n : Nat) : Fld := ⟨AUX_LTi_THR n, 20, 1⟩
/-- END[21:21], RWS. -/
def AUX_LTi_THR_END (n : Nat) : Fld := ⟨AUX_LTi_THR n, 21, 1⟩
/-- AUX_TEVn_TLO (Table 7.7). -/
def AUX_TEVn_TLO (n : Nat) : Nat := 0x40600 + n * 0x10
/-- AUX_TEVn_INFO (Table 7.7). -/
def AUX_TEVn_INFO (n : Nat) : Nat := 0x40608 + n * 0x10
/-- AUX_TEVn_VAL (Table 7.7). -/
def AUX_TEVn_VAL (n : Nat) : Nat := 0x4060C + n * 0x10
/-- H[15:0], RO. -/
def AUX_TEVn_VAL_H (n : Nat) : Fld := ⟨AUX_TEVn_VAL n, 0, 16⟩
/-- AUX_LEVn_TLO (Table 7.7). -/
def AUX_LEVn_TLO (n : Nat) : Nat := 0x40700 + n * 0x10
/-- AUX_LEVn_INFO (Table 7.7). -/
def AUX_LEVn_INFO (n : Nat) : Nat := 0x40708 + n * 0x10
/-- AUX_LEVn_VAL (Table 7.7). -/
def AUX_LEVn_VAL (n : Nat) : Nat := 0x4070C + n * 0x10
/-- ENG_CTRL (Table 8.10). -/
def ENG_CTRL : Nat := 0x80000
/-- RMAX[3:0], RWS. -/
def ENG_CTRL_RMAX : Fld := ⟨ENG_CTRL, 0, 4⟩
/-- RWIN[15:4], RWS. -/
def ENG_CTRL_RWIN : Fld := ⟨ENG_CTRL, 4, 12⟩
/-- ENG_STAT (Table 8.10). -/
def ENG_STAT : Nat := 0x80004
/-- AWAKE[15:0], RO. -/
def ENG_STAT_AWAKE : Fld := ⟨ENG_STAT, 0, 16⟩
/-- HALF[16:16], RO. -/
def ENG_STAT_HALF : Fld := ⟨ENG_STAT, 16, 1⟩
/-- ENG_FENCED (Table 8.10). -/
def ENG_FENCED : Nat := 0x80008
/-- F[15:0], RO. -/
def ENG_FENCED_F : Fld := ⟨ENG_FENCED, 0, 16⟩
/-- PERM[31:16], RO. -/
def ENG_FENCED_PERM : Fld := ⟨ENG_FENCED, 16, 16⟩
/-- ENG_RESTART (Table 8.10). -/
def ENG_RESTART : Nat := 0x8000C
/-- ENG_MBX_TMO (Table 8.10). -/
def ENG_MBX_TMO : Nat := 0x80010
/-- TMO[7:0], RWS. -/
def ENG_MBX_TMO_TMO : Fld := ⟨ENG_MBX_TMO, 0, 8⟩
/-- ENG_PERF_DUMP (Table 8.10). -/
def ENG_PERF_DUMP : Nat := 0x80014
/-- N[15:0], RW. -/
def ENG_PERF_DUMP_N : Fld := ⟨ENG_PERF_DUMP, 0, 16⟩
/-- ENG_PERF_RING (Table 8.10). -/
def ENG_PERF_RING : Nat := 0x80018
/-- BASE[9:0], RWS. -/
def ENG_PERF_RING_BASE : Fld := ⟨ENG_PERF_RING, 0, 10⟩
/-- DEPTH[15:12], RWS. -/
def ENG_PERF_RING_DEPTH : Fld := ⟨ENG_PERF_RING, 12, 4⟩
/-- WPTR[26:16], RO. -/
def ENG_PERF_RING_WPTR : Fld := ⟨ENG_PERF_RING, 16, 11⟩
/-- ENG_PERF_SEQ (Table 8.10). -/
def ENG_PERF_SEQ : Nat := 0x8001C
/-- ENG_PERF_LOSS (Table 8.10). -/
def ENG_PERF_LOSS : Nat := 0x80020
/-- N[15:0], RC. -/
def ENG_PERF_LOSS_N : Fld := ⟨ENG_PERF_LOSS, 0, 16⟩
/-- ENG_UPD_CTRL (Table 8.10). -/
def ENG_UPD_CTRL : Nat := 0x80024
/-- ENG[3:0], RW. -/
def ENG_UPD_CTRL_ENG : Fld := ⟨ENG_UPD_CTRL, 0, 4⟩
/-- IMG[15:8], RW. -/
def ENG_UPD_CTRL_IMG : Fld := ⟨ENG_UPD_CTRL, 8, 8⟩
/-- ENG_UPD_STAT (Table 8.10). -/
def ENG_UPD_STAT : Nat := 0x80028
/-- CODE[7:0], RO. -/
def ENG_UPD_STAT_CODE : Fld := ⟨ENG_UPD_STAT, 0, 8⟩
/-- ENG[11:8], RO. -/
def ENG_UPD_STAT_ENG : Fld := ⟨ENG_UPD_STAT, 8, 4⟩
/-- ENG_ECC (Table 8.10). -/
def ENG_ECC : Nat := 0x8002C
/-- UNC[31:16], RC. -/
def ENG_ECC_UNC : Fld := ⟨ENG_ECC, 16, 16⟩
/-- ENG_ACC_ERR (Table 8.10). -/
def ENG_ACC_ERR : Nat := 0x80030
/-- ENG[3:0], RO. -/
def ENG_ACC_ERR_ENG : Fld := ⟨ENG_ACC_ERR, 0, 4⟩
/-- TYPE[5:4], RO. -/
def ENG_ACC_ERR_TYPE : Fld := ⟨ENG_ACC_ERR, 4, 2⟩
/-- ENG_TRIG (Table 8.10). -/
def ENG_TRIG : Nat := 0x80034
/-- B[15:0], RO. -/
def ENG_TRIG_B : Fld := ⟨ENG_TRIG, 0, 16⟩
/-- ENG_BUILD (Table 8.10). -/
def ENG_BUILD : Nat := 0x80038
/-- ENG_ADM (Table 8.10). -/
def ENG_ADM : Nat := 0x8003C
/-- W[23:0], RO. -/
def ENG_ADM_W : Fld := ⟨ENG_ADM, 0, 24⟩
/-- ENG_SEMk (Table 8.10). -/
def ENG_SEMk (n : Nat) : Nat := 0x80080 + n * 0x4
/-- OWNER[20:16], RO. -/
def ENG_SEMk_OWNER (n : Nat) : Fld := ⟨ENG_SEMk n, 16, 5⟩
/-- ENG_n_CTRL (Table 8.10). -/
def ENG_n_CTRL (n : Nat) : Nat := 0x81000 + n * 0x200
/-- EN[0:0], RW. -/
def ENG_n_CTRL_EN (n : Nat) : Fld := ⟨ENG_n_CTRL n, 0, 1⟩
/-- MBXEV[1:1], RWS. -/
def ENG_n_CTRL_MBXEV (n : Nat) : Fld := ⟨ENG_n_CTRL n, 1, 1⟩
/-- LNKEV[2:2], RWS. -/
def ENG_n_CTRL_LNKEV (n : Nat) : Fld := ⟨ENG_n_CTRL n, 2, 1⟩
/-- TRIG[4:3], RO. -/
def ENG_n_CTRL_TRIG (n : Nat) : Fld := ⟨ENG_n_CTRL n, 3, 2⟩
/-- ENG_n_STAT (Table 8.10). -/
def ENG_n_STAT (n : Nat) : Nat := 0x81004 + n * 0x200
/-- STATE[2:0], RO. -/
def ENG_n_STAT_STATE (n : Nat) : Fld := ⟨ENG_n_STAT n, 0, 3⟩
/-- POSTED[3:3], RO. -/
def ENG_n_STAT_POSTED (n : Nat) : Fld := ⟨ENG_n_STAT n, 3, 1⟩
/-- OVR[4:4], RO. -/
def ENG_n_STAT_OVR (n : Nat) : Fld := ⟨ENG_n_STAT n, 4, 1⟩
/-- SPOVR[5:5], RW1C. -/
def ENG_n_STAT_SPOVR (n : Nat) : Fld := ⟨ENG_n_STAT n, 5, 1⟩
/-- STOVF[6:6], RW1C. -/
def ENG_n_STAT_STOVF (n : Nat) : Fld := ⟨ENG_n_STAT n, 6, 1⟩
/-- YEC[16:8], RO. -/
def ENG_n_STAT_YEC (n : Nat) : Fld := ⟨ENG_n_STAT n, 8, 9⟩
/-- ENG_n_ENTRY (Table 8.10). -/
def ENG_n_ENTRY (n : Nat) : Nat := 0x81008 + n * 0x200
/-- ENG_n_EVENTRY (Table 8.10). -/
def ENG_n_EVENTRY (n : Nat) : Nat := 0x8100C + n * 0x200
/-- ENG_n_TRAP (Table 8.10). -/
def ENG_n_TRAP (n : Nat) : Nat := 0x81010 + n * 0x200
/-- ENG_n_TVAL (Table 8.10). -/
def ENG_n_TVAL (n : Nat) : Nat := 0x81014 + n * 0x200
/-- ENG_n_TPC (Table 8.10). -/
def ENG_n_TPC (n : Nat) : Nat := 0x81018 + n * 0x200
/-- ENG_n_RSTCNT (Table 8.10). -/
def ENG_n_RSTCNT (n : Nat) : Nat := 0x8101C + n * 0x200
/-- N[15:0], RO. -/
def ENG_n_RSTCNT_N (n : Nat) : Fld := ⟨ENG_n_RSTCNT n, 0, 16⟩
/-- WIN[19:16], RO. -/
def ENG_n_RSTCNT_WIN (n : Nat) : Fld := ⟨ENG_n_RSTCNT n, 16, 4⟩
/-- CAUSE[31:24], RO. -/
def ENG_n_RSTCNT_CAUSE (n : Nat) : Fld := ⟨ENG_n_RSTCNT n, 24, 8⟩
/-- ENG_n_FWVER (Table 8.10). -/
def ENG_n_FWVER (n : Nat) : Nat := 0x81020 + n * 0x200
/-- ENG_n_LMEM (Table 8.10). -/
def ENG_n_LMEM (n : Nat) : Nat := 0x81024 + n * 0x200
/-- LEN[16:0], RO. -/
def ENG_n_LMEM_LEN (n : Nat) : Fld := ⟨ENG_n_LMEM n, 0, 17⟩
/-- CRCOK[31:31], RO. -/
def ENG_n_LMEM_CRCOK (n : Nat) : Fld := ⟨ENG_n_LMEM n, 31, 1⟩
/-- ENG_n_MEMERR (Table 8.10). -/
def ENG_n_MEMERR (n : Nat) : Nat := 0x81028 + n * 0x200
/-- UNC[31:16], RC. -/
def ENG_n_MEMERR_UNC (n : Nat) : Fld := ⟨ENG_n_MEMERR n, 16, 16⟩
/-- ENG_n_CLK (Table 8.10). -/
def ENG_n_CLK (n : Nat) : Nat := 0x8102C + n * 0x200
/-- DIV[0:0], RO. -/
def ENG_n_CLK_DIV (n : Nat) : Fld := ⟨ENG_n_CLK n, 0, 1⟩
/-- ENG_n_DBG (Table 8.10). -/
def ENG_n_DBG (n : Nat) : Nat := 0x81030 + n * 0x200
/-- HALT[0:0], RW. -/
def ENG_n_DBG_HALT (n : Nat) : Fld := ⟨ENG_n_DBG n, 0, 1⟩
/-- BKEN[2:2], RW. -/
def ENG_n_DBG_BKEN (n : Nat) : Fld := ⟨ENG_n_DBG n, 2, 1⟩
/-- ENG_n_BKPT (Table 8.10). -/
def ENG_n_BKPT (n : Nat) : Nat := 0x81034 + n * 0x200
/-- ENG_n_STAGE (Table 8.10). -/
def ENG_n_STAGE (n : Nat) : Nat := 0x81038 + n * 0x200
/-- N[7:0], RO. -/
def ENG_n_STAGE_N (n : Nat) : Fld := ⟨ENG_n_STAGE n, 0, 8⟩
/-- MAX[15:8], RC. -/
def ENG_n_STAGE_MAX (n : Nat) : Fld := ⟨ENG_n_STAGE n, 8, 8⟩
/-- ENG_n_EVCNT (Table 8.10). -/
def ENG_n_EVCNT (n : Nat) : Nat := 0x8103C + n * 0x200
/-- RUN[7:0], RO. -/
def ENG_n_EVCNT_RUN (n : Nat) : Fld := ⟨ENG_n_EVCNT n, 0, 8⟩
/-- DEF[31:16], RC. -/
def ENG_n_EVCNT_DEF (n : Nat) : Fld := ⟨ENG_n_EVCNT n, 16, 16⟩
/-- ENG_n_MBX_TXHDR (Table 8.10). -/
def ENG_n_MBX_TXHDR (n : Nat) : Nat := 0x81040 + n * 0x200
/-- DST[3:0], RW. -/
def ENG_n_MBX_TXHDR_DST (n : Nat) : Fld := ⟨ENG_n_MBX_TXHDR n, 0, 4⟩
/-- TAG[6:4], RW. -/
def ENG_n_MBX_TXHDR_TAG (n : Nat) : Fld := ⟨ENG_n_MBX_TXHDR n, 4, 3⟩
/-- RREQ[7:7], RW. -/
def ENG_n_MBX_TXHDR_RREQ (n : Nat) : Fld := ⟨ENG_n_MBX_TXHDR n, 7, 1⟩
/-- REPLY[8:8], RW. -/
def ENG_n_MBX_TXHDR_REPLY (n : Nat) : Fld := ⟨ENG_n_MBX_TXHDR n, 8, 1⟩
/-- STATUS[11:9], RW. -/
def ENG_n_MBX_TXHDR_STATUS (n : Nat) : Fld := ⟨ENG_n_MBX_TXHDR n, 9, 3⟩
/-- ENG_n_MBX_TXPAY (Table 8.10). -/
def ENG_n_MBX_TXPAY (n : Nat) : Nat := 0x81044 + n * 0x200
/-- ENG_n_MBX_TXSTAT (Table 8.10). -/
def ENG_n_MBX_TXSTAT (n : Nat) : Nat := 0x81048 + n * 0x200
/-- BUSY[0:0], RO. -/
def ENG_n_MBX_TXSTAT_BUSY (n : Nat) : Fld := ⟨ENG_n_MBX_TXSTAT n, 0, 1⟩
/-- TAGS[15:8], RO. -/
def ENG_n_MBX_TXSTAT_TAGS (n : Nat) : Fld := ⟨ENG_n_MBX_TXSTAT n, 8, 8⟩
/-- FDROP[23:16], RC. -/
def ENG_n_MBX_TXSTAT_FDROP (n : Nat) : Fld := ⟨ENG_n_MBX_TXSTAT n, 16, 8⟩
/-- REF[31:24], RC. -/
def ENG_n_MBX_TXSTAT_REF (n : Nat) : Fld := ⟨ENG_n_MBX_TXSTAT n, 24, 8⟩
/-- ENG_n_MBX_RXHDR (Table 8.10). -/
def ENG_n_MBX_RXHDR (n : Nat) : Nat := 0x8104C + n * 0x200
/-- ENG_n_MBX_RXPAY (Table 8.10). -/
def ENG_n_MBX_RXPAY (n : Nat) : Nat := 0x81050 + n * 0x200
/-- ENG_n_MBX_RXPOP (Table 8.10). -/
def ENG_n_MBX_RXPOP (n : Nat) : Nat := 0x81054 + n * 0x200
/-- ENG_n_MBX_RXSTAT (Table 8.10). -/
def ENG_n_MBX_RXSTAT (n : Nat) : Nat := 0x81058 + n * 0x200
/-- COUNT[4:0], RO. -/
def ENG_n_MBX_RXSTAT_COUNT (n : Nat) : Fld := ⟨ENG_n_MBX_RXSTAT n, 0, 5⟩
/-- HWM[12:8], RC. -/
def ENG_n_MBX_RXSTAT_HWM (n : Nat) : Fld := ⟨ENG_n_MBX_RXSTAT n, 8, 5⟩
/-- DROP[31:16], RC. -/
def ENG_n_MBX_RXSTAT_DROP (n : Nat) : Fld := ⟨ENG_n_MBX_RXSTAT n, 16, 16⟩
/-- ENG_n_MBX_CFG (Table 8.10). -/
def ENG_n_MBX_CFG (n : Nat) : Nat := 0x8105C + n * 0x200
/-- WM[4:0], RWS. -/
def ENG_n_MBX_CFG_WM (n : Nat) : Fld := ⟨ENG_n_MBX_CFG n, 0, 5⟩
/-- ENG_n_TASKt_CFG (Table 8.10). -/
def ENG_n_TASKt_CFG (n m : Nat) : Nat := 0x81080 + n * 0x200 + m * 0x4
/-- COST[19:0], RO. -/
def ENG_n_TASKt_CFG_COST (n m : Nat) : Fld := ⟨ENG_n_TASKt_CFG n m, 0, 20⟩
/-- UNIT[21:20], RO. -/
def ENG_n_TASKt_CFG_UNIT (n m : Nat) : Fld := ⟨ENG_n_TASKt_CFG n m, 20, 2⟩
/-- ESS[22:22], RO. -/
def ENG_n_TASKt_CFG_ESS (n m : Nat) : Fld := ⟨ENG_n_TASKt_CFG n m, 22, 1⟩
/-- PRE[23:23], RO. -/
def ENG_n_TASKt_CFG_PRE (n m : Nat) : Fld := ⟨ENG_n_TASKt_CFG n m, 23, 1⟩
/-- COUNT[30:24], RO. -/
def ENG_n_TASKt_CFG_COUNT (n m : Nat) : Fld := ⟨ENG_n_TASKt_CFG n m, 24, 7⟩
/-- ENG_n_TASKt_USED (Table 8.10). -/
def ENG_n_TASKt_USED (n m : Nat) : Nat := 0x810C0 + n * 0x200 + m * 0x4
/-- MAX[19:0], RC. -/
def ENG_n_TASKt_USED_MAX (n m : Nat) : Fld := ⟨ENG_n_TASKt_USED n m, 0, 20⟩
/-- EXC[31:31], RW1C. -/
def ENG_n_TASKt_USED_EXC (n m : Nat) : Fld := ⟨ENG_n_TASKt_USED n m, 31, 1⟩
/-- ENG_n_CYC_LO (Table 8.10). -/
def ENG_n_CYC_LO (n : Nat) : Nat := 0x81100 + n * 0x200
/-- ENG_n_PERF_OVF (Table 8.10). -/
def ENG_n_PERF_OVF (n : Nat) : Nat := 0x81108 + n * 0x200
/-- PMC[5:0], RW1C. -/
def ENG_n_PERF_OVF_PMC (n : Nat) : Fld := ⟨ENG_n_PERF_OVF n, 0, 6⟩
/-- CYC[6:6], RW1C. -/
def ENG_n_PERF_OVF_CYC (n : Nat) : Fld := ⟨ENG_n_PERF_OVF n, 6, 1⟩
/-- ENG_n_PERF_UACC (Table 8.10). -/
def ENG_n_PERF_UACC (n : Nat) : Nat := 0x8110C + n * 0x200
/-- CY[0:0], RW. -/
def ENG_n_PERF_UACC_CY (n : Nat) : Fld := ⟨ENG_n_PERF_UACC n, 0, 1⟩
/-- PM[6:1], RW. -/
def ENG_n_PERF_UACC_PM (n : Nat) : Fld := ⟨ENG_n_PERF_UACC n, 1, 6⟩
/-- ENG_n_PMCk_SEL (Table 8.10). -/
def ENG_n_PMCk_SEL (n m : Nat) : Nat := 0x81110 + n * 0x200 + m * 0x4
/-- EVT[7:0], RW. -/
def ENG_n_PMCk_SEL_EVT (n m : Nat) : Fld := ⟨ENG_n_PMCk_SEL n m, 0, 8⟩
/-- ENG_n_YST (Table 8.10). -/
def ENG_n_YST (n : Nat) : Nat := 0x81128 + n * 0x200
/-- ENG_n_TICKSEQ (Table 8.10). -/
def ENG_n_TICKSEQ (n : Nat) : Nat := 0x8112C + n * 0x200
/-- ENG_n_PMCk_LO (Table 8.10). -/
def ENG_n_PMCk_LO (n m : Nat) : Nat := 0x81140 + n * 0x200 + m * 0x8
/-- MGT_CAL_CTRL (Table 14.5). -/
def MGT_CAL_CTRL : Nat := 0x280
/-- PROC[4:0], RW. -/
def MGT_CAL_CTRL_PROC : Fld := ⟨MGT_CAL_CTRL, 0, 5⟩
/-- MGT_CAL_CELLSEL (Table 14.5). -/
def MGT_CAL_CELLSEL : Nat := 0x284
/-- MGT_CAL_OTHSEL (Table 14.5). -/
def MGT_CAL_OTHSEL : Nat := 0x288
/-- MGT_CAL_CFG (Table 14.5). -/
def MGT_CAL_CFG : Nat := 0x28C
/-- SETTLE[3:0], RWS. -/
def MGT_CAL_CFG_SETTLE : Fld := ⟨MGT_CAL_CFG, 0, 4⟩
/-- AVG[11:4], RWS. -/
def MGT_CAL_CFG_AVG : Fld := ⟨MGT_CAL_CFG, 4, 8⟩
/-- DTMAX[19:12], RWS. -/
def MGT_CAL_CFG_DTMAX : Fld := ⟨MGT_CAL_CFG, 12, 8⟩
/-- SU[22:20], RWS. -/
def MGT_CAL_CFG_SU : Fld := ⟨MGT_CAL_CFG, 20, 3⟩
/-- MGT_CAL_STAT (Table 14.5). -/
def MGT_CAL_STAT : Nat := 0x290
/-- STATE[1:0], RO. -/
def MGT_CAL_STAT_STATE : Fld := ⟨MGT_CAL_STAT, 0, 2⟩
/-- PROC[4:2], RO. -/
def MGT_CAL_STAT_PROC : Fld := ⟨MGT_CAL_STAT, 2, 3⟩
/-- CHAN[9:5], RO. -/
def MGT_CAL_STAT_CHAN : Fld := ⟨MGT_CAL_STAT, 5, 5⟩
/-- POINT[11:10], RO. -/
def MGT_CAL_STAT_POINT : Fld := ⟨MGT_CAL_STAT, 10, 2⟩
/-- REASON[23:16], RO. -/
def MGT_CAL_STAT_REASON : Fld := ⟨MGT_CAL_STAT, 16, 8⟩
/-- MGT_CAL_SURES (Table 14.5). -/
def MGT_CAL_SURES : Nat := 0x294
/-- MGT_CAL_SLOT (Table 14.5). -/
def MGT_CAL_SLOT : Nat := 0x298
/-- ACT[1:0], RO. -/
def MGT_CAL_SLOT_ACT : Fld := ⟨MGT_CAL_SLOT, 0, 2⟩
/-- VA[2:2], RO. -/
def MGT_CAL_SLOT_VA : Fld := ⟨MGT_CAL_SLOT, 2, 1⟩
/-- VB[3:3], RO. -/
def MGT_CAL_SLOT_VB : Fld := ⟨MGT_CAL_SLOT, 3, 1⟩
/-- TRIMREQ[4:4], RO. -/
def MGT_CAL_SLOT_TRIMREQ : Fld := ⟨MGT_CAL_SLOT, 4, 1⟩
/-- MGT_CAL_GEN (Table 14.5). -/
def MGT_CAL_GEN : Nat := 0x29C
/-- MGT_CAL_T_LO (Table 14.5). -/
def MGT_CAL_T_LO : Nat := 0x2A0
/-- MGT_CAL_CNT (Table 14.5). -/
def MGT_CAL_CNT : Nat := 0x2A8
/-- DONE[15:0], RC. -/
def MGT_CAL_CNT_DONE : Fld := ⟨MGT_CAL_CNT, 0, 16⟩
/-- ABT[31:16], RC. -/
def MGT_CAL_CNT_ABT : Fld := ⟨MGT_CAL_CNT, 16, 16⟩
/-- MGT_CAL_REFCHK (Table 14.5). -/
def MGT_CAL_REFCHK : Nat := 0x2AC
/-- DEV[15:0], RO. -/
def MGT_CAL_REFCHK_DEV : Fld := ⟨MGT_CAL_REFCHK, 0, 16⟩
/-- OK[31:31], RO. -/
def MGT_CAL_REFCHK_OK : Fld := ⟨MGT_CAL_REFCHK, 31, 1⟩
/-- MGT_ADMIT_CODE (Table 15.14). -/
def MGT_ADMIT_CODE : Nat := 0x0
/-- MGT_CFG_STAT (Table 15.14). -/
def MGT_CFG_STAT : Nat := 0x4
/-- SLOT[0:0], RO. -/
def MGT_CFG_STAT_SLOT : Fld := ⟨MGT_CFG_STAT, 0, 1⟩
/-- BASE[1:1], RO. -/
def MGT_CFG_STAT_BASE : Fld := ⟨MGT_CFG_STAT, 1, 1⟩
/-- FORCED[2:2], RO. -/
def MGT_CFG_STAT_FORCED : Fld := ⟨MGT_CFG_STAT, 2, 1⟩
/-- PROB[3:3], RO. -/
def MGT_CFG_STAT_PROB : Fld := ⟨MGT_CFG_STAT, 3, 1⟩
/-- VERSION[31:8], RO. -/
def MGT_CFG_STAT_VERSION : Fld := ⟨MGT_CFG_STAT, 8, 24⟩
/-- MGT_CFG_SWITCH (Table 15.14). -/
def MGT_CFG_SWITCH : Nat := 0x8
/-- MGT_CFG_SW_STAT (Table 15.14). -/
def MGT_CFG_SW_STAT : Nat := 0xC
/-- PEND[0:0], RO. -/
def MGT_CFG_SW_STAT_PEND : Fld := ⟨MGT_CFG_SW_STAT, 0, 1⟩
/-- STATUS[15:8], RO. -/
def MGT_CFG_SW_STAT_STATUS : Fld := ⟨MGT_CFG_SW_STAT, 8, 8⟩
/-- N[31:16], RC. -/
def MGT_CFG_SW_STAT_N : Fld := ⟨MGT_CFG_SW_STAT, 16, 16⟩
/-- MGT_CFG_KSW_LO (Table 15.14). -/
def MGT_CFG_KSW_LO : Nat := 0x10
/-- MGT_SLOT_CTRL (Table 15.14). -/
def MGT_SLOT_CTRL : Nat := 0x18
/-- MGT_FW_STAT (Table 15.14). -/
def MGT_FW_STAT : Nat := 0x1C
/-- SLOT[0:0], RO. -/
def MGT_FW_STAT_SLOT : Fld := ⟨MGT_FW_STAT, 0, 1⟩
/-- FORCED[1:1], RO. -/
def MGT_FW_STAT_FORCED : Fld := ⟨MGT_FW_STAT, 1, 1⟩
/-- PROB[2:2], RO. -/
def MGT_FW_STAT_PROB : Fld := ⟨MGT_FW_STAT, 2, 1⟩
/-- RECOVERY[3:3], RO. -/
def MGT_FW_STAT_RECOVERY : Fld := ⟨MGT_FW_STAT, 3, 1⟩
/-- MGT_SLOTs_HDR (Table 15.14). -/
def MGT_SLOTs_HDR (n : Nat) : Nat := 0x20 + n * 0x10
/-- COMMIT[1:1], RO. -/
def MGT_SLOTs_HDR_COMMIT (n : Nat) : Fld := ⟨MGT_SLOTs_HDR n, 1, 1⟩
/-- VERIFIED[2:2], RO. -/
def MGT_SLOTs_HDR_VERIFIED (n : Nat) : Fld := ⟨MGT_SLOTs_HDR n, 2, 1⟩
/-- REJECTED[3:3], RO. -/
def MGT_SLOTs_HDR_REJECTED (n : Nat) : Fld := ⟨MGT_SLOTs_HDR n, 3, 1⟩
/-- PASSED[4:4], RO. -/
def MGT_SLOTs_HDR_PASSED (n : Nat) : Fld := ⟨MGT_SLOTs_HDR n, 4, 1⟩
/-- INFORCE[6:6], RO. -/
def MGT_SLOTs_HDR_INFORCE (n : Nat) : Fld := ⟨MGT_SLOTs_HDR n, 6, 1⟩
/-- BUSY[7:7], RO. -/
def MGT_SLOTs_HDR_BUSY (n : Nat) : Fld := ⟨MGT_SLOTs_HDR n, 7, 1⟩
/-- MGT_SLOTs_VER (Table 15.14). -/
def MGT_SLOTs_VER (n : Nat) : Nat := 0x24 + n * 0x10
/-- MGT_SLOTs_TS_LO (Table 15.14). -/
def MGT_SLOTs_TS_LO (n : Nat) : Nat := 0x28 + n * 0x10
/-- MGT_PROB_CFG (Table 15.14). -/
def MGT_PROB_CFG : Nat := 0x60
/-- MIN[10:0], RWS. -/
def MGT_PROB_CFG_MIN : Fld := ⟨MGT_PROB_CFG, 0, 11⟩
/-- MGT_PROB_STAT (Table 15.14). -/
def MGT_PROB_STAT : Nat := 0x64
/-- SLOTS[27:24], RO. -/
def MGT_PROB_STAT_SLOTS : Fld := ⟨MGT_PROB_STAT, 24, 4⟩
/-- MGT_UPD_CTRL (Table 15.14). -/
def MGT_UPD_CTRL : Nat := 0x68
/-- KIND[4:4], RW. -/
def MGT_UPD_CTRL_KIND : Fld := ⟨MGT_UPD_CTRL, 4, 1⟩
/-- TAG[31:16], RW. -/
def MGT_UPD_CTRL_TAG : Fld := ⟨MGT_UPD_CTRL, 16, 16⟩
/-- MGT_UPD_LEN (Table 15.14). -/
def MGT_UPD_LEN : Nat := 0x6C
/-- V[21:0], RW. -/
def MGT_UPD_LEN_V : Fld := ⟨MGT_UPD_LEN, 0, 22⟩
/-- MGT_UPD_STAT (Table 15.14). -/
def MGT_UPD_STAT : Nat := 0x70
/-- STATE[2:0], RO. -/
def MGT_UPD_STAT_STATE : Fld := ⟨MGT_UPD_STAT, 0, 3⟩
/-- CODE[15:8], RO. -/
def MGT_UPD_STAT_CODE : Fld := ⟨MGT_UPD_STAT, 8, 8⟩
/-- DISC[31:16], RC. -/
def MGT_UPD_STAT_DISC : Fld := ⟨MGT_UPD_STAT, 16, 16⟩
/-- MGT_UPD_RCVD (Table 15.14). -/
def MGT_UPD_RCVD : Nat := 0x74
/-- V[21:0], RO. -/
def MGT_UPD_RCVD_V : Fld := ⟨MGT_UPD_RCVD, 0, 22⟩
/-- MGT_LOG_CFG (Table 15.14). -/
def MGT_LOG_CFG : Nat := 0x78
/-- PUSH[0:0], RWS. -/
def MGT_LOG_CFG_PUSH : Fld := ⟨MGT_LOG_CFG, 0, 1⟩
/-- RATE[7:4], RWS. -/
def MGT_LOG_CFG_RATE : Fld := ⟨MGT_LOG_CFG, 4, 4⟩
/-- DEST[15:8], RWS. -/
def MGT_LOG_CFG_DEST : Fld := ⟨MGT_LOG_CFG, 8, 8⟩
/-- MGT_LOG_STAT (Table 15.14). -/
def MGT_LOG_STAT : Nat := 0x7C
/-- WPTR[16:0], RO. -/
def MGT_LOG_STAT_WPTR : Fld := ⟨MGT_LOG_STAT, 0, 17⟩
/-- MGT_LOG_LOST (Table 15.14). -/
def MGT_LOG_LOST : Nat := 0x80
/-- N[15:0], RC. -/
def MGT_LOG_LOST_N : Fld := ⟨MGT_LOG_LOST, 0, 16⟩
/-- MGT_LOG_WRk (Table 15.14). -/
def MGT_LOG_WRk (n : Nat) : Nat := 0x84 + n * 0x4
/-- MGT_LOG_POST (Table 15.14). -/
def MGT_LOG_POST : Nat := 0x94
/-- MGT_OTP_CTRL (Table 15.14). -/
def MGT_OTP_CTRL : Nat := 0x98
/-- MGT_OTP_KEY (Table 15.14). -/
def MGT_OTP_KEY : Nat := 0x9C
/-- MGT_OTP_STAT (Table 15.14). -/
def MGT_OTP_STAT : Nat := 0xA0
/-- CODE[7:0], RO. -/
def MGT_OTP_STAT_CODE : Fld := ⟨MGT_OTP_STAT, 0, 8⟩
/-- MGT_OTP_DATAk (Table 15.14). -/
def MGT_OTP_DATAk (n : Nat) : Nat := 0xA4 + n * 0x4
/-- MGT_FL_STAT (Table 15.14). -/
def MGT_FL_STAT : Nat := 0xC4
/-- JEDEC[23:0], RO. -/
def MGT_FL_STAT_JEDEC : Fld := ⟨MGT_FL_STAT, 0, 24⟩
/-- BUSY[24:24], RO. -/
def MGT_FL_STAT_BUSY : Fld := ⟨MGT_FL_STAT, 24, 1⟩
/-- SUSP[25:25], RO. -/
def MGT_FL_STAT_SUSP : Fld := ⟨MGT_FL_STAT, 25, 1⟩
/-- MGT_FL_CNT (Table 15.14). -/
def MGT_FL_CNT : Nat := 0xC8
/-- ERASE[15:0], RO. -/
def MGT_FL_CNT_ERASE : Fld := ⟨MGT_FL_CNT, 0, 16⟩
/-- FAIL[31:16], RO. -/
def MGT_FL_CNT_FAIL : Fld := ⟨MGT_FL_CNT, 16, 16⟩
/-- MEM_RETAIN (Table 15.17). -/
def MEM_RETAIN : Nat := 0x90004
/-- RETAIN[0:0], RW. -/
def MEM_RETAIN_RETAIN : Fld := ⟨MEM_RETAIN, 0, 1⟩
/-- MEM_STAT (Table 15.17). -/
def MEM_STAT : Nat := 0x90008
/-- LTLOST[0:0], RO. -/
def MEM_STAT_LTLOST : Fld := ⟨MEM_STAT, 0, 1⟩
/-- BANK[1:1], RO. -/
def MEM_STAT_BANK : Fld := ⟨MEM_STAT, 1, 1⟩
/-- MEM_LT_FLUSH (Table 15.17). -/
def MEM_LT_FLUSH : Nat := 0x9001C
/-- N[15:0], RO. -/
def MEM_LT_FLUSH_N : Fld := ⟨MEM_LT_FLUSH, 0, 16⟩
/-- FAIL[31:16], RC. -/
def MEM_LT_FLUSH_FAIL : Fld := ⟨MEM_LT_FLUSH, 16, 16⟩
/-- MEM_LT_GEN (Table 15.17). -/
def MEM_LT_GEN : Nat := 0x90020
/-- MEM_LT_T_LO (Table 15.17). -/
def MEM_LT_T_LO : Nat := 0x90024
/-- MEM_LT_CTRL (Table 15.17). -/
def MEM_LT_CTRL : Nat := 0x9002C
/-- MEM_LT_KEY (Table 15.17). -/
def MEM_LT_KEY : Nat := 0x90030
/-- MEM_LT_VBND (Table 15.17). -/
def MEM_LT_VBND : Nat := 0x90034
/-- MEM_LT_TBND (Table 15.17). -/
def MEM_LT_TBND : Nat := 0x90038
/-- MEM_LT_IBND (Table 15.17). -/
def MEM_LT_IBND : Nat := 0x9003C
/-- STEP[15:0], RWS. -/
def MEM_LT_IBND_STEP : Fld := ⟨MEM_LT_IBND, 0, 16⟩
/-- MEM_WINw_BASE_FIX (Table 15.17). -/
def MEM_WINw_BASE_FIX (n : Nat) : Nat := 0x90100 + n * 0x10
/-- B[31:16], RO. -/
def MEM_WINw_BASE_FIX_B (n : Nat) : Fld := ⟨MEM_WINw_BASE_FIX n, 16, 16⟩
/-- MEM_WINw_LIMIT_FIX (Table 15.17). -/
def MEM_WINw_LIMIT_FIX (n : Nat) : Nat := 0x90104 + n * 0x10
/-- L[31:16], RO. -/
def MEM_WINw_LIMIT_FIX_L (n : Nat) : Fld := ⟨MEM_WINw_LIMIT_FIX n, 16, 16⟩
/-- MEM_WINw_PERM_FIX (Table 15.17). -/
def MEM_WINw_PERM_FIX (n : Nat) : Nat := 0x90108 + n * 0x10
/-- P[18:0], RO. -/
def MEM_WINw_PERM_FIX_P (n : Nat) : Fld := ⟨MEM_WINw_PERM_FIX n, 0, 19⟩
/-- MEM_WINw_STAT (Table 15.17). -/
def MEM_WINw_STAT (n : Nat) : Nat := 0x9010C + n * 0x10
/-- REF[15:0], RC. -/
def MEM_WINw_STAT_REF (n : Nat) : Fld := ⟨MEM_WINw_STAT n, 0, 16⟩
/-- MEM_WINw_BASE (Table 15.17). -/
def MEM_WINw_BASE (n : Nat) : Nat := 0x90140 + n * 0x10
/-- B[31:16], RWS. -/
def MEM_WINw_BASE_B (n : Nat) : Fld := ⟨MEM_WINw_BASE n, 16, 16⟩
/-- MEM_WINw_LIMIT (Table 15.17). -/
def MEM_WINw_LIMIT (n : Nat) : Nat := 0x90144 + n * 0x10
/-- L[31:16], RWS. -/
def MEM_WINw_LIMIT_L (n : Nat) : Fld := ⟨MEM_WINw_LIMIT n, 16, 16⟩
/-- MEM_WINw_PERM (Table 15.17). -/
def MEM_WINw_PERM (n : Nat) : Nat := 0x90148 + n * 0x10
/-- P[18:0], RWS. -/
def MEM_WINw_PERM_P (n : Nat) : Fld := ⟨MEM_WINw_PERM n, 0, 19⟩
/-- MEM_LTA4_PERM (Table 15.17). -/
def MEM_LTA4_PERM : Nat := 0x90248
/-- MGT_TW_CFG (Table 16.7). -/
def MGT_TW_CFG : Nat := 0x400
/-- TMO_MS[5:0], RWS. -/
def MGT_TW_CFG_TMO_MS : Fld := ⟨MGT_TW_CFG, 0, 6⟩
/-- PECREQ[8:8], RWS. -/
def MGT_TW_CFG_PECREQ : Fld := ⟨MGT_TW_CFG, 8, 1⟩
/-- MGT_TW_STAT (Table 16.7). -/
def MGT_TW_STAT : Nat := 0x404
/-- ADDR[6:0], RO. -/
def MGT_TW_STAT_ADDR : Fld := ⟨MGT_TW_STAT, 0, 7⟩
/-- K[11:8], RO. -/
def MGT_TW_STAT_K : Fld := ⟨MGT_TW_STAT, 8, 4⟩
/-- ERR[19:16], RO. -/
def MGT_TW_STAT_ERR : Fld := ⟨MGT_TW_STAT, 16, 4⟩
/-- MGT_TW_PTR (Table 16.7). -/
def MGT_TW_PTR : Nat := 0x408
/-- MGT_TW_CNT0 (Table 16.7). -/
def MGT_TW_CNT0 : Nat := 0x40C
/-- TRANS[15:0], RC. -/
def MGT_TW_CNT0_TRANS : Fld := ⟨MGT_TW_CNT0, 0, 16⟩
/-- NACK[31:16], RC. -/
def MGT_TW_CNT0_NACK : Fld := ⟨MGT_TW_CNT0, 16, 16⟩
/-- MGT_TW_CNT1 (Table 16.7). -/
def MGT_TW_CNT1 : Nat := 0x410
/-- PEC[7:0], RC. -/
def MGT_TW_CNT1_PEC : Fld := ⟨MGT_TW_CNT1, 0, 8⟩
/-- TMO[15:8], RC. -/
def MGT_TW_CNT1_TMO : Fld := ⟨MGT_TW_CNT1, 8, 8⟩
/-- ACC[23:16], RC. -/
def MGT_TW_CNT1_ACC : Fld := ⟨MGT_TW_CNT1, 16, 8⟩
/-- WAKE[31:24], RC. -/
def MGT_TW_CNT1_WAKE : Fld := ⟨MGT_TW_CNT1, 24, 8⟩
/-- MGT_TW_ERRCAP (Table 16.7). -/
def MGT_TW_ERRCAP : Nat := 0x414
/-- MGT_NOTIFY_CFG (Table 16.7). -/
def MGT_NOTIFY_CFG : Nat := 0x418
/-- EN[0:0], RWS. -/
def MGT_NOTIFY_CFG_EN : Fld := ⟨MGT_NOTIFY_CFG, 0, 1⟩
/-- FSCL[2:1], RWS. -/
def MGT_NOTIFY_CFG_FSCL : Fld := ⟨MGT_NOTIFY_CFG, 1, 2⟩
/-- MASK[10:8], RWS. -/
def MGT_NOTIFY_CFG_MASK : Fld := ⟨MGT_NOTIFY_CFG, 8, 3⟩
/-- MGT_NOTIFY_PEND (Table 16.7). -/
def MGT_NOTIFY_PEND : Nat := 0x41C
/-- E[4:1], RW1C. -/
def MGT_NOTIFY_PEND_E : Fld := ⟨MGT_NOTIFY_PEND, 1, 4⟩
/-- J[31:16], RW1C. -/
def MGT_NOTIFY_PEND_J : Fld := ⟨MGT_NOTIFY_PEND, 16, 16⟩
/-- MGT_NOTIFY_STAT (Table 16.7). -/
def MGT_NOTIFY_STAT : Nat := 0x420
/-- QCNT[3:0], RO. -/
def MGT_NOTIFY_STAT_QCNT : Fld := ⟨MGT_NOTIFY_STAT, 0, 4⟩
/-- RETRY[11:8], RO. -/
def MGT_NOTIFY_STAT_RETRY : Fld := ⟨MGT_NOTIFY_STAT, 8, 4⟩
/-- OVF[23:16], RC. -/
def MGT_NOTIFY_STAT_OVF : Fld := ⟨MGT_NOTIFY_STAT, 16, 8⟩
/-- MGT_NOTIFY_CNT (Table 16.7). -/
def MGT_NOTIFY_CNT : Nat := 0x424
/-- DELIV[15:0], RC. -/
def MGT_NOTIFY_CNT_DELIV : Fld := ⟨MGT_NOTIFY_CNT, 0, 16⟩
/-- ARB[23:16], RC. -/
def MGT_NOTIFY_CNT_ARB : Fld := ⟨MGT_NOTIFY_CNT, 16, 8⟩
/-- NACK[31:24], RC. -/
def MGT_NOTIFY_CNT_NACK : Fld := ⟨MGT_NOTIFY_CNT, 24, 8⟩
/-- MGT_NOTIFY_SEND (Table 16.7). -/
def MGT_NOTIFY_SEND : Nat := 0x428
/-- MGT_NOTIFY_Qe_WORD (Table 16.7). -/
def MGT_NOTIFY_Qe_WORD (n : Nat) : Nat := 0x440 + n * 0x8
/-- EVT[7:0], RO. -/
def MGT_NOTIFY_Qe_WORD_EVT (n : Nat) : Fld := ⟨MGT_NOTIFY_Qe_WORD n, 0, 8⟩
/-- INFO[15:8], RO. -/
def MGT_NOTIFY_Qe_WORD_INFO (n : Nat) : Fld := ⟨MGT_NOTIFY_Qe_WORD n, 8, 8⟩
/-- VALID[31:31], RO. -/
def MGT_NOTIFY_Qe_WORD_VALID (n : Nat) : Fld := ⟨MGT_NOTIFY_Qe_WORD n, 31, 1⟩
/-- MGT_NOTIFY_Qe_T (Table 16.7). -/
def MGT_NOTIFY_Qe_T (n : Nat) : Nat := 0x444 + n * 0x8
/-- MGT_FL_LOAD (Table 16.7). -/
def MGT_FL_LOAD : Nat := 0x480
/-- KB[15:0], RO. -/
def MGT_FL_LOAD_KB : Fld := ⟨MGT_FL_LOAD, 0, 16⟩
/-- MS[31:16], RO. -/
def MGT_FL_LOAD_MS : Fld := ⟨MGT_FL_LOAD, 16, 16⟩
/-- MGT_FL_SUSP (Table 16.7). -/
def MGT_FL_SUSP : Nat := 0x484
/-- N[15:0], RC. -/
def MGT_FL_SUSP_N : Fld := ⟨MGT_FL_SUSP, 0, 16⟩
/-- LAT[31:16], RC. -/
def MGT_FL_SUSP_LAT : Fld := ⟨MGT_FL_SUSP, 16, 16⟩
/-- MGT_FL_LASTOP (Table 16.7). -/
def MGT_FL_LASTOP : Nat := 0x488
/-- CMD[7:0], RO. -/
def MGT_FL_LASTOP_CMD : Fld := ⟨MGT_FL_LASTOP, 0, 8⟩
/-- ADDR[31:8], RO. -/
def MGT_FL_LASTOP_ADDR : Fld := ⟨MGT_FL_LASTOP, 8, 24⟩
/-- MGT_FL_ERR (Table 16.7). -/
def MGT_FL_ERR : Nat := 0x48C
/-- TMO[15:0], RC. -/
def MGT_FL_ERR_TMO : Fld := ⟨MGT_FL_ERR, 0, 16⟩
/-- ID[31:16], RC. -/
def MGT_FL_ERR_ID : Fld := ⟨MGT_FL_ERR, 16, 16⟩
/-- MGT_CRCu_CTRL (Table 16.7). -/
def MGT_CRCu_CTRL (n : Nat) : Nat := 0x4C0 + n * 0x20
/-- POLY[1:0], RW. -/
def MGT_CRCu_CTRL_POLY (n : Nat) : Fld := ⟨MGT_CRCu_CTRL n, 0, 2⟩
/-- DIR[2:2], RW. -/
def MGT_CRCu_CTRL_DIR (n : Nat) : Fld := ⟨MGT_CRCu_CTRL n, 2, 1⟩
/-- MGT_CRCu_STAT (Table 16.7). -/
def MGT_CRCu_STAT (n : Nat) : Nat := 0x4C4 + n * 0x20
/-- BUSY[0:0], RO. -/
def MGT_CRCu_STAT_BUSY (n : Nat) : Fld := ⟨MGT_CRCu_STAT n, 0, 1⟩
/-- DONE[1:1], RO. -/
def MGT_CRCu_STAT_DONE (n : Nat) : Fld := ⟨MGT_CRCu_STAT n, 1, 1⟩
/-- OK[2:2], RO. -/
def MGT_CRCu_STAT_OK (n : Nat) : Fld := ⟨MGT_CRCu_STAT n, 2, 1⟩
/-- OWNER[12:8], RO. -/
def MGT_CRCu_STAT_OWNER (n : Nat) : Fld := ⟨MGT_CRCu_STAT n, 8, 5⟩
/-- MGT_CRCu_DATA (Table 16.7). -/
def MGT_CRCu_DATA (n : Nat) : Nat := 0x4C8 + n * 0x20
/-- MGT_CRCu_RESULT (Table 16.7). -/
def MGT_CRCu_RESULT (n : Nat) : Nat := 0x4CC + n * 0x20
/-- MGT_CRCu_LEN (Table 16.7). -/
def MGT_CRCu_LEN (n : Nat) : Nat := 0x4D0 + n * 0x20
/-- MGT_CRCu_RXCHK (Table 16.7). -/
def MGT_CRCu_RXCHK (n : Nat) : Nat := 0x4D4 + n * 0x20
/-- MGT_CRCu_CNT (Table 16.7). -/
def MGT_CRCu_CNT (n : Nat) : Nat := 0x4D8 + n * 0x20
/-- N[15:0], RC. -/
def MGT_CRCu_CNT_N (n : Nat) : Fld := ⟨MGT_CRCu_CNT n, 0, 16⟩
/-- MIS[31:16], RC. -/
def MGT_CRCu_CNT_MIS (n : Nat) : Fld := ⟨MGT_CRCu_CNT n, 16, 16⟩
/-- MGT_CRCu_STATE (Table 16.7). -/
def MGT_CRCu_STATE (n : Nat) : Nat := 0x4DC + n * 0x20
/-- MGT_SWBn_CFG (Table 16.7). -/
def MGT_SWBn_CFG (n : Nat) : Nat := 0x600 + n * 0x80
/-- EN[0:0], RWS. -/
def MGT_SWBn_CFG_EN (n : Nat) : Fld := ⟨MGT_SWBn_CFG n, 0, 1⟩
/-- WATCH[1:1], RWS. -/
def MGT_SWBn_CFG_WATCH (n : Nat) : Fld := ⟨MGT_SWBn_CFG n, 1, 1⟩
/-- SEC[2:2], RWS. -/
def MGT_SWBn_CFG_SEC (n : Nat) : Fld := ⟨MGT_SWBn_CFG n, 2, 1⟩
/-- DIAG[3:3], RWS. -/
def MGT_SWBn_CFG_DIAG (n : Nat) : Fld := ⟨MGT_SWBn_CFG n, 3, 1⟩
/-- PWRUP_MS[15:8], RWS. -/
def MGT_SWBn_CFG_PWRUP_MS (n : Nat) : Fld := ⟨MGT_SWBn_CFG n, 8, 8⟩
/-- MGT_SWBn_PER (Table 16.7). -/
def MGT_SWBn_PER (n : Nat) : Nat := 0x604 + n * 0x80
/-- PRI_MS[13:0], RWS. -/
def MGT_SWBn_PER_PRI_MS (n : Nat) : Fld := ⟨MGT_SWBn_PER n, 0, 14⟩
/-- SEC_MS[29:16], RWS. -/
def MGT_SWBn_PER_SEC_MS (n : Nat) : Fld := ⟨MGT_SWBn_PER n, 16, 14⟩
/-- MGT_SWBn_CTRL (Table 16.7). -/
def MGT_SWBn_CTRL (n : Nat) : Nat := 0x608 + n * 0x80
/-- MGT_SWBn_STAT (Table 16.7). -/
def MGT_SWBn_STAT (n : Nat) : Nat := 0x60C + n * 0x80
/-- STATE[2:0], RO. -/
def MGT_SWBn_STAT_STATE (n : Nat) : Fld := ⟨MGT_SWBn_STAT n, 0, 3⟩
/-- PWR[3:3], RO. -/
def MGT_SWBn_STAT_PWR (n : Nat) : Fld := ⟨MGT_SWBn_STAT n, 3, 1⟩
/-- FAULT[5:5], RO. -/
def MGT_SWBn_STAT_FAULT (n : Nat) : Fld := ⟨MGT_SWBn_STAT n, 5, 1⟩
/-- ERRS[15:8], RO. -/
def MGT_SWBn_STAT_ERRS (n : Nat) : Fld := ⟨MGT_SWBn_STAT n, 8, 8⟩
/-- LASTERR[19:16], RO. -/
def MGT_SWBn_STAT_LASTERR (n : Nat) : Fld := ⟨MGT_SWBn_STAT n, 16, 4⟩
/-- IDCHG[20:20], RW1C. -/
def MGT_SWBn_STAT_IDCHG (n : Nat) : Fld := ⟨MGT_SWBn_STAT n, 20, 1⟩
/-- MGT_SWBn_ID_LO (Table 16.7). -/
def MGT_SWBn_ID_LO (n : Nat) : Nat := 0x610 + n * 0x80
/-- MGT_SWBn_ID_HI (Table 16.7). -/
def MGT_SWBn_ID_HI (n : Nat) : Nat := 0x614 + n * 0x80
/-- MGT_SWBn_PRI (Table 16.7). -/
def MGT_SWBn_PRI (n : Nat) : Nat := 0x618 + n * 0x80
/-- VALID[16:16], RO. -/
def MGT_SWBn_PRI_VALID (n : Nat) : Fld := ⟨MGT_SWBn_PRI n, 16, 1⟩
/-- HELD[17:17], RO. -/
def MGT_SWBn_PRI_HELD (n : Nat) : Fld := ⟨MGT_SWBn_PRI n, 17, 1⟩
/-- MGT_SWBn_SEC (Table 16.7). -/
def MGT_SWBn_SEC (n : Nat) : Nat := 0x61C + n * 0x80
/-- HELD[17:17], RO. -/
def MGT_SWBn_SEC_HELD (n : Nat) : Fld := ⟨MGT_SWBn_SEC n, 17, 1⟩
/-- MGT_SWBn_DIAG (Table 16.7). -/
def MGT_SWBn_DIAG (n : Nat) : Nat := 0x620 + n * 0x80
/-- MGT_SWBn_PRI_TLO (Table 16.7). -/
def MGT_SWBn_PRI_TLO (n : Nat) : Nat := 0x624 + n * 0x80
/-- MGT_SWBn_CNT0 (Table 16.7). -/
def MGT_SWBn_CNT0 (n : Nat) : Nat := 0x62C + n * 0x80
/-- TRIG[15:0], RC. -/
def MGT_SWBn_CNT0_TRIG (n : Nat) : Fld := ⟨MGT_SWBn_CNT0 n, 0, 16⟩
/-- OK[31:16], RC. -/
def MGT_SWBn_CNT0_OK (n : Nat) : Fld := ⟨MGT_SWBn_CNT0 n, 16, 16⟩
/-- MGT_SWBn_CNT1 (Table 16.7). -/
def MGT_SWBn_CNT1 (n : Nat) : Nat := 0x630 + n * 0x80
/-- MGT_SWBn_CNT2 (Table 16.7). -/
def MGT_SWBn_CNT2 (n : Nat) : Nat := 0x634 + n * 0x80
/-- PWR[7:0], RC. -/
def MGT_SWBn_CNT2_PWR (n : Nat) : Fld := ⟨MGT_SWBn_CNT2 n, 0, 8⟩
/-- SERR[15:8], RC. -/
def MGT_SWBn_CNT2_SERR (n : Nat) : Fld := ⟨MGT_SWBn_CNT2 n, 8, 8⟩
/-- ID[23:16], RC. -/
def MGT_SWBn_CNT2_ID (n : Nat) : Fld := ⟨MGT_SWBn_CNT2 n, 16, 8⟩
/-- MGT_SWBn_RAWj (Table 16.7). -/
def MGT_SWBn_RAWj (n m : Nat) : Nat := 0x638 + n * 0x80 + m * 0x4
/-- MGT_SWBn_TIM (Table 16.7). -/
def MGT_SWBn_TIM (n : Nat) : Nat := 0x644 + n * 0x80
/-- DELAY[9:0], RO. -/
def MGT_SWBn_TIM_DELAY (n : Nat) : Fld := ⟨MGT_SWBn_TIM n, 0, 10⟩
/-- BIT[23:16], RO. -/
def MGT_SWBn_TIM_BIT (n : Nat) : Fld := ⟨MGT_SWBn_TIM n, 16, 8⟩
/-- MGT_SWBn_HWPTR (Table 16.7). -/
def MGT_SWBn_HWPTR (n : Nat) : Nat := 0x648 + n * 0x80
/-- IDX[5:0], RO. -/
def MGT_SWBn_HWPTR_IDX (n : Nat) : Fld := ⟨MGT_SWBn_HWPTR n, 0, 6⟩
/-- MGT_SWBn_HISTm (Table 16.7). -/
def MGT_SWBn_HISTm (n m : Nat) : Nat := 0x800 + n * 0x100 + m * 0x4
/-- VALUE[15:0], RO. -/
def MGT_SWBn_HISTm_VALUE (n m : Nat) : Fld := ⟨MGT_SWBn_HISTm n m, 0, 16⟩
/-- K[31:16], RO. -/
def MGT_SWBn_HISTm_K (n m : Nat) : Fld := ⟨MGT_SWBn_HISTm n m, 16, 16⟩

/-- MEM_CTRL (Table 15.17). -/
def MEM_CTRL : Nat := 0x90000
/-- SCRUB_EN[0:0], RWS. -/
def MEM_CTRL_SCRUB_EN : Fld := ⟨MEM_CTRL, 0, 1⟩
/-- MEM_SCRUB_CFG (Table 15.17). -/
def MEM_SCRUB_CFG : Nat := 0x90014
/-- PASS_MIN[11:0], RWS. -/
def MEM_SCRUB_CFG_PASS_MIN : Fld := ⟨MEM_SCRUB_CFG, 0, 12⟩
/-- MEM_SCRUB_STAT (Table 15.17). -/
def MEM_SCRUB_STAT : Nat := 0x90018

end Sys2Proof.Machine
end

