-- ==== Sys2Proof/Machine/State.lean ====
section
/-! DEFINITION. The state of the OL3264 as plain data: the register file, the memories, what the chapters of the manual
say the part keeps beside its registers, the queue of waiting commands, and the state at PD0 power-on reset. -/

namespace Sys2Proof.Machine

/-- The reasons for which a step stops as a fault. The manual gives every command of the table an effect, so the type is
empty: nothing raises one. -/
inductive Fault where
  deriving DecidableEq, Repr

/-- The reasons for which a step is refused. -/
inductive Refusal where
  /-- raised by an arm of exec whose command has no meaning in the model; safe: nothing is claimed of it -/
  | notModelled (mnemonic : String)
  deriving DecidableEq, Repr

/-- What the part puts out: on its Straits, on its buses, and as the answer of an access. The model's own record. -/
inductive Sent where
  /-- TICK symbol on a Strait (R37, R38) -/
  | tick (port : Nat)
  /-- a burst of n HAZARD symbols on a Strait (R239) -/
  | hazard (port n : Nat)
  /-- time-exchange request (Table 9.7) -/
  | timexReq (port : Nat) (bytes : List Byte)
  /-- time-exchange reply (Table 9.7) -/
  | timexReply (port : Nat) (bytes : List Byte)
  /-- CREDIT sequence: queue byte and count byte (R232) -/
  | credit (port q c : Nat)
  /-- frame bytes between SOF and its end, and whether it ends with EOF -/
  | frame (port : Nat) (bytes : List Byte) (eof : Bool)
  /-- the frame recorded last on the Strait was cut short: only these of its bytes went out, then ABORT (R246) -/
  | cut (port : Nat) (bytes : List Byte)
  /-- TRAIN ordered sets of these bytes (R243) -/
  | train (port : Nat) (bytes : List Byte)
  /-- so many FILL symbols inside the frame that follows (R237) -/
  | fill (port n : Nat)
  /-- wake tone of so many µs (R247) -/
  | tone (port us : Nat)
  /-- the word a read returned -/
  | word (w : Word)
  /-- how an access ended: 0 performed, 1 FENCED, 2 refused, 3 bus error, 4 unmapped, 5 denied by MC's own protection regions -/
  | ended (code : Nat)
  /-- bytes driven by the two-wire target, and whether the transaction was acknowledged -/
  | tw (bytes : List Byte) (ack : Bool)
  /-- a Host Notify attempt's bytes (R426) -/
  | hostNotify (bytes : List Byte)
  /-- a single-wire trigger of a kind (R431) -/
  | swb (bus kind : Nat)
  /-- a suspend, reset or other command on the flash port -/
  | flashCmd (cmd : Nat)
  deriving DecidableEq, Repr

/-- A standing fault (R328). -/
structure Standing where
  src : Nat
  code : Nat
  inst : Nat
  /-- 2 contained, 3 fatal -/
  cls : Nat
  /-- the cause of a condition still stands -/
  held : Bool
  conseq : Bool
  forced : Bool
  slot : Option Nat
  /-- the detail words D0 and D1 (R324) -/
  d0 : Nat
  d1 : Nat
  /-- source, code and instance of the primary fault of a consequential one (R334) -/
  cause : Option (Nat × Nat × Nat)
  /-- when the quiet period ends (1/16 ns), while it runs -/
  quietEnd : Option Nat
  deriving DecidableEq, Repr

/-- A shadow window (R333): the sources it covers, its end, the slot of the primary fault, and its source, code and instance. -/
structure Shadow where
  srcs : Nat
  till : Nat
  slot : Nat
  prim : Nat × Nat × Nat
  deriving DecidableEq, Repr

/-- The collector's own state (chapter 12). -/
structure FcrSt where
  standing : List Standing
  shadows : List Shadow
  /-- corrected faults of the last second: source and time -/
  corrected : List (Nat × Nat)
  /-- when the sealed registers and the OTP mirrors were last checked (R322) -/
  crcAt : Option Nat
  otpAt : Option Nat
  /-- registers whose sealed limit an upset has changed since the seal (R322) -/
  upset : List Nat
  deriving DecidableEq, Repr

/-- One output's off-pulse state (R305, R306). -/
structure PulseSt where
  /-- start of the pulse in progress -/
  start : Option Nat
  /-- start of the latest pulse -/
  last : Nat
  /-- when the output last came on -/
  onSince : Nat
  /-- the pulse's readback is discarded -/
  discard : Bool
  /-- the feedback mismatch has been reported and has not ended -/
  reported : Bool
  deriving DecidableEq, Repr

/-- A causeway copy as the harbour holds it (Table 11.7). -/
structure CwCopy where
  bytes : List Byte
  at_ : Nat
  deriving DecidableEq, Repr

/-- The harbour's record of one expected island (R311, R312). -/
structure CwPeer where
  addr : Nat
  uidl : Nat
  /-- first cycle from which the address is expected -/
  fromCycle : Nat
  copies : List CwCopy
  /-- the cycle whose outcome is decided next -/
  decided : Bool
  lastOk : Nat
  count : Nat
  outcome : Nat
  deriving DecidableEq, Repr

/-- A self-test of a diverse comparator pair: the channel, the OV and UV codes set for it, and when it ends (R83). -/
structure DcTest where
  ch : Nat
  ov : Nat
  uv : Nat
  till : Nat
  deriving DecidableEq, Repr

/-- The PSF core's own state (chapter 11). -/
structure PsfSt where
  /-- when the comparator pair of each cell channel was last self-tested; the test in progress (R83) -/
  dcstAt : Vector (Option Nat) 32
  dcTest : Option DcTest
  /-- when the short-circuit comparator was last self-tested (R109), and when it last qualified -/
  scstAt : Option Nat
  scAt : Nat
  /-- sources whose cause stands now -/
  cause : Nat
  /-- the DETAIL with which each source was last raised (Table 11.3) -/
  detail : Vector Nat 22
  /-- consecutive ticks: OV out, OV in, UV out, UV in, charge OC, charge in, discharge OC, discharge in, cold charge -/
  runs : Vector Nat 9
  /-- sources raised since the last capture (R309) -/
  newSrc : Nat
  /-- a HAZARD request was made since the last capture -/
  htx : Bool
  /-- time of the last accepted HAZARD -/
  hazAt : Option Nat
  /-- SI level recognised open since power-on or lockout entry, for ILK_SEEN -/
  ilkOpen : Bool
  /-- SI_ILK recognised open since lockout entry, for ILKCYC -/
  cycOpen : Bool
  /-- input levels, closed: SI_ESTOP, SI_ILK -/
  closed : Vector Bool 2
  /-- since when the level has been held -/
  levelAt : Vector Nat 2
  /-- since when the interlock currents have agreed, or differed (R298) -/
  rbAt : Nat
  /-- since when each output has had its state, or its feedback last agreed with it (R304) -/
  fbAt : Vector Nat 3
  /-- times of the recognised transitions within WIN -/
  trans : Vector (List Nat) 2
  /-- dark pulse in progress since (R297), and when the latest one began -/
  dark : Option Nat
  darkAt : Option Nat
  /-- self-cycle in progress since (R300), and whether SI_ILK has been recognised open and then closed in it -/
  selfCycle : Option Nat
  selfOpen : Bool
  selfClosed : Bool
  /-- time of the first lockout key word -/
  key1 : Option Nat
  /-- HOLD was entered when the lockout began or during it -/
  holdLock : Bool
  pulse : Vector PulseSt 3
  /-- ON bits written during a pulse, to take effect at its end -/
  onLater : Nat
  /-- whole seconds of on time accumulated, with the remainder -/
  onAcc : Vector Nat 3
  /-- cycle n of the last CAUSEWAY sent -/
  cycle : Nat
  peers : List CwPeer
  /-- events written to the ring since power-on -/
  events : Nat
  /-- cold-charge demand stands -/
  ccd : Bool
  /-- short-circuit comparator below threshold since -/
  scQuietSince : Nat
  deriving DecidableEq, Repr

/-- A mailbox message (R200). -/
structure Msg where
  src : Nat
  dst : Nat
  tag : Nat
  rreq : Bool
  reply : Bool
  status : Nat
  pay : Word
  deriving DecidableEq, Repr

/-- An open tag (R202): tag, destination, tick at which it was opened. -/
structure OpenTag where
  tag : Nat
  dst : Nat
  tick : Nat
  deriving DecidableEq, Repr

/-- One engine (chapter 8): registers, accumulators, extension CSRs, staged writes, mailbox. -/
structure EngSt where
  x : Vector Word 32
  pc : Word
  acc : Vector (BitVec 40) 4
  yr : BitVec 24
  yn : BitVec 25
  ym : BitVec 24
  yst : BitVec 4
  ysp : Word
  ytk : BitVec 48
  yspw : Word
  staged : List (Nat × Word)
  /-- a staged write was discarded this tick (R199) -/
  overStaged : Bool
  mbox : List Msg
  /-- the message waiting in the sender's staging (R201) -/
  waiting : Option Msg
  tags : List OpenTag
  /-- samples since the last entry (R197) -/
  samples : Nat
  /-- event entries counted this tick (R197) -/
  events : Nat
  /-- causes of events that wait for the engine to sleep or for the next tick: mailbox, sample port, link or management -/
  deferred : Nat
  /-- abandoned or overrun treatment due at the next sample instant (R192, R199) -/
  overrunDue : Bool
  /-- the task invocation in progress: index and cycles at its start (R208) -/
  task : Option (Nat × Nat)
  /-- restart times within RWIN (R210) -/
  restarts : List Nat
  /-- entry cause of the next entry -/
  nextCause : Nat
  /-- a restart in progress: the fence's time -/
  restartAt : Option Nat
  /-- admitted image waiting for the next tick boundary: Lagoon offset of its firmware set (R211) -/
  update : Option Nat
  /-- Lagoon offset of the firmware set that holds the engine's image, 0 when none has been loaded -/
  image : Nat
  /-- cycle counters are up to date at this time -/
  cycAt : Nat
  /-- the cycle counter when the work in progress began -/
  cycTick : Nat
  /-- cycles used in this tick by work that has ended -/
  used : Nat
  /-- the bank switch came while event work was running: the tick entry follows it -/
  trigWait : Bool
  /-- consecutive ticks overrun (R49) -/
  ovrRun : Nat
  /-- overruns since the last counter dump -/
  ovrDump : Nat
  /-- the access map: base, limit, permissions: read, write, execute in bits 2:0 for machine mode and 6:4 for user mode (R394) -/
  map : List (Nat × Nat × Nat)
  /-- user mode, else machine mode (R186) -/
  user : Bool
  /-- the machine CSRs of the privileged specification (R186), ascending by number, none listed at 0 -/
  csr : List (Nat × Word)
  /-- an exception's handler has not executed MRET yet (R188) -/
  handling : Bool
  /-- the high halves that reads of counter CSRs have latched, by counter (R213) -/
  csrHigh : List (Nat × Word)
  /-- the word a load-reserved instruction of MC holds (R186) -/
  resv : Option Nat
  /-- a write of ENG_n_DBG asks for one instruction (Table 8.10) -/
  stepReq : Bool
  /-- a link event waits for a link engine (R197, R246) -/
  linkEv : Bool
  /-- the tick of the last tick entry (R196) -/
  tickIn : Option Nat
  /-- the waiting events that ENG_n_EVCNT has counted as deferred (R197) -/
  counted : Nat
  /-- the tick of whose work staged writes were last committed (R198) -/
  commitIn : Option Nat
  deriving DecidableEq, Repr

/-- A frame in a transmit queue: the arrival Strait and the receive queue whose units it occupies there, whether it ends with
ABORT, since when it waits. -/
structure TxItem where
  frame : Frame
  arrival : Option (Fin 4)
  aq : Nat
  bad : Bool
  since : Nat
  deriving DecidableEq, Repr

/-- One Strait (chapter 9) and its time exchanges (chapter 2). -/
structure PortSt where
  /-- transmit queues, q = 2 × CLS + VC -/
  txq : Vector (List TxItem) 6
  /-- whether VC1 goes next in a class -/
  turn : Vector Bool 3
  sendTill : Nat
  /-- the last frame sent with EOF: its bytes, its payload length, its start -/
  inFrame : Option (List Byte × Nat × Nat)
  /-- the slot in which a forwarded TICK leaves (R38) -/
  tickOut : Option Nat
  /-- allotment of the peer, units sent, last accepted count -/
  allot : Vector Nat 6
  sentU : Vector Nat 6
  credC : Vector Nat 6
  /-- units freed since link-up in each receive queue -/
  freed : Vector Nat 6
  /-- own allotment in force since training -/
  own : Vector Nat 6
  /-- the slots that the latest HAZARD burst takes: from, up to (R239) -/
  hazFrom : Nat
  hazTill : Nat
  /-- CREDIT sequences owed: queue, and when each leaves (R233) -/
  credDue : List (Nat × Nat)
  aligned : Bool
  lastTs : Option TrainSet
  sameRun : Nat
  ts2Run : Nat
  /-- since when TS2 are sent -/
  ts2Sent : Option Nat
  attemptAt : Nat
  fails : Nat
  upAt : Nat
  /-- tone held since, and tone ignored until absent -/
  toneSince : Option Nat
  toneIgnored : Bool
  /-- up to when the Strait's own wake tone gates its detector (R247) -/
  toneTill : Nat
  txSeq : Nat
  /-- outstanding time exchange: sequence number and t1 -/
  out : Option (Nat × Nat)
  dlys : List Int
  exchanges : Nat
  /-- when the latest request was sent -/
  reqAt : Nat
  lastReply : Option TimexReply
  deriving DecidableEq, Repr

/-- An entry of the harbour's address table (R268). State 1 present, 2 held. -/
structure AtEntry where
  addr : Nat
  uid : Nat
  state : Nat
  holdEnd : Nat
  round : Nat
  deriving DecidableEq, Repr

/-- One Strait of a REPORT (Table 10.1). -/
structure RepPort where
  state : Nat
  peer : Nat
  peerPort : Nat
  deriving DecidableEq, Repr

/-- A REPORT as the harbour keeps it. -/
structure Report where
  uid : Nat
  depth : Nat
  prev : Nat
  cap : Nat
  tchg : Bool
  ports : List RepPort
  deriving DecidableEq, Repr

/-- What an ASSIGN gives an island (Table 10.1), and the harbour's record of it. -/
structure Assign where
  uid : Nat
  path : List Nat
  addr : Nat
  kind : Nat
  pos : Nat
  depth : Nat
  upstream : Nat
  bcast : Nat
  dlport : Nat
  unset : Nat
  cway : Nat
  rt : List Byte
  deriving DecidableEq, Repr

/-- An ASSIGN on its way: sent times, last sent, acknowledged. -/
structure Pending where
  a : Assign
  tries : Nat
  sentAt : Nat
  acked : Bool
  absent : Bool
  deriving DecidableEq, Repr

/-- What the harbour holds of a round (R257 to R263, R274). -/
structure RoundSt where
  running : Bool
  number : Nat
  floodAt : Nat
  lastReport : Nat
  reports : List Report
  /-- the most recent consistent map of the rounds of one change -/
  goodMap : Option (List Report)
  assigns : List Pending
  /-- islands recorded as absent in the round (R262) -/
  gone : List Nat
  firstAssign : Nat
  holdTill : Option Nat
  /-- a round is wanted when the holdoff ends -/
  wanted : Bool
  deriving DecidableEq, Repr

/-- A remote access slot in use (R279, R281). -/
structure RaSlot where
  frame : Frame
  startAt : Nat
  sentAt : Nat
  /-- transmissions; 0 while the slot waits for the window of its destination -/
  sends : Nat
  /-- memory read: first address and length asked for by GO, ranges received, offset at which the request in progress began -/
  addr : Nat
  len : Nat
  got : List (Nat × Nat)
  base : Nat
  deriving DecidableEq, Repr

/-- What the agent has served for one source and TAG[15] (R279). -/
structure Served where
  src : Nat
  host : Bool
  /-- highest sequence number served, and when -/
  high : Nat
  highAt : Nat
  /-- sequence number, response payload, time -/
  rsp : List (Nat × List Byte × Nat)
  deriving DecidableEq, Repr

/-- A memory-read stream being served (R280). -/
structure Stream where
  dst : Nat
  tag : Nat
  addr : Nat
  len : Nat
  done : Nat
  port : Option (Fin 4)
  deriving DecidableEq, Repr

/-- The network's own state (chapter 10). -/
structure NetSt where
  /-- sequence counter of each destination × 4 + class -/
  seqs : List (Nat × Nat)
  inbox : List Frame
  table : List AtEntry
  /-- the address held before (R270) -/
  prev : Nat
  highTerm : Nat
  curRound : Nat
  depth : Nat
  heardAt : Nat
  /-- when the HAZARD hold in progress began (R239) -/
  hazHoldAt : Nat
  listenTill : Option Nat
  rnd : RoundSt
  staged : Option Assign
  /-- the commit tick named, and the tick at which the staged tables are installed (R263) -/
  commit : Option (Nat × Nat)
  /-- a snapshot plan has been admitted (R54) -/
  planOk : Bool
  /-- the tables the harbour has committed (R54) -/
  tables : List Assign
  /-- CMF_SNAP_CFG of the islands by address, as the harbour has read it (R54) -/
  snapCfg : List (Nat × Nat)
  /-- writes the harbour's own agents have to make or have outstanding (R117, R279) -/
  auto : List RaSlot
  slots : Vector (Option RaSlot) 16
  tags : Nat
  served : List Served
  streams : List Stream
  deriving DecidableEq, Repr

/-- The tick's own state (chapter 2). -/
structure TickSt where
  /-- ticks are being processed (R37, R45) -/
  running : Bool
  /-- the tick whose sample instant has come and whose bank switch has not -/
  open_ : Bool
  /-- TICK accepted for the coming sample instant -/
  accepted : Bool
  /-- consecutive TICKs within 2 ns -/
  good : Nat
  /-- phase still to be slewed, 1/16 ns -/
  slew : Int
  /-- up to when the slew has been taken into account -/
  slewAt : Nat
  /-- announced period change: switch tick and new period -/
  pchg : Option (Nat × Nat)
  /-- engine tick triggers in force (R466) -/
  trig : Bool
  /-- when the last trigger at a sample instant, and the last at a bank switch, came (Table 8.4) -/
  trigAt : Vector (Option Nat) 2
  /-- the harbour still has to ask for its own period (R35, R56) -/
  askDue : Bool
  /-- LATE, HOLDOVER and INCOH of each tick, latest first, at most 64 (R86) -/
  flags : List (Bool × Bool × Bool)
  /-- overruns of the tick before -/
  lateNext : Bool
  /-- holdover exceeded and not locked since -/
  exceeded : Bool
  deriving DecidableEq, Repr

/-- The sums of one bin over a window (R126): own period count; cell voltages, module current, primary currents, summed
secondary current, each as real and imaginary part. -/
structure BinAcc where
  bin : Nat
  count : Nat
  v : List (Int × Int)
  m : Int × Int
  p : List (Int × Int)
  s : Int × Int
  deriving DecidableEq, Repr

/-- What a sweep holds of a bin (Table 5.4). -/
structure BinInfo where
  /-- own frequency, 0.1 mHz -/
  fact : Nat
  nw : Nat
  count : Nat
  state : Nat
  passive : Bool
  /-- accepted in a passive window (R125) -/
  complete : Bool
  deriving DecidableEq, Repr

/-- One result of a sweep: 24 × cell + bin, real and imaginary part in 0.1 µΩ, quality byte (Table 5.2). -/
structure SweepRes where
  key : Nat
  re : Int
  im : Int
  q : Nat
  deriving DecidableEq, Repr

/-- What a sweep has BAL do (R119, R121): empty selection and no sine outside settle intervals and windows of active stages. -/
structure SweepDrive where
  /-- the phases whose selectors the sweep holds, and at which position -/
  phases : List Nat
  pos : Nat
  /-- bin and own period count of each sine, window length, fabric time of the window's first sample in 1/16 ns -/
  bins : List (Nat × Nat)
  nw : Nat
  at_ : Nat
  deriving DecidableEq, Repr

/-- A sweep in progress (chapter 5). -/
structure SweepRun where
  /-- 0 full sweep, 1 temperature pass -/
  kind : Nat
  seq : Nat
  tStart : Nat
  kStart : Nat
  stage : Nat
  /-- bins of the stage -/
  bins : List Nat
  /-- a window is open; otherwise the settle interval runs -/
  inWindow : Bool
  /-- tick of the settle interval's start -/
  settleK : Nat
  /-- tick of the window's start, fabric time of its first sample in 1/16 ns, fabric time of its last one in ns -/
  winK : Nat
  winAt : Nat
  lastAt : Nat
  win : Nat
  nw : Nat
  n : Nat
  passive : Bool
  tries : Nat
  /-- what BAL is to do now, in settle interval and window -/
  drive : SweepDrive
  /-- phases excited in the window, selector position -/
  phases : List Nat
  pos : Nat
  /-- cell masks of the window: excitation removed, held, saturated, late -/
  exc : Nat
  held : Nat
  sat : Nat
  late : Nat
  /-- phases whose excitation has been removed in the window -/
  removed : Nat
  acc : List BinAcc
  info : Vector BinInfo 24
  res : List SweepRes
  planErr : Bool
  holdover : Bool
  incoh : Bool
  thr1 : Bool
  sumI : Int
  cntI : Nat
  deriving DecidableEq, Repr

/-- The sensorless temperature of a cell: estimate in 0.1 °C, time, flags PASSIVE and EXTRAP (R138). -/
structure TempEst where
  t : Int
  at_ : Nat
  passive : Bool
  extrap : Bool
  deriving DecidableEq, Repr

/-- Impedance and sensorless temperature (chapter 5). -/
structure ImpSt where
  run : Option SweepRun
  /-- the full sweep that waits while a temperature pass runs between its stages -/
  outer : Option SweepRun
  started : Nat
  startReq : Bool
  tstartReq : Bool
  offset : Vector Int 32
  count : Vector Nat 32
  outliers : Vector Nat 32
  lastObs : Vector (Option Nat) 32
  est : Vector (Option TempEst) 32
  /-- |I| sums of the last 300 whole seconds in 0.1 mA with their tick counts, latest first -/
  rest : List (Nat × Nat)
  /-- auxiliary temperatures at the last 300 whole seconds, latest first -/
  auxHist : List (List Int)
  /-- the whole second the histories stand at -/
  atSec : Nat
  deriving DecidableEq, Repr

/-- The log writer (R407): entries written since reset, entries pushed to the harbour. -/
structure LogSt where
  seq : Nat
  pushed : Nat
  /-- MGT_LOG_WR0 to WR3 of each initiator: initiator code × 4 + index, word (R408) -/
  staging : List (Nat × Word)
  deriving DecidableEq, Repr

/-- The lifetime accumulators between flushes (Table 12.3, Table 15.12); times in µs unless said otherwise. -/
structure LifeSt where
  /-- lifetime faults and recoveries of each source (R330) -/
  faults : Vector Nat 16
  recs : Vector Nat 16
  /-- entries written to the fatal fault archive -/
  archive : Nat
  runs : Nat
  watchs : Nat
  /-- seconds in SHIP -/
  ships : Nat
  notemp : Nat
  /-- 16 × cell + bin -/
  hist : Vector Nat 512
  ihist : Vector Nat 32
  /-- energies into and out of cells in J and charges in mA·s, less what the BAL counters hold -/
  phe : List (Int × Int)
  cq : List (Int × Int × Int)
  /-- highest and lowest VALID value of each cell in µV with its time in seconds since first use -/
  vmax : Vector (Option (Int × Nat)) 32
  vmin : Vector (Option (Int × Nat)) 32
  /-- largest charge and discharge currents in 0.1 A -/
  iChg : Nat
  iDsg : Nat
  /-- highest and lowest plausible value of each auxiliary input, highest die temperature, 0.1 °C -/
  tmax : Vector (Option Int) 16
  tmin : Vector (Option Int) 16
  die : Option Int
  /-- the UTC day of the latest flush, trend records written -/
  day : Option Nat
  trends : Nat
  /-- sweeps contributing to the day: their number, TAUX sum and count, sums of the trend bins: 4 × cell + i, real and imaginary
  sum in 0.1 µΩ, count -/
  nsw : Nat
  taux : Int × Nat
  z : List (Nat × Int × Int × Nat)
  /-- the real-time counter, in 1/16 ns, at the latest flush -/
  flushAt : Nat
  deriving DecidableEq, Repr

/-- A slot write in the flash (R402): the slot, whether it is suspended. -/
structure FlashOp where
  slot : Nat
  suspended : Bool
  deriving DecidableEq, Repr

/-- An update session (R400): kind, tag, image length, the ranges received (start and end, ascending and apart). -/
structure UpdSt where
  kind : Nat
  tag : Nat
  len : Nat
  got : List (Nat × Nat)
  /-- a hardware agent has written into the image while it is written to the flash (R3) -/
  spoiled : Bool
  deriving DecidableEq, Repr

/-- One single-wire bus (R430 to R436); times in 1/16 ns. -/
structure SwbSt where
  /-- when SWPn came on -/
  pwrAt : Nat
  /-- a power error switched SWPn off at -/
  offAt : Option Nat
  /-- the trigger whose response is awaited: kind and time of its release -/
  trig : Option (Nat × Nat)
  /-- when the bus is free for the next trigger -/
  freeAt : Nat
  /-- an identity reading is due; the next primary, secondary and diagnostic readings; a trigger written -/
  idDue : Bool
  priAt : Nat
  secAt : Nat
  diagAt : Nat
  manual : Option Nat
  /-- an identity has been read before -/
  known : Bool
  /-- consecutive triggers without a valid response; the condition 0/0x17 has been raised -/
  bad : Nat
  reported : Bool
  deriving DecidableEq, Repr

/-- One check-value unit (R440): the bytes held back in receive mode, latest last. -/
structure CrcSt where
  held : List Nat
  deriving DecidableEq, Repr

/-- Power, modes and reset (chapter 13), management (chapter 15) and local interfaces (chapter 16) beside their registers. -/
structure MgtSt where
  /-- PD0 power-on reset is asserted -/
  por : Bool
  /-- the end of the latest reset, or the start of step 1; within how many ms of it step 8 ends (R362) -/
  bootAt : Nat
  bootFor : Nat
  /-- when the next WATCH burst is due -/
  burstDue : Nat
  /-- start-up has run up to step 7 and its end, step 8, is still to come -/
  booting : Bool
  /-- the part has left SHIP, with the whole seconds spent there (R101), or leaves HOLD (R363) -/
  shipWake : Option Nat
  holdExit : Bool
  /-- RST_N is low and holds the part in reset since -/
  rstLow : Option Nat
  /-- RST_N is ignored as failed closed (R358) -/
  rstIgnored : Bool
  /-- warm resets that wait for the flash to suspend: their bits of MGT_RST_CAUSE (R360) -/
  resetDue : List Nat
  /-- VIO is on (R346) -/
  vio : Bool
  /-- start-up follows a wake from SHIP and ends in RUN (R363) -/
  shipStart : Bool
  /-- since when the clocks of PD9 are off: retention in WATCH, SHIP (R340) -/
  retAt : Option Nat
  /-- the Lagoon was lost in a WATCH that a fatal fault ended, and is filled again at the end of HOLD -/
  refill : Bool
  /-- the ms in which MGT_SUPPLY last took a value that a command brought -/
  supplyMs : Nat
  /-- the WAKE pin raises no request until released (R352) -/
  wakeStuck : Bool
  /-- faults PD0 holds across SHIP (R321) -/
  held : List (Nat × Nat × Nat)
  /-- mode key sequence: mode, time of the first word, whether the second has followed (R354) -/
  modeKey : Option (Nat × Nat × Bool)
  /-- time of the first software reset word (R359) -/
  swKey : Option Nat
  /-- OTP and lifetime key sequences: time of the first word, whether the second has followed -/
  otpKey : Option (Nat × Bool)
  lifeKey : Option (Nat × Bool)
  /-- when the pending transition was accepted -/
  reqAt : Nat
  /-- when SHIP was entered -/
  shipAt : Nat
  /-- VAUX lies within its window (R345) -/
  vaux : Bool
  flashOp : Option FlashOp
  upd : Option UpdSt
  /-- RUN time of each slot on probation, accounted up to `probAt` -/
  prob : Vector Nat 4
  /-- RUN time of a staged firmware set that runs an engine and stands in no slot yet (R398) -/
  probStaged : Option Nat
  probAt : Nat
  /-- how far the Lagoon has been scrubbed, in 2^-24 of a pass, up to a time (R415) -/
  scrubbed : Nat
  scrubAt : Nat
  /-- when the next Host Notify attempt may start (R428) -/
  notifyAt : Nat
  swb : Vector SwbSt 2
  crc : Vector CrcSt 4
  deriving DecidableEq, Repr

/-- A TRIM run (chapter 14). Channels: 0 and 1 are CS0 and CS1, 2 to 33 the cells, 34 to 49 the auxiliary inputs. -/
structure CalRun where
  /-- channels and procedures (order of Table 14.1) still to do, the running one first -/
  todo : List (Nat × Nat)
  /-- sums of AVG results at the points completed of the running procedure -/
  points : List Int
  /-- t_s at the start of the run, 0.05 °C -/
  ts0 : Int
  /-- the Ferry precondition has been checked at the first tick -/
  ferryChecked : Bool
  refChecked : Bool
  /-- terms determined: trim register address, value in its LSB -/
  terms : List (Nat × Int)
  procs : Nat
  /-- channels trimmed with their source bits: offset 1, gain and q 2 -/
  src : List (Nat × Nat)
  /-- the channel under trim, or those of the short TRIM: they carry STALE -/
  cover : List Nat
  /-- ticks or conversions the point has seen -/
  seen : Nat
  deriving DecidableEq, Repr

/-- Calibration beside its registers. -/
structure CalSt where
  run : Option CalRun
  /-- new trims of a committed run, to take effect at the next tick boundary -/
  newTerms : List (Nat × Int)
  /-- STALE clears at the next tick boundary -/
  staleEnds : Bool
  /-- source bits of the slot in force: channel, bits -/
  src : List (Nat × Nat)
  deriving DecidableEq, Repr

/-- One Ferry phase (chapter 6). -/
structure PhaseSt where
  /-- command written since the last tick boundary: I_SET, MODE, CELL -/
  newCmd : Option (Nat × Nat × Nat)
  /-- command in force, I_SET as it was written -/
  cmd : Nat × Nat × Nat
  /-- tick boundaries passed without a command, 0 when one was written in the last tick (R151) -/
  age : Nat
  /-- position of the connected cell -/
  sel : Option Nat
  /-- selector change in progress: target position, when it began (Table 6.2) -/
  change : Option (Nat × Nat)
  /-- when the round-robin slot began, and since when its timer is frozen (R161) -/
  slotAt : Nat
  frozenAt : Option Nat
  /-- the cell of the phase's own mode while a sweep holds the selection (R161); the change in progress starts no slot -/
  own : Option Nat
  keepSlot : Bool
  /-- last scan, and a scan asked for by BAL_PHp_TEST or due at release (R146, R166) -/
  lastScan : Nat
  scanReq : Bool
  /-- the tick in which TEST.SCAN was written (R168) -/
  testScan : Option Nat
  /-- the test bleed of BAL_PHp_TEST.BLT runs since (R168) -/
  testBleed : Option Nat
  /-- faults that keep the phase fenced, by their bit of BAL_PHp_FAULT -/
  cause : Nat
  /-- the selectors are held off until the phase is released (Table 6.4) -/
  noFallback : Bool
  /-- released: accepts commands from the next tick boundary (R166) -/
  releasing : Bool
  /-- the phase has stopped for the rest of the tick, and consecutive such ticks (R157) -/
  overNow : Bool
  overRun : Nat
  /-- a command transfer failed in this tick, and consecutive such ticks (R162) -/
  xferNow : Bool
  xferRun : Nat
  /-- consecutive ticks below half the command (R162) -/
  lowRun : Nat
  /-- primary current in 0.1 mA: sum since the last accounting, sum and count of the tick -/
  sum : Int
  tickSum : Int
  tickN : Nat
  /-- tick mean of the primary current at the last boundary, 0.1 mA -/
  mean : Int
  /-- limits that have clipped the command in this tick: bits 0 cap, 1 margin, 2 throttle, 3 ratio window (Table 6.3) -/
  clips : Nat
  /-- energy into and out of cells in 10^-12 J -/
  eIn : Nat
  eOut : Nat
  /-- 1/16 ns switching, in fallback -/
  runAcc : Nat
  bltAcc : Nat
  /-- when the accounting was last brought up to date -/
  accAt : Nat
  deriving DecidableEq, Repr

/-- Ferry data of one cell (chapter 6); charges in µA·s. -/
structure CellBal where
  newTgt : Option Int
  rem : Int
  qin : Nat
  qout : Nat
  blq : Nat
  /-- ticks without a VALID result, and the last VALID result in µV -/
  noValid : Nat
  lastV : Int
  /-- 1/16 ns selected -/
  selAcc : Nat
  /-- inhibited by the OV margin, by the UV margin (R155) -/
  ovm : Bool
  uvm : Bool
  deriving DecidableEq, Repr

/-- The Ferry beside its registers (chapter 6). -/
structure FerrySt where
  phase : Vector PhaseSt 8
  cell : Vector CellBal 32
  /-- summed secondary current of the tick in 0.1 mA, and its count -/
  secSum : Int
  secN : Nat
  secMean : Int
  /-- energies of the current second in 10^-16 J: into cells, drawn from the stack; the second they belong to -/
  effP : Int
  effS : Int
  effSec : Nat
  /-- the last bank switch that carried valid cell results (R165) -/
  validAt : Nat
  deriving DecidableEq, Repr

/-- Base-rate samples gathered: their sum, count, least and largest. -/
structure WinAcc where
  sum : Int
  n : Nat
  lo : Int
  hi : Int
  deriving DecidableEq, Repr

/-- One of the 34 measurement channels (R62 to R64): cells 0 to 31, then CS0 and CS1. -/
structure ChanSt where
  /-- samples since the last sample instant, of the window of tick k, and of the window of tick k - 1 -/
  acc : WinAcc
  win : WinAcc
  prev : WinAcc
  /-- consecutive base periods with and without the overload signature -/
  run : Nat
  quiet : Nat
  /-- the modulator fault holds MOD (R63); MOD in the tick being gathered and in the window of tick k -/
  modHold : Bool
  modNow : Bool
  modTick : Bool
  /-- base periods for which CMF_TEST.FORCE_MOD still acts; it begins with the next base period -/
  forced : Nat
  forceNext : Bool
  deriving DecidableEq, Repr

/-- The open-wire rotation (R73 to R76). -/
structure OwSt where
  /-- next step, and when it is due; none until the first one -/
  next : Nat
  due : Option Nat
  /-- a step runs: its number, the tick it began in, whether its dwell has ended -/
  on : Bool
  step : Nat
  a : Nat
  ended : Bool
  dwell : Nat
  /-- threshold in µV -/
  thr : Nat
  taps : List Nat
  /-- taps whose source has been switched off -/
  cut : List Nat
  vPre : List (Nat × Int)
  fails : Vector Nat 33
  passes : Vector Nat 33
  force : List Nat
  deriving DecidableEq, Repr

/-- Current beside its registers (chapter 4). -/
structure CurSt where
  /-- current of CS0, CS1 and the main path in A, as numerator and denominator -/
  i0 : Int × Nat
  i1 : Int × Nat
  main : Int × Nat
  /-- charges in pA·s -/
  q : Int
  q1 : Int
  load : Bool
  clr1 : Bool
  /-- last plausible shunt temperature of each channel, 0.1 °C -/
  lastT : Vector (Option Int) 2
  noValid : Nat
  noValidOn : Bool
  disRun : Nat
  agreeRun : Nat
  dis : Bool
  /-- sum of I0 - I1 over the block in pA, and its ticks -/
  blockSum : Int
  blockN : Nat
  /-- the last block mean exceeds ABS / 4 -/
  bias : Bool
  deriving DecidableEq, Repr

/-- Measurement of cells and currents beside the registers (chapters 3 and 4). -/
structure MeasSt where
  /-- base-rate strobes with the cells the Ferry acted on, latest first, at most 32; and as they stood at S(k) -/
  hist : List (StrobeSample × Nat)
  histS : List (StrobeSample × Nat)
  /-- cells the Ferry acted on since S(k), in the window of tick k, in that of tick k - 1 (R72) -/
  ferryNow : Nat
  /-- cells a phase has left since the last strobe after acting on them (R72) -/
  ferryGap : Nat
  ferryWin : Nat
  ferryPrev : Nat
  chan : Vector ChanSt 34
  /-- the window of tick k - 1 was taken at the same period -/
  prevOk : Bool
  /-- the period in µs of the window of tick k, and of the one being gathered (0: the active one) -/
  winP : Nat
  accP : Nat
  /-- log2 of the effective decimation in force (R86) -/
  decim : Nat
  /-- filter mode and coefficients in force (R65) -/
  fmode : Nat
  coef : List Int
  /-- cell results are published (R90) -/
  enAt : Bool
  /-- sample engines that have posted -/
  posted : Nat
  /-- results posted by firmware in place of the filter's -/
  staged : List (Nat × Word)
  disBad : Vector Nat 32
  disGood : Vector Nat 32
  dis : Nat
  unBad : Vector Nat 32
  unGood : Vector Nat 32
  unused : Nat
  ow : OwSt
  /-- strobes of the WATCH burst in progress, and whether its auxiliary scan has completed -/
  burst : Option Nat
  burstScan : Bool
  bursts : Nat
  /-- when the last burst's bank switch came -/
  burstAt : Nat
  /-- the temperatures of the four cells whose turn it is and the hottest cell, as estimated up to S(k) (R28, R85) -/
  est : List Byte
  /-- delta references R[c], snapshots sent, ring entries written -/
  ref : List Int
  sentN : Nat
  ringN : Nat
  cur : CurSt
  deriving DecidableEq, Repr

/-- The conversions of one auxiliary input (chapter 7). -/
structure InSt where
  /-- latest conversion: value as reported, plausible, BROKEN, REF, raw code, time stamp in ns -/
  val : Int
  plaus : Bool
  broken : Bool
  ref : Bool
  raw : Nat
  stamp : Nat
  /-- conversions counted -/
  seq : Nat
  /-- previous plausible conversion -/
  prev : Option Int
  /-- recovering (R172): conversions passed in succession and the last one of them -/
  bad : Bool
  passes : Nat
  last : Int
  /-- conversion the limits have counted -/
  seen : Nat
  /-- consecutive conversions or evaluations: high, rate, low charge, low discharge, each qualifying and releasing -/
  runs : Vector Nat 8
  /-- plausible conversions of the current second, sum and count; the last 61 seconds, latest first -/
  secSum : Int
  secN : Nat
  means : List (Int × Nat)
  winBad : Bool
  deriving DecidableEq, Repr

/-- One die sensor (R173). -/
structure DieSt where
  /-- as it reads, 0.1 °C -/
  val : Int
  plaus : Bool
  passes : Nat
  seq : Nat
  stamp : Nat
  /-- time at or above T1, 1/16 ns -/
  hotAcc : Nat
  deriving DecidableEq, Repr

/-- Auxiliary inputs and the throttle beside their registers (chapter 7). -/
structure AuxSt where
  inp : Vector InSt 16
  die : Vector DieSt 6
  /-- AUXREF of the latest scan in 100 µV -/
  auxref : Nat
  /-- a scan in progress since, and when the next one is due -/
  scan : Option Nat
  due : Nat
  /-- t_s of R67, its last plausible value, 0.05 °C -/
  ts : Int
  /-- the second the means stand at, and the second last evaluated -/
  curSec : Nat
  rateSec : Nat
  /-- when H was last evaluated -/
  evalAt : Nat
  /-- the sensor that gave H, and whether it was plausible then -/
  hot : Nat
  hotOk : Bool
  /-- end of the grace timer -/
  grace : Option Nat
  /-- since when H has stayed below T(L_e) - HYST -/
  below : Option Nat
  /-- level 3 held after the failure of a sensor, and the end of the quiet period after its recovery -/
  sfail : List (Nat × Option Nat)
  tev : Nat
  lev : Nat
  /-- a thermal shutdown is in progress; when the domains went off, or the trip qualified while they still wait for the flash -/
  shutAt : Option Nat
  deriving DecidableEq, Repr

/-! ## The state -/

/-- The machine. -/
structure State where
  /-- commands waiting, first in, first out -/
  pending : List Instr
  /-- time since PD0 power-on reset was released, in 1/16 ns -/
  now : Nat
  /-- fabric time less `now`, in 1/16 ns -/
  ftOfs : Int
  /-- registers that differ from their reset values -/
  regs : List (Nat × Word)
  /-- addressed memories: engine memories, Lagoon, lifetime store, OTP window -/
  mem : List Host.Cell
  /-- flash behind the quad-SPI port -/
  flash : List Host.Cell
  /-- the model's own counter: which of the values the manual leaves open comes next -/
  free : Nat
  /-- what the part has put out, latest first -/
  sent : List Sent
  /-- high words latched by reads of low words: initiator code × 2^32 + address, word (R9, R21) -/
  latches : List (Nat × Word)
  /-- configuration sealed, and the seal record: the registers as they stood at seal (R447) -/
  sealed : Bool
  sealRec : List (Nat × Word)
  /-- bits of RW fields that the configuration loader wrote, sealed like RWS fields (R392, R447): address and mask -/
  loaderRw : List (Nat × Nat)
  /-- time of the last write by a privileged initiator (R354) -/
  privAt : Nat
  /-- the write being performed has been refused: 0 not, 1 under R12, 2 for want of privilege (R278, R446) -/
  turned : Nat
  /-- a wake request held until the target mode is reached, by its bit of Table 13.6 (R349) -/
  wakeHeld : Option Nat
  tick : TickSt
  fcr : FcrSt
  psf : PsfSt
  eng : Vector EngSt 16
  port : Vector PortSt 4
  net : NetSt
  imp : ImpSt
  log : LogSt
  life : LifeSt
  cal : CalSt
  bal : FerrySt
  /-- trim registers written since the last tick boundary, with the value still in force (R68) -/
  trimOld : List (Nat × Word)
  /-- a configuration switch accepted: slot, tick; none at the next boundary is tick 0 (R396) -/
  cfgSwitch : Option (Nat × Nat)
  meas : MeasSt
  aux : AuxSt
  mgt : MgtSt
  deriving DecidableEq, Repr

/-- What a command answers. -/
abbrev Outcome := Host.Outcome State Fault Refusal

/-! ## Reset -/

/-- An engine after reset (DESIGN CHOICE, log entry 2). -/
def EngSt.reset : EngSt :=
  { x := Vector.replicate 32 0, pc := 0, acc := Vector.replicate 4 0, yr := 0, yn := 0, ym := 0, yst := 0, ysp := 0,
    ytk := 0, yspw := 0, staged := [], overStaged := false, mbox := [], waiting := none, tags := [],
    samples := 0, events := 0, deferred := 0, overrunDue := false, task := none, restarts := [], nextCause := 0,
    restartAt := none, update := none, image := 0, cycAt := 0, cycTick := 0, used := 0, trigWait := false,
    ovrRun := 0, ovrDump := 0, map := [], user := false, csr := [], handling := false, csrHigh := [],
    resv := none, stepReq := false, linkEv := false, tickIn := none, counted := 0, commitIn := none }

/-- A Strait after reset (DESIGN CHOICE, log entry 2). -/
def PortSt.reset : PortSt :=
  { txq := Vector.replicate 6 [], turn := Vector.replicate 3 false, sendTill := 0, inFrame := none, tickOut := none, allot := Vector.replicate 6 0,
    sentU := Vector.replicate 6 0, credC := Vector.replicate 6 0, freed := Vector.replicate 6 0,
    own := Vector.replicate 6 0, hazFrom := 0, hazTill := 0, credDue := [], aligned := false, lastTs := none, sameRun := 0, ts2Run := 0,
    ts2Sent := none, attemptAt := 0, fails := 0, upAt := 0, toneSince := none, toneIgnored := false, toneTill := 0, txSeq := 0, out := none,
    dlys := [], exchanges := 0, reqAt := 0, lastReply := none }

/-- The network after reset. -/
def NetSt.reset : NetSt :=
  { seqs := [], inbox := [], table := [], prev := 0xFE, highTerm := 0, curRound := 0, depth := 0, heardAt := 0,
    hazHoldAt := 0, listenTill := none,
    rnd := { running := false, number := 0, floodAt := 0, lastReport := 0, reports := [], goodMap := none, assigns := [], gone := [],
             firstAssign := 0, holdTill := none, wanted := false },
    staged := none, commit := none, planOk := false, tables := [], snapCfg := [], auto := [], slots := Vector.replicate 16 none, tags := 0, served := [], streams := [] }

/-- The tick after reset. -/
def TickSt.reset : TickSt :=
  { running := false, open_ := false, accepted := false, good := 0, slew := 0, slewAt := 0, pchg := none, trig := true,
    trigAt := Vector.replicate 2 none,
    askDue := false, flags := [], lateNext := false, exceeded := false }

/-- The collector after reset (DESIGN CHOICE, log entry 2). -/
def FcrSt.reset : FcrSt := { standing := [], shadows := [], corrected := [], crcAt := none, otpAt := none, upset := [] }

/-- The PSF core after PD0 power-on reset (DESIGN CHOICE, log entry 125). -/
def PsfSt.reset : PsfSt :=
  { dcstAt := Vector.replicate 32 none, dcTest := none, scstAt := none, scAt := 0, cause := 0, detail := Vector.replicate 22 0, runs := Vector.replicate 9 0, newSrc := 0, htx := false, hazAt := none, ilkOpen := false, cycOpen := false,
    closed := Vector.replicate 2 false, levelAt := Vector.replicate 2 0, rbAt := 0, fbAt := Vector.replicate 3 0, trans := Vector.replicate 2 [], dark := none, darkAt := none,
    selfCycle := none, selfOpen := false, selfClosed := false, key1 := none, holdLock := false,
    pulse := Vector.replicate 3 { start := none, last := 0, onSince := 0, discard := false, reported := false },
    onLater := 0, onAcc := Vector.replicate 3 0, cycle := 0, peers := [], events := 0, ccd := false, scQuietSince := 0 }

/-- Impedance measurement after reset. -/
def ImpSt.reset : ImpSt :=
  { run := none, outer := none, started := 0, startReq := false, tstartReq := false, offset := Vector.replicate 32 0,
    count := Vector.replicate 32 0, outliers := Vector.replicate 32 0, lastObs := Vector.replicate 32 none,
    est := Vector.replicate 32 none, rest := [], auxHist := [], atSec := 0 }

/-- The Ferry after reset. -/
def FerrySt.reset : FerrySt :=
  { phase := Vector.replicate 8
      { newCmd := none, cmd := (0, 0, 0), age := 2, sel := none, change := none, slotAt := 0, frozenAt := none, own := none, keepSlot := false, lastScan := 0,
        scanReq := true, testScan := none, testBleed := none, cause := 0, noFallback := false, releasing := false, overNow := false,
        overRun := 0, xferNow := false, xferRun := 0, lowRun := 0, sum := 0, tickSum := 0, tickN := 0, mean := 0, clips := 0, eIn := 0, eOut := 0, runAcc := 0, bltAcc := 0, accAt := 0 },
    cell := Vector.replicate 32
      { newTgt := none, rem := 0, qin := 0, qout := 0, blq := 0, noValid := 8, lastV := 0, selAcc := 0, ovm := false, uvm := false },
    secSum := 0, secN := 0, secMean := 0, effP := 0, effS := 0, effSec := 0, validAt := 0 }

/-- No sample gathered. -/
def WinAcc.zero : WinAcc := { sum := 0, n := 0, lo := 0, hi := 0 }

/-- A channel after reset. -/
def ChanSt.reset : ChanSt :=
  { acc := .zero, win := .zero, prev := .zero, run := 0, quiet := 0, modHold := false, modNow := false, modTick := false,
    forced := 0, forceNext := false }

/-- The open-wire rotation after reset. -/
def OwSt.reset : OwSt :=
  { next := 0, due := none, on := false, step := 0, a := 0, ended := false, dwell := 1, thr := 0, taps := [], cut := [],
    vPre := [], fails := Vector.replicate 33 0, passes := Vector.replicate 33 0, force := [] }

/-- Current after reset. -/
def CurSt.reset : CurSt :=
  { i0 := (0, 1), i1 := (0, 1), main := (0, 1), q := 0, q1 := 0, load := false, clr1 := false,
    lastT := Vector.replicate 2 none, noValid := 0, noValidOn := false, disRun := 0, agreeRun := 0, dis := false,
    blockSum := 0, blockN := 0, bias := false }

/-- Measurement after reset. -/
def MeasSt.reset : MeasSt :=
  { hist := [], histS := [], ferryNow := 0, ferryGap := 0, ferryWin := 0, ferryPrev := 0, chan := Vector.replicate 34 .reset, prevOk := false, winP := 0, accP := 0, decim := 0, fmode := 0,
    coef := List.replicate 32 4096, enAt := true, posted := 0, staged := [], disBad := Vector.replicate 32 0,
    disGood := Vector.replicate 32 0, dis := 0, unBad := Vector.replicate 32 0, unGood := Vector.replicate 32 0,
    unused := 0, ow := .reset, burst := none, burstScan := false, bursts := 0, burstAt := 0, est := [],
    ref := List.replicate 32 0, sentN := 0, ringN := 0, cur := .reset }

/-- An auxiliary input after reset. -/
def InSt.reset : InSt :=
  { val := 0, plaus := false, broken := false, ref := false, raw := 0, stamp := 0, seq := 0, prev := none, bad := false,
    passes := 0, last := 0, seen := 0, runs := Vector.replicate 8 0, secSum := 0, secN := 0, means := [], winBad := false }

/-- A die sensor after reset. -/
def DieSt.reset : DieSt := { val := 0, plaus := true, passes := 0, seq := 0, stamp := 0, hotAcc := 0 }

/-- Auxiliary measurement after reset; t_s begins at 25 °C (DESIGN CHOICE, log entry 24). -/
def AuxSt.reset : AuxSt :=
  { inp := Vector.replicate 16 .reset, die := Vector.replicate 6 .reset, auxref := 0, scan := none, due := 0, ts := 500,
    curSec := 0, rateSec := 0, evalAt := 0, hot := 0, hotOk := true, grace := none, below := none, sfail := [], tev := 0, lev := 0,
    shutAt := none }

/-- The lifetime accumulators before anything is counted. -/
def LifeSt.reset : LifeSt :=
  { faults := Vector.replicate 16 0, recs := Vector.replicate 16 0, archive := 0, runs := 0, watchs := 0, ships := 0, notemp := 0,
    hist := Vector.replicate 512 0, ihist := Vector.replicate 32 0, phe := List.replicate 8 (0, 0),
    cq := List.replicate 32 (0, 0, 0), vmax := Vector.replicate 32 none, vmin := Vector.replicate 32 none, iChg := 0, iDsg := 0,
    tmax := Vector.replicate 16 none, tmin := Vector.replicate 16 none, die := none, day := none, trends := 0, nsw := 0,
    taux := (0, 0), z := [], flushAt := 0 }

/-- A single-wire bus after reset (DESIGN CHOICE, log entry 2). -/
def SwbSt.reset : SwbSt :=
  { pwrAt := 0, offAt := none, trig := none, freeAt := 0, idDue := false, priAt := 0, secAt := 0, diagAt := 0, manual := none,
    known := false, bad := 0, reported := false }

/-- Management after PD0 power-on reset. -/
def MgtSt.reset : MgtSt :=
  { por := true, bootAt := 0, bootFor := 150, burstDue := 0, booting := false, shipWake := none, holdExit := false, rstLow := none, rstIgnored := false,
    resetDue := [], vio := false, shipStart := false, retAt := none, refill := false, supplyMs := 0, wakeStuck := false, held := [], modeKey := none, swKey := none, otpKey := none, lifeKey := none, reqAt := 0,
    shipAt := 0, vaux := false, flashOp := none, upd := none, prob := Vector.replicate 4 0, probStaged := none, probAt := 0, scrubbed := 0, scrubAt := 0, notifyAt := 0,
    swb := Vector.replicate 2 .reset, crc := Vector.replicate 4 { held := [] } }

/-- The machine at PD0 power-on reset (R341, R356): every register at its reset value, no memory listed
(DESIGN CHOICE, log entries 1, 2). -/
def State.reset : State :=
  { pending := [], now := 0, ftOfs := 0, regs := [], mem := [], flash := [], free := 0, sent := [], latches := [], sealed := false, sealRec := [],
    loaderRw := [], privAt := 0, turned := 0,
    wakeHeld := none,
    tick := .reset, fcr := .reset, psf := .reset, eng := Vector.replicate 16 .reset, port := Vector.replicate 4 .reset,
    net := .reset, imp := .reset, log := { seq := 0, pushed := 0, staging := [] }, life := .reset,
    cal := { run := none, newTerms := [], staleEnds := false, src := [] }, bal := .reset, trimOld := [], cfgSwitch := none,
    meas := .reset, aux := .reset, mgt := .reset }

end Sys2Proof.Machine
end

