-- ==== Sys2Proof/Machine/Ops.lean ====
section
/-! DEFINITION. The named operations over the state: registers and fields, 64-bit registers, memories, time, free values,
the trace of what the part puts out, modes and privilege. -/

namespace Sys2Proof.Machine

/-! ## Registers and fields -/

/-- The word register `a` holds. -/
def State.rd (s : State) (a : Nat) : Word := sparseGet resetWord s.regs a

/-- Register `a` given the word `v`. -/
def State.wr (s : State) (a : Nat) (v : Word) : State := { s with regs := sparseSet resetWord s.regs a v }

/-- Register `a` as a number. -/
def State.rdN (s : State) (a : Nat) : Nat := (s.rd a).toNat

/-- Register `a` given the number `v`. -/
def State.wrN (s : State) (a v : Nat) : State := s.wr a (BitVec.ofNat 32 v)

/-- The value of a field. -/
def State.get (s : State) (f : Fld) : Nat := fieldOf (s.rdN f.addr) f.lo f.width

/-- A field given a value; the register's other bits are kept. -/
def State.put (s : State) (f : Fld) (v : Nat) : State := s.wrN f.addr (withField (s.rdN f.addr) f.lo f.width v)

/-- A one-bit field as a Bool. -/
def State.flag (s : State) (f : Fld) : Bool := s.get f != 0

/-- A one-bit field given a Bool. -/
def State.putB (s : State) (f : Fld) (b : Bool) : State := s.put f (b2n b)

/-- A counter field advanced by `n`, saturating. -/
def State.bump (s : State) (f : Fld) (n : Nat) : State := s.put f (min (s.get f + n) (2 ^ f.width - 1))

/-- A counter field advanced by `n`, wrapping. -/
def State.wrap (s : State) (f : Fld) (n : Nat) : State := s.put f (s.get f + n)

/-- Bit `i` of a field. -/
def State.bit (s : State) (f : Fld) (i : Nat) : Bool := bitOf (s.get f) i

/-- Bit `i` of a field given a Bool. -/
def State.putBit (s : State) (f : Fld) (i : Nat) (b : Bool) : State := s.put f (putBitN (s.get f) i b)

/-- The signed value of a field. -/
def State.getI (s : State) (f : Fld) : Int := toI f.width (s.get f)

/-- A field given a signed value. -/
def State.putI (s : State) (f : Fld) (z : Int) : State := s.put f (ofI f.width z)

/-- A field limited to the range its table gives (DESIGN CHOICE, log entry 10). -/
def State.getIn (s : State) (f : Fld) (lo hi : Nat) : Nat := clampN lo hi (s.get f)

/-- The value of a 64-bit register whose low word lies at `a` (R9). -/
def State.get64 (s : State) (a : Nat) : Nat := s.rdN a + s.rdN (a + 4) * 2 ^ 32

/-- A 64-bit register whose low word lies at `a` given the value `v`. -/
def State.put64 (s : State) (a v : Nat) : State := (s.wrN a v).wrN (a + 4) (v / 2 ^ 32)

/-! ## Memories -/

/-- The `k`-byte little-endian number at address `a` of the addressed memories (R8) (DESIGN CHOICE, log entry 7). -/
def State.memLE (s : State) (a k : Nat) : Nat := ofLE (bytesAt memDefault s.mem a k)

/-- The bytes from address `a` on. -/
def State.memBytes (s : State) (a k : Nat) : List Byte := bytesAt memDefault s.mem a k

/-- Bytes stored from address `a` on. -/
def State.memPut (s : State) (a : Nat) (l : List Byte) : State := { s with mem := putBytes memDefault s.mem a l }

/-- A word stored at address `a`. -/
def State.memPutWord (s : State) (a : Nat) (w : Word) : State := s.memPut a (leBytes 4 w.toNat)

/-- Bytes programmed into the flash from address `a` on. -/
def State.flashPut (s : State) (a : Nat) (l : List Byte) : State := { s with flash := putBytes flashDefault s.flash a l }

/-- The flash erased from address `lo` up to (not including) `hi` (PRESUMED, log entry 8). -/
def State.flashErase (s : State) (lo hi : Nat) : State := { s with flash := sparseDrop lo hi s.flash }

/-- The addressed memories from address `lo` up to (not including) `hi` as they are with nothing written
(DESIGN CHOICE, log entry 7). -/
def State.memDrop (s : State) (lo hi : Nat) : State := { s with mem := sparseDrop lo hi s.mem }

/-- The base of the Lagoon (Table 17.1). -/
def lagoon : Nat := 0x10000000

/-- The base of the lifetime store (Table 17.1). -/
def lifeBase : Nat := 0x20000000

/-- The base of the OTP window (Table 17.1). -/
def otpBase : Nat := 0x30000000

/-- Power domain `d` is on (Table 13.1). -/
def State.domOn (s : State) (d : Nat) : Bool := s.bit MGT_PWR_STAT_ON d

/-- The Lagoon offset of the resident copy of a slot (Table 15.7): CFG_A, CFG_B, FW_A, FW_B. -/
def slotOff (i : Nat) : Nat := if i = 0 then 0x400000 else if i = 1 then 0x480000 else if i = 2 then 0x500000 else 0x700000

/-- The kind of a slot: 0 configuration, 1 firmware set. -/
def slotKind (i : Nat) : Nat := if i < 2 then 0 else 1

/-- The size of a slot of a kind (Table 15.1). -/
def slotSize (kind : Nat) : Nat := if kind = 0 then 0x80000 else 0x200000

/-- The Lagoon offset of the staging area (Table 15.7). -/
def stagingOff : Nat := 0x900000

/-- The size of the staging area (Table 15.7). -/
def stagingSize : Nat := 0x240000

/-- The `n` bytes from Lagoon offset `o` on and the `m` bytes from offset `p` on have a byte in common. -/
def overlaps (o n p m : Nat) : Bool := decide (o < p + m) && decide (p < o + n)

/-- What has been verified in the Lagoon is no longer once `n` bytes are written at offset `o` (R3; DEDUCED, log entry 240): a verified
or written staged image is open again, one that is being written to the flash is spoiled, a resident copy does not count as verified. -/
def State.unverify (s : State) (o n : Nat) : State :=
  let s : State :=
    if overlaps o n stagingOff stagingSize then
      (if s.get MGT_UPD_STAT_STATE = 3 ∨ s.get MGT_UPD_STAT_STATE = 5 then s.put MGT_UPD_STAT_STATE 1
       else { s with mgt := { s.mgt with upd := s.mgt.upd.map fun u => { u with spoiled := true } } })
    else s
  (List.range 4).foldl
    (fun s k => if overlaps o n (slotOff k) (slotSize (slotKind k)) then s.put (MGT_SLOTs_HDR_VERIFIED k) 0 else s) s

/-- A record written by a hardware agent to its ring in the Lagoon: none when the Lagoon is off or the record does not lie
within it (R443). A WATCH burst writes to a retained Lagoon (Table 3.6). A ring may be placed over an image, which then no longer counts
as verified (R3, R415) (DEDUCED, log entry 240). -/
def State.ringPut (s : State) (off : Nat) (l : List Byte) : Option State :=
  if (s.domOn 8 ∨ (s.bit MGT_PWR_STAT_RET 8 ∧ s.domOn 9)) ∧ off + l.length ≤ 48 * 2 ^ 20 then
    some ((s.memPut (lagoon + off) l).unverify off l.length)
  else none

/-! ## Time -/

/-- One microsecond in units of 1/16 ns. -/
def us : Nat := 16000

/-- One millisecond in units of 1/16 ns. -/
def ms : Nat := 16000000

/-- One second in units of 1/16 ns. -/
def sec : Nat := 16000000000

/-- Fabric time in 1/16 ns (R33); it stands while the clocks of PD9 are off (R340) (DEDUCED, log entry 150). -/
def State.ft (s : State) : Nat := ((s.mgt.retAt.getD s.now : Nat) + s.ftOfs : Int).toNat

/-- Fabric time in ns (R33). -/
def State.ftNs (s : State) : Nat := s.ft / 16

/-- The steps of 1/16 ns that a slew of 1 ns per 125 µs has room for up to `t` (R43). -/
def State.slewSteps (s : State) (t : Nat) : Nat := (t - s.tick.slewAt) / (125 * us / 16)

/-- What fabric time is slewed by up to `t` (R43). -/
def State.slewBy (s : State) (t : Nat) : Int := clampI (-(s.slewSteps t : Int)) (s.slewSteps t) s.tick.slew

/-- The part puts something out. -/
def State.emit (s : State) (x : Sent) : State := { s with sent := x :: s.sent }

/-- The TICK that waits on Strait `n` leaves when its slot has come (R38). -/
def State.tickSlot (t : Nat) (s : State) (n : Nat) : State :=
  match (vget s.port n .reset).tickOut with
  | some d =>
    if d ≤ t then
      { s.emit (.tick n) with port := vset s.port n { vget s.port n .reset with tickOut := none } }
    else s
  | none => s

/-- The Q byte of a CREDIT sequence (R232). -/
def creditByte (q c : Nat) : Nat := q + (7 - q) * 8 + 64 * ((bitsOf 8 c).length % 2)

/-- A CREDIT sequence for queue `q` of Strait `p` with what has been freed so far (R232, R233). -/
def State.sendCredit (s : State) (p q : Nat) : State :=
  let c := vget (vget s.port p .reset).freed q 0
  s.emit (.credit p (creditByte q c) c)

/-- The CREDIT sequences owed on Strait `n` whose time has come leave (R233). -/
def State.creditSlot (t : Nat) (s : State) (n : Nat) : State :=
  let l := (vget s.port n .reset).credDue
  if l.any fun x => decide (x.2 ≤ t) then
    let s := (l.filter fun x => decide (x.2 ≤ t)).foldl (fun s x => s.sendCredit n x.1) s
    { s with port := vset s.port n { vget s.port n .reset with credDue := l.filter fun x => decide (t < x.2) } }
  else s

/-- Time moves on to `t`, fabric time slewed by `d`; forwarded TICKs and CREDIT sequences whose slot has come leave. -/
def State.moveTo (s : State) (t : Nat) (d : Int) : State :=
  let at_ := if s.tick.slew = 0 then t else s.tick.slewAt + s.slewSteps t * (125 * us / 16)
  let s := (List.range 4).foldl (State.creditSlot t) ((List.range 4).foldl (State.tickSlot t) s)
  { s with now := t, ftOfs := s.ftOfs + d, tick := { s.tick with slew := s.tick.slew - d, slewAt := at_ } }

/-- Time moves on to `t`, and fabric time is slewed by at most 1 ns per 125 µs (R43). Time never moves back
(DESIGN CHOICE, log entry 23; DEDUCED, log entry 32). -/
def State.reach (s : State) (t : Nat) : State := if t ≤ s.now then s else s.moveTo t (s.slewBy t)

/-- Time moves on to the fabric time `t`: with the slew that is due by then, fabric time reads exactly `t` (R34, R43). -/
def State.reachFt (s : State) (t : Nat) : State :=
  let x := ((t : Int) - s.ftOfs).toNat
  if x ≤ s.now then s
  else
    let d := s.slewBy x
    let d := if 0 ≤ d then s.slewBy ((x : Int) - d).toNat else d
    s.moveTo (max s.now ((x : Int) - d).toNat) d

/-- The real-time counter: ms since PD0 power-on (Table 13.11). -/
def State.rtc (s : State) : Nat := s.now / ms

/-- The tick counter k (R34). -/
def State.tickNo (s : State) : Nat := s.get64 TMG_TICK_LO

/-- The active tick period in µs (R35). -/
def State.period (s : State) : Nat := s.get TMG_PERIOD_ACT_P

/-- The active tick period in 1/16 ns. -/
def State.periodT (s : State) : Nat := s.period * us

/-- The sample instant S(k) in fabric time, 1/16 ns (R34). -/
def State.sampleAt (s : State) (k : Nat) : Nat := (s.get64 TMG_EPOCH_LO + k * s.period * 1000) % 2 ^ 64 * 16

/-- The epoch E in 1/16 ns. A change to a longer period can put it below 0 (R56): it is read as a signed number. -/
def State.epoch (s : State) : Int := toI 64 (s.get64 TMG_EPOCH_LO) * 16

/-! ## Free values and the trace -/

/-- A value the manual leaves open (DESIGN CHOICE, log entry 3). -/
def State.fresh (s : State) (w : Nat) : BitVec w × State := (Config.freeValue w s.free, { s with free := s.free + 1 })

/-! ## Samples -/

/-- The samples gathered since the last sample instant. -/
def State.gathered (s : State) : Nat := (vget s.meas.chan 0 .reset).acc.n

/-- The samples gathered are given up. -/
def State.regather (s : State) : State :=
  { s with meas := { s.meas with chan := s.meas.chan.map fun c => { c with acc := .zero } } }

/-! ## Modes, privilege and engines -/

/-- The current mode (Table 13.12): 0 SHIP, 1 WATCH, 2 RUN, 3 TRIM, 4 SERVICE, 5 HOLD, 6 start-up. -/
def State.mode (s : State) : Nat := s.get MGT_MODE_STAT_MODE

/-- The mode is RUN, TRIM or SERVICE. -/
def State.active (s : State) : Bool := s.mode == 2 || s.mode == 3 || s.mode == 4

/-- The part is powered beyond PD0: the logic die runs. -/
def State.logicOn (s : State) : Bool := s.bit MGT_PWR_STAT_ON 9

/-- Start-up has completed (R362). -/
def State.started (s : State) : Bool := s.flag MGT_STARTUP_DONE

/-- The privileged initiators (R288). -/
def State.privileged (s : State) : Initiator → Bool
  | .engine n => n == 15
  | .remoteHost => true
  | .remoteService => s.mode == 4
  | .remoteOther => false
  | .twoWire => true
  | .hardware _ => false

/-- MC itself (engine 15, R32). -/
def isMC : Initiator → Bool
  | .engine n => n == 15
  | _ => false

/-- An engine writes itself. -/
def isEngine (i : Initiator) (e : Nat) : Bool :=
  match i with
  | .engine n => n.val == e
  | _ => false

/-- Engine `e`, the reset value beyond 15. -/
def State.engine (s : State) (e : Nat) : EngSt := vget s.eng e .reset

/-- Engine `e` changed by `f`. -/
def State.onEng (s : State) (e : Nat) (f : EngSt → EngSt) : State :=
  { s with eng := vset s.eng e (f (s.engine e)) }

/-- Strait `n`, the reset value beyond 3. -/
def State.strait (s : State) (n : Nat) : PortSt := vget s.port n .reset

/-- Strait `n` changed by `f`. -/
def State.onPort (s : State) (n : Nat) (f : PortSt → PortSt) : State :=
  { s with port := vset s.port n (f (s.strait n)) }

/-- Strait `n` is UP (Table 9.14). -/
def State.up (s : State) (n : Nat) : Bool := s.get (FAB_PORTn_STAT_STATE n) == 4

/-- The throttle level enforced (R177). -/
def State.throttle (s : State) : Nat := s.get AUX_THR_STAT_LE

/-- The active harbour (Table 10.8). -/
def State.isHarbour (s : State) : Bool := s.flag FAB_NET_STAT_HARBOUR

/-- Channel `ch` of `CalRun` carries TRIMREQ: its offset or its gain does not come from TRIM (R384). -/
def State.trimReq (s : State) (ch : Nat) : Bool :=
  match s.cal.src.find? fun e => e.1 == ch with
  | some e => e.2 % 4 != 3
  | none => true

/-- N, the used channels (R60). -/
def State.cellsN (s : State) : Nat := min (s.get CMF_CELLS_N) 32

/-- A machine CSR of engine `e` that the privileged specification defines as storage (R186; PRESUMED, log entry 219). -/
def State.csr (s : State) (e a : Nat) : Word := sparseGet (fun _ => 0) (s.engine e).csr a

/-- A machine CSR of engine `e` given a word. -/
def State.setCsr (s : State) (e a : Nat) (w : Word) : State :=
  s.onEng e fun g => { g with csr := sparseSet (fun _ => 0) g.csr a w }

/-- SFLAGS.TRIMREQ and MGT_CAL_SLOT.TRIMREQ: a used channel carries it (R384). -/
def State.anyTrimReq (s : State) : Bool :=
  (List.range s.cellsN).any (fun c => s.trimReq (2 + c)) || s.trimReq 0 || (s.trimReq 1 && !s.flag CSI_CTRL_NO_CS1)

/-- The part's own 64-bit unique ID (Table 9.12). -/
def State.uid (s : State) : Nat := s.get64 FAB_UID_LO

end Sys2Proof.Machine
end

