-- ==== Sys2Proof/Machine/Fabric.lean ====
section
/-! DEFINITION. The frame switch: frame types and their classes, routing (R271), transmit queues, local delivery (R255,
R256), frames the part originates, HAZARD bursts (R239) and the queue of Host Notify events (R427). -/

namespace Sys2Proof.Machine

/-- The class of a frame type (Table 9.4): 0 Narrows, 1 Control, 2 Bulk. -/
def typeClass (t : Nat) : Option Nat :=
  if t = 0x02 ∨ t = 0x03 ∨ t = 0x04 then some 0
  else if (0x10 ≤ t ∧ t ≤ 0x17) ∨ t = 0x20 ∨ t = 0x21 ∨ t = 0x22 ∨ t = 0x23 then some 1
  else if t = 0x01 ∨ t = 0x30 ∨ t = 0x31 ∨ t = 0x32 ∨ t = 0x33 then some 2
  else none

/-- SOUND frame types (Table 9.4). -/
def isSound (t : Nat) : Bool := decide (0x10 ≤ t) && decide (t ≤ 0x17)

/-- The buffer units a frame occupies (R231). -/
def frameUnits (f : Frame) : Nat := cdivN (f.payload.length + 12) 64

/-- The queue of a frame, q = 2 × CLS + VC (R231). -/
def frameQueue (f : Frame) : Nat := 2 * f.cls + f.vc

/-- A Strait's ROLE, values other than 1 and 2 being treated as 0 (Table 9.13). -/
def State.role (s : State) (n : Nat) : Nat :=
  let r := s.get (FAB_PORTn_CFG_ROLE n)
  if r = 1 ∨ r = 2 then r else 0

/-- HAZIN or HAZOUT, which read 1 on a fabric Strait (R241). -/
def State.hazOut (s : State) (n : Nat) : Bool := s.role n == 0 || s.flag (FAB_PORTn_CFG_HAZOUT n)
@[inherit_doc State.hazOut]
def State.hazIn (s : State) (n : Nat) : Bool := s.role n == 0 || s.flag (FAB_PORTn_CFG_HAZIN n)

/-- The Straits that are UP and have a given role. -/
def State.upPorts (s : State) (role : Nat) : List Nat := (List.range 4).filter fun n => s.up n && s.role n == role

/-- The host-endpoint Strait that is UP, if any. -/
def State.hostPort (s : State) : Option Nat := (s.upPorts 1).head?

/-- A frame discarded by the switch, counted in FAB_DROPr. -/
def State.drop (s : State) (r : Nat) : State := s.bump ⟨FAB_DROPr r, 0, 32⟩ 1

/-- The credit available toward a peer's queue (R233). -/
def State.credit (s : State) (n q : Nat) : Nat :=
  let p := s.strait n
  vget p.allot q 0 - (vget p.sentU q 0 + 256 - vget p.credC q 0) % 256

/-- The credit registers follow the credit state (Table 9.12). -/
def State.showCredit (s : State) (n : Nat) : State :=
  let c (q : Nat) : Nat := s.credit n q % 256
  (s.wrN (FAB_PORTn_CRED0 n) (c 0 + c 1 * 256 + c 2 * 65536 + c 3 * 16777216)).put (FAB_PORTn_CRED1_V n) (c 4 + c 5 * 256)

/-- The register of the frames waiting in a transmit queue follows the queue. -/
def State.showTxq (s : State) (n q : Nat) : State :=
  s.put (FAB_PORTn_TXQq_N n q) (min ((vget (s.strait n).txq q []).length) 255)

/-- A frame put into a transmit queue, or discarded as FAB_DROP2 when the output is down (R246, R275). -/
def State.enqueue (s : State) (n : Nat) (it : TxItem) : State :=
  if s.up n then
    let q := frameQueue it.frame
    (s.onPort n fun p => { p with txq := vset p.txq q (vget p.txq q [] ++ [it]) }).showTxq n q
  else s.drop 2

/-- The routing entry of a destination (Table 10.10). -/
def State.rtPort (s : State) (d : Nat) : Option Nat :=
  if decide (d ≤ 0xF0) && s.flag (FAB_RTd_VALID d) then some (s.get (FAB_RTd_PORT d)) else none

/-- A ladder island on rail 1 stands at the harbour's position: its route A, the rung, is one Strait long (R272, DEDUCED, log entry 29). -/
def State.atRungOfHarbour (s : State) : Bool := s.get FAB_POS_RAIL == 1 && s.get FAB_CWAY_RT_AHOPS == 1

/-- The Strait of the rung of a ladder island: route B's first Strait, or route A's on rail 1 at the harbour's position
(R272) (DEDUCED, log entry 29). -/
def State.rungPort (s : State) : Nat :=
  if s.atRungOfHarbour then s.get (FAB_RTd_PORT 0) else s.get (FAB_RTd_ALT 0)

/-- The virtual channel on which a frame leaves a ring island on Strait `n` (R271, DEDUCED, log entry 12). -/
def State.ringVc (s : State) (n vc : Nat) : Nat :=
  if s.get FAB_TOPO_KIND = 1 then
    (if vc = 1 ∨ (s.flag FAB_POS_DLV ∧ s.get FAB_POS_DLPORT = n) then 1 else 0)
  else 0

/-- The output Strait and virtual channel of a frame in transit (R271): none where no route exists. In a ring it is the other ring
Strait, UP or not (R275). -/
def State.transit (s : State) (f : Frame) (arrival : Nat) : Option (Nat × Nat) :=
  let kind := s.get FAB_TOPO_KIND
  if kind = 1 then
    match (if s.flag (FAB_PORTn_SND_RING arrival) then
        (List.range 4).find? fun n => n != arrival && s.flag (FAB_PORTn_SND_RING n) else none) with
    | some n => (s.rtPort f.dst).map fun _ => (n, s.ringVc n f.vc)
    | none => (s.rtPort f.dst).map fun n => (n, s.ringVc n f.vc)
  else if kind = 2 ∧ f.vc = 1 then
    if f.dst ≠ 0 ∨ (s.rtPort 0).isNone then none
    else
      let toH := s.get (FAB_RTd_PORT 0)
      if s.get FAB_POS_RAIL = 0 then some (toH, 1)
      else if s.atRungOfHarbour then some (s.rungPort, 1)
      else if arrival = toH then some (s.rungPort, 1)
      else some (toH, 1)
  else (s.rtPort f.dst).map fun n => (n, 0)

/-- A frame given to the island's own agents; the local delivery buffer may be full (R256). -/
def State.toAgents (s : State) (f : Frame) : State :=
  if s.net.inbox.length < Config.localBuffer then { s with net := { s.net with inbox := s.net.inbox ++ [f] } }
  else s.drop 5

/-- The agent takes up a frame that was delivered to it (DESIGN CHOICE, log entry 59). -/
def State.takeInbox (s : State) (f : Frame) : State := { s with net := { s.net with inbox := s.net.inbox.erase f } }

/-- The TAG of a remote access or memory-read payload. -/
def frameTag (f : Frame) : Nat := leAt f.payload 0 2

/-- The bit of FAB_HOST_FWD of a frame type (R255). -/
def hostFwdBit (t : Nat) : Option Nat :=
  if t = 0x01 then some 0 else if t = 0x02 then some 1 else if t = 0x03 then some 2 else if t = 0x04 then some 3
  else if t = 0x22 then some 4 else if t = 0x32 then some 5 else none

/-- Where a frame delivered at this island goes: whether to its own agents, and the host Strait it goes out on, as DST 0x00 and
TYPE say at the active harbour (R255). -/
def State.destinations (s : State) (f : Frame) : Bool × Option Nat :=
  match (if s.isHarbour && f.dst == 0 then s.hostPort else none) with
  | none => (true, none)
  | some h =>
    let fwd : Bool := match hostFwdBit f.typ with | some b => s.bit FAB_HOST_FWD_F b | none => false
    if f.typ = 0x21 ∨ f.typ = 0x31 then (if bitOf (frameTag f) 15 then (false, some h) else (true, none))
    else if f.typ = 0x02 then (true, if fwd then some h else none)
    else if fwd then (false, some h)
    else (true, none)

/-- A frame delivered at this island (R255): to its agents, to the host Strait. A frame that waits for the host holds the
buffer units of the Strait it came from (R256). -/
def State.deliver (s : State) (f : Frame) (arrival : Option (Fin 4) := none) : State :=
  let d := s.destinations f
  let s := if d.1 then s.toAgents f else s
  match d.2 with
  | some h => s.enqueue h { frame := f, arrival := arrival, aq := frameQueue f, bad := false, since := s.now }
  | none => s

/-- A broadcast sent on every broadcast child (R273). -/
def State.toChildren (s : State) (f : Frame) (arrival : Option (Fin 4)) : State :=
  (bitsOf 4 (s.get FAB_BCAST_CHILD)).foldl
    (fun s n => s.enqueue n { frame := { f with vc := s.ringVc n f.vc }, arrival := arrival, aq := frameQueue f, bad := false, since := s.now }) s

/-- A frame the island itself puts into the switch (R271, R273). Copy B of a causeway frame takes route B (R272). -/
def State.inject (s : State) (f : Frame) (routeB : Bool) : State :=
  if f.dst = 0xFF then (if s.isHarbour then s.toChildren f none else s.drop 0)
  else if f.dst ≤ 0xF0 ∧ (f.dst = s.get FAB_NET_STAT_ADDR ∨ s.flag (FAB_RTd_LOCAL f.dst)) then s.deliver f
  else if routeB ∧ (s.rtPort 0).isNone then s.drop 0
  else if routeB then
    let n := s.get (FAB_RTd_ALT 0)
    let vc := if s.get FAB_TOPO_KIND = 2 then 1 else s.ringVc n 0
    s.enqueue n { frame := { f with vc := vc }, arrival := none, aq := 0, bad := false, since := s.now }
  else
    match s.rtPort f.dst with
    | some n => s.enqueue n { frame := { f with vc := s.ringVc n 0 }, arrival := none, aq := 0, bad := false, since := s.now }
    | none => s.drop 0

/-- The next sequence number toward a destination in a class (R225), and the state after it is used. -/
def State.nextSeq (s : State) (dst cls : Nat) : Nat × State :=
  let k := dst * 4 + cls
  let v := sparseGet (fun _ => 0) s.net.seqs k
  (v, { s with net := { s.net with seqs := sparseSet (fun _ => 0) s.net.seqs k ((v + 1) % 65536) } })

/-- A frame the island originates (R225, R251): an island that has no address originates none. -/
def State.originate (s : State) (dst typ : Nat) (pay : List Byte) (routeB : Bool := false) : State :=
  if s.flag FAB_NET_STAT_ASSIGNED then
    let cls := (typeClass typ).getD 1
    let (q, s) := s.nextSeq dst cls
    s.inject { dst := dst, src := s.get FAB_NET_STAT_ADDR, typ := typ, cls := cls, vc := 0, hops := 0, seq := q,
               payload := pay } routeB
  else s

/-- A frame for the neighbour on one Strait, DST 0xFE (R227, R251). -/
def State.sendHop (s : State) (n typ : Nat) (pay : List Byte) : State :=
  let cls := (typeClass typ).getD 1
  let src := if s.flag FAB_NET_STAT_ASSIGNED && !isSound typ then s.get FAB_NET_STAT_ADDR else 0xFE
  let (q, s) := s.nextSeq 0xFE cls
  s.enqueue n { frame := { dst := 0xFE, src := src, typ := typ, cls := cls, vc := 0, hops := 0, seq := q, payload := pay },
                arrival := none, aq := 0, bad := false, since := s.now }

/-- A burst of REP HAZARD symbols on every UP Strait with HAZOUT but the Strait of arrival (R239). It begins within 40 ns; when, is open
(DESIGN CHOICE, log entry 249). A TICK whose outgoing slot the burst takes is not sent (R39, R240). -/
def State.hazardBurst (s : State) (except : Option Nat) : State :=
  let rep := s.getIn FAB_HAZ_CFG_REP 1 7
  (List.range 4).foldl
    (fun s n =>
      if s.up n && s.hazOut n && except != some n then
        let (x, s) := s.fresh 10
        let start := s.now + x.toNat % 641
        let till := start + 320 * rep
        let s := (s.emit (.hazard n rep)).bump ⟨FAB_PORTn_CNTm n 17, 0, 32⟩ 1
        let hit := match (s.strait n).tickOut with | some d => decide (start ≤ d) && decide (d < till) | none => false
        let s := if hit then s.bump TMG_TICK_REJ_HAZ 1 else s
        s.onPort n fun p => { p with hazFrom := start, hazTill := till, tickOut := if hit then none else p.tickOut }
      else s) s

/-- FAB's part in accepting a HAZARD (R239): record, hold, flood. `src` is the Strait, or 4 for the trip line. -/
def State.floodHazard (s : State) (src : Nat) : State :=
  let s := (s.put FAB_HAZ_STAT_SRC src).put64 FAB_HAZ_T_LO s.ftNs
  let s := if src < 4 then (s.bump FAB_HAZ_CNT_ACC 1).bump ⟨FAB_PORTn_CNTm src 16, 0, 32⟩ 1 else s.bump FAB_HAZ_CNT_ORIG 1
  let s := { s with psf := { s.psf with hazAt := some s.now } }
  if s.flag FAB_STAT_HOLDOFF then s
  else { s.putB FAB_STAT_HOLDOFF true with net := { s.net with hazHoldAt := s.now } }.hazardBurst (if src < 4 then some src else none)

/-! ## The log -/

/-- An entry written to the log ring (R407, Table 15.9); one that cannot be written counts in MGT_LOG_LOST
(DEDUCED, log entry 15). -/
def State.logEntry (s : State) (src cls code d0 d1 d2 : Nat) : State :=
  let body := leBytes 8 s.ftNs ++ leBytes 4 s.log.seq ++ leBytes 1 src ++ leBytes 1 cls ++ leBytes 2 code ++ leBytes 4 d0 ++
    leBytes 4 d1 ++ leBytes 4 d2
  let i := s.log.seq % 131072
  match s.ringPut (i * 32) (body ++ leBytes 4 (crc32c body)) with
  | some t => { t.put MGT_LOG_STAT_WPTR i with log := { t.log with seq := t.log.seq + 1 } }
  | none => s.bump MGT_LOG_LOST_N 1

/-- A hardware entry of the log (Table 15.10): class 2 of FCR's, a fault, class 3 of PSF's, protection; whether another is information
or a notice is not stated (DESIGN CHOICE, log entry 269). -/
def State.logHw (s : State) (src code d0 d1 d2 : Nat) : State :=
  if src = 0x2A then s.logEntry src 2 code d0 d1 d2
  else if src = 0x26 then s.logEntry src 3 code d0 d1 d2
  else let (x, s) := s.fresh 1; s.logEntry src x.toNat code d0 d1 d2

/-! ## Host Notify -/

/-- The place in the Host Notify queue of an event that is already queued. -/
def State.notifySlot (s : State) (evt : Nat) : Option Nat :=
  ((List.range 8).filter fun e => s.flag (MGT_NOTIFY_Qe_WORD_VALID e) && s.get (MGT_NOTIFY_Qe_WORD_EVT e) == evt).head?

/-- The PEND bit of an event is set (R429, Table 16.7). -/
def State.notifyPend (s : State) (evt : Nat) : State :=
  if evt < 0x10 then s.putBit MGT_NOTIFY_PEND_E (evt - 1) true else s.putBit MGT_NOTIFY_PEND_J (evt - 0x10) true

/-- A Host Notify event is queued: it replaces the INFO of an entry of the same EVT, takes the next entry, or finds the
queue full (R427). Nothing is queued in SHIP; EN enables the events of MGT_NOTIFY_SEND (Table 16.3) (DEDUCED, log entry 13). -/
def State.notifyQueue (s : State) (evt info : Nat) : State :=
  if s.mode = 0 ∨ (16 ≤ evt ∧ ¬ s.flag MGT_NOTIFY_CFG_EN) then s
  else
    match s.notifySlot evt with
    | some e => s.put (MGT_NOTIFY_Qe_WORD_INFO e) info
    | none =>
      let n := s.get MGT_NOTIFY_STAT_QCNT
      if 8 ≤ n then (s.bump MGT_NOTIFY_STAT_OVF 1).notifyPend evt
      else
        ((((s.put (MGT_NOTIFY_Qe_WORD_EVT n) evt).put (MGT_NOTIFY_Qe_WORD_INFO n) info).putB (MGT_NOTIFY_Qe_WORD_VALID n) true
          ).wrN (MGT_NOTIFY_Qe_T n) s.ftNs).put MGT_NOTIFY_STAT_QCNT (n + 1)

end Sys2Proof.Machine
end

