-- ==== Sys2Proof/Machine/SweepCore.lean ====
section
/-! DEFINITION. What every cause that ends a sweep shares: the windows of a stage (R113), the sweep record (R133) and the
end of a sweep (R129). -/

namespace Sys2Proof.Machine

/-- The nominal frequency of a bin in 0.01 Hz (Table 5.7). -/
def State.binF (s : State) (b : Nat) : Nat := s.get (CSI_IMP_BINb_CFG_F b)

/-- A bin is enabled: F is not 0 and SRC is not 0b11 (R112, Table 5.1). -/
def State.binOn (s : State) (b : Nat) : Bool := s.binF b != 0 && s.get (CSI_IMP_BINb_CFG_SRC b) != 3

/-- The bins of a stage of a full sweep. -/
def State.stageBins (s : State) (st : Nat) : List Nat :=
  (List.range 24).filter fun b => s.binOn b && s.get (CSI_IMP_BINb_CFG_STAGE b) == st

/-- N_b of the active period (R36). -/
def State.nb (s : State) : Nat := s.get TMG_STAT_NB

/-- The window length N_w of bins with lowest frequency `f` in 0.01 Hz, at period `p` µs with `nb` samples (R113). -/
def windowLen (mper f p nb : Nat) : Nat :=
  let mMin := max 1 (min mper (2 ^ 24 * f * p / (nb * 100000000)))
  rdivN (mMin * nb * 100000000) (f * p)

/-- The nominal count of whole periods M_b of a bin in a window (R113). -/
def windowCount (f nw p nb : Nat) : Nat := rdivN (f * nw * p) (nb * 100000000)

/-- The own frequency of a window in 0.1 mHz (R116, Table 5.4). -/
def ownFreq (count nw p nb : Nat) : Nat := rdivN (count * nb * 10000000000) (nw * p)

/-- The window length of a list of bins. -/
def State.stageLen (s : State) (bins : List Nat) : Nat :=
  let f := (bins.map s.binF).foldl min 1000000
  if bins.isEmpty then 0 else windowLen (s.get CSI_IMP_CTRL_MPER) f s.period s.nb

/-- The low 16 bits of the CRC-32C over the 24 bin registers and MPER (R118): each register as four bytes, the low one first, in
ascending order, then MPER as one byte (DESIGN CHOICE, log entry 234). -/
def State.tableId (s : State) : Nat :=
  crc32c (((List.range 24).map fun b => leBytes 4 (s.rdN (CSI_IMP_BINb_CFG b))).flatten ++
    leBytes 1 (s.get CSI_IMP_CTRL_MPER)) % 65536

/-- A plausible thermistor-mode input's temperature in 0.1 °C (R169): VALID and neither BROKEN nor implausible. An input that is only
STALE counts as held with the others (DEDUCED, log entry 228). -/
def State.thermistor (s : State) (i : Nat) : Option Int :=
  if s.get (AUX_INi_CFG_MODE i) = 1 ∧ s.flag (AUX_INi_FLAG_VALID i) ∧ ¬ s.flag (AUX_INi_FLAG_BROKEN i)
      ∧ ¬ s.flag (AUX_INi_FLAG_IMPL i) then some (toI 32 (s.rdN (AUX_INi_VAL i))) else none

/-- The mean of a list, rounded, none when it is empty. -/
def meanI (l : List Int) : Option Int := if l.isEmpty then none else some (rdivI (l.foldl (· + ·) 0) l.length)

/-- The entry of a result list for cell `c` and bin `b`; a bin that did not run carries NOTRUN. -/
def resFor (l : List SweepRes) (c b : Nat) : SweepRes :=
  (l.find? fun r => r.key == 24 * c + b).getD { key := 24 * c + b, re := -(2 ^ 31 : Nat), im := -(2 ^ 31 : Nat), q := 0x80 }

/-- T_END of a sweep (Table 5.4): its last window's last sample when it completes, otherwise the present fabric time, in ns. -/
def State.sweepEndT (s : State) (r : SweepRun) (code : Nat) : Nat := if code = 0 ∧ r.lastAt ≠ 0 then r.lastAt else s.ftNs

/-- The 8,192 bytes of a sweep record (Table 5.4), ended with a code of Table 5.3. -/
def State.sweepRecord (s : State) (r : SweepRun) (code : Nat) : List Byte :=
  let on (b : Nat) : Bool := if r.kind = 0 then s.binOn b else b == s.get CSI_IMP_TCFG_BIN
  let nbin := ((List.range 24).filter on).length
  let hf := b2n r.planErr + 2 * b2n (s.flag CSI_IMP_STAT_PLAN_MIS) + 4 * b2n r.holdover + 8 * b2n r.incoh +
    16 * b2n r.thr1 + 32 * b2n s.anyTrimReq
  let taux := ((meanI ((List.range 16).filterMap s.thermistor)).map (ofI 16)).getD 0x8000
  let imean := if r.cntI = 0 then 0 else rdivI r.sumI (10 * r.cntI)
  let info (b : Nat) : BinInfo :=
    vget r.info b { fact := 0, nw := 0, count := 0, state := 0, passive := false, complete := false }
  let binB (b : Nat) : List Byte :=
    leBytes 4 (if on b then s.binF b * 100 else 0) ++ leBytes 4 (info b).fact ++
      leBytes 4 (if on b then (info b).nw % 2 ^ 24 + s.get (CSI_IMP_BINb_CFG_STAGE b) * 2 ^ 24 else 0) ++ leBytes 3 (info b).count ++
      leBytes 1 ((info b).state + 4 * b2n (info b).passive)
  let cells := (List.range 32).map fun c => (List.range 24).map fun b => resFor r.res c b
  let body :=
    leBytes 4 r.seq ++ leBytes 1 r.kind ++ leBytes 1 code ++ leBytes 1 nbin ++ leBytes 1 hf ++
    leBytes 8 r.tStart ++ leBytes 8 (s.sweepEndT r code) ++ leBytes 6 r.kStart ++ leBytes 1 (s.get FAB_NET_STAT_ADDR) ++
    leBytes 1 (s.get CSI_IMP_PLAN_SLOT + 16 * s.get CSI_IMP_PLAN_SLOTS_L2) ++ leBytes 1 (s.get CMF_CELLS_N) ++
    leBytes 1 (s.get CSI_IMP_TCFG_BIN) ++ leBytes 2 taux ++ leBytes 4 (ofI 32 imean) ++ leBytes 2 s.tableId ++
    leBytes 4 s.period ++ List.replicate 18 0 ++ ((List.range 24).map binB).flatten ++
    (cells.map fun l => (l.map fun e => leBytes 4 (ofI 32 e.re) ++ leBytes 4 (ofI 32 e.im)).flatten).flatten ++
    (cells.map fun l => (l.map fun e => leBytes 1 e.q).flatten).flatten ++ List.replicate 828 0
  body ++ leBytes 4 (crc32c body)

/-- The code of a sweep ended or refused goes to CSI_IMP_ABORT (R129). -/
def State.sweepCode (s : State) (code stage : Nat) : State :=
  let s := (s.put CSI_IMP_ABORT_CODE code).put CSI_IMP_ABORT_STAGE stage
  if code = 0 then s else s.bump CSI_IMP_ABORT_N 1

/-- The trend bin at position `i` of CSI_IMP_TREND, none when it names none (R412). -/
def State.trendBin (s : State) (i : Nat) : Option Nat :=
  let b := fieldOf (s.rdN CSI_IMP_TREND) (8 * i) 5
  if b < 24 then some b else none

/-- A completed full sweep contributes to the trend record of the day (R412, Table 15.13). -/
def State.trendAdd (s : State) (r : SweepRun) : State :=
  let one (z : List (Nat × Int × Int × Nat)) (ci : Nat) : List (Nat × Int × Int × Nat) :=
    match s.trendBin (ci % 4) with
    | some b =>
      let e := resFor r.res (ci / 4) b
      if bitOf e.q 0 then
        match z.find? fun x => x.1 == ci with
        | some (_, re, im, n) => (ci, re + e.re, im + e.im, n + 1) :: z.filter fun x => x.1 != ci
        | none => (ci, e.re, e.im, 1) :: z
      else z
    | none => z
  let f := s.life
  let taux := match meanI ((List.range 16).filterMap s.thermistor) with
    | some t => (f.taux.1 + t, f.taux.2 + 1)
    | none => f.taux
  { s with life := { f with nsw := f.nsw + 1, taux := taux, z := (List.range 128).foldl one f.z } }

/-- One sweep ends with a code: its record is written to the ring, or code 0x06 is held when it cannot be (R133)
(DEDUCED, log entry 15). WPTR is left at the entry to be written next (DESIGN CHOICE, log entry 257). -/
def State.sweepWrite (s : State) (r : SweepRun) (code : Nat) : State :=
  let wp := s.get CSI_IMP_RING_WPTR
  match s.ringPut (s.get CSI_IMP_RING_BASE * 2 ^ 20 + wp * 8192) (s.sweepRecord r code) with
  | none => s.sweepCode 6 r.stage
  | some t =>
    let t := ((t.put CSI_IMP_RING_WPTR ((wp + 1) % 2 ^ min (s.get CSI_IMP_RING_DEPTH) 11)).wrN CSI_IMP_SEQ r.seq
      ).sweepCode code r.stage
    if code = 0 ∧ r.kind = 0 then (t.put64 CSI_IMP_LAST_LO (s.sweepEndT r code)).trendAdd r else t

/-- The status register shows the sweep that runs, if any (Table 5.6). -/
def State.showSweep (s : State) : State :=
  match s.imp.run with
  | none => (((((s.put CSI_IMP_STAT_BUSY 0).put CSI_IMP_STAT_KIND 0).put CSI_IMP_STAT_STAGE 0).put CSI_IMP_STAT_WIN 0).put
      CSI_IMP_STAT_PASSIVE 0)
  | some r => (((((s.put CSI_IMP_STAT_BUSY 1).put CSI_IMP_STAT_KIND r.kind).put CSI_IMP_STAT_STAGE r.stage).put
      CSI_IMP_STAT_WIN r.win).putB CSI_IMP_STAT_PASSIVE r.passive)

/-- The sweep in progress ends at once with a code (R129); a full sweep that waits for a temperature pass ends with it
(DEDUCED, log entry 16) (DEDUCED, log entry 89). -/
def State.sweepEnd (s : State) (code : Nat) : State :=
  match s.imp.run with
  | none => s
  | some r =>
    let s := s.sweepWrite r code
    let s := match s.imp.outer with
      | some o => s.sweepWrite o code
      | none => s
    ({ s with imp := { s.imp with run := none, outer := none } }.put CSI_IMP_STAT_TPEND 0).showSweep

/-- A sweep that completes: a full sweep waiting behind a temperature pass goes on (R131). -/
def State.sweepDone (s : State) (r : SweepRun) : State :=
  let s := s.sweepWrite r 0
  ({ s with imp := { s.imp with run := s.imp.outer, outer := none } }).showSweep

end Sys2Proof.Machine
end

