-- ==== Sys2Proof/Machine/FerryAcc.lean ====
section
/-! DEFINITION. The Ferry as every chapter sees it: charge accounting (R149, R150), connecting and disconnecting a cell, what a
stopped phase takes from a sweep (R122, R123), the stop of all phases by a mode (Table 6.5). -/

namespace Sys2Proof.Machine

/-- The phase state before anything has happened. -/
def PhaseSt.zero : PhaseSt := FerrySt.reset.phase[0]

/-- The Ferry data of a cell before anything has happened. -/
def CellBal.zero : CellBal :=
  { newTgt := none, rem := 0, qin := 0, qout := 0, blq := 0, noValid := 8, lastV := 0, selAcc := 0, ovm := false, uvm := false }

/-- Phase `p`. -/
def State.phase (s : State) (p : Nat) : PhaseSt := vget s.bal.phase p .zero

/-- Phase `p` changed by `f`. -/
def State.onPhase (s : State) (p : Nat) (f : PhaseSt → PhaseSt) : State :=
  { s with bal := { s.bal with phase := vset s.bal.phase p (f (s.phase p)) } }

/-- The Ferry data of cell `c`. -/
def State.cellBal (s : State) (c : Nat) : CellBal := vget s.bal.cell c .zero

/-- The Ferry data of cell `c` changed by `f`. -/
def State.onCell (s : State) (c : Nat) (f : CellBal → CellBal) : State :=
  { s with bal := { s.bal with cell := vset s.bal.cell c (f (s.cellBal c)) } }

/-- The phase bleeds its cell: passive fallback, or the test of BAL_PHp_TEST.BLT. -/
def State.bleeding (s : State) (p : Nat) : Bool := s.flag (BAL_PHp_STAT_FALLBACK p) || (s.phase p).testBleed.isSome

/-- The registers that show the Ferry data of cell `c` (Table 6.6). -/
def State.showCell (s : State) (c : Nat) : State :=
  let b := s.cellBal c
  ((((s.wrN (BAL_CELLc_REM c) (ofI 32 (Int.tdiv b.rem 1000))).wrN (BAL_CELLc_QIN c) (b.qin / 1000)).wrN
    (BAL_CELLc_QOUT c) (b.qout / 1000)).wrN (BAL_CELLc_BLQ c) (b.blq / 1000)).wrN (BAL_CELLc_TSEL c)
    (min (b.selAcc / sec) (2 ^ 32 - 1))

/-- The registers that show the energies and times of phase `p` (Table 6.6). -/
def State.showPhase (s : State) (p : Nat) : State :=
  let h := s.phase p
  (((s.wrN (BAL_PHp_ECHG p) (h.eIn / 10 ^ 12)).wrN (BAL_PHp_EDIS p) (h.eOut / 10 ^ 12)).wrN
    (BAL_PHp_RUNT p) (min (h.runAcc / sec) (2 ^ 32 - 1))).wrN (BAL_PHp_BLT p) (min (h.bltAcc / sec) (2 ^ 32 - 1))

/-- REM after the charge `q` in µA·s: zero once it is reached or passed (R150). -/
def remAfter (r q : Int) : Int :=
  if r = 0 then 0 else if (0 < r ∧ r ≤ q) ∨ (r < 0 ∧ q ≤ r) then 0 else r - q

/-- Phase `p` acts on its cell up to now, by balance current, excitation or bleed: the present filter window of that cell carries
FERRY though no strobe may find the cell connected (R72) (DESIGN CHOICE, log entry 254). -/
def State.ferryMark (s : State) (p : Nat) : State :=
  match (s.phase p).sel with
  | some j =>
    if s.get (BAL_PHp_ACT_I_ACT p) ≠ 0 ∨ s.flag (BAL_PHp_STAT_EXC p) ∨ s.bleeding p then
      { s with meas := { s.meas with ferryGap := setBitN s.meas.ferryGap (4 * p + j) } }
    else s
  | none => s

/-- The charge measured on phase `p` since the last accounting is booked to its connected cell (R150, R164), together with
the energies and times of Table 6.6. One sample of 0.1 mA stands for P / N_b µs. -/
def State.account (s : State) (p : Nat) : State :=
  let h := s.phase p
  let q := rdivI (h.sum * s.period) (s.nb * 10000)
  let dt := s.now - h.accAt
  let st := s.get (BAL_PHp_STAT_STATE p)
  let bl := s.bleeding p
  let s := s.onPhase p fun h => { h with sum := 0, accAt := s.now, runAcc := if st = 2 then h.runAcc + dt else h.runAcc,
                                         bltAcc := if st = 4 then h.bltAcc + dt else h.bltAcc }
  match h.sel with
  | none => s.showPhase p
  | some j =>
    let c := 4 * p + j
    let b := s.cellBal c
    let e := (q * b.lastV).natAbs
    let r := remAfter b.rem q
    let s := s.onPhase p fun h => if 0 < q then { h with eIn := h.eIn + e } else { h with eOut := h.eOut + e }
    let s := s.onCell c fun b =>
      { b with rem := r, selAcc := b.selAcc + dt,
               qin := if 0 < q then b.qin + q.natAbs else b.qin,
               qout := if q < 0 ∧ ¬ bl then b.qout + q.natAbs else b.qout,
               blq := if q < 0 ∧ bl then b.blq + q.natAbs else b.blq }
    let s := if b.rem ≠ 0 ∧ r = 0 then
        let s := s.putB (BAL_CELLc_STAT_DONE c) true
        if bl then s else ((s.ferryMark p).put (BAL_PHp_ACT_I_ACT p) 0).put (BAL_PHp_STAT_DIR p) 0
      else s
    (s.showPhase p).showCell c

/-- The state of phase `p` in its status registers; the accounting is brought up to date first. -/
def State.setPhase (s : State) (p st : Nat) : State :=
  let s := s.account p
  let s := (s.put (BAL_PHp_STAT_STATE p) st).putB (BAL_PHp_STAT_FALLBACK p) (st == 4)
  (s.putBit BAL_STAT_RUN p (st == 2)).putBit BAL_STAT_FB p (st == 4)

/-- All selectors of phase `p` turn off; a selector change in progress is given up. -/
def State.deselect (s : State) (p : Nat) : State :=
  let s := (s.ferryMark p).account p
  let s := match (s.phase p).sel with
    | some j => (s.put (BAL_CELLc_STAT_SEL (4 * p + j)) 0).put (BAL_CELLc_STAT_BLEED (4 * p + j)) 0
    | none => s
  ((s.onPhase p fun h => { h with sel := none, change := none }).put (BAL_PHp_STAT_SELV p) 0).put (BAL_PHp_STAT_DIR p) 0

/-- Samples of a window are still to come (R115). -/
def SweepRun.sampling (r : SweepRun) : Bool := r.inWindow && decide (r.n < r.nw)

/-- Phase `p` still has excitation to lose in an active window whose samples are still to come. -/
def SweepRun.carries (r : SweepRun) (p : Nat) : Bool := r.sampling && !r.passive && r.phases.contains p && !bitOf r.removed p

/-- Phase `p` carries no excitation for the rest of the active window; its selected cell's results receive EXC (R122,
R123). A window whose last sample has been taken is complete. -/
def State.dropExcitation (s : State) (p : Nat) : State :=
  match s.imp.run with
  | some r =>
    if r.carries p then
      { s with imp := { s.imp with run := some { r with removed := setBitN r.removed p, exc := setBitN r.exc (4 * p + r.pos) } } }
    else s
  | none => s

/-- Phase `p` stops for a mode without Ferry (Table 6.5): switching, bleeding and selectors end. -/
def State.stopPhase (s : State) (p : Nat) : State :=
  let fenced := s.flag (BAL_PHp_STAT_FENCED p)
  let s := ((s.deselect p).dropExcitation p).onPhase p fun h => { h with testBleed := none }
  let s := ((s.setPhase p (if fenced then 5 else 6)).put (BAL_PHp_ACT_I_ACT p) 0).put (BAL_PHp_STAT_DIR p) 0
  (s.put (BAL_PHp_STAT_EXC p) 0).put (BAL_PHp_ACT_SRC p) 0

/-- All phases stop for a mode without Ferry. -/
def State.stopFerry (s : State) : State := ((List.range 8).foldl State.stopPhase s).put BAL_STAT_EXC 0

end Sys2Proof.Machine
end

