-- ==== Sys2Proof/Machine/PsfCore.lean ====
section
/-! DEFINITION. The PSF core that every chapter calls: disconnect outputs (R301, R305, R306), the event ring and PROT_EVENT
frames (R295), demand sources raised and withdrawn (R287 to R290), arming and lockout entry (R303, R307), wake requests
(R352). -/

namespace Sys2Proof.Machine

/-! ## Wake requests -/

/-- A wake request of source `b` of Table 13.6, if its enable is set: in WATCH and SHIP the transition out starts; while an
entry to WATCH or SHIP is pending the request is held (R349, R352). -/
def State.wakeRequest (s : State) (b : Nat) : State :=
  if ¬ bitOf (s.rdN MGT_WAKE_CFG) b then s
  else if s.flag MGT_MODE_STAT_PEND then
    (if s.get MGT_MODE_STAT_TGT = 0 ∨ s.get MGT_MODE_STAT_TGT = 1 then
      (if s.wakeHeld.isNone then { s with wakeHeld := some b } else s) else s)
  else if s.mode = 1 then
    { (s.put MGT_MODE_STAT_PEND 1).put MGT_MODE_STAT_TGT 2 with wakeHeld := some b, mgt := { s.mgt with reqAt := s.now } }
  else if s.mode = 0 then
    { (s.put MGT_MODE_STAT_PEND 1).put MGT_MODE_STAT_TGT 6 with wakeHeld := some b, mgt := { s.mgt with reqAt := s.now } }
  else s

/-! ## Outputs -/

/-- The ceilings are programmed (R285). -/
def State.ceilings (s : State) : Bool := bitOf (s.rdN (PSF_OTPk 7)) 0

/-- The state of output `o`'s pulses. -/
def State.pulseOf (s : State) (o : Nat) : PulseSt :=
  vget s.psf.pulse o { start := none, last := 0, onSince := 0, discard := false, reported := false }

/-- The pulse state of output `o` changed by `f`. -/
def State.onPulse (s : State) (o : Nat) (f : PulseSt → PulseSt) : State :=
  { s with psf := { s.psf with pulse := vset s.psf.pulse o (f (s.pulseOf o)) } }

/-- What output `o` is to be (R301). -/
def State.outWanted (s : State) (o : Nat) : Bool :=
  s.bit PSF_OUT_CMD_ON o && s.flag PSF_STAT_ARMED && s.rdN PSF_DEM_STAT == 0 && (s.pulseOf o).start.isNone

/-- A mismatch of output `o` and its feedback can last from now on (R304). -/
def State.fbFrom (s : State) (o : Nat) : State := { s with psf := { s.psf with fbAt := vset s.psf.fbAt o s.now } }

/-- Output `o` follows its commands and demands (R301): its status, switchings and time on. -/
def State.showOut (s : State) (o : Nat) : State :=
  let was := s.flag (PSF_OUTo_STAT_ON o)
  let on := s.outWanted o
  let s := (s.putB (PSF_OUTo_STAT_CMD o) (s.bit PSF_OUT_CMD_ON o)).putB (PSF_OUTo_STAT_ON o) on
  let s := if on = was then s else s.fbFrom o
  if on ∧ ¬ was then
    (s.bump (PSF_OUTo_SWCNT_ON o) 1).onPulse o fun p => { p with onSince := s.now }
  else if was ∧ ¬ on then
    let acc := vget s.psf.onAcc o 0 + (s.now - (s.pulseOf o).onSince)
    { s with psf := { s.psf with onAcc := vset s.psf.onAcc o acc } }
  else s

/-- The three outputs and the off-demand flag follow the state (R287, R301). -/
def State.showOuts (s : State) : State :=
  (((s.showOut 0).showOut 1).showOut 2).putB PSF_STAT_OFFDEM (s.rdN PSF_DEM_STAT != 0)

/-- All ON bits are cleared and the outputs go off; a pulse in progress is discarded (R287, R306). -/
def State.allOff (s : State) : State :=
  let s := s.put PSF_OUT_CMD_ON 0
  let s := (List.range 3).foldl
    (fun s o => if (s.pulseOf o).start.isSome then s.onPulse o fun p => { p with discard := true } else s) s
  { s with psf := { s.psf with onLater := 0 } }.showOuts

/-! ## Events -/

/-- The protection state word (Table 3.9). -/
def State.protWord (s : State) : Nat :=
  let d := s.rdN PSF_DEM_STAT
  s.get PSF_OUT_CMD_ON + 8 * s.get PSF_STAT_ARMED + 16 * s.get PSF_STAT_LOCKOUT + 32 * s.get PSF_STAT_HOLD +
    64 * s.throttle + 256 * b2n (d != 0) + 512 * b2n (bitOf d 2) + 1024 * b2n (bitOf d 3) +
    2048 * b2n (bitOf d 4 || bitOf d 5 || bitOf d 6) +
    4096 * b2n (s.rdN AUX_TLIM_STAT != 0 || s.rdN AUX_LT_STAT != 0) +
    8192 * b2n (bitOf d 16) + 16384 * b2n (bitOf d 13 || bitOf d 14 || bitOf d 15)

/-- A protection event: an entry of the event ring, a PROT_EVENT frame to 0x00, and a Host Notify event (R295, Table 11.3,
Table 16.3) (DEDUCED, log entry 14). -/
def State.psfEvent (s : State) (kind cause code addr detail new : Nat) : State :=
  let i := s.psf.events % 16
  let s := { s with psf := { s.psf with events := s.psf.events + 1 } }
  let s := (s.put PSF_EV_WPTR_IDX i).put64 (PSF_EVn_TLO i) s.ftNs
  let s := (s.wrN (PSF_EVn_INFO i) (kind + cause % 32 * 256 + code % 256 * 65536 + addr % 256 * 16777216)).wrN
    (PSF_EVn_DEM i) (s.rdN PSF_DEM_STAT)
  let pay := leBytes 8 s.ftNs ++ leBytes 6 s.tickNo ++ leBytes 2 s.protWord ++ leBytes 4 (s.rdN PSF_DEM_STAT) ++
    leBytes 4 new ++ leBytes 1 kind ++ leBytes 1 cause ++ leBytes 1 code ++ leBytes 1 addr ++ leBytes 4 detail
  let s := if s.logicOn then (s.originate 0 0x04 pay).logHw 0x26 (0x100 + kind) (s.rdN PSF_DEM_STAT) new (cause + 256 * addr)
    else s
  if (s.logicOn || s.bit MGT_PWR_STAT_RET 9) && s.bit MGT_NOTIFY_CFG_MASK 1 then s.notifyQueue 3 kind else s

/-- The island's own address, for the ADDR field of events. -/
def State.addr (s : State) : Nat := s.get FAB_NET_STAT_ADDR

/-! ## Demand sources -/

/-- A source stands (PSF_DEM_STAT). -/
def State.demand (s : State) (b : Nat) : Bool := bitOf (s.rdN PSF_DEM_STAT) b

/-- A value of TXMASK with the bits that R289 forces: 6, 9, 12 and 18 are 1, bit 16 is 0. -/
def forcedMask (v : Nat) : Nat := (v ||| 0x41240) &&& 0x3EFFFF

/-- TXMASK; every write of it forces the bits of R289 (`rangeClip`). -/
def State.txMask (s : State) : Nat := forcedMask (s.get PSF_HAZ_CFG_TXMASK)

/-- A source is raised: it stands and is latched, the off-demand acts, the event is recorded (R287, R295). In WATCH the
demand wakes the part and the wake tone goes out (R248, R352) (DEDUCED, log entry 239). -/
def State.raiseOne (s : State) (b detail : Nat) : State :=
  let s := ((s.wrN PSF_DEM_STAT (setBitN (s.rdN PSF_DEM_STAT) b)).wrN PSF_DEM_LATCH (setBitN (s.rdN PSF_DEM_LATCH) b)
    ).bump PSF_DEM_CNT_N 1
  let s := { s with psf := { s.psf with newSrc := setBitN s.psf.newSrc b, detail := vset s.psf.detail b detail } }
  let s := ((s.put64 PSF_DEM_T_LO s.ftNs).allOff).psfEvent 0 b 0 s.addr detail (2 ^ b)
  if s.mode = 1 then
    let s := (List.range 4).foldl
      (fun s n =>
        let t := s.getIn FAB_WAKE_CFG_TONE_US 200 5000
        if s.flag (FAB_PORTn_CFG_WAKEOUT n) then (s.emit (.tone n t)).onPort n fun p => { p with toneTill := s.now + t * us } else s) s
    s.wakeRequest 4
  else s

/-- A HAZARD that FAB accepted reaches PSF: source 16 (R290). -/
def State.raiseHaz (s : State) : State :=
  let s := { s with psf := { s.psf with cause := clrBitN s.psf.cause 16 } }
  if s.demand 16 then s.bump PSF_HAZ_STAT_RCVD 1 else s.raiseOne 16 0

/-- The trip line is asserted: FAB accepts the HAZARD, floods it and passes it to PSF (R239, R289). While the logic die is
off, no HAZARD leaves the island. -/
def State.trip (s : State) : State :=
  let s := { (s.bump PSF_DEM_CNT_HAZ 1).wrap PSF_HAZ_STAT_MADE 1 with psf := { s.psf with htx := true } }
  if s.domOn 6 ∧ ¬ s.flag PSF_HB_STAT_LOST then (s.floodHazard 4).raiseHaz else s

/-- A demand source qualifies (R287, R289): its cause stands; a source that already stands is not raised again
(DEDUCED, log entry 124). -/
def State.raiseSrc (s : State) (b detail : Nat) : State :=
  let s := { s with psf := { s.psf with cause := setBitN s.psf.cause b } }
  if s.demand b then s
  else
    let s := s.raiseOne b detail
    if bitOf s.txMask b then s.trip else s

/-- A source is withdrawn (R288, R295); its event carries the DETAIL with which the source was raised (DEDUCED, log entry 239). No
output returns by itself (R287). -/
def State.withdraw (s : State) (b : Nat) : State :=
  if s.demand b then
    ((s.wrN PSF_DEM_STAT (clrBitN (s.rdN PSF_DEM_STAT) b)).showOuts).psfEvent 1 b 0 s.addr (vget s.psf.detail b 0) 0
  else s

/-- The "latched" sources of Table 11.2. -/
def latchedSources : List Nat := [4, 5, 6, 9, 13, 15, 16, 17, 18]

/-- The cause of a source releases (R288): a "follows" source is withdrawn, a "latched" one waits for PSF_DEM_CLR
(DEDUCED, log entry 124). -/
def State.releaseSrc (s : State) (b : Nat) : State :=
  let s := { s with psf := { s.psf with cause := clrBitN s.psf.cause b } }
  if latchedSources.contains b || b == 12 || b == 20 then s else s.withdraw b

/-! ## Arming and lockout -/

/-- ARMED is cleared with all ON bits (R303). -/
def State.disarm (s : State) : State :=
  if s.flag PSF_STAT_ARMED then ((s.put PSF_STAT_ARMED 0).allOff).psfEvent 3 0xFF 0 s.addr 0 0
  else s

/-- Lockout is entered (R307): cause 1 static feedback, 2 failed pulse, 3 HOLD, 4 forced output fault. A further cause in
lockout only adds the fatal-summary condition of HOLD. -/
def State.lockoutEnter (s : State) (cause out : Nat) : State :=
  if s.flag PSF_STAT_LOCKOUT then
    (if cause = 3 then { s with psf := { s.psf with holdLock := true } } else s)
  else
    let s := ((((((s.put PSF_STAT_LOCKOUT 1).put PSF_LOCKOUT_STAT_LOCK 1).put PSF_LOCKOUT_STAT_CAUSE cause).put
      PSF_LOCKOUT_STAT_OUT out).put PSF_LOCKOUT_STAT_KEYOK 0).put PSF_LOCKOUT_STAT_ILKCYC 0).put PSF_STAT_ILK_SEEN 0
    let s := { s with psf := { s.psf with key1 := none, ilkOpen := false, cycOpen := false, holdLock := cause == 3 } }
    ((s.disarm).allOff).psfEvent 4 0xFF cause s.addr 0 0

/-! ## Modes -/

/-- The domains a mode keeps on (Table 13.2): between bursts in WATCH. -/
def modeOn (m : Nat) : Nat :=
  if m = 0 then 0x001 else if m = 1 then 0x003 else if m = 5 then 0x3DF else 0x3FF

/-- The time in RUN of the slots on probation is brought up to date (R398) (DEDUCED, log entry 270). -/
def State.countProbation (s : State) : State :=
  let dt := if s.mode = 2 then s.now - s.mgt.probAt else 0
  let p := Vector.ofFn fun (i : Fin 4) => if s.bit MGT_PROB_STAT_SLOTS i then vget s.mgt.prob i 0 + dt else 0
  { s with mgt := { s.mgt with prob := p, probStaged := s.mgt.probStaged.map (· + dt), probAt := s.now } }

/-- How far the Lagoon has been scrubbed, in 2^-24 of a pass: a pass takes PASS_MIN minutes while SCRUB_EN is 1 and the Lagoon is on, and
proceeds evenly (Table 15.17; DESIGN CHOICE, log entry 267). -/
def State.scrubDone (s : State) : Nat :=
  s.mgt.scrubbed + (if s.flag MEM_CTRL_SCRUB_EN && s.domOn 8 then
    (s.now - s.mgt.scrubAt) * 2 ^ 24 / (s.getIn MEM_SCRUB_CFG_PASS_MIN 10 4000 * 60 * sec) else 0)

/-- The scrubbing is brought up to date. -/
def State.syncScrub (s : State) : State := { s with mgt := { s.mgt with scrubbed := s.scrubDone % 2 ^ 40, scrubAt := s.now } }

/-- Single-wire bus `n` changed by `f`. -/
def State.onSwb (s : State) (n : Nat) (f : SwbSt → SwbSt) : State :=
  { s with mgt := { s.mgt with swb := vset s.mgt.swb n (f (vget s.mgt.swb n .reset)) } }

/-- SWPn is switched on in RUN, TRIM, SERVICE and HOLD while EN is 1, in WATCH while WATCH is 1 too, but not for 1 s after a power
error (R430, R436). -/
def State.followSwb (s : State) (n : Nat) : State :=
  let m := s.mode
  let want := s.flag (MGT_SWBn_CFG_EN n) && (decide (2 ≤ m ∧ m ≤ 5) || (m == 1 && s.flag (MGT_SWBn_CFG_WATCH n))) &&
    (vget s.mgt.swb n .reset).offAt.isNone
  let on := s.flag (MGT_SWBn_STAT_PWR n)
  if want == on then s
  else if want then
    ((s.put (MGT_SWBn_STAT_PWR n) 1).put (MGT_SWBn_STAT_STATE n) 1).onSwb n fun b => { b with pwrAt := s.now, trig := none, idDue := true }
  else ((s.put (MGT_SWBn_STAT_PWR n) 0).put (MGT_SWBn_STAT_STATE n) 0).onSwb n fun b => { b with trig := none }

/-- The open-wire step in progress ends with its sources off and nothing judged (R76, R90, Table 3.6): its channels hold for the
recovery tick, or no longer at all where the tick stops (DEDUCED, log entry 74). -/
def State.owStop (s : State) (tickStops : Bool) : State :=
  let w := s.meas.ow
  if tickStops then { s with meas := { s.meas with ow := { w with on := false, ended := true, taps := [], cut := [], vPre := [] } } }
  else if w.on ∧ ¬ w.ended then
    { s with meas := { s.meas with ow := { w with ended := true, dwell := min w.dwell (s.tickNo - w.a) } } }
  else s

/-- The state of a Strait with FAB_STAT.UP and LISTEN (Table 9.12, Table 9.14). -/
def State.setPort (s : State) (n st : Nat) : State :=
  ((s.put (FAB_PORTn_STAT_STATE n) st).putBit FAB_STAT_UP n (st == 4)).putBit FAB_STAT_LISTEN n (st == 1)

/-- The tick of a part that enters FREE without having been LOCKED (R37): its first sample instant is the first that lies at
least L after the entry (DEDUCED, log entry 217). -/
def State.startTicks (s : State) : State :=
  let t : Int := s.ft + s.getIn TMG_LEAD_LEAD_US 2 100 * us
  let k := (-(-(t - s.epoch) / (s.periodT : Int))).toNat
  { s.put64 TMG_TICK_LO (k - 1) with tick := { s.tick with open_ := false }, meas := { s.meas with accP := 0 } }.regather

/-- Strait `n` listens anew where it is enabled (R246). -/
def State.listenAgain (s : State) (n : Nat) : State :=
  let s := if s.flag FAB_CTRL_EN && s.flag (FAB_PORTn_CFG_EN n) && s.get (FAB_PORTn_STAT_STATE n) == 0 then s.setPort n 1 else s
  s.onPort n fun p => { p with attemptAt := s.now, fails := 0 }

/-- The Straits and the network as they come up (R246, R276): each Strait listens until it trains; a part configured as harbour
that is none yet begins its listen phase, one configured as standby stands by; an active harbour ticks again
(DEDUCED, log entry 151). -/
def State.fabricUp (s : State) : State :=
  let s := (List.range 4).foldl State.listenAgain s
  if s.isHarbour then
    let s := s.startTicks
    { s with tick := { s.tick with running := true } }
  else if s.flag FAB_NET_STAT_STANDBY then s
  else if s.get FAB_NET_CFG_ROLE = 1 then
    { s with net := { s.net with listenTill := some (s.now + s.get FAB_HBR_CFG_LISTEN_MS * ms) } }
  else if s.get FAB_NET_CFG_ROLE = 2 then { s.put FAB_NET_STAT_STANDBY 1 with net := { s.net with heardAt := s.now } }
  else s

/-- The clocks of PD7 and PD9 run again after retention (R340): fabric time goes on where it stopped, the cycle counters too
(DEDUCED, log entry 150). -/
def State.clocksOn (s : State) : State :=
  match s.mgt.retAt with
  | none => s
  | some t =>
    { s with ftOfs := s.ftOfs - ((s.now - t : Nat) : Int), mgt := { s.mgt with retAt := none },
             eng := s.eng.map fun g => { g with cycAt := s.now } }

/-- The supply in use (R345). -/
def State.showVaux (s : State) : State := s.putB MGT_PWR_STAT_VAUXACT (s.mgt.vaux && s.flag MGT_PWR_CFG_VAUX_EN && s.domOn 1)

/-- MGT_SUPPLY as it reads: measured every 1 ms in RUN (R367). What the supplies read is not known to the model (DESIGN CHOICE, log
entry 138). -/
def State.supplyNow (s : State) : Word :=
  if s.mode = 2 ∧ s.mgt.supplyMs ≠ s.now / ms then Config.supplyAt (s.now / ms) else s.rd MGT_SUPPLY

/-- VSTK as measured now, 10 mV (Table 13.11) (DESIGN CHOICE, log entry 138). -/
def State.vstk (s : State) : Nat := fieldOf s.supplyNow.toNat 0 16

/-- A mode transition completes (R348): PREV, MODE, its time, the domains of Table 13.2, the Ferry's stop (R167), the
log entry, whose cause word the manual does not state (DESIGN CHOICE, log entry 17), and Host Notify event 0x04
(DEDUCED, log entries 150, 158). -/
def State.enterMode (s : State) (m : Nat) : State :=
  let s := s.countProbation.syncScrub.wr MGT_SUPPLY s.supplyNow
  let s := if m = 0 ∨ m = 1 then s.owStop true else if m = 3 then s.owStop false else s
  let s := ((((s.put MGT_MODE_STAT_PREV s.mode).put MGT_MODE_STAT_MODE m).put MGT_MODE_STAT_PEND 0).put
    MGT_MODE_STAT_TGT 0).put64 MGT_MODE_T_LO s.ftNs
  let ret := if m = 1 then 0x280 + 0x100 * s.get MEM_RETAIN_RETAIN else 0
  let s := (s.put MGT_PWR_STAT_ON (modeOn m)).put MGT_PWR_STAT_RET ret
  let ferry := decide (m = 2 ∨ m = 4)
  let s := (((if ferry then s else s.stopFerry).putB BAL_STAT_OFF (!ferry)).followSwb 0).followSwb 1
  let (c, s) := s.fresh 32
  let s := s.logHw 0x20 (0x100 + m) (s.get MGT_MODE_STAT_PREV) c.toNat 0
  if s.bit MGT_NOTIFY_CFG_MASK 2 then s.notifyQueue 4 m else s

/-- RUN or HOLD is entered from start-up or WATCH: scans begin, the schedules of the single-wire buses too (DEDUCED, log entry 178), and the
fabric comes up. -/
def State.enterActive (s : State) (m : Nat) : State :=
  let s := s.enterMode m
  let s := (List.range 2).foldl (fun (s : State) (n : Nat) => s.onSwb n fun b => { b with priAt := s.now, secAt := s.now, diagAt := s.now }) s
  { s with aux := { s.aux with scan := none, due := s.now } }.fabricUp

/-- WATCH is left (R351): a burst in progress ends, clocks run again. A Lagoon that WATCH did not retain is to be filled again. -/
def State.leaveWatch (s : State) : State :=
  let s := s.clocksOn
  { s with meas := { s.meas with burst := none, burstScan := false }, mgt := { s.mgt with refill := !s.flag MEM_RETAIN_RETAIN } }

end Sys2Proof.Machine
end

