-- ==== Sys2Proof/Machine/Faults.lean ====
section
/-! DEFINITION. The collector FCR that every detector reports to (chapter 12): the fault table, raising, capture, the queue,
notification, shadow windows, HOLD entry, the end of conditions, recovery; and the end of a TRIM run that HOLD causes. -/

namespace Sys2Proof.Machine

/-! ## The fault table -/

/-- Rows of Table 12.1: source, code, class (2 contained, 3 fatal), and whether the fault is a condition. -/
def faultTable : List (Nat × Nat × Nat × Bool) := [
  (0, 0x10, 2, false), (0, 0x11, 2, false), (0, 0x12, 2, false), (0, 0x13, 2, true), (0, 0x14, 2, false),
  (0, 0x15, 2, true), (0, 0x16, 2, true), (0, 0x17, 2, true), (0, 0x18, 2, false),
  (1, 0x10, 2, false), (1, 0x11, 2, false), (1, 0x12, 2, true),
  (2, 0x10, 2, true), (2, 0x11, 2, true), (2, 0x12, 2, true), (2, 0x13, 2, true),
  (3, 0x10, 2, true), (3, 0x11, 2, true), (3, 0x12, 2, false), (3, 0x13, 2, true),
  (4, 0x10, 2, true), (4, 0x11, 2, true), (4, 0x12, 2, true), (4, 0x13, 2, true),
  (5, 0x10, 2, false), (5, 0x11, 2, false), (5, 0x12, 2, false), (5, 0x13, 2, false), (5, 0x14, 2, false),
  (5, 0x15, 2, false), (5, 0x16, 2, false), (5, 0x17, 2, true)]
  ++ [
  (6, 0x10, 2, false), (6, 0x11, 2, false), (6, 0x12, 2, true), (6, 0x13, 2, false), (6, 0x14, 3, false),
  (7, 0x10, 2, true), (7, 0x11, 2, false), (7, 0x12, 2, false),
  (8, 0x10, 2, false), (8, 0x11, 2, true), (8, 0x12, 2, false),
  (9, 0x10, 2, false), (9, 0x11, 2, false), (9, 0x12, 2, false), (9, 0x13, 2, false), (10, 0x10, 2, false),
  (11, 0x10, 2, true), (11, 0x11, 2, true), (11, 0x12, 2, true), (11, 0x13, 3, true),
  (12, 0x10, 3, true), (12, 0x11, 3, true), (13, 0x10, 3, false), (13, 0x11, 3, false), (14, 0x10, 3, false),
  (15, 0x10, 2, false), (15, 0x11, 2, false), (15, 0x12, 2, true)]

/-- The class and kind of a fault (Table 12.1): codes 0x01 to 0x03 belong to every source; "restart limit" is fatal for
SE0 to SE7 and MC. -/
def faultRow (src code inst : Nat) : Option (Nat × Bool) :=
  if 1 ≤ code ∧ code ≤ 3 then some (2, false)
  else if src = 8 ∧ code = 0x11 then some (if inst ≤ 7 ∨ inst = 15 then 3 else 2, true)
  else (faultTable.find? fun r => r.1 == src && r.2.1 == code).map fun r => (r.2.2.1, r.2.2.2)

/-! ## Views -/

/-- Bit s: a fault of source s that is not consequential stands (R328). -/
def State.fcrActive (s : State) : Nat :=
  ofBits ((s.fcr.standing.filter fun f => !f.conseq).map (·.src))

/-- FAULT_OK as driven (R336). -/
def State.faultOk (s : State) : Bool :=
  s.started && (s.mode == 1 || s.active) && s.fcrActive == 0 && !s.flag FCR_STATUS_FATAL

/-- A fatal condition stands (Table 12.5). -/
def State.fatalStands (s : State) : Bool := s.fcr.standing.any fun f => f.cls == 3 && f.held

/-- FCR_ACTIVE as it reads. -/
def State.activeWord (s : State) : Nat :=
  s.fcrActive + 2 ^ 30 * b2n s.faultOk + 2 ^ 31 * b2n s.fatalStands

/-- The collector runs: not in SHIP, and PD9 is on or retained (R321). -/
def State.collectorOn (s : State) : Bool := s.mode != 0 && (s.domOn 9 || s.bit MGT_PWR_STAT_RET 9)

/-- The quiet period (Table 12.5). -/
def State.quiet (s : State) : Nat := s.getIn FCR_QUIET_MS 10 60000 * ms

/-- A queue slot that holds no entry. -/
def State.freeSlot (s : State) : Option Nat :=
  ((List.range 32).filter fun i => !s.flag (FCR_HQi_INFO_VALID i)).head?

/-- Whether two faults are the same (R325). -/
def Standing.isFault (f : Standing) (src code inst : Nat) : Bool := f.src == src && f.code == code && f.inst == inst

/-- The standing fault with a source, code and instance. -/
def State.standing? (s : State) (src code inst : Nat) : Option Standing :=
  s.fcr.standing.find? fun f => f.isFault src code inst

/-- The first open shadow window that covers a source (R333). -/
def State.shadowOver (s : State) (src : Nat) : Option Shadow :=
  s.fcr.shadows.find? fun w => decide (s.now < w.till) && bitOf w.srcs src

/-! ## Capture -/

/-- A capture in the fallback registers (R326): the first one is kept until VALID is cleared. -/
def State.fallback (s : State) (typ init src cls code addr : Nat) : State :=
  if s.flag FCR_FB_INFO_VALID then s.bump FCR_FB_INFO_MORE 1
  else
    (((((((s.put FCR_FB_INFO_VALID 1).put FCR_FB_INFO_TYPE typ).put FCR_FB_INFO_INIT init).put FCR_FB_INFO_SRC src).put
      FCR_FB_INFO_CLASS cls).put FCR_FB_INFO_CODE code).wrN FCR_FB_ADDR addr).put64 FCR_FB_T_LO s.ftNs

/-- A queue entry (R324, Table 12.7). -/
def State.queueEntry (s : State) (i src cls code : Nat) (conseq forced act : Bool) (cause d0 d1 : Nat) : State :=
  let info := src + cls * 16 + 64 * b2n conseq + 128 * b2n forced + code * 256 + cause * 2 ^ 24 + 2 ^ 29 * b2n act + 2 ^ 31
  ((((s.wrN (FCR_HQi_INFO i) info).put64 (FCR_HQi_TLO i) s.ftNs).wrN (FCR_HQi_D0 i) d0).wrN (FCR_HQi_D1 i) d1).put
    FCR_Q_STAT_NEWEST i

/-- The NOTIFY payload (Table 12.3). -/
def State.notifyBytes (s : State) (kind src cls code : Nat) (forced : Bool) (d0 d1 slot rec : Nat) : List Byte :=
  leBytes 8 s.ftNs ++ leBytes 1 kind ++ leBytes 1 src ++ leBytes 1 (cls + 4 * b2n forced + 8 * b2n (s.mode == 5)) ++
    leBytes 1 code ++ leBytes 4 d0 ++ leBytes 4 d1 ++ leBytes 4 (s.rdN FCR_STATUS) ++ leBytes 4 s.activeWord ++
    leBytes 2 rec ++ leBytes 1 slot ++ leBytes 1 0

/-- A NOTIFY frame to 0x00 while FCR_CTRL.NTF is 1 (R338), and the log entry of the event (Table 15.10)
(DESIGN CHOICE, log entries 17, 126). -/
def State.notify (s : State) (kind src cls code : Nat) (forced : Bool) (d0 d1 : Nat) (slot : Option Nat) : State :=
  let s := s.logHw 0x2A (src * 256 + code) d0 d1 kind
  if s.flag FCR_CTRL_NTF then
    s.originate 0 0x22 (s.notifyBytes kind src cls code forced d0 d1 (slot.getD 0xFF) (s.get (FCR_SRCs_CNT_REC src)))
  else s

/-! ## HOLD -/

/-- A TRIM run is in progress: procedures are still to do. A run that has ended keeps its STALE till the tick boundary. -/
def State.calRuns (s : State) : Bool := match s.cal.run with
  | some r => !r.todo.isEmpty
  | none => false

/-- The run ends; STALE clears and the mode returns to RUN at the next tick boundary (R377, R378). -/
def State.calEnd (s : State) (reason : Nat) : State :=
  let s := (s.put MGT_CAL_STAT_STATE 0).put MGT_CAL_STAT_REASON reason
  let s := { s with cal := { s.cal with run := s.cal.run.map fun r => { r with todo := [] }, staleEnds := true } }
  if s.mode = 3 ∧ reason ≠ 9 then
    { (s.put MGT_MODE_STAT_PEND 1).put MGT_MODE_STAT_TGT 2 with mgt := { s.mgt with reqAt := s.now } }
  else s

/-- A TRIM run ends without committing anything (R378); the mode returns to RUN at the next tick boundary unless the cause
leaves TRIM itself. -/
def State.calAbort (s : State) (reason : Nat) : State :=
  if s.calRuns then (s.bump MGT_CAL_CNT_ABT 1).calEnd reason else s

/-- A shadow window is opened by the reaction of the fault `prim` (R333). -/
def State.openShadow (s : State) (srcs : Nat) (slot : Option Nat) (prim : Nat × Nat × Nat) : State :=
  let w : Shadow := { srcs := srcs, till := s.now + s.getIn FCR_SHADOW_US 20 2000 * us, slot := slot.getD 0, prim := prim }
  { s with fcr := { s.fcr with shadows := w :: s.fcr.shadows.filter fun x => decide (s.now < x.till) } }

/-- The base of a flash slot: CFG_A, CFG_B, FW_A, FW_B (Table 15.1). -/
def slotBase (i : Nat) : Nat := if i = 0 then 0x010000 else if i = 1 then 0x090000 else if i = 2 then 0x110000 else 0x310000

/-- REJECT of a slot is programmed to 0 in the flash (R388, R399). -/
def State.rejectSlot (s : State) (i : Nat) : State :=
  let s := s.flashPut (slotBase i + 196) (List.replicate 4 0)
  s.put (MGT_SLOTs_HDR_REJECTED i) 1

/-- A log entry of a slot event (Table 15.10). -/
def State.logSlot (s : State) (ev i : Nat) : State := s.logHw 0x20 (0x200 + ev) i (s.rdN (MGT_SLOTs_VER i)) 0

/-- Every slot on probation is marked rejected (R399), with its log entry (Table 15.10). -/
def State.rejectProbation (s : State) : State :=
  let one (s : State) (i : Nat) : State := (s.rejectSlot i).logSlot 1 i
  (bitsOf 4 (s.get MGT_PROB_STAT_SLOTS)).foldl one (((s.put MGT_PROB_STAT_SLOTS 0).put MGT_CFG_STAT_PROB 0).put MGT_FW_STAT_PROB 0)

/-- HOLD is entered (R331): the fatal fault is recorded in PD0, a pending transition, a sweep and a TRIM run end, the part disarms,
lockout and source 21 are raised, a shadow window opens (Table 12.2), a pending switch is cancelled (R397). During start-up the
mode follows at step 8 (R361); a part already in HOLD stays in it, and one that was leaving it returns (R355). From WATCH the domains
come back on, and scans, Straits and ticks with them (R349) (DEDUCED, log entry 137). -/
def State.holdEnter (s : State) (src code inst : Nat) (slot : Option Nat) : State :=
  let s := ((s.put MGT_PD0_FATAL_VALID 1).put MGT_PD0_FATAL_SRC src).put MGT_PD0_FATAL_CODE code
  let s := if src = 11 ∨ src = 12 ∨ src = 14 then s else s.rejectProbation
  let s := { s with cfgSwitch := none, wakeHeld := none }.put MGT_CFG_SW_STAT_PEND 0
  if s.mode = 5 then
    let s := if s.flag MGT_MODE_STAT_PEND then (s.lockoutEnter 3 3).disarm else s
    let s := (s.put MGT_MODE_STAT_PEND 0).put MGT_MODE_STAT_TGT 0
    { s with psf := { s.psf with holdLock := true }, mgt := { s.mgt with holdExit := false } }
  else
    let s := (s.sweepEnd 3).calAbort 9
    let s := (if s.mode = 6 then s else if s.mode = 1 then s.leaveWatch.enterActive 5 else s.enterMode 5).put PSF_STAT_HOLD 1
    let s := ((s.lockoutEnter 3 3).disarm).raiseSrc 21 0
    s.openShadow 0xA7BF slot (src, code, inst)

/-! ## Raising -/

/-- How an access fault is captured: read 0, write 1, fetch 2; the initiator; the address. -/
structure Access where
  typ : Nat
  init : Nat
  addr : Nat
  deriving DecidableEq, Repr

/-- The fatal fault archive of the lifetime store: a ring of 256 NOTIFY records (Table 15.11). No record commit starts during a thermal
shutdown (Table 7.5). -/
def State.archive (s : State) (l : List Byte) : State :=
  if s.aux.shutAt.isSome then s else
  { s.memPut (lifeBase + 0x5000 + s.life.archive % 256 * 32) l with life := { s.life with archive := s.life.archive + 1 } }

/-- A fault that repeats a standing one (R325, R330): REPEAT counts, the quiet period restarts, it is the last code raised
(DEDUCED, log entry 58). -/
def State.raiseAgain (s : State) (f : Standing) (held : Bool) : State :=
  let s := match f.slot with
    | some i => s.bump (FCR_HQi_INFO_REPEAT i) 1
    | none => s
  let g : Standing := { f with held := f.held || held, quietEnd := if f.held || held || f.cls == 3 then none else some (s.now + s.quiet) }
  let s := { s with fcr := { s.fcr with standing := s.fcr.standing.map fun (x : Standing) => if x.isFault f.src f.code f.inst then g else x } }
  let s := s.put (FCR_SRCs_STAT_CODE f.src) f.code
  if f.conseq then s
  else { s with life := { s.life with faults := vset s.life.faults f.src (vget s.life.faults f.src 0 + 1) } }

/-- Where a new fault is captured (R324, R326, R334): an access fault by the fallback registers, any other in its queue slot, or
by the fallback registers where there is none. -/
def State.captureFault (s : State) (src code cls : Nat) (conseq forced : Bool) (cause d0 d1 : Nat) (acc : Option Access)
    (slot : Option Nat) : State :=
  match acc, slot with
  | some a, _ => s.fallback a.typ a.init src cls code a.addr
  | none, some i => s.queueEntry i src cls code conseq forced true cause d0 d1
  | none, none => (s.fallback 3 31 src cls code d0).bump FCR_Q_STAT_OVF 1

/-- A new fault is latched, captured and made to stand (R321, R324, R326, R334); it is consequential where a window `w` covers it.
Answers the slot it took. -/
def State.latchFault (s : State) (src code inst cls : Nat) (held forced : Bool) (w : Option Shadow) (d0 d1 : Nat)
    (acc : Option Access) : Option Nat × State :=
  let slot := if acc.isSome then none else s.freeSlot
  let s := s.captureFault src code cls w.isSome forced ((w.map (·.slot)).getD 0) d0 d1 acc slot
  let f : Standing := { src := src, code := code, inst := inst, cls := cls, held := held, conseq := w.isSome, forced := forced,
                        slot := slot, d0 := d0, d1 := d1, cause := w.map (·.prim), quietEnd := if held || cls == 3 then none else some (s.now + s.quiet) }
  (slot, { s.put (FCR_SRCs_STAT_CODE src) code with fcr := { s.fcr with standing := f :: s.fcr.standing } })

/-- One more fault of a source in the lifetime record (R324). -/
def State.countFault (s : State) (src : Nat) : State :=
  { s with life := { s.life with faults := vset s.life.faults src (vget s.life.faults src 0 + 1) } }

/-- The slots whose probation a primary fatal fault `prim` ends are reported as its consequence (R334, R399)
(DEDUCED, log entry 53). -/
def State.loseProbation (s : State) (slot : Option Nat) (prim : Nat × Nat × Nat) (lost : List Nat) : State :=
  let w : Shadow := { srcs := 1, till := s.now, slot := slot.getD 0, prim := prim }
  lost.foldl (fun s i => ((s.latchFault 0 0x12 i 2 false false (some w) i 0 none).2).bump FCR_SHADOW_CONSEQ 1) s

/-- What a fatal fault does at once (R331): HOLD, its record in the archive, probation lost. -/
def State.fatalFault (s : State) (src code inst : Nat) (forced : Bool) (d0 d1 : Nat) (slot : Option Nat) (lost : List Nat) : State :=
  let s := ((s.put FCR_STATUS_FATAL 1).holdEnter src code inst slot).loseProbation slot (src, code, inst) lost
  s.archive (s.notifyBytes 0 src 3 code forced d0 d1 (slot.getD 0xFF) 0)

/-- A fault that is no consequence of another (R321, R326, R331): latched, counted, notified. -/
def State.primaryFault (s : State) (src code inst cls : Nat) (held forced : Bool) (d0 d1 : Nat) (acc : Option Access) :
    Option Nat × State :=
  let r := s.latchFault src code inst cls held forced none d0 d1 acc
  let s := (r.2.putBit FCR_STATUS_SRC src true).countFault src
  let lost := if cls = 3 ∧ ¬ (src = 11 ∨ src = 12 ∨ src = 14) then bitsOf 2 (s.get MGT_PROB_STAT_SLOTS) else []
  let s := if cls = 3 then s.fatalFault src code inst forced d0 d1 r.1 lost else s
  let s := s.notify 0 src cls code forced d0 d1 r.1
  (r.1, if s.bit MGT_NOTIFY_CFG_MASK 0 then s.notifyQueue 2 (src + cls * 16) else s)

/-- The slot of the primary fault whose shadow window covers a new fault (R333). -/
def State.coverOf (s : State) (src cls : Nat) (forced : Bool) : Option Shadow :=
  if cls = 3 ∨ forced ∨ src = 6 ∨ src = 11 ∨ src = 12 ∨ src = 14 then none else s.shadowOver src

/-- A detected fault reaches the collector (R321 to R334). `d0hi` and `d1` are the detail of R324; `held` says that the
cause of a condition stands; `acc` is given for codes 0x01 and 0x02, each of which is captured (R326), a repeat too (DEDUCED, log
entry 245). Answers whether a reaction is started, and the slot. -/
def State.collect (s : State) (src code inst d0hi d1 : Nat) (forced : Bool) (acc : Option Access) : (Bool × Option Nat) × State :=
  if ¬ s.collectorOn then ((true, none), s)
  else
    let row := faultRow src code inst
    let code := if forced ∧ row.isNone then 0xFF else code
    let cls := (row.getD (2, false)).1
    let held := (row.getD (2, false)).2 && !forced
    let d0 := inst % 256 + d0hi % 2 ^ 24 * 256
    match s.standing? src code inst, s.coverOf src cls forced with
    | some f, _ =>
      let s := match acc with
        | some a => s.fallback a.typ a.init src cls code a.addr
        | none => s
      ((!f.conseq, f.slot), s.raiseAgain f held)
    | none, some w =>
      let r := s.latchFault src code inst cls held forced (some w) d0 d1 acc
      ((false, r.1), r.2.bump FCR_SHADOW_CONSEQ 1)
    | none, none =>
      let r := s.primaryFault src code inst cls held forced d0 d1 acc
      ((true, r.1), r.2)

/-- A detected fault with no detail beyond its instance. -/
def State.fault (s : State) (src code inst : Nat) : State := (s.collect src code inst 0 0 false none).2

/-- A measurement fault, whose D1 is the reading (R324). -/
def State.faultD (s : State) (src code inst d1 : Nat) : State := (s.collect src code inst 0 d1 false none).2

/-- A BAL or PSF fault, whose D0[31:8] is the unit's fault register and D1 its status register (R324). -/
def State.faultU (s : State) (src code inst flt stat : Nat) : State := (s.collect src code inst flt stat false none).2

/-- A contained access fault: code 0x01, the instance is the initiator (Table 12.1). -/
def State.refuseAccess (s : State) (src : Nat) (i : Initiator) (typ addr : Nat) : State :=
  { (s.collect src 1 i.code 0 0 false (some { typ := typ, init := i.code, addr := addr })).2 with turned := 1 }

/-- A write refused because its initiator is not one that may make it (R446). -/
def State.refuseRight (s : State) (src : Nat) (i : Initiator) (addr : Nat) : State :=
  { s.refuseAccess src i 1 addr with turned := 2 }

/-- A bus error: code 0x02 (Table 12.1). -/
def State.busError (s : State) (src : Nat) (i : Initiator) (typ addr : Nat) : State :=
  (s.collect src 2 i.code 0 0 false (some { typ := typ, init := i.code, addr := addr })).2

/-- A corrected fault's queue entry, consequential where a window `w` covers it (R323, R334; DESIGN CHOICE, log entry 17). -/
def State.queueCorrected (s : State) (src inst : Nat) (w : Option Shadow) : State :=
  match s.freeSlot with
  | some i => (s.fresh 8).2.queueEntry i src 1 (s.fresh 8).1.toNat w.isSome false false ((w.map (·.slot)).getD 0) inst 0
  | none => (s.fallback 3 31 src 1 0 inst).bump FCR_Q_STAT_OVF 1

/-- A corrected fault (R323): counted, queued while CORQ is 1 with a code the manual does not state (DESIGN CHOICE, log entry 17), and
code 0x03 above the limit within one second. A consequential one counts in CONSEQ and not toward that limit (R334). -/
def State.corrected (s : State) (src inst : Nat) : State :=
  if ¬ s.collectorOn then s
  else
    let s := s.bump (FCR_SRCs_CNT_CORR src) 1
    let w := s.coverOf src 1 false
    let s := if s.flag FCR_CTRL_CORQ then s.queueCorrected src inst w else s
    if w.isSome then s.bump FCR_SHADOW_CONSEQ 1
    else
      let l := (src, s.now) :: s.fcr.corrected.filter (fun e => decide (s.now < e.2 + sec))
      let s := { s with fcr := { s.fcr with corrected := l } }
      if s.getIn FCR_CORR_LIM_LIM 1 65535 < (l.filter fun e => e.1 == src).length then s.fault src 3 0 else s

/-! ## The end of faults -/

/-- The cause of a condition ends: its quiet period starts (R329) (DEDUCED, log entry 136). -/
def State.endCond (s : State) (src code inst : Nat) : State :=
  let l := s.fcr.standing.map fun f =>
    if f.isFault src code inst && f.held then
      { f with held := false, quietEnd := if f.cls == 3 then none else some (s.now + s.quiet) }
    else f
  { s with fcr := { s.fcr with standing := l } }

/-- A standing fault recovers (R329, R335). -/
def State.recover (s : State) (f : Standing) : State :=
  let s := { s with fcr := { s.fcr with standing := s.fcr.standing.filter fun x => !x.isFault f.src f.code f.inst } }
  let s := match f.slot with
    | some i => s.put (FCR_HQi_INFO_ACTIVE i) 0
    | none => s
  if f.conseq then s
  else
    let s := s.bump (FCR_SRCs_CNT_REC f.src) 1
    let s := { s with life := { s.life with recs := vset s.life.recs f.src (vget s.life.recs f.src 0 + 1) } }
    s.notify 1 f.src f.cls f.code f.forced f.d0 f.d1 f.slot

/-- The reaction of a condition that is raised anew (Table 12.1): PSF source 7 for "no valid current". The others show the state that
their cause has set already, and what they fence is fenced. -/
def State.reactAnew (s : State) (f : Standing) : State := if f.src = 3 ∧ f.code = 0x10 then s.raiseSrc 7 0 else s

/-- A consequential condition that still stands when the unit is released is raised as an ordinary fault, whatever window is open
(R335): an entry of its own, with the detail of the consequential one, and its reaction (DEDUCED, log entry 245). -/
def State.promote (s : State) (f : Standing) : State :=
  let s := { s with fcr := { s.fcr with standing := s.fcr.standing.filter fun x => !x.isFault f.src f.code f.inst } }
  let s := match f.slot with
    | some i => s.put (FCR_HQi_INFO_ACTIVE i) 0
    | none => s
  (s.primaryFault f.src f.code f.inst f.cls true false f.d0 f.d1 none).2.reactAnew f

/-- The primary fault of a consequential one has property `p`. -/
def Standing.causedBy (f : Standing) (p : Nat × Nat × Nat → Bool) : Bool := f.cause.any p

/-- The consequential conditions of some sources that still stand, and whose primary fault has property `p`, are raised anew at a
release (R335). -/
def State.promoteAll (s : State) (srcs : Nat) (p : Nat × Nat × Nat → Bool) : State :=
  (s.fcr.standing.filter fun f => f.conseq && f.held && bitOf srcs f.src && f.causedBy p).foldl State.promote s

/-- A fault is one of `srcs` with an instance. -/
def causeOf (srcs : List Nat) (inst : Nat) (f : Nat × Nat × Nat) : Bool := srcs.contains f.1 && f.2.2 == inst

end Sys2Proof.Machine
end

