-- ==== Sys2Proof/Machine/FerryCore.lean ====
section
/-! DEFINITION. Fencing a Ferry phase (R163) and passive fallback (R164). -/

namespace Sys2Proof.Machine

/-- Passive fallback may run on fenced phase `p` (R164); a phase with CFG.EN 0 keeps its selectors off (Table 6.8). -/
def State.fallbackOk (s : State) (p : Nat) : Bool :=
  s.flag (BAL_PHp_CFG_EN p) && s.flag (BAL_PHp_CFG_BLEED_EN p) && s.flag BAL_BLEED_EN && !(s.phase p).noFallback && (s.mode == 2 || s.mode == 4) &&
    s.aux.shutAt.isNone && decide (s.throttle < 3)

/-- Cell `c` may be bled (R164): negative REM, a last VALID result above both bounds, and discharge not inhibited (Table 6.3). -/
def State.bleedable (s : State) (c : Nat) : Bool :=
  let b := s.cellBal c
  let uv := (s.get PSF_UV_CFG_LIM + 10 * s.get BAL_LIMIT_UVM) * 1000
  decide (b.rem < 0) && !b.uvm && !s.flag (PSF_DCn_STAT_UVQ c) && decide (b.noValid < 8) && decide ((uv : Int) < b.lastV) &&
    decide (((s.get BAL_BLEED_VMIN * 20000 : Nat) : Int) < b.lastV)

/-- The next position after `j` in ascending order with wrap-around that satisfies `ok`; `j` itself comes last
(DEDUCED, log entry 85). -/
def nextPos (ok : Nat → Bool) (j : Nat) : Option Nat :=
  ([1, 2, 3, 4].map fun k => (j + k) % 4).find? ok

/-- Passive fallback of fenced phase `p` starts, or goes on with the next cell whose REM is negative (R164). -/
def State.fallbackNext (s : State) (p : Nat) : State :=
  if s.fallbackOk p then
    match nextPos (fun j => s.bit (BAL_PHp_CFG_RRMASK p) j && s.bleedable (4 * p + j)) ((s.phase p).sel.getD 3) with
    | some j =>
      if (s.phase p).sel = some j then s.onPhase p fun h => { h with slotAt := s.now }
      else (((s.deselect p).setPhase p 4).bump (BAL_PHp_SELCNT_CHG p) 1).onPhase p fun h =>
        { h with change := some (j, s.now), keepSlot := false, slotAt := s.now }
    | none => (s.deselect p).setPhase p 4
  else (s.deselect p).setPhase p 5

/-- A phase is fenced (R163): its command interface closes, switching stops, the selectors turn off, REM is kept, and
passive fallback starts where Table 6.4 permits it (R164). `bit` is the fault's bit of BAL_PHp_FAULT; `hold` says that all
selectors of the group are held off. -/
def State.fencePhase (s : State) (p bit : Nat) (hold : Bool) : State :=
  let s := (s.deselect p).dropExcitation p
  let s := (s.put (BAL_PHp_STAT_FENCED p) 1).putBit BAL_STAT_FEN p true
  let s := s.onPhase p fun h => { h with cause := setBitN h.cause bit, noFallback := h.noFallback || hold, newCmd := none,
                                         testBleed := none, releasing := false }
  let s := if hold then (List.range 4).foldl (fun s j => s.put (BAL_CELLc_STAT_NOSEL (4 * p + j)) 1) s else s
  (s.put (BAL_PHp_ACT_I_ACT p) 0).fallbackNext p

/-- A Ferry phase fault (R162, Table 6.4): the register bit, the fault 5/0x10 + bit with its detail (R324), the fence and
its shadow window (Table 12.2). -/
def State.phaseFault (s : State) (p bit : Nat) (hold : Bool) : State :=
  let s := s.putBit ⟨BAL_PHp_FAULT p, 0, 8⟩ bit true
  let s := s.fencePhase p bit hold
  let ((react, slot), s) := s.collect 5 (0x10 + bit) p (s.rdN (BAL_PHp_FAULT p) % 2 ^ 24) (s.rdN (BAL_PHp_STAT p)) false none
  if react then s.openShadow 0x28 slot (5, 0x10 + bit, p) else s

end Sys2Proof.Machine
end

