-- ==== Sys2Proof/Machine/Signature.lean ====
section
/-! DEFINITION. SHA-256 and the verification of an ECDSA signature over the curve P-256, which R389 names. Their constants and
steps are those of FIPS 180-4 and FIPS 186-5, not of the spec (PRESUMED, log entry 6). -/

namespace Sys2Proof.Machine

/-! ## SHA-256 -/

/-- The round constants of SHA-256. -/
def shaK : List Nat :=
  [0x428a2f98, 0x71374491, 0xb5c0fbcf, 0xe9b5dba5, 0x3956c25b, 0x59f111f1, 0x923f82a4, 0xab1c5ed5, 0xd807aa98, 0x12835b01, 0x243185be,
   0x550c7dc3, 0x72be5d74, 0x80deb1fe, 0x9bdc06a7, 0xc19bf174, 0xe49b69c1, 0xefbe4786, 0x0fc19dc6, 0x240ca1cc, 0x2de92c6f, 0x4a7484aa] ++
  [0x5cb0a9dc, 0x76f988da, 0x983e5152, 0xa831c66d, 0xb00327c8, 0xbf597fc7, 0xc6e00bf3, 0xd5a79147, 0x06ca6351, 0x14292967, 0x27b70a85,
   0x2e1b2138, 0x4d2c6dfc, 0x53380d13, 0x650a7354, 0x766a0abb, 0x81c2c92e, 0x92722c85, 0xa2bfe8a1, 0xa81a664b, 0xc24b8b70, 0xc76c51a3] ++
  [0xd192e819, 0xd6990624, 0xf40e3585, 0x106aa070, 0x19a4c116, 0x1e376c08, 0x2748774c, 0x34b0bcb5, 0x391c0cb3, 0x4ed8aa4a, 0x5b9cca4f,
   0x682e6ff3, 0x748f82ee, 0x78a5636f, 0x84c87814, 0x8cc70208, 0x90befffa, 0xa4506ceb, 0xbef9a3f7, 0xc67178f2]

/-- The eight working words of SHA-256. -/
structure ShaWords where
  a : Word
  b : Word
  c : Word
  d : Word
  e : Word
  f : Word
  g : Word
  h : Word
  deriving DecidableEq, Repr

/-- The initial hash value of SHA-256. -/
def ShaWords.init : ShaWords :=
  { a := 0x6a09e667, b := 0xbb67ae85, c := 0x3c6ef372, d := 0xa54ff53a, e := 0x510e527f, f := 0x9b05688c, g := 0x1f83d9ab, h := 0x5be0cd19 }

/-- Three words combined by exclusive or. -/
def xor3 (x y z : Word) : Word := x ^^^ y ^^^ z

/-- One round with round constant `k` and schedule word `w`. -/
def ShaWords.round (v : ShaWords) (k w : Word) : ShaWords :=
  let t1 := v.h + xor3 (v.e.rotateRight 6) (v.e.rotateRight 11) (v.e.rotateRight 25) + ((v.e &&& v.f) ^^^ (~~~v.e &&& v.g)) + k + w
  let t2 := xor3 (v.a.rotateRight 2) (v.a.rotateRight 13) (v.a.rotateRight 22) + xor3 (v.a &&& v.b) (v.a &&& v.c) (v.b &&& v.c)
  { a := t1 + t2, b := v.a, c := v.b, d := v.c, e := v.d + t1, f := v.e, g := v.f, h := v.g }

/-- The message schedule, the newest word first: `n` more words after those in `l`. -/
def shaSchedule : Nat → List Word → List Word
  | 0, l => l
  | n + 1, l =>
    let x := l.getD 14 0
    let y := l.getD 1 0
    let s0 := xor3 (x.rotateRight 7) (x.rotateRight 18) (x >>> 3)
    let s1 := xor3 (y.rotateRight 17) (y.rotateRight 19) (y >>> 10)
    shaSchedule n ((s1 + l.getD 6 0 + s0 + l.getD 15 0) :: l)

/-- A number whose most significant byte comes first. -/
def beNat (l : List Byte) : Nat := l.foldl (fun n b => n * 256 + b.toNat) 0

/-- The 64 bytes of one block change the hash value `v`. -/
def ShaWords.block (v : ShaWords) (m : List Byte) : ShaWords :=
  let ws : List Word := (List.range 16).map fun i => BitVec.ofNat 32 (beNat ((m.drop (4 * i)).take 4))
  let w := ((shaKs.zip (shaSchedule 48 ws.reverse).reverse)).foldl (fun v x => v.round x.1 x.2) v
  { a := v.a + w.a, b := v.b + w.b, c := v.c + w.c, d := v.d + w.d, e := v.e + w.e, f := v.f + w.f, g := v.g + w.g, h := v.h + w.h }
where
  /-- The round constants as words. -/
  shaKs : List Word := shaK.map (BitVec.ofNat 32)

/-- The blocks of a padded message, `n` of them. -/
def shaBlocks : Nat → ShaWords → List Byte → ShaWords
  | 0, v, _ => v
  | n + 1, v, m => shaBlocks n (v.block m) (m.drop 64)

/-- A number as `k` bytes, the most significant first. -/
def beBytes (k n : Nat) : List Byte := (leBytes k n).reverse

/-- SHA-256 of a byte string (PRESUMED, log entry 6). -/
def sha256 (m : List Byte) : List Byte :=
  let pad := (119 - m.length % 64) % 64
  let p := m ++ [(0x80 : Byte)] ++ List.replicate pad 0 ++ beBytes 8 (8 * m.length)
  let v := shaBlocks (p.length / 64) .init p
  [v.a, v.b, v.c, v.d, v.e, v.f, v.g, v.h].flatMap fun w => beBytes 4 w.toNat

/-! ## P-256 -/

/-- The field prime of P-256. -/
def curveP : Nat := 0xffffffff00000001000000000000000000000000ffffffffffffffffffffffff

/-- The order of P-256. -/
def curveN : Nat := 0xffffffff00000000ffffffffffffffffbce6faada7179e84f3b9cac2fc632551

/-- The coefficient b of P-256; a is -3. -/
def curveB : Nat := 0x5ac635d8aa3a93e7b3ebbd55769886bc651d06b0cc53b0f63bce3c3e27d2604b

/-- The base point of P-256. -/
def curveG : Nat × Nat :=
  (0x6b17d1f2e12c4247f8bce6e563a440f277037d812deb33a0f4a13945d898c296,
   0x4fe342e2fe1a7f9b8ee7eb4a7c0f9e162bce33576b315ececbb6406837bf51f5)

/-- A power modulo `m`, over the low `k` bits of the exponent. -/
def powMod (m : Nat) : Nat → Nat → Nat → Nat
  | 0, _, _ => 1 % m
  | k + 1, x, e => (if e % 2 = 1 then x else 1) * powMod m k (x * x % m) (e / 2) % m

/-- The inverse modulo a prime below 2^256. -/
def invMod (m x : Nat) : Nat := powMod m 256 (x % m) (m - 2)

/-- A difference modulo the field prime. -/
def subP (x y : Nat) : Nat := (x % curveP + curveP - y % curveP) % curveP

/-- The third point on the line of slope `l` through two points. -/
def chord (l : Nat) (p q : Nat × Nat) : Nat × Nat :=
  let x := subP (subP (l * l) p.1) q.1
  (x, subP (l * subP p.1 x) p.2)

/-- Addition on P-256; none is the point at infinity. -/
def curveAdd (p q : Option (Nat × Nat)) : Option (Nat × Nat) :=
  match p, q with
  | none, q => q
  | p, none => p
  | some a, some b =>
    if a.1 = b.1 then
      (if (a.2 + b.2) % curveP = 0 then none
      else some (chord (subP (3 * a.1 * a.1) 3 * invMod curveP (2 * a.2) % curveP) a a))
    else some (chord (subP b.2 a.2 * invMod curveP (subP b.1 a.1) % curveP) a b)

/-- A multiple of a point, over the low `k` bits of the factor. -/
def curveMul : Nat → Nat → Option (Nat × Nat) → Option (Nat × Nat)
  | 0, _, _ => none
  | k + 1, n, p => curveAdd (if n % 2 = 1 then p else none) (curveMul k (n / 2) (curveAdd p p))

/-- A point lies on P-256. -/
def onCurve (p : Nat × Nat) : Bool :=
  decide (p.1 < curveP) && decide (p.2 < curveP) && (p.2 * p.2 + 3 * p.1) % curveP == (p.1 * p.1 * p.1 + curveB) % curveP

/-- The ECDSA signature r‖s holds for a message and the public key X‖Y (Table 15.2) (PRESUMED, log entry 6). -/
def ecdsaHolds (msg key sig : List Byte) : Bool :=
  let q := (beNat (key.take 32), beNat (key.drop 32))
  let r := beNat (sig.take 32)
  let t := beNat (sig.drop 32)
  let w := invMod curveN t
  let e := beNat (sha256 msg)
  decide (0 < r) && decide (r < curveN) && decide (0 < t) && decide (t < curveN) && onCurve q &&
    match curveAdd (curveMul 256 (e * w % curveN) (some curveG)) (curveMul 256 (r * w % curveN) (some q)) with
    | some x => x.1 % curveN == r
    | none => false

/-- A signature verifies (R389): the public key has the hash `h`, and the signature of the signed bytes `msg` holds; `ks` is PUBKEY
followed by SIG (PRESUMED, log entry 6). -/
def signatureHolds (h msg ks : List Byte) : Bool := sha256 (ks.take 64) == h && ecdsaHolds msg (ks.take 64) (ks.drop 64)

end Sys2Proof.Machine
end

