-- ==== Sys2Proof/Machine/Fences.lean ====
section
/-! DEFINITION. Engines as units that run, are fenced and restarted (chapter 8): cycle and event counters (R212), mailboxes
(R200 to R203), image loading (R394), the fence (R203), the restart (R209, R210) and the trap (R188). -/

namespace Sys2Proof.Machine

/-! ## Counters -/

/-- The engine clock period in 1/16 ns (R187). -/
def State.cycUnit (s : State) : Nat := if s.flag ENG_STAT_HALF then 160 else 80

/-- Event `code` of Table 8.8 happens `n` times in engine `e`: every counter that selects it advances, wraps at 2^48 and sets
its sticky bit (R212, R213) (DESIGN CHOICE, log entry 246). -/
def State.pmc (s : State) (e code n : Nat) : State :=
  (List.range 6).foldl
    (fun s k =>
      if s.get (ENG_n_PMCk_SEL_EVT e k) = code then
        let v := s.get64 (ENG_n_PMCk_LO e k) + n
        let s := s.put64 (ENG_n_PMCk_LO e k) (v % 2 ^ 48)
        if 2 ^ 48 ≤ v then s.putBit (ENG_n_PERF_OVF_PMC e) k true else s
      else s) s

/-- The engine executes: tick or event work (DEDUCED, log entry 22). -/
def State.running (s : State) (e : Nat) : Bool :=
  s.get (ENG_n_STAT_STATE e) == 1 || s.get (ENG_n_STAT_STATE e) == 2

/-- The engine is fenced: fenced, restarting, halted or permanently fenced (Table 8.13). -/
def State.engFenced (s : State) (e : Nat) : Bool := decide (3 ≤ s.get (ENG_n_STAT_STATE e))

/-- Engine `e` has its clock: PD7 is on, for MC PD9 (Table 13.1). -/
def State.engClocked (s : State) (e : Nat) : Bool := s.domOn (if e = 15 then 9 else 7)

/-- The cycles of engine `e` since its counters were last brought up to date; none while fenced (R212) or in retention (R340)
(DEDUCED, log entry 150). -/
def State.cyclesSince (s : State) (e : Nat) : Nat :=
  if s.engFenced e || !s.engClocked e then 0 else (s.now - (s.engine e).cycAt) / s.cycUnit

/-- The cycle counters of engine `e` are brought up to date (R212, R213). -/
def State.syncEng (s : State) (e : Nat) : State :=
  let n := s.cyclesSince e
  let t := if s.engFenced e || !s.engClocked e then s.now else (s.engine e).cycAt + n * s.cycUnit
  let v := s.get64 (ENG_n_CYC_LO e) + n
  let s := s.put64 (ENG_n_CYC_LO e) (v % 2 ^ 64)
  let s := if 2 ^ 64 ≤ v then s.put (ENG_n_PERF_OVF_CYC e) 1 else s
  let s := s.pmc e (if s.running e then 1 else 3) n
  s.onEng e fun g => { g with cycAt := t }

/-- The counters of all engines are brought up to date. -/
def State.syncAll (s : State) : State := (List.range 16).foldl State.syncEng s

/-- The cycle counter of engine `e` as it reads. -/
def State.cycNow (s : State) (e : Nat) : Nat := (s.get64 (ENG_n_CYC_LO e) + s.cyclesSince e) % 2 ^ 64

/-- The state of engine `e` (Table 8.13), with ENG_STAT.AWAKE and ENG_FENCED. -/
def State.setEng (s : State) (e st : Nat) : State :=
  let s := (s.syncEng e).put (ENG_n_STAT_STATE e) st
  let s := (s.putBit ENG_STAT_AWAKE e (st == 1 || st == 2)).putBit ENG_FENCED_F e (decide (3 ≤ st))
  if e < 8 then s.putB (CMF_GRPg_STAT_FENCED e) (decide (3 ≤ st)) else s

/-! ## Mailboxes -/

/-- The registers that show the mailbox of engine `e` (Table 8.10, Table 8.12). -/
def State.showMail (s : State) (e : Nat) : State :=
  let g := s.engine e
  let n := min g.mbox.length 31
  let h : Nat × Nat := match g.mbox with
    | [] => (2 ^ 31, 0)
    | m :: _ => (m.src + m.tag * 16 + 128 * b2n m.rreq + 256 * b2n m.reply + m.status * 512, m.pay.toNat)
  let s := (s.wrN (ENG_n_MBX_RXHDR e) h.1).wrN (ENG_n_MBX_RXPAY e) h.2
  let s := (s.put (ENG_n_MBX_RXSTAT_COUNT e) n).put (ENG_n_MBX_RXSTAT_HWM e) (max (s.get (ENG_n_MBX_RXSTAT_HWM e)) n)
  (s.putB (ENG_n_MBX_TXSTAT_BUSY e) g.waiting.isSome).put (ENG_n_MBX_TXSTAT_TAGS e) (ofBits (g.tags.map (·.tag)))

/-- A message enters the mailbox of its destination. -/
def State.putMail (s : State) (m : Msg) : State :=
  ((s.onEng m.dst fun g => { g with mbox := g.mbox ++ [m] }).pmc m.dst 0x0E 1).showMail m.dst

/-- Tag `t` of engine `e` is open toward engine `d`. -/
def State.tagOpen (s : State) (e t d : Nat) : Bool := (s.engine e).tags.any fun o => o.tag == t && o.dst == d

/-- Tag `t` of engine `e` is closed. -/
def State.closeTag (s : State) (e t : Nat) : State :=
  (s.onEng e fun g => { g with tags := g.tags.filter fun o => o.tag != t }).showMail e

/-- The part closes tag `t` of engine `e`, open toward `d`, with a reply of its own: STATUS 4 FENCED or 5 TIMEOUT (R202,
R203). The payload of such a reply is not stated (DESIGN CHOICE, log entry 18); the reply is delivered whatever the mailbox holds. -/
def State.hardReply (s : State) (e t d status : Nat) : State :=
  let (w, s) := s.fresh 32
  (s.closeTag e t).putMail { src := d, dst := e, tag := t, rreq := false, reply := true, status := status, pay := w }

/-- What a fence does to the mailboxes of engine `r` (R203). -/
def State.fenceMail (s : State) (r : Nat) : State :=
  let late := ((s.engine r).mbox.filter fun m => m.rreq && !s.tagOpen m.src m.tag r).length
  let n := (s.engine r).mbox.length
  let s := s.onEng r fun g => { g with mbox := [], tags := [], waiting := none }
  let s := ((s.bump (ENG_n_MBX_RXSTAT_DROP r) n).bump (ENG_n_MBX_TXSTAT_REF r) late).showMail r
  (List.range 16).foldl
    (fun s e => ((s.engine e).tags.filter fun o => o.dst == r).foldl (fun s o => s.hardReply e o.tag r 4) s) s

/-- A message that has left its sender reaches engine `m.dst`: it is delivered, waits for space, or meets a fence (R201 to
R203). -/
def State.carryMail (s : State) (m : Msg) : State :=
  if s.engFenced m.dst then
    if m.rreq then (if s.tagOpen m.src m.tag m.dst then s.hardReply m.src m.tag m.dst 4 else s)
    else s.bump (ENG_n_MBX_TXSTAT_FDROP m.src) 1
  else if 16 ≤ (s.engine m.dst).mbox.length then
    (s.onEng m.src fun g => { g with waiting := some m }).showMail m.src
  else if m.reply then
    (if s.tagOpen m.dst m.tag m.src then (s.closeTag m.dst m.tag).putMail m else s.bump (ENG_n_MBX_TXSTAT_REF m.src) 1)
  else s.putMail m

/-! ## Images -/

/-- The address at which the instruction memory of engine `e` lies (Table 8.1). -/
def instrBase (e : Nat) : Nat := if e < 15 then 0x400000 + e * 0x20000 else 0x5E0000

/-- The address of byte `o` of the MC SRAM: the window for the lower half, the model's own place for the upper half, which
only MC reaches (Table 8.1). -/
def mcSram (o : Nat) : Nat := if o < 0x20000 then 0x5E0000 + o else 0xE00000 + o

/-- The address of byte `o` of the data memory of engine `e`. -/
def dataByte (e o : Nat) : Nat := if e < 15 then 0x410000 + e * 0x20000 + o else mcSram o

/-- The model's own place, outside the address space, of the sample port of SEn (Table 8.1). -/
def samplePort (n : Nat) : Nat := 0x100000000 + n * 2048

/-- A byte list stored from SRAM offset `o` of MC on. -/
def State.mcPut (s : State) (o : Nat) (l : List Byte) : State :=
  let k := 0x20000 - o
  (s.memPut (mcSram o) (l.take k)).memPut (0xE20000 + (o - 0x20000)) (l.drop k)

/-- The number of `k` bytes at body offset `o` of the firmware set whose copy lies at Lagoon offset `img`. -/
def State.fwLE (s : State) (img o k : Nat) : Nat := s.memLE (lagoon + img + 256 + o) k

/-- The instruction bytes of engine `e` in a firmware set (R394). -/
def State.imageCode (s : State) (img e : Nat) : List Byte :=
  s.memBytes (lagoon + img + 256 + s.fwLE img (32 * e) 4) (min (s.fwLE img (32 * e + 4) 4) 0x3F000)

/-- The initial data bytes of engine `e` in a firmware set (R394). -/
def State.imageData (s : State) (img e : Nat) : List Byte :=
  s.memBytes (lagoon + img + 256 + s.fwLE img (32 * e) 4 + s.fwLE img (32 * e + 4) 4) (min (s.fwLE img (32 * e + 8) 4) 0x3F000)

/-- The signature of the firmware set at Lagoon offset `img` verifies (R389): SIGNED, the key hash, the signature. -/
def State.fwSigned (s : State) (img : Nat) : Bool :=
  let a := lagoon + img
  bitOf (s.memLE (a + 7) 1) 0 &&
    Sys2Proof.Machine.signatureHolds (s.memBytes (otpBase + 0x700) 32)
      (s.memBytes a 64 ++ s.memBytes (a + 256) (min (s.memLE (a + 12) 4) 0x200000)) (s.memBytes (a + 64) 128)

/-- The firmware slot whose resident copy lies at a Lagoon offset (Table 15.7): FW_A or FW_B. -/
def fwSlotOf (img : Nat) : Option Nat := if img = 0x500000 then some 2 else if img = 0x700000 then some 3 else none

/-- The firmware set at Lagoon offset `img` has been verified and has not been written since (R3): a resident copy, or the staged image
of an update session (DEDUCED, log entry 240). -/
def State.imageVerified (s : State) (img : Nat) : Bool :=
  match fwSlotOf img with
  | some i => s.flag (MGT_SLOTs_HDR_VERIFIED i)
  | none => img == stagingOff && decide (3 ≤ s.get MGT_UPD_STAT_STATE) && s.mgt.upd.any fun u => u.kind == 1 && !u.spoiled

/-- The flash is writing and has not been suspended. -/
def State.flashWrites (s : State) : Bool := match s.mgt.flashOp with
  | some o => !o.suspended
  | none => false

/-- A quad read of the flash at `a`: a program or erase that runs is suspended for it and resumed (R439). The latency of a suspend is
bounded only by 5 ms (DESIGN CHOICE, log entry 162). -/
def State.flashRead (s : State) (a : Nat) : State :=
  if s.flashWrites then
    let (x, s) := s.fresh 13
    let s := ((s.emit (.flashCmd 0x75)).emit (.flashCmd 0x6B)).emit (.flashCmd 0x7A)
    let s := (s.bump MGT_FL_SUSP_N 1).put MGT_FL_SUSP_LAT (max (s.get MGT_FL_SUSP_LAT) (x.toNat % 5001))
    (s.put MGT_FL_LASTOP_CMD 0x7A).put MGT_FL_LASTOP_ADDR a
  else ((s.emit (.flashCmd 0x6B)).put MGT_FL_LASTOP_CMD 0x6B).put MGT_FL_LASTOP_ADDR a

/-- MC restores the resident firmware copy from its verified flash slot (R209): the copy is verified again where the slot was. -/
def State.restoreCopy (s : State) (img : Nat) : State :=
  match fwSlotOf img with
  | some i =>
    ((s.flashRead (slotBase i)).memPut (lagoon + img) (bytesAt flashDefault s.flash (slotBase i) 0x200000)).putB (MGT_SLOTs_HDR_VERIFIED i)
      (s.flag (MGT_SLOTs_HDR_COMMIT i) && fieldOf (s.rdN (MGT_SLOTs_HDR i)) 8 8 == 0)
  | none => s

/-- The boot ROM sets and locks the 16 protection regions before the firmware of MC starts (R186): the instruction part, `n` bytes, can be
read and executed but not written at either of its addresses (R394), here by regions 0 to 3. What it sets the other regions to is not
given: free values (DESIGN CHOICE, log entry 266). -/
def State.bootPmp (s : State) (n : Nat) : State :=
  let one (s : State) (a : Nat) : State :=
    let (w, s) := s.fresh 32
    s.setCsr 15 a (if a < 0x3B0 then w ||| 0x80808080 else w)
  let s := ((List.range 3).map (· + 0x3A1) ++ (List.range 12).map (· + 0x3B4)).foldl one s
  let s := s.setCsr 15 0x3A0 0x8D808D80
  let ends := [0xE00000, 0xE00000 + n, 0x5E0000, 0x5E0000 + min n 0x20000]
  (ends.zipIdx).foldl (fun (s : State) (x : Nat × Nat) => s.setCsr 15 (0x3B0 + x.2) (BitVec.ofNat 32 (x.1 / 4))) s

/-- The memories and programmer-visible state of engine `e` are cleared but for the retained region (R191, R192, Table 8.7),
and its initial data are placed (DEDUCED, log entry 19). -/
def State.clearEngine (s : State) (img e : Nat) : State :=
  let s := if e < 15 then s.memDrop (dataByte e 0) (dataByte e 0xF000)
    else (s.memDrop 0x5E0000 0x600000).memDrop 0xE20000 (0xE00000 + 0x3F000)
  let s := if e < 15 then s.memPut (dataByte e 0) ((s.imageData img e).take 0xF000)
    else s.mcPut (cdivN (s.imageCode img 15).length 4096 * 4096) (s.imageData img 15)
  (s.onEng e fun g => { g with acc := Vector.replicate 4 0, yr := 0, yn := 0, ym := 0, yst := 0, ysp := 0, yspw := 0,
                               ytk := 0, csr := [], csrHigh := [], resv := none, user := false, handling := false, mbox := [],
                               tags := [], waiting := none, staged := [], overStaged := false }).wrN (ENG_n_YST e) 0
    |>.put (ENG_n_STAT_YEC e) 0

/-- The instruction memory of engine `e` is written from the copy at Lagoon offset `img` (R190); MC starts with its protection regions set
and locked (R186). -/
def State.loadCode (s : State) (img e : Nat) : State :=
  let l := s.imageCode img e
  if e < 15 then (s.memDrop (instrBase e) (instrBase e + 0x10000)).memPut (instrBase e) (l.take 0x10000)
  else (s.mcPut 0 l).bootPmp (cdivN l.length 4096 * 4096)

/-- The reload check of the copy at Lagoon offset `img` (Table 8.7): it is a verified one (R3), its ICRC holds, and for MC the signature
(R209). -/
def State.copyGood (s : State) (img e : Nat) : Bool :=
  s.imageVerified img && crc32c (s.imageCode img e) == s.fwLE img (32 * e + 24) 4 && (decide (e < 15) || s.fwSigned img)

/-- The sources a fence of engine `e` shadows (Table 12.2). -/
def engShadow (e : Nat) : Nat :=
  if e < 8 then 0x10E else if e < 12 then 0x122 else if e < 14 then 0x8182 else if e = 14 then 0x102 else 0x303

/-- Fault 9/0x11, whose reaction keeps engine `e` fenced and opens a shadow window (R333, Table 12.1). -/
def State.copyFault (s : State) (e : Nat) : State :=
  let r := s.collect 9 0x11 e 0 0 false none
  if r.1.1 then r.2.openShadow (engShadow e) r.1.2 (9, 0x11, e) else r.2

/-- Step 3 of Table 8.7: the copy is checked, restored once when the check fails (fault 9/0x11), and loaded. -/
def State.reload (s : State) (e : Nat) : State :=
  let img := (s.engine e).image
  if img = 0 then s.clearEngine img e
  else
    let s := if s.copyGood img e then s else (s.copyFault e).restoreCopy img
    if s.copyGood img e then
      let s := (s.clearEngine img e).loadCode img e
      (s.put (ENG_n_LMEM_LEN e) ((s.imageCode img e).length / 4)).put (ENG_n_LMEM_CRCOK e) 1
    else (s.put (ENG_n_LMEM_CRCOK e) 0).setEng e 3

/-- The entries that a firmware set gives engine `e` beside its code: entry points, version, trigger, task table, access map
(R394). The COUNT of each task is the configuration's and is kept. -/
def State.installImage (s : State) (img e : Nat) : State :=
  let w (o : Nat) : Nat := s.fwLE img (32 * e + o) 4
  let tab := s.fwLE img (32 * e) 4 + s.fwLE img (32 * e + 4) 4 + s.fwLE img (32 * e + 8) 4
  let win (k : Nat) : Nat × Nat × Nat :=
    (s.fwLE img (tab + 64 + 12 * k) 4, s.fwLE img (tab + 68 + 12 * k) 4, s.fwLE img (tab + 72 + 12 * k) 4)
  let m := (List.range (min (s.fwLE img (32 * e + 28) 1) 32)).map win
  let tasks := (List.range 16).map fun t => s.fwLE img (tab + 4 * t) 4 % 2 ^ 24
  let s := s.onEng e fun g => { g with image := img, map := m }
  let s := ((s.wrN (ENG_n_ENTRY e) (w 16)).wrN (ENG_n_EVENTRY e) (w 20)).wrN (ENG_n_FWVER e) (w 12)
  let trig := (w 28) / 256 % 2
  let s := (s.put (ENG_n_CTRL_TRIG e) trig).putBit ENG_TRIG_B e (trig == 1)
  (tasks.zipIdx).foldl
    (fun s x => s.wrN (ENG_n_TASKt_CFG e x.2) (x.1 + s.get (ENG_n_TASKt_CFG_COUNT e x.2) * 2 ^ 24)) s

/-! ## Fence, restart, trap -/

/-- The semaphores of engine `e` are freed (R204). -/
def State.freeSems (s : State) (e : Nat) : State :=
  (List.range 32).foldl (fun s k => if s.get (ENG_SEMk_OWNER k) = e + 1 then s.put (ENG_SEMk_OWNER k) 0 else s) s

/-- The check-value units that the initiator of code `c` holds are freed (R441). -/
def State.freeCrc (s : State) (c : Nat) : State :=
  [2, 3].foldl (fun (s : State) (u : Nat) => if s.get (MGT_CRCu_STAT_OWNER u) = c + 1 then s.put (MGT_CRCu_STAT_OWNER u) 0 else s) s

/-- Sample engine `e` misses samples of the window of a sweep: its four cells receive LATE in it (R123, R132). -/
def State.loseSamples (s : State) (e : Nat) : State :=
  match s.imp.run with
  | some r =>
    if e < 8 ∧ r.sampling then { s with imp := { s.imp with run := some { r with late := r.late ||| (0xF * 2 ^ (4 * e)) } } } else s
  | none => s

/-- The engine's share of a fence (R23, R203, Table 8.7 step 1): it stops, staged writes are discarded, semaphores and check-value
units freed, mailboxes handled; a sample engine's cells are late in the windows of a sweep (R123). -/
def State.stopEngine (s : State) (e st : Nat) : State :=
  let s := (((s.setEng e st).freeSems e).freeCrc e).fenceMail e
  let quiet (g : EngSt) : EngSt :=
    { g with staged := [], overStaged := false, task := none, deferred := 0, counted := 0, trigWait := false }
  let s := s.onEng e quiet
  (s.put (ENG_n_STAGE_N e) 0).loseSamples e

/-- Both phases of a fenced balance engine are fenced with the condition 5/0x17 (R162, R163). -/
def State.stopPhases (s : State) (e : Nat) : State :=
  if 8 ≤ e ∧ e < 12 then (s.phaseFault (2 * (e - 8)) 7 false).phaseFault (2 * (e - 8) + 1) 7 false else s

/-- Engine `e` is fenced by a command, not by a fault reaction. -/
def State.fenceEngine (s : State) (e st : Nat) : State := (s.stopEngine e st).stopPhases e

/-- The restarts of engine `e` within the last RWIN seconds (R210). -/
def State.recentRestarts (s : State) (e : Nat) : List Nat :=
  (s.engine e).restarts.filter fun t => decide (s.now < t + s.get ENG_CTRL_RWIN * sec)

/-- A fenced engine restarts from step 3 of Table 8.7; `why` is the cause of RSTCNT, `cause` its entry cause. -/
def State.beginRestart (s : State) (e why cause : Nat) : State :=
  let l := s.recentRestarts e
  let s := ((s.bump (ENG_n_RSTCNT_N e) 1).put (ENG_n_RSTCNT_WIN e) (min (l.length + 1) 15)).put (ENG_n_RSTCNT_CAUSE e) why
  let s := s.onEng e fun g => { g with restarts := s.now :: l, restartAt := some s.now, nextCause := cause }
  (s.setEng e 4).reload e

/-- An engine is restarted, or stays permanently fenced at its restart limit (R209, R210): that condition has ended once it is
raised, for its recovery is what releases a contained one. The engine is fenced already (DEDUCED, log entry 136). -/
def State.restartEngine (s : State) (e why cause : Nat) : State :=
  if s.getIn ENG_CTRL_RMAX 1 15 ≤ (s.recentRestarts e).length then
    (((s.setEng e 6).putBit ENG_FENCED_PERM e true).fault 8 0x11 e).endCond 8 0x11 e
  else s.beginRestart e why cause

/-- An engine stops on a fault `code` of source `src`: fence, fault, shadow window, phases, restart (R188, R49, Table 12.1).
A consequential fault starts no restart of its own; its recovery releases the engine (R334, R335). -/
def State.stopOnFault (s : State) (e src code d0hi d1 why : Nat) : State :=
  let s := s.stopEngine e 3
  let ((react, slot), s) := s.collect src code e d0hi d1 false none
  let s := if react then s.openShadow (engShadow e) slot (src, code, e) else s
  let s := s.stopPhases e
  if react then s.restartEngine e why 1 else s

/-- ENG_ACC_ERR.TYPE of an access fault, by mcause (Table 8.10): 0 fetch, 1 load, 2 store. -/
def accessType (mcause : Nat) : Option Nat :=
  if mcause = 1 then some 0 else if mcause = 5 then some 1 else if mcause = 7 then some 2 else none

/-- An engine trap (R188): the trap registers, ENG_ACC_ERR after an access fault, ENG_n_MEMERR after an uncorrectable error of a
local memory (R189; mcause 19, PRESUMED, log entry 219), the fence, fault 8/0x10 and the restart. An engine that is already fenced
executes nothing and cannot trap (DEDUCED, log entry 67). -/
def State.trapEngine (s : State) (e : Nat) (mcause mepc mtval : Nat) : State :=
  if s.engFenced e then s
  else
    let s := ((s.wrN (ENG_n_TRAP e) mcause).wrN (ENG_n_TPC e) mepc).wrN (ENG_n_TVAL e) mtval
    let s := match accessType mcause with
      | some t => (s.put ENG_ACC_ERR_ENG e).put ENG_ACC_ERR_TYPE t
      | none => s
    let s := if mcause = 19 then (s.bump (ENG_n_MEMERR_UNC e) 1).bump ENG_ECC_UNC 1 else s
    s.stopOnFault e 8 0x10 mcause mepc 0

end Sys2Proof.Machine
end

