-- ==== Sys2Proof/Machine/Views.lean ====
section
/-! DEFINITION. What registers read whose value the part computes at the read (R9, R10), and the trims in force as initiators see
them (R68, R384). -/

namespace Sys2Proof.Machine

/-! ## Shared with the access rules -/

/-- The base-rate sample of channel `ch` at a strobe. -/
def sampleOf (x : StrobeSample) (ch : Nat) : Int :=
  if ch < 32 then (vget x.cell ch 0).toInt else (vget x.cs (ch - 32) 0).toInt

/-- The initiator writes as the harbour (R117, R139): remote access with SRC 0x00, or MC of the active harbour itself. -/
def State.asHarbour (s : State) (i : Initiator) : Bool := i == .remoteHost || (isMC i && s.isHarbour)

/-- The trim registers of a channel of `CalRun`, with the width of their field: o, g, and for a cell q and k. -/
def trimRegs (ch : Nat) : List (Nat × Nat) :=
  if ch < 2 then [(CSI_CSn_TRIM_OFS ch, 20), (CSI_CSn_TRIM_GAIN ch, 24)]
  else if ch < 34 then
    [(CMF_TRIMn_OFS (ch - 2), 20), (CMF_TRIMn_GAIN (ch - 2), 24), (CMF_TRIMn_QUAD (ch - 2), 16), (CMF_TRIMn_TC (ch - 2), 16)]
  else [(AUX_INi_TRIM_OFS (ch - 34), 16), (AUX_INi_TRIM_GAIN (ch - 34), 24)]

/-- Every trim register of the part with its width, in the order of Table 14.4. -/
def allTrims : List (Nat × Nat) := (((List.range 32).map (· + 2)) ++ [0, 1] ++ (List.range 16).map (· + 34)).map trimRegs |>.flatten

/-- The source bits of a channel (R384). -/
def State.srcBits (s : State) (ch : Nat) : Nat := ((s.cal.src.find? fun e => e.1 == ch).map (·.2)).getD 0

/-- The source bits of a channel given. -/
def State.setSrc (s : State) (ch b : Nat) : State :=
  { s with cal := { s.cal with src := (ch, b) :: s.cal.src.filter fun e => e.1 != ch } }

/-! ## Views -/

/-- QREM and QUIET of a source (Table 12.5): the largest quiet period remaining, in 1/16 ns. -/
def State.quietLeft (s : State) (src : Nat) : Option Nat :=
  let l := s.fcr.standing.filterMap fun f =>
    if f.src == src && !f.conseq then f.quietEnd.map (· - s.now) else none
  if l.isEmpty then none else some (l.foldl max 0)

/-- FCR_SRCs_STAT as it reads. -/
def State.srcStat (s : State) (src : Nat) : Nat :=
  let l := s.fcr.standing.filter fun f => f.src == src && !f.conseq
  let cls := (l.map (·.cls)).foldl max 0
  b2n (!l.isEmpty) + cls * 2 + 8 * b2n (s.quietLeft src).isSome + s.get (FCR_SRCs_STAT_CODE src) * 256 +
    min 0xFFFF ((s.quietLeft src).getD 0 / (10 * ms)) * 65536

/-- The slots of the history queue that hold an entry. -/
def State.queueOcc (s : State) : Nat := ofBits ((List.range 32).filter fun i => s.flag (FCR_HQi_INFO_VALID i))

/-- A frame waits for credit at the head of a transmit queue: how long (Table 9.12). -/
def State.creditWait (s : State) (n q : Nat) : Option Nat :=
  match vget (s.strait n).txq q [] with
  | it :: _ => if s.up n && decide (s.credit n q < frameUnits it.frame) then some (s.now - it.since) else none
  | [] => none

/-- The address-table registers (Table 10.6); they read 0 on a part that is not the active harbour. -/
def State.atView (s : State) (a : Nat) : Nat :=
  let l := s.net.table.filter fun e => e.state != 0 && decide (1 ≤ e.addr) && decide (e.addr ≤ 0xF0)
  let pres := (l.filter fun e => e.state == 1).length
  let top := (l.map (·.addr)).foldl max 0
  if ¬ s.isHarbour then 0
  else if a = FAB_AT_SUM then pres + (l.length - pres) * 256 + (240 - l.length) * 65536 + top * 2 ^ 24
  else match l.find? fun e => e.addr == s.get FAB_AT_IDX_IDX with
    | some e =>
      if a = FAB_AT_UID_LO then e.uid % 2 ^ 32
      else if a = FAB_AT_UID_LO + 4 then e.uid / 2 ^ 32
      else e.state % 4 + (if e.state = 2 then min 4095 (cdivN (e.holdEnd - s.now) sec) * 16 else 0) + e.round % 65536 * 65536
    | none => 0

/-- PSF_CW_ISL (Table 11.9). -/
def State.islView (s : State) : Nat :=
  if ¬ s.isHarbour then 0
  else match s.psf.peers.find? fun p => p.addr == s.get PSF_CW_IDX_IDX with
    | some p => p.lastOk % 65536 + min 15 p.count * 65536 + p.outcome % 8 * 2 ^ 20
    | none => 4 * 2 ^ 20

/-- Seconds left, rounded up. -/
def secLeft (t now : Nat) : Nat := cdivN (t - now) sec

/-- MGT registers that read computed values. -/
def State.viewMgt (s : State) (a raw : Nat) : Nat :=
  if a = MGT_RTC_LO then s.rtc % 2 ^ 32
  else if a = MGT_RTC_LO + 4 then s.rtc / 2 ^ 32
  else if a = MGT_SUPPLY then s.supplyNow.toNat
  else if a = MGT_CAL_SLOT then withField raw 4 1 (b2n s.anyTrimReq)
  else if a = MGT_MODE_STAT then
    let t := min 3600 (s.get MGT_SVC_CFG_TMO_S)
    let rem := if s.mode = 4 ∧ t ≠ 0 then min 255 (cdivN (s.privAt + t * sec - s.now) (16 * sec)) else 0
    withField raw 24 8 rem
  else if a = MGT_PROB_STAT then
    let p := s.countProbation.mgt.prob
    let all := s.getIn MGT_PROB_CFG_MIN 1 1440 * 60 * sec
    withField raw 0 24 (((bitsOf 4 (raw / 2 ^ 24)).map fun k => secLeft all (vget p k 0)).foldl max 0)
  else raw

/-- Result registers of CMF and CSI that read computed values: CMF_RAWn_m and CSI_RAWn_m, which show the samples up to S(k) from the
sample instant on, since the engines work on them before the bank switch (DEDUCED, log entry 232), and CSI_IMP_STAT.TID. -/
def State.viewCell (s : State) (a raw : Nat) : Nat :=
  let raw24 (ch m : Nat) : Nat := ((s.meas.histS[m]?).map fun x => ofI 24 (sampleOf x.1 ch)).getD 0
  if CMF_RAWn_m 0 0 ≤ a ∧ a < CMF_RAWn_m 32 0 then raw24 ((a - CMF_RAWn_m 0 0) / 0x80) ((a - CMF_RAWn_m 0 0) % 0x80 / 4)
  else if CSI_RAWn_m 0 0 ≤ a ∧ a < CSI_RAWn_m 2 0 then raw24 (32 + (a - CSI_RAWn_m 0 0) / 0x80) ((a - CSI_RAWn_m 0 0) % 0x80 / 4)
  else if a = CSI_IMP_STAT then withField raw 16 16 s.tableId
  else raw

/-- PSF registers that read computed values: time on, comparing, the causeway registers of the harbour. -/
def State.viewPsf (s : State) (a raw : Nat) : Nat :=
  if a = PSF_STAT then withField raw 7 1 (b2n (s.isHarbour && s.flag PSF_CWAY_CFG_EN))
  else if a = PSF_CW_ISL then s.islView
  else if PSF_CW_PRESk 0 ≤ a ∧ a < PSF_CW_PRESk 0 + 0xA0 then (if s.isHarbour then raw else 0)
  else match (List.range 3).find? fun o => a == PSF_OUTo_ONT o with
    | some o =>
      let on := s.flag (PSF_OUTo_STAT_ON o) || (s.pulseOf o).start.isSome
      min (2 ^ 32 - 1) ((vget s.psf.onAcc o 0 + if on then s.now - (s.pulseOf o).onSince else 0) / sec)
    | none => raw

/-- FAB registers that read computed values: HAZIN and HAZOUT of a fabric Strait (R241), link time, credit waits, the tables of the
harbour. -/
def State.viewFab (s : State) (a raw : Nat) : Nat :=
  if FAB_AT_UID_LO ≤ a ∧ a ≤ FAB_AT_SUM then s.atView a
  else if FAB_MAPa 0 ≤ a ∧ a < FAB_POSa 241 then (if s.isHarbour then raw else 0)
  else match (List.range 4).find? fun n => decide (FAB_PORTn_CFG n ≤ a) && decide (a < FAB_PORTn_CFG n + 0x100) with
    | some n =>
      if a = FAB_PORTn_UPTIME n then
        (if (s.strait n).upAt = 0 then 0 else min (2 ^ 32 - 1) ((s.now - (s.strait n).upAt) / sec))
      else if a = FAB_PORTn_CFG n then
        (let r := s.get (FAB_PORTn_CFG_ROLE n); if r = 1 ∨ r = 2 then raw else withField raw 4 2 3)
      else if a = FAB_PORTn_STAT n then withField raw 5 1 (b2n ((List.range 6).any fun q => (s.creditWait n q).isSome))
      else match (List.range 6).find? fun q => a == FAB_PORTn_TXQq n q with
        | some q => withField raw 16 16 (min 65535 ((s.creditWait n q).getD 0 / us))
        | none => raw
    | none => raw

/-- FCR registers that read computed values. -/
def State.viewFcr (s : State) (a raw : Nat) : Nat :=
  if a = FCR_ACTIVE then s.activeWord
  else if a = FCR_Q_OCC then s.queueOcc
  else if a = FCR_Q_STAT then
    withField (withField raw 0 6 (bitsOf 32 s.queueOcc).length) 16 1 (b2n s.freeSlot.isNone)
  else if a = FCR_SHADOW then withField raw 15 1 (b2n (s.fcr.shadows.any fun w => decide (s.now < w.till)))
  else match (List.range 16).find? fun k => a == FCR_SRCs_STAT k with
    | some k => s.srcStat k
    | none => raw

/-- What a register reads whose value the part computes at the read; other registers read what they hold
(DEDUCED, log entries 195, 196, 197, 198, 199). -/
def State.view (s : State) (a : Nat) : Nat :=
  let raw := s.rdN a
  let b := a / 0x10000
  if b = 0 then s.viewMgt a raw
  else if b = 1 then (if a = TMG_FT_LO then s.ftNs % 2 ^ 32 else if a = TMG_FT_LO + 4 then s.ftNs / 2 ^ 32 else raw)
  else if b = 2 ∨ b = 3 then s.viewCell a raw
  else if b = 6 then s.viewPsf a raw
  else if b = 7 then s.viewFab a raw
  else if b = 9 then
    (if a = MEM_SCRUB_STAT then s.scrubDone / 2 ^ 24 % 65536 + s.scrubDone / 2 ^ 16 % 256 * 2 ^ 24 else raw)
  else if b = 0xA then s.viewFcr a raw
  else raw

end Sys2Proof.Machine
end

