-- ==== Sys2Proof/Machine/RegAccess.lean ====
section
/-! DEFINITION. Register and memory accesses (R8 to R12, R20, R21, R30, R31, R443 to R449): where an address leads, who may
use it, what a write does to the fields of a register, what a read returns. -/

namespace Sys2Proof.Machine

/-! ## Addresses -/

/-- What an address leads to (Table 17.1). -/
inductive Region where
  | reg
  /-- instruction memory of an engine -/
  | code (e : Nat)
  /-- data memory of an engine, or the SRAM of MC -/
  | data (e : Nat)
  /-- sample port of a sample engine -/
  | sample
  | boot
  | lagoon
  | life
  | otp
  deriving DecidableEq, Repr

/-- The fault source that owns an address: its register block, ENG for engine memories, MEM for the Lagoon and the lifetime
store, otherwise source 0 (R444). -/
def ownerOf (a : Nat) : Nat :=
  if a < 0xB0000 then a / 0x10000
  else if 0x400000 ≤ a ∧ a < 0x600000 ∨ 0xE00000 ≤ a ∧ a < 0xE88000 then 8
  else if 0x10000000 ≤ a ∧ a < 0x13000000 ∨ 0x20000000 ≤ a ∧ a < 0x21000000 then 9
  else 0

/-- An engine's own aliases (Table 8.1), with the address in the model's own layout. -/
def ownAlias (n a : Nat) : Option (Region × Nat) :=
  if n = 15 then
    if 0xE00000 ≤ a ∧ a < 0xE40000 then some (.data 15, mcSram (a - 0xE00000))
    else if 0xE80000 ≤ a ∧ a < 0xE88000 then some (.boot, a)
    else none
  else if 0xE00000 ≤ a ∧ a < 0xE10000 then some (.code n, instrBase n + (a - 0xE00000))
  else if 0xE10000 ≤ a ∧ a < 0xE20000 then some (.data n, dataByte n (a - 0xE10000))
  else if n < 8 ∧ 0xE40000 ≤ a ∧ a < 0xE40800 then some (.sample, samplePort n + (a - 0xE40000))
  else none

/-- Where address `a` leads for an initiator: none where the access is unmapped (R443, R444). -/
def locate (i : Initiator) (a : Nat) : Option (Region × Nat) :=
  if a % 4 ≠ 0 then none
  else if a < 0xB0000 then (regAt a).map fun _ => (.reg, a)
  else if 0x400000 ≤ a ∧ a < 0x5E0000 then
    let e := (a - 0x400000) / 0x20000
    some (if (a - 0x400000) % 0x20000 < 0x10000 then (.code e, a) else (.data e, a))
  else if 0x5E0000 ≤ a ∧ a < 0x600000 then some (.data 15, a)
  else if 0xE00000 ≤ a ∧ a < 0xE88000 then
    match i with
    | .engine n => ownAlias n a
    | _ => none
  else if lagoon ≤ a ∧ a < 0x13000000 then some (.lagoon, a)
  else if lifeBase ≤ a ∧ a < 0x21000000 then some (.life, a)
  else if otpBase ≤ a ∧ a < 0x30001000 then some (.otp, a)
  else none

/-! ## Who may use it -/

/-- How an access ended, as `Sent.ended` shows it: 0 performed, 1 FENCED, 2 refused, 3 bus error, 4 unmapped, 5 denied by MC's own
protection regions. -/
abbrev Ended := Nat

/-- The number of the CSR mstatus (PRESUMED, log entry 219). -/
def mstatus : Nat := 0x300

/-- Engine `e` has the rights of user mode for an access: `kind` 0 a read, 1 a write, 2 a fetch. With mstatus.MPRV a read or write in
machine mode has those of the mode in MPP (R186; PRESUMED, log entry 219). -/
def State.asUser (s : State) (e kind : Nat) : Bool :=
  let st := (s.csr e mstatus).toNat
  (s.engine e).user || (kind != 2 && bitOf st 17 && fieldOf st 11 2 != 3)

/-- The access map of engine `e` grants an access in its present mode (R186, R394): bit 0 of PERM read, bit 1 write, bit 2 execute,
four bits higher in user mode. MC has no map (DEDUCED, log entry 65). -/
def State.mapGrants (s : State) (e a bit : Nat) : Bool :=
  e == 15 || (s.engine e).map.any fun w =>
    decide (w.1 ≤ a) && decide (a ≤ w.2.1) && bitOf w.2.2 (bit + 4 * b2n (s.asUser e bit))

/-- The configuration byte of protection region `i` of MC: R, W, X in bits 2:0, the kind of match in 4:3, locked in 7 (R186;
PRESUMED, log entry 219). -/
def State.pmpCfg (s : State) (i : Nat) : Nat := (s.csr 15 (0x3A0 + i / 4)).toNat / 2 ^ (8 * (i % 4)) % 256

/-- Protection region `i` of MC holds the word at address `a`. -/
def State.pmpHolds (s : State) (i a : Nat) : Bool :=
  let w := a / 4
  let top (j : Nat) : Nat := (s.csr 15 (0x3B0 + j)).toNat
  match s.pmpCfg i / 8 % 4 with
  | 0 => false
  | 1 => decide ((if i = 0 then 0 else top (i - 1)) ≤ w) && decide (w < top i)
  | 2 => w == top i
  | _ =>
    let n := ((List.range 32).find? fun k => !bitOf (top i) k).getD 32
    w / 2 ^ (n + 1) == top i / 2 ^ (n + 1)

/-- The protection regions of MC deny an access of `kind` 0 a read, 1 a write, 2 a fetch (R186, R188): the lowest region that holds the
word decides in user mode, and in machine mode where it is locked; user mode reaches nothing outside the regions
(PRESUMED, log entry 219). -/
def State.pmpDenies (s : State) (a kind : Nat) : Bool :=
  match (List.range 16).find? fun i => s.pmpHolds i a with
  | some i => (s.asUser 15 kind || bitOf (s.pmpCfg i) 7) && !bitOf (s.pmpCfg i) kind
  | none => s.asUser 15 kind

/-- The bit of MEM_WINw_PERM of an initiator (Table 15.17). -/
def permBit : Initiator → Nat
  | .engine n => n.val
  | .remoteHost | .remoteService | .remoteOther => 16
  | .twoWire => 17
  | .hardware _ => 18

/-- BASE, LIMIT and PERM of Lagoon window `w` (R415); windows 0 to 3 are fixed. -/
def State.window (s : State) (w : Nat) : Nat × Nat × Nat :=
  if w < 4 then (s.get (MEM_WINw_BASE_FIX_B w), s.get (MEM_WINw_LIMIT_FIX_L w), s.get (MEM_WINw_PERM_FIX_P w))
  else (s.get (MEM_WINw_BASE_B (w - 4)), s.get (MEM_WINw_LIMIT_L (w - 4)), s.get (MEM_WINw_PERM_P (w - 4)))

/-- Window `w` holds the 64 KB unit `u`; windows 4 to 15 with no PERM bit set are not set up. -/
def State.inWindow (s : State) (u w : Nat) : Bool :=
  let x := s.window w
  decide (x.1 ≤ u) && decide (u ≤ x.2.1) && x.2.2 != 0

/-- The hardware agents to which bit 18 of the fixed windows belongs (R415): the log writer, the configuration loader and the update
path. -/
def agentsOf (w : Nat) : List Nat := if w = 0 then [20] else if w = 1 then [21, 22] else if w = 2 then [22] else [21]

/-- Window `w` lets an initiator write, should the address lie in it (R415). The areas of Table 15.7 lie in the fixed windows, and only
those open them; in window 2 the remote access and two-wire agents need privilege (R400), and an image that is being written to the
flash is held (R3; DEDUCED, log entry 240). -/
def State.windowGrants (s : State) (i : Initiator) (u w : Nat) : Bool :=
  bitOf (s.window w).2.2 (permBit i) &&
    (if w < 4 then
      (permBit i != 18 || (agentsOf w).contains i.code) &&
        (w != 2 || ((s.privileged i || permBit i == 18) && s.get MGT_UPD_STAT_STATE != 4))
    else decide (184 ≤ u))

/-- A write to Lagoon address `a` is granted by a window (R415). -/
def State.lagoonGrants (s : State) (i : Initiator) (a : Nat) : Bool :=
  let u := (a - lagoon) / 0x10000
  (List.range 16).any fun w => s.inWindow u w && s.windowGrants i u w

/-- A write to lifetime store address `a` is granted (R470): LABEL in SERVICE, the notes area. -/
def State.lifeGrants (s : State) (i : Initiator) (a : Nat) : Bool :=
  let o := a - lifeBase
  if 24 ≤ o ∧ o < 56 then s.privileged i && s.mode == 4
  else if 0x10000 ≤ o ∧ o < 0x20000 then
    s.privileged i && bitOf (s.rdN MEM_LTA4_PERM) (if isMC i then 15 else permBit i)
  else false

/-- An address in the MC SRAM lies in the pages that hold the code of its verified image. -/
def State.mcCode (s : State) (a : Nat) : Bool :=
  let o := if a < 0x600000 then a - 0x5E0000 else a - 0xE00000
  decide (o < cdivN (4 * s.get (ENG_n_LMEM_LEN 15)) 4096 * 4096)

/-- How an access ends at the interconnect, before R12 and the field types (R23, R444, R446). No initiator writes instruction memory:
the loader, the update path and the restart reload do so by themselves (R3, R190) (DEDUCED, log entries 149, 218). -/
def State.pathCode (s : State) (i : Initiator) (a : Nat) (write : Bool) : Ended :=
  match locate i a with
  | none => 4
  | some (r, pa) =>
    let own : Bool := match i, r with
      | .engine n, .code e => n.val == e
      | .engine n, .data e => n.val == e
      | .engine _, .sample => true
      | .engine _, .boot => true
      | _, _ => false
    let path : Bool := match i with
      | .engine n => own || s.mapGrants n pa (b2n write)
      | .remoteOther => !write
      | .remoteService => !write || s.flag FAB_SVC_CFG_WR
      | _ => true
    if write ∧ (r = .otp ∨ r = .boot ∨ r = .sample) then 4
    else if ¬ path then 2
    else
      match r with
      | .code e => if write then 4 else if s.engFenced e ∧ ¬ own then 1 else 0
      | .data e => if write ∧ e = 15 ∧ s.mcCode pa then 4 else if s.engFenced e ∧ ¬ own then 1 else 0
      | .lagoon => if write ∧ ¬ s.lagoonGrants i pa then 3 else if s.domOn 8 then 0 else 1
      | .life => if write ∧ ¬ s.lifeGrants i pa then 3 else 0
      | _ => 0

/-- Whether an access is performed, and how it ends otherwise: MC's own protection regions come before the interconnect (R186, R188)
(DEDUCED, log entries 149, 218). -/
def State.accessCode (s : State) (i : Initiator) (a : Nat) (write : Bool) : Ended :=
  if isMC i && s.pmpDenies a (b2n write) then 5 else s.pathCode i a write

/-- The window that a refused Lagoon write lay in counts it in MEM_WINw_STAT. -/
def State.countRefused (s : State) (a : Nat) : State :=
  match (List.range 16).find? (s.inWindow ((a - lagoon) / 0x10000)) with
  | some w => s.bump (MEM_WINw_STAT_REF w) 1
  | none => s

/-- An engine whose access is refused, unmapped or answered with an error takes an access fault at its program counter (R188,
R444, R446; DEDUCED, log entries 20, 64). -/
def State.accessTrap (s : State) (i : Initiator) (a : Nat) (write : Bool) : State :=
  match i with
  | .engine n => s.trapEngine n (if write then 7 else 5) (s.engine n).pc.toNat a
  | _ => s

/-- A refused access is recorded (R444, R446, R326) and answered on the initiator's own path (DEDUCED, log entry 64). -/
def State.refused (s : State) (i : Initiator) (a : Nat) (write : Bool) (c : Ended) : State :=
  if c = 0 then s
  else if c = 1 then
    (match i with
    | .engine n => s.pmc n 0x10 1
    | _ => s)
  else if c = 5 then s.accessTrap i a write
  else if c = 2 then { s.refuseAccess (ownerOf a) i (b2n write) a with turned := 0 }.accessTrap i a write
  else
    let s := if c = 3 ∧ lagoon ≤ a ∧ a < 0x13000000 then s.countRefused a else s
    (s.busError (ownerOf a) i (b2n write) a).accessTrap i a write

/-! ## Accesses of an engine, counted -/

/-- A write by engine `n` to address `a` is staged, not performed (R198). -/
def stagedBy (n a : Nat) : Bool :=
  (decide (n < 8) && (List.range 4).any fun j =>
    let c := 4 * n + j
    a == CMF_CELLn_V c || a == CMF_CELLn_FLAG c || a == CMF_CELLn_MIN c || a == CMF_CELLn_MAX c) ||
  (List.range 8).any (fun p => a == BAL_PHp_CMD p) || (List.range 32).any (fun c => a == BAL_CELLc_TGT c)

/-- A register of the stack die, reached over the control channel (R445, Table 17.2): BAL, PSF, the MGT registers marked PD0. -/
def onStackDie (a : Nat) : Bool :=
  a / 0x10000 == 5 || a / 0x10000 == 6 || (decide (0x224 ≤ a) && decide (a < 0x234)) || (decide (0x240 ≤ a) && decide (a < 0x250))

/-- The cycles that an access over the interconnect waits (event 0x07 of Table 8.8) are timing: a free number, where a counter of the
engine counts them (DESIGN CHOICE, log entry 246). -/
def State.countWait (s : State) (n : Nat) : State :=
  if (List.range 6).any fun k => s.get (ENG_n_PMCk_SEL_EVT n k) == 7 then
    let (w, s) := s.fresh 32
    s.pmc n 0x07 w.toNat
  else s

/-- The accesses of an engine that cross the interconnect are counted (Table 8.8): all but those to its own memories and its staged
writes (R190, R198; DEDUCED, log entry 220) (DESIGN CHOICE, log entry 246). -/
def State.countAccess (s : State) (i : Initiator) (a : Nat) (write : Bool) : State :=
  match i with
  | .engine n =>
    let own : Bool := match locate i a with
      | some (.code e, _) => n.val == e
      | some (.data e, _) => n.val == e
      | some (.sample, _) => true
      | some (.boot, _) => true
      | _ => false
    if own || (write && stagedBy n a) then s
    else
      let s := (s.pmc n 0x06 1).countWait n
      if onStackDie a then s.pmc n 0x08 1 else if ownerOf a = 9 ∧ lagoon ≤ a ∧ a < lifeBase then s.pmc n 0x09 1 else s
  | _ => s

/-! ## Field writes -/

/-- An OTP ceiling (Table 11.1): register address, field, ceiling word and field, whether it bounds from above. -/
structure Ceil where
  addr : Nat
  lo : Nat
  width : Nat
  word : Nat
  clo : Nat
  cwidth : Nat
  isMax : Bool
  deriving DecidableEq, Repr

/-- The ceilings of Table 11.1 that bound a register field by itself. -/
def ceilTable : List Ceil :=
  ((List.range 32).map fun n =>
    [⟨PSF_DCn_CFG n, 0, 8, 0, 0, 8, true⟩, ⟨PSF_DCn_CFG n, 8, 8, 0, 8, 8, false⟩,
     ⟨PSF_DCn_CFG n, 16, 8, 0, 16, 8, true⟩, ⟨PSF_DCn_CFG n, 24, 8, 0, 16, 8, true⟩]).flatten ++
  [⟨PSF_SC_CFG, 0, 8, 0, 24, 8, true⟩,
   ⟨PSF_OV_CFG, 0, 13, 1, 0, 16, true⟩, ⟨PSF_OV_CFG, 24, 8, 4, 8, 8, true⟩,
   ⟨PSF_UV_CFG, 0, 13, 1, 16, 16, false⟩, ⟨PSF_UV_CFG, 24, 8, 4, 8, 8, true⟩,
   ⟨PSF_OC_CFG, 0, 16, 2, 0, 16, true⟩, ⟨PSF_OC_CFG, 16, 16, 2, 16, 16, true⟩,
   ⟨PSF_OC_QCFG, 0, 8, 4, 8, 8, true⟩, ⟨PSF_OC_QCFG, 8, 8, 4, 8, 8, true⟩,
   ⟨AUX_TLIM, 0, 11, 3, 0, 11, true⟩, ⟨AUX_TLIM, 16, 4, 4, 16, 4, true⟩,
   ⟨AUX_TRATE, 0, 10, 3, 16, 10, true⟩, ⟨AUX_TRATE, 10, 6, 3, 26, 6, true⟩, ⟨AUX_TRATE, 16, 4, 4, 16, 4, true⟩,
   ⟨BAL_ICAP, 0, 9, 5, 0, 9, true⟩, ⟨BAL_ICAP, 16, 7, 5, 16, 7, true⟩,
   ⟨BAL_LIMIT, 0, 6, 6, 0, 6, false⟩, ⟨BAL_LIMIT, 8, 6, 6, 8, 6, false⟩,
   ⟨PSF_ONEPATH_MAX, 0, 4, 6, 16, 4, true⟩] ++
  ((List.range 16).map fun n => ⟨AUX_LTi_THR n, 0, 8, 4, 0, 8, false⟩)

/-- The ranges to which a field is clipped (R168, R81, R174): register address, lowest bit, least and largest value. -/
def clipRanges : List (Nat × Nat × Nat × Nat) :=
  [(BAL_CTRL, 8, 10, 150), (BAL_CTRL, 16, 10, 255), (BAL_LIMIT, 0, 2, 50), (BAL_LIMIT, 8, 2, 50), (BAL_LIMIT, 16, 1, 10),
   (BAL_ICAP, 0, 0, 300), (BAL_ICAP, 16, 20, 120), (BAL_SLOT, 0, 10, 1000), (BAL_BLEED, 0, 10, 47), (AUX_TLIM, 0, 0, 1200)] ++
  ((List.range 8).map fun p =>
    [(BAL_PHp_CFG p, 1, 7, 15), (BAL_PHp_CFG p, 5, 1, 63), (BAL_PHp_CFG p, 11, 2, 31), (BAL_PHp_CMD p, 0, 0, 300)]).flatten ++
  ((List.range 32).map fun n => [(PSF_DCn_CFG n, 16, 2, 255), (PSF_DCn_CFG n, 24, 2, 255)]).flatten ++
  (List.range 24).map fun b => (CSI_IMP_BINb_CFG b, 24, 0, 150)

/-- The configuration limits of R30 beside those of Table 11.1: the largest safety cycle follows R309. -/
def ceilFor (a lo : Nat) : Option Ceil := ceilTable.find? fun c => c.addr == a && c.lo == lo

/-- Whether a field is a limit that the seal bounds, and from above (R30, R31): those with a ceiling, the safety cycle, whose
ceiling follows R309, the cold-charge limit (R293), and the low discharge threshold, which is clipped as the low charge threshold
is (Table 7.11). -/
def sealLimit (a lo : Nat) : Option Bool :=
  if (List.range 16).any (fun n => a == AUX_LTi_THR n) ∧ lo = 8 then some false
  else if (a = PSF_CWAY_CFG ∧ lo = PSF_CWAY_CFG_CYC.lo) ∨ (a = PSF_CCHG_CFG ∧ (lo = PSF_CCHG_CFG_I.lo ∨ lo = PSF_CCHG_CFG_QT.lo)) then
    some true
  else (ceilFor a lo).map (·.isMax)

/-- A value clipped to the range its table states: those of BAL (R168), the counts of the comparators, an excitation amplitude
(Table 5.7), the high temperature limit (R174). The bits of TXMASK that R289 forces are forced
(DESIGN CHOICE, log entry 237). -/
def rangeClip (a lo v : Nat) : Nat :=
  if a = PSF_HAZ_CFG then forcedMask v
  else match clipRanges.find? fun r => r.1 == a && r.2.1 == lo with
  | some r => clampN r.2.2.1 r.2.2.2 v
  | none => v

/-- A value clipped to its OTP ceiling once the ceilings are programmed (R286). -/
def State.ceilClip (s : State) (a lo v : Nat) : Nat :=
  match ceilFor a lo with
  | some c =>
    let m := fieldOf (s.rdN (PSF_OTPk c.word)) c.clo c.cwidth
    if s.ceilings then (if c.isMax then min v m else max v m) else v
  | none => v

/-- The sealed value of a field (R447): the seal record keeps the register file as it stood at seal. -/
def State.sealedOf (s : State) (a lo w : Nat) : Nat := fieldOf (sparseGet resetWord s.sealRec a).toNat lo w

/-- A field the configuration loader wrote: sealed like a RWS field (R392). -/
def State.loaderBits (s : State) (a lo w : Nat) : Bool := s.loaderRw.any fun e => e.1 == a && fieldOf e.2 lo w != 0

/-- What a field becomes when it is written (Table 0.3, R30, R31, R447; a clip that no table gives a counter is not counted: DESIGN
CHOICE, log entry 237): the value, whether a ceiling clipped it, whether a
loosening write was clipped to the sealed value (DESIGN CHOICE, log entry 216). -/
def State.fieldWrite (s : State) (a : Nat) (f : FieldDesc) (v : Nat) : Nat × Bool × Bool :=
  let old := fieldOf (s.rdN a) f.lo f.width
  let r := rangeClip a f.lo (v % 2 ^ f.width)
  let x := s.ceilClip a f.lo r
  let clip := x != r
  let limit := sealLimit a f.lo
  match f.kind with
  | .rw1c => (clearBits old v, false, false)
  | .rw | .rws =>
    let closed := s.sealed && (f.kind == .rws || limit.isSome || s.loaderBits a f.lo f.width)
    if ¬ closed then (x, clip, false)
    else
      match limit with
      | some isMax =>
        let z := s.sealedOf a f.lo f.width
        let tighter := if isMax then decide (x ≤ z) else decide (z ≤ x)
        if tighter then (x, clip, false)
        else if f.kind = .rw then (z, clip, true) else (old, false, false)
      | none => (old, false, false)
  | .ro | .wo | .rc => (old, false, false)
where
  /-- The bits of `old` that are 0 in `v`. -/
  clearBits (old v : Nat) : Nat := old - (old &&& v)

/-- A field may be changed only in SERVICE, or to 0 only in SERVICE (R12 and the chapters' exceptions). -/
def serviceField (a lo : Nat) : Option Bool :=
  if (a = CMF_CTRL ∨ a = CSI_CTRL ∨ a = AUX_CTRL ∨ a = FAB_CTRL) ∧ lo = 0 then some true
  else if (List.range 16).any (fun e => a == ENG_n_CTRL e) ∧ lo = 0 then some true
  else if a = CSI_CTRL ∧ (lo = 3 ∨ lo = 5) then some false
  else none

/-- After seal no engine, MC included, writes the diverse comparator thresholds, the qualification counts and the short-circuit
threshold (R32). -/
def State.withheldField (s : State) (i : Initiator) (a lo : Nat) : Bool :=
  match i with
  | .engine _ => s.sealed && ((List.range 32).any (fun n => a == PSF_DCn_CFG n) || (a == PSF_SC_CFG && lo == 0))
  | _ => false

/-- A restricted field is held by a write (R12): a field of SERVICE, one that only the harbour writes (Table 3.12), or one that
engines do not write after seal (R32) (DEDUCED, log entry 200). -/
def State.fieldHeld (s : State) (i : Initiator) (a : Nat) (f : FieldDesc) (v : Nat) : Bool :=
  match serviceField a f.lo with
  | some zeroOnly => s.mode != 4 && (!zeroOnly || v % 2 ^ f.width == 0)
  | none => (a == CMF_SNAP_CFG && f.lo == 5 && !s.asHarbour i) || s.withheldField i a f.lo

/-- A write of a field is ignored: MODE 3 (R64), UTC away from the harbour (Table 2.6), the selection of a TRIM run in progress
(R385), K_SW of a switch already requested (Table 15.14) (DEDUCED, log entries 200, 201). -/
def State.fieldIgnored (s : State) (a : Nat) (f : FieldDesc) (v : Nat) : Bool :=
  (a == CMF_FILT_CFG && f.lo == 0 && v % 4 == 3) ||
    ((a == TMG_UTC_OFS_LO || a == TMG_UTC_OFS_LO + 4) && !s.isHarbour) ||
    ((a == MGT_CAL_CTRL || a == MGT_CAL_CELLSEL || a == MGT_CAL_OTHSEL) && s.calRuns) ||
    ((a == MGT_CFG_KSW_LO || a == MGT_CFG_KSW_LO + 4) && s.flag MGT_CFG_SW_STAT_PEND)

/-- A field takes a written value within its bounds, and the clips that have a counter are counted (R31): at a ceiling, at the sealed
value, of an excitation amplitude (CSI_IMP_CLIP; DESIGN CHOICE, log entry 237). -/
def State.takeField (s : State) (a : Nat) (f : FieldDesc) (v : Nat) : State :=
  let (x, ceil, tight) := s.fieldWrite a f v
  let amp := !s.sealed && f.lo == 24 && decide (150 < v % 2 ^ f.width) && (List.range 24).any fun b => a == CSI_IMP_BINb_CFG b
  let s := s.put ⟨a, f.lo, f.width⟩ x
  let s := if ceil then s.bump PSF_CLIPS_CEIL 1 else s
  let s := if amp then s.bump CSI_IMP_CLIP_AMP 1 else s
  if tight then s.bump PSF_CLIPS_TIGHT 1 else s

/-- One field of a write performed; a restricted field that would change is refused (R12). -/
def State.writeField (s : State) (i : Initiator) (a w : Nat) (f : FieldDesc) : State :=
  let v := fieldOf w f.lo f.width
  let old := fieldOf (s.rdN a) f.lo f.width
  if s.fieldIgnored a f v then s
  else if s.fieldHeld i a f v then (if v = old then s else s.refuseAccess (ownerOf a) i 1 a)
  else s.takeField a f v

/-- The fields of a register written (R10, R12). -/
def State.writeFields (s : State) (i : Initiator) (a w : Nat) : State :=
  match regAt a with
  | some (d, _, _) => d.fields.foldl (fun s f => s.writeField i a w f) s
  | none => s

/-- The channel of a trim register, with the source bits its write sets: the offset's, or those of the gain and q, which a written gain
sets; a written q or k alone sets none (R379, R384) (DEDUCED, log entry 268). -/
def trimChan (a : Nat) : Option (Nat × Nat) :=
  (List.range 50).findSome? fun ch =>
    (trimRegs ch).zipIdx.findSome? fun r => if r.1.1 = a then some (ch, if r.2 = 0 then 1 else if r.2 = 1 then 2 else 0) else none

/-- A trim register is written (R68, R379, R384): refused during a run; it takes effect at the next tick boundary and counts as a
TRIM value (DEDUCED, log entry 268). -/
def State.writeTrim (s : State) (i : Initiator) (a w ch b : Nat) : State :=
  if s.calRuns then s.refuseAccess (ownerOf a) i 1 a
  else
    let old := if s.trimOld.any fun e => e.1 == a then s.trimOld else (a, s.rd a) :: s.trimOld
    ({ s with trimOld := old }.writeFields i a w).setSrc ch (s.srcBits ch ||| b)

/-- A write performed on every field of a register (R10, R12), with what goes with it: a peak is cleared by bit 31 (Table 2.6), a
route edited sets EDITED (Table 10.8), a trim follows R68 (DEDUCED, log entry 159). -/
def State.plainWrite (s : State) (i : Initiator) (a w : Nat) : State :=
  let s := if a = MEM_CTRL ∨ a = MEM_SCRUB_CFG then s.syncScrub else s
  if (List.range 16).any fun e => a == TMG_ENGn_PEAK e then (if bitOf w 31 then s.wrN a 0 else s)
  else if (List.range 241).any fun d => a == FAB_RTd d then (s.writeFields i a w).put FAB_NET_STAT_EDITED 1
  else match trimChan a with
    | some (ch, b) => s.writeTrim i a w ch b
    | none => s.writeFields i a w

/-- A register has a field that a write can act on (Table 0.3) (DEDUCED, log entry 63). -/
def RegDesc.writable (d : RegDesc) : Bool :=
  d.fields.any fun f => f.kind == .rw || f.kind == .rws || f.kind == .rw1c || f.kind == .wo

/-- The register lists the mode (R12); a register with no writable field ignores every write and records nothing (R10). In recovery
the update registers are writable (R404) (DEDUCED, log entry 63). -/
def State.modeAllows (s : State) (i : Initiator) (a : Nat) : Bool :=
  match regAt a with
  | some (d, n, _) =>
    if a = ENG_n_PERF_UACC n ∧ 0x80000 ≤ a ∧ a < 0x90000 then (isEngine i n && s.mode != 0 && s.mode != 6) || s.mode == 4
    else if 0x68 ≤ a ∧ a < 0x78 ∧ s.flag MGT_FW_STAT_RECOVERY then true
    else !d.writable || bitOf d.modes s.mode
  | none => false

/-- A write to a register: path and privilege, the modes of its heading, then `act`, which performs it (R12, R444, R446). A
performed write by a privileged initiator restarts the SERVICE timeout (R354). A write that is refused while it is performed ends as a
refused one, and an engine takes an access fault where it lacks the right (R278, R421, R446; DEDUCED, log entry 250). -/
def State.guarded (s : State) (i : Initiator) (a : Nat) (act : State → State) : Ended × State :=
  let s := s.countAccess i a true
  let c := s.accessCode i a true
  if c ≠ 0 then (c, s.refused i a true c)
  else if ¬ s.modeAllows i a then (2, { s.refuseAccess (ownerOf a) i 1 a with turned := 0 })
  else
    let t := act { s with turned := 0, privAt := if s.privileged i then s.now else s.privAt }
    if t.turned = 0 then (0, t)
    else (2, if t.turned = 2 then { t with turned := 0 }.accessTrap i a true else { t with turned := 0 })

/-- A write of a row of the table: it is guarded, performed, and its end is shown. -/
def State.writeRow (s : State) (i : Initiator) (a : Nat) (act : State → State) : State :=
  let r := s.guarded i a act
  r.2.emit (.ended r.1)

/-- A write performed only for privileged initiators; any other is ignored and recorded (R288). -/
def State.ifPrivileged (s : State) (i : Initiator) (a : Nat) (act : State → State) : State :=
  if s.privileged i then act s else s.refuseRight (ownerOf a) i a

/-! ## Reads -/

/-- The RC fields of a register clear (R10, R469). -/
def State.clearRc (s : State) (a : Nat) : State :=
  match regAt a with
  | some (d, _, _) => d.fields.foldl (fun s f => if f.kind = .rc then s.put ⟨a, f.lo, f.width⟩ 0 else s) s
  | none => s

/-- The key of a read latch: initiator and address (R21). -/
def latchKey (i : Initiator) (a : Nat) : Nat := i.code * 2 ^ 32 + a

/-- The word a register read returns, and the state after the read: a low word latches its high word for the initiator, a high
word returns what was latched, RC fields clear (R9, R10, R21) (DEDUCED, log entry 215). -/
def State.readReg (s : State) (i : Initiator) (a : Nat) : Word × State :=
  let w := BitVec.ofNat 32 (s.view a)
  if isLowWord a then
    let h := BitVec.ofNat 32 (s.view (a + 4))
    (w, { s with latches := (latchKey i (a + 4), h) :: s.latches.filter fun e => e.1 != latchKey i (a + 4) }.clearRc a)
  else
    match s.latches.find? fun e => e.1 == latchKey i a with
    | some e => (e.2, { s with latches := s.latches.filter fun e => e.1 != latchKey i a })
    | none => (w, s.clearRc a)

/-- CSI_STAT.SC_ACT is the level of the short-circuit comparator. It is known at the qualification and from SC_QUIET on; in between no
command says when the input falls below the threshold, and a read takes a free value (Table 4.4; DESIGN CHOICE, log entry 230). -/
def State.scLevel (s : State) (a : Nat) : State :=
  if a = CSI_STAT ∧ s.flag PSF_SC_STAT_TRIP ∧ ¬ s.flag PSF_SC_STAT_QUIET ∧ s.psf.scAt < s.now then
    let (x, s) := s.fresh 1
    s.put CSI_STAT_SC_ACT x.toNat
  else s

/-- MGT_LOG_WRk as an initiator reads it (R408). -/
def State.stagedLog (s : State) (i : Initiator) (k : Nat) : Word :=
  ((s.log.staging.find? fun e => e.1 == i.code * 4 + k).map (·.2)).getD 0

/-- A read of one word: how it ends, the word (0 when it is not performed), the state after it
(DESIGN CHOICE, log entry 66). -/
def State.busRead (s : State) (i : Initiator) (a : Nat) : (Ended × Word) × State :=
  let s := s.countAccess i a false
  let c := s.accessCode i a false
  if c ≠ 0 then ((c, 0), s.refused i a false c)
  else
    match locate i a with
    | some (.reg, _) =>
      match (List.range 4).find? fun k => a == MGT_LOG_WRk k with
      | some k => ((0, s.stagedLog i k), s)
      | none => let (w, t) := (if 0x80000 ≤ a ∧ a < 0x90000 then s.syncAll else s.scLevel a).readReg i a; ((0, w), t)
    | some (.boot, _) => let (w, t) := s.fresh 32; ((0, w), t)
    | some (_, pa) => ((0, BitVec.ofNat 32 (s.memLE pa 4)), s)
    | none => ((4, 0), s)

/-- A read of a row of the table: the word, or how the read ended, is shown. -/
def State.readRow (s : State) (i : Initiator) (a : Nat) : State :=
  let r := s.busRead i a
  if r.1.1 = 0 then r.2.emit (.word r.1.2) else r.2.emit (.ended r.1.1)

end Sys2Proof.Machine
end

