-- ==== Sys2Proof/Machine/Trig.lean ====
section
/-! DEFINITION. Cosine, sine and arctangent in fixed point with 48 fraction bits, by structural recursion on integers. -/

namespace Sys2Proof.Machine

/-- One in fixed point. -/
def fixOne : Int := 2 ^ 48

/-- 2π in fixed point. -/
def fixTau : Int := 1768559438007110

/-- Terms of an alternating power series: `t` the current term, `x2` the square of the argument, `n` the last factor of the
factorial so far. -/
def series : Nat → Int → Int → Nat → Int → Int
  | 0, _, _, _, acc => acc
  | k + 1, t, x2, n, acc => series k (-(t * x2 / fixOne) / (((n + 1) * (n + 2) : Nat) : Int)) x2 (n + 2) (acc + t)

/-- The angle 2π r / N, brought into -π to π. -/
def fixAngle (r n : Nat) : Int :=
  let k : Int := if 2 * (r % n) < n then (r % n : Nat) else ((r % n : Nat) : Int) - n
  fixTau * k / n

/-- cos(2π r / N) (DEDUCED, log entry 88). -/
def fixCos (r n : Nat) : Int := let x := fixAngle r n; series 18 fixOne (x * x / fixOne) 0 0

/-- sin(2π r / N) (DEDUCED, log entry 88). -/
def fixSin (r n : Nat) : Int := let x := fixAngle r n; series 18 x (x * x / fixOne) 1 0

/-- The quotient rounded to nearest, halves away from zero (Table 8.3). -/
def roundAway (a : Int) (b : Nat) : Int :=
  if 0 ≤ a then (2 * a + b) / (2 * (b : Int)) else -((2 * -a + b) / (2 * (b : Int)))

/-- A Q15 twiddle: within ±1 of 32,768 × `x`, clamped to ±32,767 (R194). `err` chooses among the integers that satisfy the
bound (DESIGN CHOICE, log entry 5). -/
def twiddle (x err : Int) : Int :=
  let c := roundAway (x * 32768) (2 ^ 48)
  let d := c + clampI (-1) 1 err
  clampI (-32767) 32767 (if (d * fixOne - x * 32768).natAbs ≤ 2 ^ 48 then d else c)

end Sys2Proof.Machine
end

