-- ==== Sys2Proof/Machine/EngineIsa.lean ====
section
/-! DEFINITION. The extension instructions of the engines (R192 to R195, Table 8.3). -/

namespace Sys2Proof.Machine

/-- Register x`r` of engine `e`; x0 reads 0. -/
def State.xreg (s : State) (e r : Nat) : Word := if r = 0 then 0 else vget (s.engine e).x r 0

/-- Register x`r` of engine `e` given the value `w`; x0 discards it. -/
def State.setX (s : State) (e r : Nat) (w : Word) : State :=
  if r = 0 then s else s.onEng e fun g => { g with x := vset g.x r w }

/-- Accumulator `a` of engine `e`. -/
def State.accOf (s : State) (e a : Nat) : Int := (vget (s.engine e).acc a 0).toInt

/-- An accumulator given an exact result, saturated with its sticky flag (R195). -/
def State.setAcc (s : State) (e a : Nat) (z : Int) : State :=
  let y := satI 40 z
  let s := s.onEng e fun g => { g with acc := vset g.acc a (BitVec.ofInt 40 y) }
  if y = z then s
  else
    let s := s.onEng e fun g => { g with yst := BitVec.ofNat 4 (setBitN g.yst.toNat a) }
    (s.wrN (ENG_n_YST e) (s.engine e).yst.toNat).pmc e 0x0C 1

/-- The engine goes on to the next instruction: one more has retired (Table 8.8). -/
def State.retire (s : State) (e : Nat) : State := (s.onEng e fun g => { g with pc := g.pc + 4 }).pmc e 0x02 1

/-- An illegal instruction stops the engine at its program counter (R188, R193): mcause 2; the value in mtval is no operand of the
command, so it is free (DEDUCED, log entry 20; DESIGN CHOICE, log entry 21). -/
def State.illegal (s : State) (e : Nat) : State :=
  let (v, s) := s.fresh 32
  s.trapEngine e 2 (s.engine e).pc.toNat v.toNat

/-- An instruction of engine `e`: performed only while the engine executes (DEDUCED, log entry 22), illegal when an operand field is
not as Table 8.3 requires. -/
def State.instr (s : State) (e : Nat) (legal : Bool) (act : State → State) : State :=
  if ¬ s.running e then s else if legal then (act s).retire e else s.illegal e

/-- lo(x) and hi(x) of Table 8.3. -/
def loH (w : Word) : Int := toI 16 w.toNat
@[inherit_doc loH]
def hiH (w : Word) : Int := toI 16 (w.toNat / 65536)

/-- A MAC instruction: the accumulator gains `f` of the two source words. -/
def State.mac (s : State) (e a rs1 rs2 : Nat) (f : Word → Word → Int) : State :=
  s.instr e (decide (a < 4)) fun s => (s.setAcc e a (s.accOf e a + f (s.xreg e rs1) (s.xreg e rs2))).pmc e 0x0A 1

/-- yd.mac2 (Table 8.3). -/
def execYdMac2 (e : Fin 16) (rd rs1 rs2 : Fin 32) (s : State) : Outcome :=
  .next (s.mac e rd rs1 rs2 fun x y => loH x * loH y + hiH x * hiH y)

/-- yd.msu2 (Table 8.3). -/
def execYdMsu2 (e : Fin 16) (rd rs1 rs2 : Fin 32) (s : State) : Outcome :=
  .next (s.mac e rd rs1 rs2 fun x y => -(loH x * loH y + hiH x * hiH y))

/-- yd.mcr (Table 8.3). -/
def execYdMcr (e : Fin 16) (rd rs1 rs2 : Fin 32) (s : State) : Outcome :=
  .next (s.mac e rd rs1 rs2 fun x y => loH x * loH y - hiH x * hiH y)

/-- yd.mci (Table 8.3). -/
def execYdMci (e : Fin 16) (rd rs1 rs2 : Fin 32) (s : State) : Outcome :=
  .next (s.mac e rd rs1 rs2 fun x y => loH x * hiH y + hiH x * loH y)

/-- yd.mac1 (Table 8.3). -/
def execYdMac1 (e : Fin 16) (rd rs1 rs2 : Fin 32) (s : State) : Outcome :=
  .next (s.mac e rd rs1 rs2 fun x y => toI 24 x.toNat * toI 18 y.toNat / 256)

/-- The two twiddles of a DFT step, cosine and sine (R194) (DESIGN CHOICE, log entry 5). -/
def twiddles (r n : Nat) : Int × Int :=
  (twiddle (fixCos r n) (Config.twiddleErr r n).1, twiddle (fixSin r n) (Config.twiddleErr r n).2)

/-- A DFT step on pair `p` (R194). -/
def State.dftStep (s : State) (e p rs1 : Nat) : State :=
  let g := s.engine e
  let (c, d) := twiddles g.yr.toNat g.yn.toNat
  let x := toI 24 (s.xreg e rs1).toNat
  let s := s.setAcc e p (s.accOf e p + roundAway (x * c) 32768)
  (s.setAcc e (p + 1) (s.accOf e (p + 1) - roundAway (x * d) 32768)).pmc e 0x0B 1

/-- The operands and CSRs with which a DFT step is legal (R193, R194): p even, rs2 = x0, 1 ≤ N ≤ 2^24, r < N
(DESIGN CHOICE, log entry 21). -/
def State.dftLegal (s : State) (e rd rs2 : Nat) : Bool :=
  let g := s.engine e
  decide (rd < 4) && rd % 2 == 0 && rs2 == 0 && decide (1 ≤ g.yn.toNat) && decide (g.yn.toNat ≤ 2 ^ 24) &&
    decide (g.yr.toNat < g.yn.toNat)

/-- yd.dft (R194). -/
def execYdDft (e : Fin 16) (rd rs1 rs2 : Fin 32) (s : State) : Outcome :=
  .next (s.instr e (s.dftLegal e rd rs2) fun s => s.dftStep e rd rs1)

/-- yd.dfta (R194): the step, then yr ← (yr + ym) mod yn. -/
def execYdDfta (e : Fin 16) (rd rs1 rs2 : Fin 32) (s : State) : Outcome :=
  .next (s.instr e (s.dftLegal e rd rs2) fun s =>
    (s.dftStep e rd rs1).onEng e fun g => { g with yr := BitVec.ofNat 24 ((g.yr.toNat + g.ym.toNat) % g.yn.toNat) })

/-- yd.accw (Table 8.3): A ← s8(rs2[7:0])·2^32 + rs1. -/
def execYdAccw (e : Fin 16) (rd rs1 rs2 : Fin 32) (s : State) : Outcome :=
  .next (s.instr e (decide (rd.val < 4)) fun s =>
    s.setAcc e rd (toI 8 (s.xreg e rs2).toNat * 2 ^ 32 + (s.xreg e rs1).toNat))

/-- yd.accz (Table 8.3). -/
def execYdAccz (e : Fin 16) (rd _rs1 _rs2 : Fin 32) (s : State) : Outcome :=
  .next (s.instr e (decide (rd.val < 4)) fun s => s.setAcc e rd 0)

/-- yd.accrl (Table 8.3). -/
def execYdAccrl (e : Fin 16) (rd rs1 _rs2 : Fin 32) (s : State) : Outcome :=
  .next (s.instr e (decide (rs1.val < 4)) fun s => s.setX e rd (BitVec.ofInt 32 (s.accOf e rs1)))

/-- yd.accrh (Table 8.3). -/
def execYdAccrh (e : Fin 16) (rd rs1 _rs2 : Fin 32) (s : State) : Outcome :=
  .next (s.instr e (decide (rs1.val < 4)) fun s => s.setX e rd (BitVec.ofInt 32 (s.accOf e rs1 / 2 ^ 32)))

/-- yd.accrs (Table 8.3): shifted by min(rs2[5:0], 39), rounded, saturated to 32 bits. -/
def execYdAccrs (e : Fin 16) (rd rs1 rs2 : Fin 32) (s : State) : Outcome :=
  .next (s.instr e (decide (rs1.val < 4)) fun s =>
    s.setX e rd (BitVec.ofInt 32 (satI 32 (roundAway (s.accOf e rs1) (2 ^ min ((s.xreg e rs2).toNat % 64) 39)))))

/-- yd.pks (Table 8.3). -/
def execYdPks (e : Fin 16) (rd rs1 rs2 : Fin 32) (s : State) : Outcome :=
  .next (s.instr e true fun s =>
    s.setX e rd (BitVec.ofNat 32 (ofI 16 (satI 16 (s.xreg e rs1).toInt) + ofI 16 (satI 16 (s.xreg e rs2).toInt) * 65536)))

/-- yd.upkl (Table 8.3). -/
def execYdUpkl (e : Fin 16) (rd rs1 _rs2 : Fin 32) (s : State) : Outcome :=
  .next (s.instr e true fun s => s.setX e rd (BitVec.ofInt 32 (loH (s.xreg e rs1))))

/-- yd.upkh (Table 8.3). -/
def execYdUpkh (e : Fin 16) (rd rs1 _rs2 : Fin 32) (s : State) : Outcome :=
  .next (s.instr e true fun s => s.setX e rd (BitVec.ofInt 32 (hiH (s.xreg e rs1))))

/-- yd.sat (Table 8.3): imm[11:5] = 0, imm[4:0] = w - 1, not 0. -/
def execYdSat (e : Fin 16) (rd rs1 : Fin 32) (imm : BitVec 12) (s : State) : Outcome :=
  .next (s.instr e (decide (1 ≤ imm.toNat) && decide (imm.toNat < 32)) fun s =>
    s.setX e rd (BitVec.ofInt 32 (satI (imm.toNat + 1) (s.xreg e rs1).toInt)))

/-- A CSR of Table 8.2 takes the bits it has; yst is written 0 to clear. -/
def State.setExt (s : State) (e : Nat) (csr : ExtCsr) (v : Word) : State :=
  match csr with
  | .yr => s.onEng e fun g => { g with yr := v.setWidth 24 }
  | .yn => s.onEng e fun g => { g with yn := v.setWidth 25 }
  | .ym => s.onEng e fun g => { g with ym := v.setWidth 24 }
  | .yst =>
    let s := s.onEng e fun g => { g with yst := g.yst &&& v.setWidth 4 }
    s.wrN (ENG_n_YST e) (s.engine e).yst.toNat
  | .ysp => s.onEng e fun g => { g with ysp := v }

/-- EXTENSION_CSR_WRITE (R192, Table 8.2). -/
def execExtensionCsrWrite (e : Fin 16) (csr : ExtCsr) (v : Word) (s : State) : Outcome :=
  .next (s.instr e true fun s => s.setExt e csr v)

end Sys2Proof.Machine
end

