-- ==== Sys2Proof/Machine/Log.lean ====
section
/-! DEFINITION. The natural logarithm in fixed point, for the thermistor equation (R171), and the arctangent, for the phase of
an impedance (R134). -/

namespace Sys2Proof.Machine

/-- ln 2 in fixed point with 48 fraction bits. -/
def fixLn2 : Int := 195103586505167

/-- `k` terms of y + y^3/3 + y^5/5 + …: `t` the current power, `y2` the square of y, `n` the current divisor. -/
def atanhSeries : Nat → Int → Int → Nat → Int → Int
  | 0, _, _, _, acc => acc
  | k + 1, t, y2, n, acc => atanhSeries k (t * y2 / fixOne) y2 (n + 2) (acc + t / (n : Int))

/-- ln(p / q) in fixed point, for positive p and q: the ratio is brought near 1 by a power of 2, and ln m = 2 artanh of
(m - 1) / (m + 1). -/
def fixLn (p q : Nat) : Int :=
  let k : Int := (p.log2 : Int) - q.log2
  let a : Int := if 0 ≤ k then p else p * 2 ^ k.natAbs
  let b : Int := if 0 ≤ k then q * 2 ^ k.natAbs else q
  let y := (a - b) * fixOne / (a + b)
  k * fixLn2 + 2 * atanhSeries 24 y (y * y / fixOne) 1 0

/-- t / (1 + sqrt(1 + t^2)) in fixed point: the tangent of half the angle. -/
def halfTan (t : Int) : Int :=
  t * fixOne / (fixOne + (isqrt (fixOne * fixOne + t * t).toNat : Nat))

/-- `k` terms of t - t^3/3 + t^5/5 - …, as `atanhSeries`. -/
def atanSeries : Nat → Int → Int → Nat → Int → Int
  | 0, _, _, _, acc => acc
  | k + 1, t, t2, n, acc => atanSeries k (-(t * t2 / fixOne)) t2 (n + 2) (acc + t / (n : Int))

/-- The arctangent of a ratio of magnitude at most 1, in fixed point. -/
def atanUnit (t : Int) : Int := let h := halfTan (halfTan t); 4 * atanSeries 14 h (h * h / fixOne) 1 0

/-- atan2(y, x) in 0.01°, rounded (R135); 0 at the origin. -/
def phase100 (y x : Int) : Int :=
  let a : Int :=
    if x = 0 ∧ y = 0 then 0
    else if y.natAbs ≤ x.natAbs then
      let p := atanUnit (y * fixOne / x)
      if 0 ≤ x then p else if 0 ≤ y then p + fixTau / 2 else p - fixTau / 2
    else
      let p := atanUnit (x * fixOne / y)
      if 0 ≤ y then fixTau / 4 - p else -(fixTau / 4) - p
  rdivI (a * 36000) fixTau.toNat

end Sys2Proof.Machine
end

