-- ==== Sys2Proof/Machine/Cell.lean ====
section
/-! DEFINITION. The cell measurement front end (chapter 3): base-rate samples, the tick filter (R64), calibration (R67), flags
and summaries at the bank switch (R70, R71), open-wire detection (R73 to R76), the diverse comparators as CMF and PSF see
them (R78 to R83), the CMF rows of the table. -/

namespace Sys2Proof.Machine

/-! ## Samples and the tick filter -/

/-- Channel `ch` of the 34: 0 to 31 the cells, 32 and 33 the current channels. -/
def State.chan (s : State) (ch : Nat) : ChanSt := vget s.meas.chan ch .reset

/-- Channel `ch` changed by `f`. -/
def State.onChan (s : State) (ch : Nat) (f : ChanSt → ChanSt) : State :=
  { s with meas := { s.meas with chan := vset s.meas.chan ch (f (s.chan ch)) } }

/-- One more sample in a window. -/
def WinAcc.add (w : WinAcc) (x : Int) : WinAcc :=
  if w.n = 0 then { sum := x, n := 1, lo := x, hi := x }
  else { sum := w.sum + x, n := w.n + 1, lo := min w.lo x, hi := max w.hi x }

/-- Two windows taken together. -/
def WinAcc.join (a b : WinAcc) : WinAcc :=
  if a.n = 0 then b else if b.n = 0 then a
  else { sum := a.sum + b.sum, n := a.n + b.n, lo := min a.lo b.lo, hi := max a.hi b.hi }

/-- A channel after a base-rate sample `x`; `ov` says that its bitstream held the overload signature (R63). -/
def ChanSt.take (c : ChanSt) (x : Int) (ov : Bool) : ChanSt :=
  let bad := ov || decide (0 < c.forced)
  let left := if c.forceNext then 32 else c.forced - 1
  let run := if bad then c.run + 1 else 0
  let quiet := if bad then 0 else c.quiet + 1
  { c with acc := c.acc.add x, run := run, quiet := quiet, forced := left, forceNext := false, modNow := c.modNow || bad || c.modHold,
           modHold := if 32 ≤ run then true else if 32 ≤ quiet then false else c.modHold }

/-- A channel at a sample instant: the samples since the last one become the window of the tick. -/
def ChanSt.atInstant (c : ChanSt) : ChanSt :=
  { c with prev := c.win, win := c.acc, acc := .zero, modTick := c.modNow, modNow := c.modHold }

/-- The source, code and instance of the modulator fault of channel `ch` (Table 12.1). -/
def modFault (ch : Nat) : Nat × Nat × Nat := if ch < 32 then (2, 0x10, ch) else (3, 0x13, ch - 32)

/-- Channel `ch` takes its sample of a strobe; a modulator fault whose 32 good base periods are complete ends (R63)
(DEDUCED, log entry 69). -/
def State.takeSample (s : State) (x : StrobeSample) (ch : Nat) : State :=
  let c := s.chan ch
  let d := c.take (sampleOf x ch) (bitOf x.overload.toNat ch)
  let s := s.onChan ch fun _ => d
  if c.modHold && !d.modHold then s.endCond (modFault ch).1 (modFault ch).2.1 (modFault ch).2.2 else s

/-- The filter window of channel `ch` for tick k (R64): weighted sum, divisor, smallest and largest sample. None where the
tick holds no sample. -/
def State.filtered (s : State) (ch : Nat) : Option (Int × Nat × Int × Int) :=
  let c := s.chan ch
  if c.win.n = 0 then none
  else if s.meas.fmode = 2 then
    let xs := s.meas.histS.map fun h => sampleOf h.1 ch
    let w := xs.foldl WinAcc.add .zero
    some ((List.zipWith (· * ·) s.meas.coef xs).foldl (· + ·) 0, 2 ^ 17, w.lo, w.hi)
  else
    let w := if s.meas.fmode = 1 ∧ s.meas.prevOk then c.win.join c.prev else c.win
    some (w.sum, w.n, w.lo, w.hi)

/-- The trim in force in register `a` (R68): the value before the writes of this tick. -/
def State.trimIn (s : State) (a : Nat) : Nat :=
  match s.trimOld.find? fun e => e.1 == a with
  | some e => e.2.toNat
  | none => s.rdN a

/-- The group delay of the tick filter in 0.1 µs (R66); with coefficients whose sum is 0 the manual states none
(DESIGN CHOICE, log entry 224). -/
def State.groupDelay (s : State) : Option Int :=
  let p : Int := s.period
  let nb := s.nb
  if s.meas.fmode = 2 then
    let c := s.meas.coef.foldl (· + ·) 0
    let m := (s.meas.coef.zipIdx.map fun e => e.1 * (e.2 : Int)).foldl (· + ·) 0
    if c = 0 then none else some (rdivI (10 * p * (765 * c + 512 * m) * c.sign) (512 * nb * c.natAbs))
  else
    let n : Int := if s.meas.fmode = 1 then 2 * nb else nb
    some (rdivI (10 * p * (765 + 256 * (n - 1))) (512 * nb))

/-- At a tick boundary the filter mode and the coefficients written before it come into force (R65), GD reports the delay
(R66), and the publication of cell results resumes if CMF_CTRL.EN is 1 (R90). A delay that GD cannot hold reads as the nearest
value it can (DESIGN CHOICE, log entry 224). -/
def State.latchFilter (s : State) : State :=
  let coef := (List.range 32).map fun m => toI 18 (s.rdN (CMF_TFIR_COEFm m))
  let s := { s with meas := { s.meas with fmode := s.get CMF_FILT_CFG_MODE, coef := coef, enAt := s.flag CMF_CTRL_EN } }
  let s := if s.meas.enAt then s else s.owStop false
  match s.groupDelay with
  | some d => s.put CMF_FILT_CFG_GD (clampI 0 (2 ^ 24 - 1) d).toNat
  | none => let (w, s) := s.fresh 24; s.put CMF_FILT_CFG_GD w.toNat

/-! ## Calibration -/

/-- A filtered cell value S / n in µV calibrated (R67), rounded and saturated (R58): the result, and whether it lay beyond the
measurement range. -/
def State.cellConv (s : State) (c : Nat) (sum : Int) (n : Nat) : Int × Bool :=
  let o := toI 20 (s.trimIn (CMF_TRIMn_OFS c))
  let g := toI 24 (s.trimIn (CMF_TRIMn_GAIN c))
  let q := toI 16 (s.trimIn (CMF_TRIMn_QUAD c))
  let k := toI 16 (s.trimIn (CMF_TRIMn_TC c))
  let m : Int := n
  let d := sum - 3000000 * m
  let v := rdivI (sum * m * (100000000 + g) * 1000000 + o * m * m * 10 ^ 13 + q * d * d +
    k * (s.aux.ts - 500) * m * m * (5 * 10 ^ 10)) (n * n * 10 ^ 14)
  (clampI (-500000) 5500000 v, decide (v < -500000) || decide (5500000 < v))

/-- The result of cell channel `c` for tick k as its sample engine computes it: value, smallest, largest, RANGE
(DEDUCED, log entry 73). -/
def State.cellResult (s : State) (c : Nat) : Option (Int × Int × Int × Bool) :=
  (s.filtered c).map fun (sum, n, lo, hi) =>
    let v := s.cellConv c sum n
    (v.1, (s.cellConv c lo 1).1, (s.cellConv c hi 1).1, v.2)

/-- A word that firmware posted for a result register, if any (R198). -/
def State.postedWord (s : State) (a : Nat) : Option Int :=
  (s.meas.staged.find? fun e => e.1 == a).map fun e => e.2.toInt

/-! ## Publication at the bank switch -/

/-- A TRIM run covers a channel of `CalRun` (R68, R94). -/
def State.trimCovers (s : State) (ch : Nat) : Bool :=
  match s.cal.run with
  | some r => r.cover.contains ch
  | none => false

/-- The used channels on either side of tap `t` (R73). -/
def State.tapChannels (s : State) (t : Nat) : List Nat :=
  ((if 0 < t then [t - 1] else []) ++ [t]).filter fun c => decide (c < s.cellsN)

/-- Channel `c` lies beside a tap under test. -/
def State.owAffects (s : State) (c : Nat) : Bool := s.meas.ow.taps.any fun t => (s.tapChannels t).contains c

/-- Channel `c` holds its result for an open-wire dwell or its recovery tick (R76). -/
def State.owHolds (s : State) (c : Nat) : Bool :=
  let w := s.meas.ow
  w.on && decide (w.a < s.tickNo) && decide (s.tickNo ≤ w.a + w.dwell + 1) && s.owAffects c

/-- CMF_TEST selects the internal reference on channel `c`, in SERVICE only (Table 3.10). -/
def State.cellTest (s : State) (c : Nat) : Bool := s.flag CMF_TEST_REF && s.get CMF_TEST_SEL == c && s.mode == 4

/-- Tap `t` is reported open (R75). -/
def State.tapOpen (s : State) (t : Nat) : Bool :=
  if t < 32 then bitOf (s.rdN CMF_OW_TAP_LO) t else t == 32 && s.flag CMF_OW_TAP_HI_T32

/-- The Ferry acted on cell `c` in the filter window (R72). -/
def State.ferryIn (s : State) (c : Nat) : Bool :=
  if s.meas.fmode = 2 then s.meas.histS.any fun h => bitOf h.2 c
  else bitOf s.meas.ferryWin c || (s.meas.fmode == 1 && s.meas.prevOk && bitOf s.meas.ferryPrev c)

/-- The flag bits that do not depend on whether the result is held (Table 3.11) (DEDUCED, log entry 73). -/
def State.cellState (s : State) (c : Nat) : Nat :=
  let used := decide (c < s.cellsN)
  16 * b2n (used && (s.tapOpen c || s.tapOpen (c + 1))) + 128 * b2n (!used) +
    256 * b2n (used && s.flag (PSF_DCn_STAT_OVQ c)) + 512 * b2n (used && s.flag (PSF_DCn_STAT_UVQ c)) +
    2048 * b2n (s.trimReq (2 + c)) + 4096 * b2n (s.get TMG_STAT_STATE == 3) + 8192 * b2n s.tick.exceeded +
    32768 * b2n (s.cellTest c)

/-- The flag bits that make a result not VALID (R70). -/
def cellInvalid : Nat := 0x80FE

/-- Counts of CMF_DIAGn_CNT for the flags with which the result of a tick is published (R90) (DESIGN CHOICE, log entry 253). -/
def State.cellDiag (s : State) (c fl : Nat) : State :=
  let s := if bitOf fl 5 then s.bump (CMF_DIAGn_CNT_RANGE c) 1 else s
  let s := if bitOf fl 6 then s.bump (CMF_DIAGn_CNT_MOD c) 1 else s
  let s := if bitOf fl 2 then s.bump (CMF_DIAGn_CNT_LATE c) 1 else s
  if bitOf fl 10 then s.bump (CMF_DIAGn_CNT_DIS c) 1 else s

/-- The result of channel `c` is published or held; `late` says that its engine did not post (R47, R61, R70, R76, R90). SEQ is the
tick, or the burst count in WATCH (R84) (DEDUCED, log entry 73). -/
def State.publishCell (s : State) (late : Bool) (c : Nat) : State :=
  let stale := s.trimCovers (2 + c) || !(s.flag CMF_CTRL_EN && s.meas.enAt)
  let owi := s.owHolds c
  let res := if late || stale || owi then none else s.cellResult c
  let old := s.rdN (CMF_CELLn_FLAG c)
  let hold := 2 * b2n stale + 4 * b2n late + 8 * b2n owi + s.cellState c + 1024 * b2n (bitOf s.meas.dis c)
  match res with
  | none =>
    let fl := hold + (old &&& 0x4060) + old / 65536 * 65536
    let fl := if bitOf s.meas.unused c then setBitN fl 5 else fl
    (s.wrN (CMF_CELLn_FLAG c) fl).cellDiag c fl
  | some (v, lo, hi, range) =>
    let v := (s.postedWord (CMF_CELLn_V c)).getD v
    let fl := hold + 32 * b2n (range || bitOf s.meas.unused c) + 64 * b2n (s.chan c).modTick + 16384 * b2n (s.ferryIn c) +
      (if s.mode = 1 then s.meas.bursts else s.tickNo) % 65536 * 65536
    let fl := if fl &&& cellInvalid = 0 then fl + 1 else fl
    let s := s.wrN (CMF_CELLn_V c) (ofI 32 v)
    let s := if s.flag CMF_CTRL_MINMAX_EN then
        (s.wrN (CMF_CELLn_MIN c) (ofI 32 ((s.postedWord (CMF_CELLn_MIN c)).getD lo))).wrN (CMF_CELLn_MAX c)
          (ofI 32 ((s.postedWord (CMF_CELLn_MAX c)).getD hi))
      else s
    (s.wrN (CMF_CELLn_FLAG c) fl).cellDiag c fl

/-- The value of channel `c` in µV as it is reported. -/
def State.cellV (s : State) (c : Nat) : Int := toI 32 (s.rdN (CMF_CELLn_V c))

/-- The result of channel `c` is VALID. -/
def State.cellValid (s : State) (c : Nat) : Bool := s.flag (CMF_CELLn_FLAG_VALID c)

/-- The main path and the comparators of channel `c` disagree (R82). -/
def State.disagrees (s : State) (c : Nat) : Bool :=
  let v := s.cellV c
  let ov : Int := s.get (PSF_DCn_CFG_OV c) * 20000
  let uv : Int := s.get (PSF_DCn_CFG_UV c) * 20000
  let oq := s.flag (PSF_DCn_STAT_OVQ c)
  let uq := s.flag (PSF_DCn_STAT_UVQ c)
  (!oq && decide (ov + 60000 < v)) || (!uq && decide (v < uv - 60000)) || (oq && decide (v < ov - 60000)) ||
    (uq && decide (uv + 60000 < v))

/-- One more in the first count and the second back to 0, or the other way round. -/
def twoCounts {n : Nat} (a b : Vector Nat n) (c : Nat) (hit : Bool) : Vector Nat n × Vector Nat n :=
  if hit then (vset a c (vget a c 0 + 1), vset b c 0) else (vset a c 0, vset b c (vget b c 0 + 1))

/-- The counts of R82 advance on a VALID result of a used channel; DISAGREE ends after 8 compared ticks without a
disagreement. -/
def State.countDisagree (s : State) (c : Nat) : State :=
  if decide (c < s.cellsN) && s.cellValid c then
    let n := twoCounts s.meas.disBad s.meas.disGood c (s.disagrees c)
    let s := { s with meas := { s.meas with disBad := n.1, disGood := n.2 } }
    if bitOf s.meas.dis c ∧ 8 ≤ vget n.2 c 0 then
      ({ s with meas := { s.meas with dis := clrBitN s.meas.dis c } }.put (CMF_CELLn_FLAG_DISAGREE c) 0).endCond 2 0x12 c
    else s
  else s

/-- The counts of R61 advance on a fresh result of an unused channel; the condition ends after 8 ticks of 50 mV or less. A held
result neither advances nor resets them (DESIGN CHOICE, log entry 223). -/
def State.countUnused (s : State) (c : Nat) : State :=
  let fl := s.rdN (CMF_CELLn_FLAG c)
  if s.cellsN ≤ c ∧ fl &&& 0xE = 0 then
    let n := twoCounts s.meas.unBad s.meas.unGood c (decide (50000 < (s.cellV c).natAbs))
    let s := { s with meas := { s.meas with unBad := n.1, unGood := n.2 } }
    if bitOf s.meas.unused c ∧ 8 ≤ vget n.2 c 0 then
      ({ s with meas := { s.meas with unused := clrBitN s.meas.unused c } }.put (CMF_CELLn_FLAG_RANGE c) 0).endCond 2 0x13 c
    else s
  else s

/-- The channel with the least (or, negated, the greatest) value among some channels: the lowest index on a tie
(DEDUCED, log entry 70). -/
def State.extreme (s : State) (sgn : Int) : List Nat → Option Nat
  | [] => none
  | c :: t =>
    match s.extreme sgn t with
    | some d => if sgn * s.cellV d < sgn * s.cellV c then some d else some c
    | none => some c

/-- CMF_SUM_V, CMF_VMIN, CMF_VMAX and CMF_FLAGS_OR over the used channels (R71, Table 3.10) (DEDUCED, log entries 70, 71). -/
def State.cellSums (s : State) : State :=
  let used := List.range s.cellsN
  let ok := used.filter s.cellValid
  let s := s.put CMF_FLAGS_OR_F ((used.map fun c => s.rdN (CMF_CELLn_FLAG c) % 65536).foldl (· ||| ·) 0)
  let ext (a : Nat) (o : Option Nat) (s : State) : State :=
    match o with
    | some c => s.wrN a (ofI 24 (s.cellV c) + c * 2 ^ 24 + 2 ^ 31)
    | none => s.wrN a 0
  let sum := rdivI ((ok.map s.cellV).foldl (· + ·) 0) 10
  let s := s.wrN CMF_SUM_V (if ok.isEmpty then 0 else (clampI 0 (2 ^ 31 - 1) sum).toNat + 2 ^ 31)
  ext CMF_VMAX (s.extreme (-1) ok) (ext CMF_VMIN (s.extreme 1 ok) s)

/-- The posts of the tick in CMF_GRPg_STAT. -/
def State.groupStat (s : State) (late : Nat) (g : Nat) : State :=
  if bitOf late g then s.bump (CMF_GRPg_STAT_LATE g) 1
  else (s.put (CMF_GRPg_STAT_LATE g) 0).put (CMF_GRPg_STAT_LAST g) s.tickNo

/-- The tick whose results give V_pre: a tap whose channels have no fresh result is not tested (R76); the others record
V_pre (Table 3.5) (DEDUCED, log entry 74). -/
def State.owPre (s : State) : State :=
  let w := s.meas.ow
  if w.on ∧ w.a = s.tickNo then
    let fresh (c : Nat) : Bool := s.rdN (CMF_CELLn_FLAG c) &&& 0x46 == 0
    let taps := w.taps.filter fun t => (s.tapChannels t).all fresh
    let pre := ((taps.map s.tapChannels).flatten).map fun c => (c, s.cellV c)
    { s with meas := { s.meas with ow := { w with taps := taps, vPre := pre } } }
  else s

/-- The step of the open-wire rotation shown in CMF_STAT; a step is over once its recovery tick has been published. -/
def State.owEnd (s : State) : State :=
  let w := s.meas.ow
  let s := if w.on ∧ w.ended ∧ w.a + w.dwell + 1 ≤ s.tickNo then
      { s with meas := { s.meas with ow := { w with on := false, taps := [], cut := [], vPre := [] } } } else s
  (s.put CMF_STAT_OW_STEP s.meas.ow.step).putB CMF_STAT_OW_ACTIVE s.meas.ow.on

/-- The bank switch of CMF (R47, R70, R71): `late` has a bit for each sample engine that has not posted. -/
def State.bankCells (s : State) (late : Nat) : State :=
  let s := (List.range 32).foldl (fun s c => s.publishCell (bitOf late (c / 4)) c) s
  let s := (List.range 32).foldl (fun s c => (s.countDisagree c).countUnused c) s
  let s := ((List.range 8).foldl (fun s g => s.groupStat late g) s).cellSums
  let s := (s.owPre).owEnd
  let s := ((s.put CMF_STAT_BANK (s.get CMF_STAT_BANK + 1)).put CMF_STAT_MODE_ACT s.meas.fmode).put CMF_STAT_N_ACT s.cellsN
  let s := (s.putB CMF_STAT_TRIM_ACT ((List.range 32).any fun c => s.trimCovers (2 + c))).wrap ⟨CMF_BANK_TAG, 0, 32⟩ 1
  { s with meas := { s.meas with staged := [] } }

/-! ## Open-wire rotation -/

/-- The mode permits open-wire steps (R76, Table 3.6). -/
def State.owMode (s : State) : Bool := (s.mode == 2 || s.mode == 4 || s.mode == 5) && s.cal.run.isNone

/-- OPEN_WIRE_STEP (R73, R76): at a tick boundary at or after its time a step begins on the taps t with t mod 4 = j, but for
those beside a TEST channel or a fenced sample engine. The first step is due at once, and after a missed time the next one is due
STEP_MS after this one (DESIGN CHOICE, log entry 225). -/
def execOpenWireStep (s : State) : Outcome :=
  let w := s.meas.ow
  let due := w.due.getD s.now
  if s.owMode && s.flag CMF_CTRL_EN && s.flag CMF_CTRL_OW_EN && s.tick.open_ && !w.on && decide (due ≤ s.now) then
    let ok (c : Nat) : Bool := !s.cellTest c && !s.engFenced (c / 4)
    let taps := (List.range (s.cellsN + 1)).filter fun t => t % 4 == w.next && (s.tapChannels t).all ok
    let iv := s.getIn CMF_OW_CFG_STEP_MS 10 4000 * ms
    let nextDue := if due + iv ≤ s.now then s.now + iv else due + iv
    let v : OwSt := { w with on := true, step := w.next, next := (w.next + 1) % 4, due := some nextDue, a := s.tickNo,
                             ended := false, dwell := s.getIn CMF_OW_CFG_DWELL 1 15,
                             thr := s.getIn CMF_OW_CFG_THR 2 100 * 10000, taps := taps, cut := [], vPre := [] }
    .next (({ s with meas := { s.meas with ow := v } }.put CMF_STAT_OW_STEP v.step).put CMF_STAT_OW_ACTIVE 1)
  else .next s

/-- The sources of taps whose channel has moved by more than 2 × THR switch off (R74); samples before V_pre is published at the bank
switch of tick a are not compared (DESIGN CHOICE, log entry 226). -/
def State.owCutoff (s : State) (x : StrobeSample) : State :=
  let w := s.meas.ow
  if w.on ∧ ¬ w.ended then
    let far (c : Nat) : Bool := (w.vPre.find? fun e => e.1 == c).any fun e => decide (2 * w.thr < (sampleOf x c - e.2).natAbs)
    let cut := w.taps.filter fun t => !w.cut.contains t && (s.tapChannels t).any far
    { s with meas := { s.meas with ow := { w with cut := w.cut ++ cut } } }
  else s

/-- The displacement Δ of channel `c` at the end of the dwell (R75): the sample at S(a + DWELL) less V_pre
(DEDUCED, log entry 74). -/
def State.owDelta (s : State) (c : Nat) : Int :=
  let x := ((s.meas.histS.head?).map fun h => sampleOf h.1 c).getD 0
  x - (((s.meas.ow.vPre.find? fun e => e.1 == c).map (·.2)).getD 0)

/-- The tap bit of tap `t` set or cleared. -/
def State.setTap (s : State) (t : Nat) (b : Bool) : State :=
  if t < 32 then s.wrN CMF_OW_TAP_LO (putBitN (s.rdN CMF_OW_TAP_LO) t b) else s.putB CMF_OW_TAP_HI_T32 b

/-- One test of tap `t` (R75): a fail or a pass is counted; CONF in succession set or clear the tap. A forced failure is used
up (CMF_TEST.FORCE_OW). -/
def State.owTest (s : State) (t : Nat) : State :=
  let w := s.meas.ow
  let ds := (s.tapChannels t).map fun c => (c, s.owDelta c)
  let s := ds.foldl
    (fun s d => (s.put (CMF_DIAGn_OW_D d.1) (ofI 24 d.2)).wrap (CMF_DIAGn_OW_N d.1) 1) s
  let fail := (ds.any fun d => decide (w.thr < d.2.natAbs)) || w.force.contains t
  let n := twoCounts w.fails w.passes t fail
  let s := { s with meas := { s.meas with ow := { w with fails := n.1, passes := n.2, force := w.force.erase t } } }
  let conf := s.getIn CMF_OW_CFG_CONF 1 15
  if fail && decide (conf ≤ vget n.1 t 0) && !s.tapOpen t then
    (s.setTap t true).faultD 2 0x11 t (ofI 32 ((ds.map (·.2)).foldl (fun a b => if a.natAbs < b.natAbs then b else a) 0))
  else if !fail && decide (conf ≤ vget n.2 t 0) && s.tapOpen t then (s.setTap t false).endCond 2 0x11 t
  else s

/-- OPEN_WIRE_DWELL_END (R75): at S(a + DWELL) the sources switch off and each tap of the step is judged. -/
def execOpenWireDwellEnd (s : State) : Outcome :=
  let w := s.meas.ow
  if w.on ∧ ¬ w.ended ∧ w.a + w.dwell ≤ s.tickNo ∧ s.owMode then
    let s := w.taps.foldl State.owTest s
    let s := { s with meas := { s.meas with ow := { s.meas.ow with ended := true } } }
    let s := s.put CMF_OW_STAT_STEP w.step
    .next (if w.step = 3 then s.wrap CMF_OW_STAT_ROT 1 else s)
  else .next s

/-! ## Events of the main path -/

/-- UNUSED_CHANNEL_NOT_SHORTED (R61). -/
def execUnusedChannelNotShorted (c : Fin 32) (s : State) : Outcome :=
  if decide (s.cellsN ≤ c.val) && decide (8 ≤ vget s.meas.unBad c 0) && !bitOf s.meas.unused c then
    let s := { s with meas := { s.meas with unused := setBitN s.meas.unused c } }
    .next ((s.put (CMF_CELLn_FLAG_RANGE c) 1).faultD 2 0x13 c (s.rdN (CMF_CELLn_V c)))
  else .next s

/-- MODULATOR_FAULT (R63): the overload signature has persisted for 32 consecutive base periods. -/
def execModulatorFault (ch : Fin 34) (s : State) : Outcome :=
  let f := modFault ch
  let stands := (s.standing? f.1 f.2.1 f.2.2).any (·.held)
  if (s.chan ch).modHold && !stands then
    .next (s.faultD f.1 f.2.1 f.2.2 (s.rdN (if ch.val < 32 then CMF_CELLn_V ch else CSI_CSn_V (ch - 32))))
  else .next s

/-- PATH_DISAGREEMENT (R82): eight consecutive compared ticks have disagreed. -/
def execPathDisagreement (c : Fin 32) (s : State) : Outcome :=
  if decide (8 ≤ vget s.meas.disBad c 0) && !bitOf s.meas.dis c then
    let s := { s with meas := { s.meas with dis := setBitN s.meas.dis c } }
    .next ((s.put (CMF_CELLn_FLAG_DISAGREE c) 1).faultD 2 0x12 c (s.rdN (CMF_CELLn_V c)))
  else .next s

/-! ## CMF_CTRL and CMF_TEST -/

/-- A write of CMF_TEST that is performed: SEL and REF; FORCE_MOD acts on channel SEL for the 32 base periods that
follow the present one (R63), FORCE_OW makes
the next test of tap SEL fail (R75). -/
def State.writeCmfTest (s : State) (i : Initiator) (v : Nat) : State :=
  let sel := v % 32
  let s := s.plainWrite i CMF_TEST v
  let s := if bitOf v 6 then s.onChan sel fun c => { c with forceNext := true } else s
  if bitOf v 7 ∧ ¬ s.meas.ow.force.contains sel then
    { s with meas := { s.meas with ow := { s.meas.ow with force := sel :: s.meas.ow.force } } }
  else s

/-- FORCE_MOD (R63). -/
def execForceMod (i : Initiator) (v : Word) (s : State) : Outcome :=
  .next (s.writeRow i CMF_TEST fun s => s.writeCmfTest i (setBitN v.toNat 6))

/-- FORCE_OW (R75). -/
def execForceOw (i : Initiator) (v : Word) (s : State) : Outcome :=
  .next (s.writeRow i CMF_TEST fun s => s.writeCmfTest i (setBitN v.toNat 7))

/-- CMF_ENABLE (R90): a write of CMF_CTRL; EN accepts 0 only in SERVICE. -/
def execCmfEnable (i : Initiator) (v : Word) (s : State) : Outcome :=
  .next (s.writeRow i CMF_CTRL fun s => s.plainWrite i CMF_CTRL v.toNat)

/-! ## Diverse comparators -/

/-- The qualification bit of the OV or UV comparator of channel `c`. -/
def dcQ (ov : Bool) (c : Nat) : Fld := if ov then PSF_DCn_STAT_OVQ c else PSF_DCn_STAT_UVQ c

/-- The comparator pair of channel `c` is being self-tested: its demand is gated and its thresholds are not the sealed ones
(R83) (DEDUCED, log entry 227). -/
def State.dcTesting (s : State) (c : Nat) : Bool := s.psf.dcTest.any fun t => t.ch == c && decide (s.now < t.till)

/-- When the next self-test of the pair of channel `c` is due: 60 s after its last one, and after the end of a test in progress
(R83). The first one is due at once (DESIGN CHOICE, log entry 273) (DEDUCED, log entry 227). -/
def State.dcstDue (s : State) (c : Nat) : Nat :=
  max (((vget s.psf.dcstAt c none).map (· + 60 * sec)).getD s.now) ((s.psf.dcTest.map (·.till)).getD 0)

/-- The self-test of the pair of channel `c` begins (R83): for 3 strobes the OV threshold is 4 codes below and the UV threshold 4
codes above the last result, and the demand of the pair is gated (DEDUCED, log entry 227). -/
def State.dcstBegin (s : State) (c : Nat) : State :=
  let code := s.cellV c / 20000
  { s with psf := { s.psf with
      dcstAt := vset s.psf.dcstAt c (some s.now),
      dcTest := some { ch := c, ov := (clampI 0 255 (code - 4)).toNat, uv := (clampI 0 255 (code + 4)).toNat,
                       till := s.now + 3 * (125 * us / 4) } } }

/-- DC_SELF_TEST (R83): the pair of channel `c` is tested when its turn has come; a comparator that shows no trip is a contained
PSF fault (DEDUCED, log entry 227). -/
def execDcSelfTest (c : Fin 32) (ovTrips uvTrips : Bool) (s : State) : Outcome :=
  if s.flag PSF_CTRL_DCST_EN && decide (c.val < s.cellsN) && s.mode != 0 then
    let s := ((s.reach (s.dcstDue c)).dcstBegin c).put PSF_DCST_STAT_CH c
    if ovTrips && uvTrips then .next (s.put (PSF_DCn_STAT_STFAIL c) 0)
    else .next (((s.put (PSF_DCn_STAT_STFAIL c) 1).bump PSF_DCST_STAT_FAIL 1).faultU 6 0x10 c 0 (s.rdN (PSF_DCn_STAT c)))
  else .next s

end Sys2Proof.Machine
end

