-- ==== Sys2Proof/Machine/Current.lean ====
section
/-! DEFINITION. Current channels and coulomb counting (chapter 4): calibration (R94), the current in amperes (R95), the
accumulators (R97 to R101), diversity (R102), zero window (R105), short circuit (R107 to R109). -/

namespace Sys2Proof.Machine

/-! ## Calibration and current -/

/-- Current state changed by `f`. -/
def State.onCur (s : State) (f : CurSt → CurSt) : State := { s with meas := { s.meas with cur := f s.meas.cur } }

/-- A filtered value S / n of CSn calibrated (R93, R94), in 25 nV: the result, and whether it lay beyond the reported span. -/
def State.csConv (s : State) (ch : Nat) (sum : Int) (n : Nat) : Int × Bool :=
  let x := if s.flag (if ch = 0 then CSI_CTRL_POL0 else CSI_CTRL_POL1) then -sum else sum
  let o := toI 20 (s.trimIn (CSI_CSn_TRIM_OFS ch))
  let g := toI 24 (s.trimIn (CSI_CSn_TRIM_GAIN ch))
  let v := rdivI (25 * x * (100000000 + g) + o * (n : Int) * 100000000) (n * 2500000000)
  (satI 24 v, decide (satI 24 v ≠ v))

/-- The shunt temperature of channel `ch` in 0.1 °C, and whether it is held or defaulted (R95) (DEDUCED, log entry 228). -/
def State.shuntTemp (s : State) (ch : Nat) : Int × Bool :=
  let ax := s.get (CSI_CSn_TCO_AXSEL ch)
  if 16 ≤ ax then (250, false)
  else
    match s.thermistor ax with
    | some t => (t, false)
    | none => ((vget s.meas.cur.lastT ch none).getD 250, true)

/-- The current of a tick value `v` at shunt temperature `t`, in A, as numerator and denominator (R95). -/
def State.amps (s : State) (ch : Nat) (v t : Int) : Int × Nat :=
  let r0 := s.getIn (CSI_CSn_SHUNT_R0 ch) 10000 10000000
  let a := s.getI (CSI_CSn_TCO_ALPHA ch)
  (25 * v * 100000000, r0 * (100000000 + a * (t - 250)).toNat)

/-- A current in units of 1 / `u` A, rounded. -/
def inUnits (i : Int × Nat) (u : Int) : Int := rdivI (i.1 * u) i.2

/-- `a` ≥ `b` for two currents. -/
def ampsGe (a b : Int × Nat) : Bool := decide (b.1 * a.2 ≤ a.1 * b.2)

/-- Bits of a current channel's flags that make it not VALID (Table 4.5). -/
def csInvalid : Nat := 0x80E2

/-- Channel `ch` at a bank switch (R94, R95, Table 4.5); `seq` is SEQ of a fresh result. TESTn has
its effect, and TEST is carried, in SERVICE only (Table 4.3) (DEDUCED, log entries 77, 256). -/
def State.bankCs (s : State) (seq ch : Nat) : State :=
  let stale := s.trimCovers ch
  let t := s.shuntTemp ch
  let res := if stale || !s.flag CSI_CTRL_EN then none else (s.filtered (32 + ch)).map fun f => s.csConv ch f.1 f.2.1
  let old := s.rdN (CSI_CSn_FLAG ch)
  let test := s.mode == 4 && s.get (if ch = 0 then CSI_CTRL_TEST0 else CSI_CTRL_TEST1) != 0
  let base := 2 * b2n stale + 8 * b2n t.2 + 128 * b2n (ch == 1 && s.flag CSI_CTRL_NO_CS1) +
    1024 * b2n s.meas.cur.dis + 2048 * b2n (s.trimReq ch) + 4096 * b2n (s.get TMG_STAT_STATE == 3) +
    8192 * b2n s.tick.exceeded + 32768 * b2n test
  let (v, fl) : Int × Nat := match res with
    | none => (toI 32 (s.rdN (CSI_CSn_V ch)), base + (old &&& 0x60) + old / 65536 * 65536)
    | some (v, range) =>
      let fl := base + 32 * b2n range + 64 * b2n (s.chan (32 + ch)).modTick + seq % 65536 * 65536
      (v, if fl &&& csInvalid = 0 then fl + 1 else fl)
  let i := s.amps ch v t.1
  let mA := satI 32 (inUnits i 10000)
  let s := ((s.wrN (CSI_CSn_V ch) (ofI 32 v)).wrN (CSI_CSn_FLAG ch) fl).wrN (CSI_CSn_I ch) (ofI 32 mA)
  let s := s.onCur fun c =>
    { c with i0 := if ch = 0 then i else c.i0, i1 := if ch = 0 then c.i1 else i,
             lastT := if t.2 ∨ 16 ≤ s.get (CSI_CSn_TCO_AXSEL ch) then c.lastT else vset c.lastT ch (some t.1) }
  if s.get (CSI_CSn_PEAK_V ch) < min mA.natAbs (2 ^ 31 - 1) then
    (s.put (CSI_CSn_PEAK_V ch) (min mA.natAbs (2 ^ 31 - 1))).putB (CSI_CSn_PEAK_SIGN ch) (decide (mA < 0))
  else s

/-- Channel `ch` is VALID. -/
def State.csValid (s : State) (ch : Nat) : Bool := s.flag (CSI_CSn_FLAG_VALID ch)

/-! ## Accumulators -/

/-- A charge limited to the range of an accumulator (R100), in pA·s. -/
def qLimit (q : Int) : Int := clampI (-(2 ^ 63 : Nat) * 1000000) (((2 ^ 63 : Nat) - 1 : Int) * 1000000 + 999999) q

/-- An accumulator shown in its registers: integer part and remainder (R97). -/
def State.showQ (s : State) (lo res : Nat) (q : Int) : State :=
  (s.put64 lo (ofI 64 (q / 1000000))).wrN res (q % 1000000).toNat

/-- ΔQ over `dt` ns is added to both accumulators; a pending preset or clear takes effect (R97, R99, R100, R104)
(DEDUCED, log entries 75, 76). -/
def State.coulombs (s : State) (dt : Nat) : State :=
  let c := s.meas.cur
  let dq (i : Int × Nat) : Int := rdivI (i.1 * dt * 1000) i.2
  let pre := toI 64 (s.get64 CSI_QPRE_LO)
  let q := (if c.load then pre * 1000000 else c.q) + dq c.main
  let q1 := if s.flag CSI_CTRL_NO_CS1 then 0 else (if c.clr1 then 0 else c.q1) + dq c.i1
  let s := if qLimit q ≠ q ∨ qLimit q1 ≠ q1 then s.put CSI_QSTAT_QSAT 1 else s
  let s := if c.load || c.clr1 then (s.put CSI_QSTAT_LOADED 1).put CSI_QSTAT_LOAD_PEND 0 else s
  let s := s.onCur fun c => { c with q := qLimit q, q1 := qLimit q1, load := false, clr1 := false }
  (s.showQ CSI_QACC_LO CSI_QACC_RES (qLimit q)).showQ CSI_QACC1_LO CSI_QACC1_RES (qLimit q1)

/-- The main-path current of the tick (R98, R104). -/
def State.mainPath (s : State) (burst : Bool) : State :=
  let src := if s.csValid 0 then 0 else if s.csValid 1 then 1 else 2
  let s := s.put CSI_STAT_MAIN src
  let s := if src = 1 then s.put CSI_QSTAT_QSUB 1 else s
  let s := if src = 2 ∨ burst then s.put CSI_QSTAT_QEST 1 else s
  s.onCur fun c => { c with main := if src = 1 then c.i1 else c.i0, noValid := if src = 2 then c.noValid + 1 else 0 }

/-- A VALID current ends the condition "no valid current" (R98). -/
def State.currentBack (s : State) : State :=
  if s.meas.cur.noValid = 0 then
    let s := if s.meas.cur.noValidOn then (s.onCur fun c => { c with noValidOn := false }).endCond 3 0x10 0 else s
    if s.demand 7 then s.releaseSrc 7 else s
  else s

/-! ## Diversity -/

/-- The bias block that is complete is judged (R102) (DEDUCED, log entry 84). A mean beyond the 24 bits of the field shows the nearest
value they hold (DESIGN CHOICE, log entry 229). -/
def State.biasBlock (s : State) : State :=
  let c := s.meas.cur
  let mean := rdivI c.blockSum c.blockN
  let above := decide ((s.get CSI_DIV_CFG_ABS : Int) * 25 * 10 ^ 9 * c.blockN < c.blockSum.natAbs)
  let s := (s.putI CSI_DIV_STAT_MEAN (satI 24 (rdivI mean 100000000))).onCur fun c =>
    { c with blockSum := 0, blockN := 0, bias := above }
  if above then (s.put CSI_DIV_STAT_BIAS 1).faultD 3 0x11 0 (ofI 32 (rdivI mean 100000000))
  else if c.bias ∧ ¬ c.dis then s.endCond 3 0x11 0
  else s

/-- A tick in which both channels are VALID is compared and enters its block (R102). -/
def State.diversity (s : State) : State :=
  if s.csValid 0 && s.csValid 1 && !s.flag CSI_CTRL_NO_CS1 then
    let s := if 1024 ≤ s.meas.cur.blockN then s.biasBlock else s
    let c := s.meas.cur
    let d : Int := c.i0.1 * c.i1.2 - c.i1.1 * c.i0.2
    let lim : Int := (s.get CSI_DIV_CFG_ABS * 100 * c.i0.2 + s.get CSI_DIV_CFG_REL * c.i0.1.natAbs) * c.i1.2
    let bad := decide (lim < 1000 * d.natAbs)
    let cnt := s.getIn CSI_DIV_CFG_CNT 1 15
    let s := if bad then s.bump CSI_DIV_STAT_DIS 1 else s
    let agree := if bad then 0 else c.agreeRun + 1
    let s := s.onCur fun c =>
      { c with disRun := if bad then c.disRun + 1 else 0, agreeRun := agree, blockN := c.blockN + 1,
               blockSum := c.blockSum + inUnits c.i0 (10 ^ 12) - inUnits c.i1 (10 ^ 12) }
    if c.dis ∧ cnt ≤ agree then
      let s := ((s.onCur fun c => { c with dis := false }).put (CSI_CSn_FLAG_DISAGREE 0) 0).put (CSI_CSn_FLAG_DISAGREE 1) 0
      if c.bias then s else s.endCond 3 0x11 0
    else s
  else s

/-- The bank switch of CSI over `dt` ns (R26, R97, R98, R102). -/
def State.bankCurrent (s : State) (seq dt : Nat) (burst : Bool) : State :=
  let s := ((s.bankCs seq 0).bankCs seq 1).mainPath burst
  let s := (s.coulombs dt).currentBack
  s.diversity.putB CSI_STAT_TRIM_ACT (s.trimCovers 0 || s.trimCovers 1)

/-! ## Rows -/

/-- NO_VALID_CURRENT (R98): eight consecutive ticks without a VALID channel. A consequential fault raises no source (R334). -/
def execNoValidCurrent (s : State) : Outcome :=
  if 8 ≤ s.meas.cur.noValid ∧ ¬ s.meas.cur.noValidOn then
    let s := s.onCur fun c => { c with noValidOn := true }
    let r := s.collect 3 0x10 0 0 (s.rdN (CSI_CSn_V 0)) false none
    .next (if r.1.1 then r.2.raiseSrc 7 0 else r.2)
  else .next s

/-- A write of CSI_QCTRL that is performed (R99). -/
def State.writeQctrl (s : State) (v : Nat) : State :=
  let s := s.onCur fun c => { c with load := c.load || bitOf v 0, clr1 := c.clr1 || bitOf v 1 }
  if s.meas.cur.load || s.meas.cur.clr1 then s.put CSI_QSTAT_LOAD_PEND 1 else s

/-- QACC_LOAD (R99). -/
def execQaccLoad (i : Initiator) (v : Word) (s : State) : Outcome :=
  .next (s.writeRow i CSI_QCTRL fun s => s.writeQctrl (setBitN v.toNat 0))

/-- QACC_CLR1 (R99). -/
def execQaccClr1 (i : Initiator) (v : Word) (s : State) : Outcome :=
  .next (s.writeRow i CSI_QCTRL fun s => s.writeQctrl (setBitN v.toNat 1))

/-- CURRENT_PATH_DISAGREEMENT (R102): CNT consecutive compared ticks have disagreed; never with NO_CS1 (R104). -/
def execCurrentPathDisagreement (s : State) : Outcome :=
  if s.getIn CSI_DIV_CFG_CNT 1 15 ≤ s.meas.cur.disRun ∧ ¬ s.meas.cur.dis ∧ ¬ s.flag CSI_CTRL_NO_CS1 then
    let s := s.onCur fun c => { c with dis := true }
    .next (((s.put (CSI_CSn_FLAG_DISAGREE 0) 1).put (CSI_CSn_FLAG_DISAGREE 1) 1).faultD 3 0x11 0 (s.rdN (CSI_CSn_V 0)))
  else .next s

/-- DIVERSITY_BIAS_BLOCK (R102): a block of 1,024 ticks is complete; the check does not run with NO_CS1 (R104). -/
def execDiversityBiasBlock (s : State) : Outcome :=
  if 1024 ≤ s.meas.cur.blockN ∧ ¬ s.flag CSI_CTRL_NO_CS1 then .next s.biasBlock else .next s

/-- ZERO_WINDOW_CHANGE (R105): 32 consecutive strobes on the other side, also in start-up. In WATCH a change from 1 to 0 is a wake
request. -/
def execZeroWindowChange (inside : Bool) (s : State) : Outcome :=
  if s.mode != 0 && s.flag CSI_STAT_ZW != inside then
    let s := s.putB CSI_STAT_ZW inside
    .next (if s.mode = 1 ∧ ¬ inside then s.wakeRequest 3 else s)
  else .next s

/-- SHORT_CIRCUIT (R107, R108): the crossing has lasted for the deglitch time; the trip is latched. Not active in SHIP
(DESIGN CHOICE, log entry 230). -/
def execShortCircuit (negative : Bool) (s : State) : Outcome :=
  if s.mode = 0 then .next s
  else
    let new := !s.flag PSF_SC_STAT_TRIP
    let s := (((s.put PSF_SC_STAT_TRIP 1).put PSF_SC_STAT_QUIET 0).putB PSF_SC_STAT_POL negative).put CSI_STAT_SC_ACT 1
    let s := { s with psf := { s.psf with scAt := s.now } }
    .next ((if new then s.bump PSF_SC_STAT_CNT 1 else s).raiseSrc 6 0)

/-- SC_QUIET (R108): the comparator has been below threshold for 1 ms (DESIGN CHOICE, log entry 230). -/
def execScQuiet (s : State) : Outcome :=
  .next ((s.put PSF_SC_STAT_QUIET 1).put CSI_STAT_SC_ACT 0)

/-- A write of 1 to PSF_SC_STAT.TRIP that is performed (R108): it withdraws source 6 once the comparator has been quiet for
1 ms, and is ignored before. -/
def State.clearTrip (s : State) : State :=
  if s.flag PSF_SC_STAT_TRIP ∧ s.flag PSF_SC_STAT_QUIET then
    let s := s.put PSF_SC_STAT_TRIP 0
    { s with psf := { s.psf with cause := clrBitN s.psf.cause 6 } }.withdraw 6
  else s

/-- SC_TRIP_CLEAR (R108, Table 11.15). -/
def execScTripClear (i : Initiator) (_v : Word) (s : State) : Outcome :=
  .next (s.writeRow i PSF_SC_STAT fun s => s.ifPrivileged i PSF_SC_STAT State.clearTrip)

/-- SC_SELF_TEST (R109): every 60 s the comparator must change state within the test; not in SHIP. The first one is due at once
(DESIGN CHOICE, log entry 273) (DEDUCED, log entry 227). -/
def execScSelfTest (trips : Bool) (s : State) : Outcome :=
  if s.flag PSF_CTRL_SCST_EN && s.mode != 0 then
    let s := s.reach ((s.psf.scstAt.map (· + 60 * sec)).getD s.now)
    let s := { s with psf := { s.psf with scstAt := some s.now } }.putB PSF_SCST_STAT_PASS trips
    .next (if trips then s else (s.bump PSF_SCST_STAT_FAIL 1).faultU 6 0x11 0 0 (s.rdN PSF_SCST_STAT))
  else .next s

end Sys2Proof.Machine
end

