-- ==== Sys2Proof/Machine/Auxiliary.lean ====
section
/-! DEFINITION. Auxiliary inputs, die sensors and cell temperature limits (chapter 7): the thermistor equation (R171),
plausibility (R172, R173), publication at the bank switch (R169), the limits (R174) and the rate of rise (R175). -/

namespace Sys2Proof.Machine

/-! ## Conversion -/

/-- Input `i`. -/
def State.inp (s : State) (i : Nat) : InSt := vget s.aux.inp i .reset

/-- Input `i` changed by `f`. -/
def State.onInp (s : State) (i : Nat) (f : InSt → InSt) : State :=
  { s with aux := { s.aux with inp := vset s.aux.inp i (f (s.inp i)) } }

/-- Die sensor `d`. -/
def State.die (s : State) (d : Nat) : DieSt := vget s.aux.die d .reset

/-- Die sensor `d` changed by `f`. -/
def State.onDie (s : State) (d : Nat) (f : DieSt → DieSt) : State :=
  { s with aux := { s.aux with die := vset s.aux.die d (f (s.die d)) } }

/-- The temperature in 0.1 °C of a trimmed ratio v / d with pull-up, R25 (same unit) and B (R171). Where 1 / T comes out at 0
or below, the temperature lies beyond any bound; the equation states none for a zero R_pu, R25 or B
(DESIGN CHOICE, log entry 81; DEDUCED, log entry 82). -/
def ntcTemp (v d : Nat) (rpu r25 b : Nat) : Option Int :=
  if rpu = 0 ∨ r25 = 0 ∨ b = 0 then none
  else
    let a := 20 * fixOne / 5963 + fixLn (rpu * v) ((d - v) * r25) / (b : Int)
    if a ≤ 0 then some 32767 else some (rdivI (20 * fixOne - 5463 * a) (2 * a.toNat))

/-- The trimmed code of input `i` in units of 10^-8 code (R171). -/
def State.auxTrimmed (s : State) (i code : Nat) : Int :=
  (code : Int) * (100000000 + toI 24 (s.trimIn (AUX_INi_TRIM_GAIN i))) + toI 16 (s.trimIn (AUX_INi_TRIM_OFS i)) * 100000000

/-- 262,144 codes in units of 10^-8 code. -/
def auxFull : Nat := 26214400000000

/-- A register of the largest (`sgn` 1) or smallest (`sgn` -1) value since it was read (R469). -/
def State.takeExtreme (s : State) (f new : Fld) (sgn x : Int) : State :=
  if s.flag new ∧ sgn * x ≤ sgn * s.getI f then s else (s.putI f x).put new 1

/-- A plausible thermistor or absolute value of input `i` enters its extremes and, for a thermistor, the mean of its second
(R175, R469). -/
def State.goodValue (s : State) (i : Nat) (x : Int) (stamp : Nat) (therm : Bool) : State :=
  let s := (s.takeExtreme (AUX_INi_TMAX_V i) (AUX_INi_TMAX_NEW i) 1 x).takeExtreme (AUX_INi_TMIN_V i) (AUX_INi_TMIN_NEW i) (-1) x
  if ¬ therm then s
  else if stamp / 1000000000 = s.aux.curSec then
    s.onInp i fun h => { h with secSum := h.secSum + x, secN := h.secN + 1 }
  else s.onInp i fun h =>
    { h with means := match h.means with
      | m :: t => (m.1 + x, m.2 + 1) :: t
      | [] => [] }

/-- The means move on to second `t` of fabric time. -/
def State.rollMeans (s : State) (t : Nat) : State :=
  if t ≤ s.aux.curSec then s
  else
    let gap := min (t - s.aux.curSec - 1) 61
    let roll (h : InSt) : InSt :=
      { h with means := (List.replicate gap ((0 : Int), 0) ++ (h.secSum, h.secN) :: h.means).take 61, secSum := 0, secN := 0 }
    let l := (List.range 16).foldl (fun s i => s.onInp i roll) s
    { l with aux := { l.aux with curSec := t } }

/-- The window fault of input `i` ends when the input is no longer in absolute mode, to which the window belongs (AUX_INi_AWIN). -/
def State.endWindow (s : State) (i : Nat) : State :=
  if (s.inp i).winBad then (s.onInp i fun h => { h with winBad := false }).endCond 4 0x13 i else s

/-- A thermistor conversion (R172): trimmed code `v`, temperature `t` (DEDUCED, log entry 78). -/
def State.thermConv (s : State) (i : Nat) (v t : Int) (refBad : Bool) (stamp : Nat) : State :=
  let h := s.inp i
  let step : Int := s.get AUX_PLAUS_STEP
  let broken := decide (1000 * v < 5 * (auxFull : Int)) || decide (995 * (auxFull : Int) < 1000 * v)
  let far (x : Int) : Bool := decide (step < (t - x).natAbs)
  let others := broken || refBad || decide (t < -500) || decide (1300 < t)
  let impl := if h.bad then true else others || (h.prev.map far).getD false
  let passes := if !h.bad || others then 0 else if h.passes = 0 ∨ far h.last then 1 else h.passes + 1
  let cured := h.bad && decide (3 ≤ passes)
  let s := s.onInp i fun h =>
    { h with val := if impl then 1500 else t, plaus := !impl, broken := broken, ref := refBad, stamp := stamp,
             seq := h.seq + 1, bad := impl && !cured, passes := if cured then 0 else passes, last := t,
             prev := if cured || !impl then some t else h.prev }
  let s := if impl then s else s.goodValue i t stamp true
  let stands := (s.standing? 4 0x11 i).any (·.held)
  if broken ∧ ¬ stands then s.faultD 4 0x11 i (s.inp i).raw
  else if cured then s.endCond 4 0x11 i else s

/-- An absolute-mode conversion (R170) in 100 µV, with its window (AUX_INi_AWIN); no temperature limit counts it. A sensor that was implausible when the input left
thermistor mode is still so when it returns, until the recovery of R172 (DEDUCED, log entry 78). -/
def State.absConv (s : State) (i : Nat) (v : Int) (stamp : Nat) : State :=
  let x := rdivI (v * 30000) auxFull
  let out := decide (x < s.get (AUX_INi_AWIN_LO i)) || decide ((s.get (AUX_INi_AWIN_HI i) : Int) < x)
  let was := (s.inp i).winBad
  let s := s.onInp i fun h =>
    { h with val := x, plaus := true, broken := false, ref := false, stamp := stamp, seq := h.seq + 1, seen := h.seq + 1,
             prev := none, passes := 0, winBad := out }
  let s := s.goodValue i x stamp false
  if out ∧ ¬ was then s.faultD 4 0x13 i (ofI 32 x) else if was ∧ ¬ out then s.endCond 4 0x13 i else s

/-- Conversion `code` of input `i` (R169 to R172). An input under trim holds (Table 7.6); a disabled one reads 0x8000
(DESIGN CHOICE, log entry 81; DEDUCED, log entry 100) (DEDUCED, log entry 78). -/
def State.auxConv (s : State) (i code : Nat) (refBad : Bool) (stamp : Nat) : State :=
  if s.trimCovers (34 + i) then s.onInp i fun h => { h with raw := code }
  else
    let s := s.onInp i fun h => { h with raw := code }
    let v := s.auxTrimmed i code
    let mode := s.get (AUX_INi_CFG_MODE i)
    if mode = 1 then
      let s := s.endWindow i
      let vn := clampN 1 (auxFull - 1) v.toNat
      match ntcTemp vn auxFull (s.get (AUX_INi_CFG_RPU i)) (s.get (AUX_INi_NTC_R25 i)) (s.get (AUX_INi_NTC_B i)) with
      | some t => s.thermConv i v t refBad stamp
      | none => let (w, s) := s.fresh 16; s.thermConv i v w.toInt refBad stamp
    else if mode = 2 then s.absConv i v stamp
    else
      (s.endWindow i).onInp i fun h => { h with val := -32768, plaus := false, broken := false, ref := false, prev := none, passes := 0 }

/-! ## Die sensors -/

/-- A value put into an ascending list. -/
def insertI (x : Int) : List Int → List Int
  | [] => [x]
  | y :: t => if x ≤ y then x :: y :: t else y :: insertI x t

/-- The median of a list, the mean of the two middle values for an even count, doubled. -/
def median2 (l : List Int) : Option Int :=
  let a := l.foldr insertI []
  let n := a.length
  if n = 0 then none else some (a.getD ((n - 1) / 2) 0 + a.getD (n / 2) 0)

/-- A reading is plausible for die sensor `d` (R173). -/
def State.diePlausible (s : State) (d : Nat) (x : Int) : Bool :=
  let others := ((List.range 6).filter fun e => e != d && (s.die e).plaus && decide (0 < (s.die e).seq)).map fun e => (s.die e).val
  let near := match median2 others with
    | some m => decide ((2 * x - m).natAbs ≤ 20 * s.getIn AUX_PLAUS_DDIE 10 60)
    | none => true
  decide (-550 ≤ x) && decide (x ≤ 1750) && near

/-- A conversion of die sensor `d` (R173) (DESIGN CHOICE, log entry 60; DEDUCED, log entries 79, 80). -/
def State.dieConv (s : State) (d : Nat) (r : DieReading) : State :=
  let h := s.die d
  let x := (r.map (·.toInt)).getD 0
  let ok := r.isSome && s.diePlausible d x
  let passes := if ok then h.passes + 1 else 0
  let plaus := if h.plaus then ok else ok && decide (3 ≤ passes)
  let s := s.onDie d fun h =>
    { h with val := if plaus then x else 1500, plaus := plaus, passes := passes, seq := h.seq + 1, stamp := s.ftNs }
  let s := if plaus then
      (s.takeExtreme (AUX_TDd_MAX_V d) (AUX_TDd_MAX_NEW d) 1 x).takeExtreme (AUX_TDd_MIN_V d) (AUX_TDd_MIN_NEW d) (-1) x
    else s
  let s := if ok then s else s.bump ⟨AUX_TDd_ICNT d, 0, 16⟩ 1
  if h.plaus ∧ ¬ plaus then s.faultD 4 0x12 d (ofI 32 x)
  else if ¬ h.plaus ∧ plaus then s.endCond 4 0x12 d
  else s

/-- t_s follows TD0 and TD1 (R67). -/
def State.followTs (s : State) : State :=
  let a := s.die 0
  let b := s.die 1
  let ts := if a.plaus ∧ b.plaus then a.val + b.val else if a.plaus then 2 * a.val else if b.plaus then 2 * b.val else s.aux.ts
  { s with aux := { s.aux with ts := ts } }

/-! ## Scans -/

/-- Scans run in this mode (Table 7.6). -/
def State.auxRuns (s : State) : Bool := s.flag AUX_CTRL_EN && (s.active || s.mode == 5)

/-- AUX_SCAN_START (R169): the scan period has expired. -/
def execAuxScanStart (s : State) : Outcome :=
  if s.auxRuns && s.aux.scan.isNone then
    let s := s.reach s.aux.due
    .next { s with aux := { s.aux with scan := some s.now, due := s.now + s.getIn AUX_SCAN_PER_MS 4 1000 * ms } }
  else .next s

/-- The conversions of a scan become available together (R169, R172). Of the ground conversion the spec states no criterion
(DESIGN CHOICE, log entry 261). -/
def State.scanDone (s : State) (r : ScanResult) (start : Nat) : State :=
  let refV := r.auxref.toNat
  let refBad := decide (refV < 28500) || decide (31500 < refV)
  let stamp (k : Nat) : Nat := ((start : Int) + s.ftOfs).toNat / 16 + 100000 + 200000 * k
  let stands := (s.standing? 4 0x10 0).any (·.held)
  let s := if refBad && !stands then s.faultD 4 0x10 0 refV else if stands && !refBad then s.endCond 4 0x10 0 else s
  let s := { s with aux := { s.aux with scan := none, auxref := refV } }
  let s := s.rollMeans (s.ftNs / 1000000000)
  let s := (List.range 16).foldl (fun s i => s.auxConv i (vget r.code i 0).toNat refBad (stamp i)) s
  let s := ((s.dieConv 0 r.td0).dieConv 1 r.td1).followTs
  let s := (s.onDie 0 fun h => { h with stamp := stamp 16 }).onDie 1 fun h => { h with stamp := stamp 17 }
  { (s.wrap AUX_STAT_SCAN 1).putB AUX_STAT_REFBAD refBad with meas := { s.meas with burstScan := s.meas.burst.isSome } }

/-- A completed scan counts toward the point of an auxiliary input under trim (R372). -/
def State.calScan (s : State) : State :=
  match s.cal.run with
  | some r =>
    if 34 ≤ (r.todo.head?.getD (0, 0)).1 then { s with cal := { s.cal with run := some { r with seen := r.seen + 1 } } } else s
  | none => s

/-- AUX_SCAN_COMPLETE (R169): 4 ms after its start a scan's last slot ends
(DESIGN CHOICE, log entry 60; DEDUCED, log entry 79). -/
def execAuxScanComplete (r : ScanResult) (s : State) : Outcome :=
  match s.aux.scan with
  | some t => .next ((s.reach (t + 4 * ms)).scanDone r t).calScan
  | none => .next s

/-! ## Publication and limits -/

/-- The result registers of AUX take the conversions of the latest completed scan (R22, R169). -/
def State.bankAux (s : State) : State :=
  let one (s : State) (i : Nat) : State :=
    let h := s.inp i
    let stale := s.trimCovers (34 + i)
    let mode := s.get (AUX_INi_CFG_MODE i)
    let therm := mode == 1
    let fl := b2n (h.plaus && !stale && (mode == 1 || mode == 2)) + 2 * b2n (h.broken && therm) + 4 * b2n (therm && !h.plaus && decide (0 < h.seq)) +
      8 * b2n (h.ref && therm) + 16 * b2n stale + 1024 * b2n (h.winBad && mode == 2)
    let keep := s.rdN (AUX_INi_FLAG i) &&& 0x3E0
    (((s.wrN (AUX_INi_FLAG i) (fl + keep + h.seq * 65536)).wrN (AUX_INi_VAL i) (ofI 32 h.val)).wrN (AUX_INi_RAW i) h.raw).wrN
      (AUX_INi_TSTAMP i) h.stamp
  let two (s : State) (d : Nat) : State :=
    let h := s.die d
    (((s.put (AUX_TDd_VAL_T d) (ofI 16 h.val)).put (AUX_TDd_FLAG_VALID d) (b2n (h.plaus && decide (0 < h.seq)))).putB
      (AUX_TDd_FLAG_IMPL d) (!h.plaus) |>.put (AUX_TDd_FLAG_SEQ d) h.seq).wrN (AUX_TDd_TSTAMP d) h.stamp
  let s := (List.range 6).foldl two ((List.range 16).foldl one s)
  let win := ofBits ((List.range 16).filter fun i => (s.inp i).winBad && s.get (AUX_INi_CFG_MODE i) == 2)
  ((s.put AUX_REF_V s.aux.auxref).putB AUX_REF_OK (decide (28500 ≤ s.aux.auxref) && decide (s.aux.auxref ≤ 31500))).put
    AUX_WIN_STAT_B win

/-- The bit of limit kind `kind` (0 high, 1 rate, 2 low charge, 3 low discharge) of input `i` in its status register. -/
def limitFld (kind : Nat) : Fld :=
  if kind = 0 then AUX_TLIM_STAT_HI else if kind = 1 then AUX_TLIM_STAT_RATE
  else if kind = 2 then AUX_LT_STAT_CHG else AUX_LT_STAT_DSG

/-- The input's flag of a limit kind. -/
def limitFlag (kind i : Nat) : Fld :=
  if kind = 0 then AUX_INi_FLAG_HI i else if kind = 1 then AUX_INi_FLAG_RATE i
  else if kind = 2 then AUX_INi_FLAG_LTC i else AUX_INi_FLAG_LTD i

/-- The count of qualifications of a limit kind. -/
def limitCount (kind i : Nat) : Fld := ⟨AUX_INi_LCNT i, 8 * kind, 8⟩

/-- An entry of the limit event ring (R174). -/
def State.limitEvent (s : State) (kind i : Nat) (rel : Bool) : State :=
  let n := s.aux.lev % 16
  let s := { s with aux := { s.aux with lev := s.aux.lev + 1 } }
  let s := ((s.put AUX_LEV_WPTR_IDX n).put64 (AUX_LEVn_TLO n) s.ftNs).wrN (AUX_LEVn_INFO n) (i + 16 * kind + 64 * b2n rel)
  s.wrN (AUX_LEVn_VAL n) (ofI 16 (s.inp i).val + s.get ⟨AUX_INi_RATE i, 0, 16⟩ * 65536)

/-- The cold-charge demand begins or ends (R293). -/
def State.coldCharge (s : State) (on : Bool) : State :=
  let s := { s with psf := { s.psf with ccd := on } }.putB PSF_STAT_CCD on
  if on then s.psfEvent 6 0xFF 0 s.addr 0 0
  else { s with psf := { s.psf with runs := vset s.psf.runs 8 0 } }.releaseSrc 11

/-- A limit qualifies or releases (Table 7.2): flag, status bit, count, event, demand to PSF. -/
def State.limitSet (s : State) (kind i : Nat) (on : Bool) : State :=
  let s := (s.putB (limitFlag kind i) on).putBit (limitFld kind) i on
  let s := (if on then s.bump (limitCount kind i) 1 else s).limitEvent kind i (!on)
  let any := s.get (limitFld kind) != 0
  let src := if kind = 0 then 8 else if kind = 1 then 9 else 10
  if kind = 2 then (if any == s.psf.ccd then s else s.coldCharge any)
  else if on then s.raiseSrc src i
  else if any then s else s.releaseSrc src

/-- The source of a limit kind has been kept across a warm reset: it stands, or its cause does, with no input shown (R361). -/
def State.limitKept (s : State) (kind : Nat) : Bool :=
  s.get (limitFld kind) == 0 &&
    (if kind = 2 then s.psf.ccd else bitOf s.psf.cause (if kind = 0 then 8 else if kind = 1 then 9 else 10))

/-- The counts of a limit advance: `hit` meets its condition, `safe` its release condition (Table 7.2). -/
def State.limitCounts (s : State) (kind i cnt : Nat) (hit safe : Bool) : State :=
  let h := s.inp i
  let stands := s.bit (limitFld kind) i
  let q := if hit && !stands then vget h.runs (2 * kind) 0 + 1 else 0
  let r := if safe && (stands || s.limitKept kind) then vget h.runs (2 * kind + 1) 0 + 1 else 0
  let s := s.onInp i fun h => { h with runs := vset (vset h.runs (2 * kind) q) (2 * kind + 1) r }
  if !stands && decide (cnt ≤ q) then s.limitSet kind i true
  else if stands && decide (cnt ≤ r) then s.limitSet kind i false
  else s

/-- A limit source kept across a warm reset is given up once every input has met its release rule afresh (R361). -/
def State.releaseKept (s : State) (kind : Nat) : State :=
  let on (i : Nat) : Bool := s.get (AUX_INi_CFG_MODE i) == 1 &&
    (if kind < 2 then s.flag (AUX_INi_CFG_LIM i) else if kind = 2 then s.flag (AUX_LTi_THR_ENC i) else s.flag (AUX_LTi_THR_END i))
  let cnt := if kind = 1 then s.getIn AUX_TRATE_QCNT 1 15 else s.getIn AUX_TLIM_QCNT 1 15
  let done (i : Nat) : Bool := decide (cnt ≤ vget (s.inp i).runs (2 * kind + 1) 0)
  if s.limitKept kind && (List.range 16).all fun i => !on i || done i then
    (if kind = 2 then s.coldCharge false else s.releaseSrc (if kind = 0 then 8 else if kind = 1 then 9 else 10))
  else s

/-- CELL_TEMPERATURE_LIMIT (R174): each input with a conversion the limits have not counted yet (DEDUCED, log entry 39). A limit that stands
when its enable is cleared or the input leaves thermistor mode stands on (DESIGN CHOICE, log entry 262). -/
def State.tempLimits (s : State) : State :=
  (List.range 4).foldl State.releaseKept <| (List.range 16).foldl
    (fun (s : State) (i : Nat) =>
      let h := s.inp i
      if s.get (AUX_INi_CFG_MODE i) = 1 ∧ h.seq ≠ h.seen ∧ ¬ s.trimCovers (34 + i) then
        let s := s.onInp i fun h => { h with seen := h.seq }
        let n := s.getIn AUX_TLIM_QCNT 1 15
        let hi : Int := s.get AUX_TLIM_HI
        let s := if s.flag (AUX_INi_CFG_LIM i) then
            s.limitCounts 0 i n (decide (hi ≤ h.val)) (decide (h.val < hi - 10 * s.getIn AUX_TLIM_HYST 1 15))
          else s
        let low (s : State) (kind : Nat) (en thr : Fld) : State :=
          let l : Int := 10 * ((s.get thr : Int) - 60)
          if s.flag en then
            s.limitCounts kind i n (decide (h.val < l)) (decide (l + 10 * (s.get (AUX_LTi_THR_HYST i) : Int) ≤ h.val))
          else s
        low (low s 2 (AUX_LTi_THR_ENC i) (AUX_LTi_THR_CHG i)) 3 (AUX_LTi_THR_END i) (AUX_LTi_THR_DSG i)
      else s) s

/-- The rate of rise of input `i` (R175), none where a second of the window holds no plausible conversion: (M(0) - M(W)) / W as
numerator and denominator in 0.01 °C/s. -/
def State.riseOf (s : State) (i w : Nat) : Option (Int × Nat) :=
  let l := (s.inp i).means.take (w + 1)
  if l.length = w + 1 ∧ l.all fun m => m.2 != 0 then
    let a := l.getD 0 (0, 1)
    let b := l.getD w (0, 1)
    some (10 * (a.1 * b.2 - b.1 * a.2), a.2 * b.2 * w)
  else none

/-- The rate of input `i` is evaluated (R174, R175). -/
def State.rateOne (s : State) (i : Nat) : State :=
  match s.riseOf i (s.getIn AUX_TRATE_WIN 1 60) with
  | none => s.put (AUX_INi_FLAG_RNA i) 1
  | some (num, den) =>
    let r := satI 16 (rdivI num den)
    let s := (s.put (AUX_INi_FLAG_RNA i) 0).putI ⟨AUX_INi_RATE i, 0, 16⟩ r
    let s := if s.flag AUX_RATE_MAX_NEW ∧ r ≤ s.getI AUX_RATE_MAX_R then s
      else ((s.putI AUX_RATE_MAX_R r).put AUX_RATE_MAX_NEW 1).put AUX_RATE_MAX_IN i
    let lim : Int := s.getIn AUX_TRATE_RATE 5 1000
    s.limitCounts 1 i (s.getIn AUX_TRATE_QCNT 1 15) (decide (lim * den ≤ num)) (decide (2 * num < lim * den))

/-- RATE_EVALUATION (R175): at the first bank switch after each whole second, each limit-enabled input. -/
def State.rateEval (s : State) : State :=
  let t := s.ftNs / 1000000000
  if t = s.aux.rateSec then s
  else
    let s := s.rollMeans t
    let s := { s with aux := { s.aux with rateSec := t } }
    (List.range 16).foldl
      (fun s i => if s.get (AUX_INi_CFG_MODE i) = 1 ∧ s.flag (AUX_INi_CFG_LIM i) then s.rateOne i else s) s

end Sys2Proof.Machine
end

