-- ==== Sys2Proof/Machine/Ferry.lean ====
section
/-! DEFINITION. The Ferry (chapter 6): commands and targets (R149 to R152), limits (R154 to R158), selection at the tick boundary
(R147, R148), the selector change and scan (R145, R146), passive fallback (R164, R165), phase faults (R162). -/

namespace Sys2Proof.Machine

/-! ## Staged writes -/

/-- Engine `e` stages a write; beyond 128 it is discarded with the rest of the tick's (R199) (DEDUCED, log entry 204). -/
def State.stageWrite (s : State) (e a : Nat) (v : Word) : State :=
  let g := s.engine e
  if g.staged.length < 128 then
    let n := g.staged.length + 1
    let s := (s.onEng e fun g => { g with staged := g.staged ++ [(a, v)] }).put (ENG_n_STAGE_N e) n
    if s.get (ENG_n_STAGE_MAX e) < n then s.put (ENG_n_STAGE_MAX e) n else s
  else (s.put (ENG_n_STAT_STOVF e) 1).onEng e fun g => { g with overStaged := true }

/-- A write of initiator `i` to a register that engines stage: staged when `i` is an engine, otherwise `act`. -/
def State.orStaged (s : State) (i : Initiator) (a : Nat) (v : Word) (act : State → State) : State :=
  match i with
  | .engine n =>
    let c := s.accessCode i a true
    if c ≠ 0 then (s.refused i a true c).emit (.ended c) else s.stageWrite n a v
  | _ => act s

/-! ## Limits -/

/-- The factor of the throttle level in percent (R154). -/
def throttlePct (l : Nat) : Nat := if l = 0 then 100 else if l = 1 then 66 else if l = 2 then 33 else 0

/-- The cap of phase `p` before the throttle, in 10 mA. -/
def State.baseCap (s : State) (p : Nat) : Nat := min (s.get BAL_ICAP_AVG) (s.get (BAL_PHp_TLIM_CAP p))

/-- I_cap of phase `p` in 10 mA (R154). -/
def State.icap (s : State) (p : Nat) : Nat := throttlePct s.throttle * s.baseCap p / 100

/-- The Ferry operates on phase `p`: mode, enables, throttle (Table 6.5, R156, Table 6.8). -/
def State.ferryOn (s : State) (p : Nat) : Bool :=
  (s.mode == 2 || s.mode == 4) && s.aux.shutAt.isNone && s.flag BAL_CTRL_EN && decide (s.throttle < 3) && s.flag (BAL_PHp_CFG_EN p)

/-- The stack lies inside the ratio window of phase `p` (R158). -/
def State.ratioOk (s : State) (p : Nat) : Bool :=
  let n := s.get (BAL_PHp_CFG_NRATIO p)
  s.flag CMF_SUM_V_VALID && decide (150000 * n ≤ s.get CMF_SUM_V_SUM) && decide (s.get CMF_SUM_V_SUM ≤ 600000 * n)

/-- Charging, or discharging, of cell `c` is inhibited (Table 6.3, R155, R156). -/
def State.inhibited (s : State) (c : Nat) (charge : Bool) : Bool :=
  if charge then (s.cellBal c).ovm || s.flag (PSF_DCn_STAT_OVQ c) else (s.cellBal c).uvm || s.flag (PSF_DCn_STAT_UVQ c)

/-- Cell `c` has no usable result (Table 6.3). -/
def State.unusable (s : State) (c : Nat) : Bool :=
  decide (s.cellsN ≤ c) || decide (8 ≤ (s.cellBal c).noValid) || s.flag (CMF_CELLn_FLAG_OW c)

/-- Cell `c` is eligible (R147); `selected` keeps a cell whose result carries OWI or LATE (R148). -/
def State.eligible (s : State) (c : Nat) (selected : Bool) : Bool :=
  let held := s.flag (CMF_CELLn_FLAG_OWI c) || s.flag (CMF_CELLn_FLAG_LATE c)
  let r := (s.cellBal c).rem
  !s.unusable c && (s.cellValid c || (selected && held)) && r != 0 && !s.inhibited c (decide (0 < r))

/-! ## The phase in force -/

/-- I_SET in force: 0 once the command has expired (R151). -/
def State.iSet (s : State) (p : Nat) : Nat := if 2 ≤ (s.phase p).age then 0 else (s.phase p).cmd.1

/-- The mode in force: 0 idle, 1 round-robin, 2 pinned. -/
def State.phMode (s : State) (p : Nat) : Nat := let m := (s.phase p).cmd.2.1; if m = 1 ∨ m = 2 then m else 0

/-- The position a sweep forces on phase `p` (R121, R161). -/
def State.forcedPos (s : State) (p : Nat) : Option Nat :=
  match s.imp.run with
  | some r => if r.drive.phases.contains p then some r.drive.pos else none
  | none => none

/-- Phase `p` carries excitation now (R119, R122): from the start of the settle interval, with its cell connected and usable, inside the
ratio window, at a throttle level below 2. -/
def State.excited (s : State) (p : Nat) : Bool :=
  match s.imp.run with
  | some r =>
    r.drive.phases.contains p && decide (r.settleK ≤ s.tickNo) && !bitOf r.removed p && s.ferryOn p && decide (s.throttle < 2) &&
      !s.flag (BAL_PHp_STAT_FENCED p) && !(s.phase p).overNow && s.ratioOk p && (s.phase p).sel == some r.drive.pos &&
      !s.unusable (4 * p + r.drive.pos)
  | none => false

/-- A phase that does not carry its excitation in an active window has lost it for the rest of the window (R122 to R124); a limit of
Table 6.3, the ratio window or a result that is not usable, counts (R122). -/
def State.loseExcitation (s : State) (p : Nat) : State :=
  match s.imp.run with
  | some r =>
    if r.carries p && !s.excited p then
      let limit := !s.flag (BAL_PHp_STAT_FENCED p) && s.ferryOn p && (!s.ratioOk p || s.unusable (4 * p + r.pos))
      let s := s.dropExcitation p
      if limit then s.bump CSI_IMP_CLIP_REM 1 else s
    else s
  | none => s

/-- The limits of `m` clip the command of phase `p` in this tick (Table 6.3): bit 0 cap, 1 margin, 2 throttle, 3 ratio window. -/
def State.noteClips (s : State) (p m : Nat) : State := s.onPhase p fun h => { h with clips := h.clips ||| m }

/-- The limits that clip the command of phase `p` with cell `c` connected: its cap, the throttle, the margins (R154, R155). -/
def State.commandClips (s : State) (p c : Nat) : Nat :=
  let i := s.iSet p
  let r := (s.cellBal c).rem
  b2n (decide (s.baseCap p < i)) + 2 * b2n (i != 0 && r != 0 && s.inhibited c (decide (0 < r))) +
    4 * b2n (decide (s.icap p < min i (s.baseCap p)))

/-- The balance current of phase `p` with cell `c` connected, in 10 mA (R151, R154). -/
def State.balance (s : State) (p c : Nat) : Nat :=
  let r := (s.cellBal c).rem
  if r = 0 ∨ s.inhibited c (decide (0 < r)) ∨ s.unusable c ∨ (s.phase p).overNow then 0 else min (s.iSet p) (s.icap p)

/-- The registers that show the command in force (Table 6.6). -/
def State.showAct (s : State) (p : Nat) : State :=
  let src := if (s.forcedPos p).isSome then 3 else s.phMode p
  let s := (s.put (BAL_PHp_ACT_CAP_EFF p) (s.icap p)).put (BAL_PHp_ACT_AGE p) (min (s.phase p).age 2)
  let s := (s.putB (BAL_PHp_STAT_EXC p) (s.excited p)).putB (BAL_PHp_STAT_SWEEP p) (s.forcedPos p).isSome
  let s := s.putB BAL_STAT_EXC ((List.range 8).any s.excited)
  match (s.phase p).sel with
  | some j => ((s.put (BAL_PHp_ACT_SRC p) src).put (BAL_PHp_ACT_POS p) j).put (BAL_PHp_STAT_POS p) j
  | none => s.put (BAL_PHp_ACT_SRC p) 0

/-- Phase `p` is off for a reason that waits for a selector change in progress: the throttle level or BAL_CTRL.EN (R156). -/
def State.offLater (s : State) (p : Nat) : Bool :=
  (s.phase p).change.isSome && (s.mode == 2 || s.mode == 4) && s.aux.shutAt.isNone && s.flag (BAL_PHp_CFG_EN p)

/-- What phase `p` carries under the limits and its command (R154, R156, R158). Fenced phases carry no current. -/
def State.drivePhase (s : State) (p : Nat) : State :=
  let s := (s.ferryMark p).putB (BAL_PHp_STAT_RATIO_OOR p) (!s.ratioOk p)
  if s.flag (BAL_PHp_STAT_FENCED p) then
    let s := if s.get (BAL_PHp_STAT_STATE p) = 4 ∧ ¬ s.fallbackOk p then (s.deselect p).setPhase p 5 else s
    (s.put (BAL_PHp_ACT_I_ACT p) 0).showAct p
  else if ¬ s.ferryOn p ∧ s.offLater p then s
  else if ¬ s.ferryOn p then
    ((((s.deselect p).dropExcitation p).setPhase p 6).put (BAL_PHp_ACT_I_ACT p) 0).showAct p
  else if (s.phase p).testBleed.isSome then s
  else
    if ¬ s.ratioOk p then ((((s.deselect p).setPhase p 0).put (BAL_PHp_ACT_I_ACT p) 0).noteClips p 8).showAct p
    else
      match (s.phase p).sel with
      | some j =>
        let i := s.balance p (4 * p + j)
        let s := (s.noteClips p (s.commandClips p (4 * p + j)) |>.setPhase p (if (s.phase p).overNow then 0 else 2)).put (BAL_PHp_ACT_I_ACT p) i
        (s.putB (BAL_PHp_STAT_DIR p) (decide (0 < i) && decide (0 < (s.cellBal (4 * p + j)).rem))).showAct p
      | none =>
        let s := if (s.phase p).change.isSome then s else s.setPhase p 0
        ((s.put (BAL_PHp_ACT_I_ACT p) 0).put (BAL_PHp_STAT_DIR p) 0).showAct p

/-- Phase `p` follows the limits and its command, within a switching cycle (R156); one that no longer carries its excitation has
lost it. -/
def State.applyPhase (s : State) (p : Nat) : State := (s.drivePhase p).loseExcitation p

/-- All phases follow a change of throttle level, enable, mode or comparator state (R156, R167). -/
def State.ferryRefresh (s : State) : State :=
  let s := (List.range 8).foldl State.applyPhase s
  s.putB BAL_STAT_OFF (!(s.mode == 2 || s.mode == 4))

/-! ## Selection at the tick boundary -/

/-- A selector change of phase `p` to position `j` begins (R145): switching stops, the selectors of the group turn off. With `keep`
the new cell starts no slot (R161). -/
def State.beginChange (s : State) (p j : Nat) (keep : Bool) : State :=
  let s := ((s.deselect p).setPhase p 1).bump (BAL_PHp_SELCNT_CHG p) 1
  (s.onPhase p fun h => { h with change := some (j, s.now), keepSlot := keep }).put (BAL_PHp_ACT_I_ACT p) 0

/-- The position phase `p` is to have (R147): forced by a sweep, the pinned one, or in round-robin the present one while it is
eligible and otherwise the next; the present one after a sweep is the one before it (R161). A phase that has a scan to make selects
nothing before it; a scan asked for by TEST.SCAN changes no selection. -/
def State.wantedPos (s : State) (p : Nat) : Option Nat :=
  let h := s.phase p
  let cur := h.own.orElse fun _ => h.sel
  let ok (j : Nat) : Bool := s.eligible (4 * p + j) (cur == some j)
  if h.scanReq ∨ ¬ s.ratioOk p then none
  else
    match s.forcedPos p with
    | some j => if s.unusable (4 * p + j) then none else some j
    | none =>
      if s.phMode p = 2 then (if ok h.cmd.2.2 then some h.cmd.2.2 else none)
      else if s.phMode p = 1 then
        match cur with
        | some j => if ok j && s.bit (BAL_PHp_CFG_RRMASK p) j then some j
                    else nextPos (fun j => s.bit (BAL_PHp_CFG_RRMASK p) j && ok j) j
        | none => nextPos (fun j => s.bit (BAL_PHp_CFG_RRMASK p) j && ok j) 3
      else none

/-- The round-robin slot timer stops while a sweep holds the selection and goes on afterwards; the cell of the phase's own mode is
kept meanwhile (R161). -/
def State.slotTimer (s : State) (p : Nat) : State :=
  match (s.forcedPos p).isSome, (s.phase p).frozenAt with
  | true, none => s.onPhase p fun h => { h with frozenAt := some s.now, own := h.sel }
  | false, some t => s.onPhase p fun h => { h with frozenAt := none, slotAt := h.slotAt + (s.now - t) }
  | _, _ => s

/-- Selection of phase `p` at a tick boundary, but for the end of a slot (R147); a test bleed lasts for one slot (R168). -/
def State.selectPhase (s : State) (p : Nat) : State :=
  if (s.phase p).testBleed.isSome then s
  else
    let s := s.slotTimer p
    let h := s.phase p
    let tgt := match h.change with
      | some c => some c.1
      | none => h.sel
    let forced := (s.forcedPos p).isSome
    let s := match s.wantedPos p with
      | some j => if tgt = some j then s else s.beginChange p j (forced || h.own == some j)
      | none => if h.sel.isSome || h.change.isSome then (s.deselect p).setPhase p 0 else s
    if forced then s else s.onPhase p fun h => { h with own := none }

/-- Passive fallback at a tick boundary (R164, R165): it starts, goes on, or stops. -/
def State.fallbackTick (s : State) (p : Nat) : State :=
  let fresh := decide (s.now < s.bal.validAt + 100 * ms)
  let st := s.get (BAL_PHp_STAT_STATE p)
  if st = 4 then
    if s.fallbackOk p && fresh then
      match (s.phase p).sel with
      | some j => if s.bleedable (4 * p + j) then s else s.fallbackNext p
      | none => if (s.phase p).change.isSome then s else s.fallbackNext p
    else (s.deselect p).setPhase p 5
  else if s.fallbackOk p && fresh then s.fallbackNext p
  else s

/-- The command of phase `p` at a tick boundary (R151), and what the tick just ended showed of it (R157, R162). -/
def PhaseSt.boundary (h : PhaseSt) (iAct : Nat) : PhaseSt :=
  let mean := if h.tickN = 0 then 0 else rdivI h.tickSum h.tickN
  let low := decide (20 ≤ iAct) && decide (2 * mean.natAbs < 100 * iAct) && decide (0 < h.tickN)
  { h with cmd := h.newCmd.getD h.cmd, age := if h.newCmd.isSome then 0 else min (h.age + 1) 2, newCmd := none,
           mean := mean, tickSum := 0, tickN := 0, lowRun := if low then h.lowRun + 1 else 0,
           overRun := if h.overNow then h.overRun else 0, overNow := false,
           xferRun := if h.xferNow then h.xferRun else 0, xferNow := false }

/-- The clips of the tick that ends are counted on phase `p` (Table 6.3, Table 6.6) (DESIGN CHOICE, log entry 237). -/
def State.countClips (s : State) (p : Nat) : State :=
  let m := (s.phase p).clips
  let s := if bitOf m 0 then s.bump (BAL_PHp_CLIP_CAP p) 1 else s
  let s := if bitOf m 2 then s.bump (BAL_PHp_CLIP_THR p) 1 else s
  s.onPhase p fun h => { h with clips := 0 }

/-- The clips of the tick that ends are counted, in BAL_CLIPS once for all phases. -/
def State.countAllClips (s : State) : State :=
  let m := ((List.range 8).map fun p => (s.phase p).clips).foldl (· ||| ·) 0
  let one (s : State) (x : Nat × Fld) : State := if bitOf m x.1 then s.bump x.2 1 else s
  (List.range 8).foldl State.countClips
    ([(0, BAL_CLIPS_CAP), (1, BAL_CLIPS_MARGIN), (2, BAL_CLIPS_THROTTLE), (3, BAL_CLIPS_RATIO)].foldl one s)

/-- Targets written since the last boundary come into force (R149). -/
def State.takeTarget (s : State) (c : Nat) : State :=
  match (s.cellBal c).newTgt with
  | some q =>
    (s.onCell c fun b => { b with rem := q * 1000, newTgt := none }).showCell c
  | none => s

/-- A released phase accepts commands again: what still stands as a consequence of its fault is raised (R335). -/
def State.promoted (p : Nat) (s : State) : State := s.promoteAll 0x28 (causeOf [5] p)

/-- Phase `p` at a tick boundary. -/
def State.boundaryPhase (s : State) (p : Nat) : State :=
  let s := s.account p
  let i := s.get (BAL_PHp_ACT_I_ACT p)
  let s := s.onPhase p fun h => h.boundary i
  let s := if (s.phase p).releasing then
      State.promoted p <| ((s.onPhase p fun h => { h with releasing := false, cmd := (0, 0, 0), age := 2 }).put (BAL_PHp_STAT_FENCED p) 0).putBit
        BAL_STAT_FEN p false
    else s
  if s.flag (BAL_PHp_STAT_FENCED p) then s.fallbackTick p
  else if s.ferryOn p then (s.selectPhase p).applyPhase p
  else s.applyPhase p

/-- The Ferry at a tick boundary. -/
def State.ferryTick (s : State) : State :=
  let s := ((List.range 8).foldl State.account s).countAllClips
  let s := (List.range 32).foldl State.takeTarget s
  let b := s.bal
  let sec := if b.secN = 0 then 0 else rdivI b.secSum b.secN
  let s := (List.range 8).foldl State.boundaryPhase s
  let vs : Int := s.get CMF_SUM_V_SUM * 10
  let eP := ((List.range 8).map fun p => match (s.phase p).sel with
    | some j => (s.phase p).mean * s.period * (s.cellBal (4 * p + j)).lastV
    | none => 0).foldl (· + ·) 0
  let bal : FerrySt := { s.bal with secSum := 0, secN := 0, secMean := sec, effP := s.bal.effP + eP,
                                    effS := s.bal.effS + sec * s.period * vs }
  { s with bal := bal }

/-! ## Bank switch and strobes -/

/-- The inhibitions of cell `c` by the margins, tested on the result `v` in µV (R155). -/
def State.margins (s : State) (v : Int) (b : CellBal) : CellBal :=
  let ov : Int := ((s.get PSF_OV_CFG_LIM : Int) - 10 * s.get BAL_LIMIT_OVM) * 1000
  let uv : Int := ((s.get PSF_UV_CFG_LIM : Int) + 10 * s.get BAL_LIMIT_UVM) * 1000
  let hy : Int := s.get BAL_LIMIT_HYST * 10000
  { b with ovm := if b.ovm then decide (ov - hy < v) else decide (ov ≤ v),
           uvm := if b.uvm then decide (v < uv + hy) else decide (v ≤ uv) }

/-- The margins of cell `c` on its VALID result (R155), which is kept; on the last VALID one while the result carries OWI or LATE, up
to 8 ticks (R148). -/
def State.balCell (s : State) (c : Nat) : State :=
  let v := s.cellV c
  let held := (s.flag (CMF_CELLn_FLAG_OWI c) || s.flag (CMF_CELLn_FLAG_LATE c)) && decide ((s.cellBal c).noValid < 8)
  let s := if s.cellValid c then s.onCell c fun b => { s.margins v b with lastV := v, noValid := 0 }
    else s.onCell c fun b => { (if held then s.margins b.lastV b else b) with noValid := min (b.noValid + 1) 8 }
  let o := s.inhibited c true
  let u := s.inhibited c false
  let s := ((s.putB (BAL_CELLc_STAT_OVINH c) o).putB (BAL_CELLc_STAT_UVINH c) u).putB (BAL_CELLc_STAT_INVAL c) (s.unusable c)
  let s := s.putB (BAL_CELLc_STAT_ELIG c) (s.eligible c (s.flag (BAL_CELLc_STAT_SEL c)))
  let s := if o then s.bump (BAL_CELLc_CLIP_OV c) 1 else s
  if u then s.bump (BAL_CELLc_CLIP_UV c) 1 else s

/-- The efficiency over the last second (BAL_SEC.EFF), 0x3FF when less than 1 W was transferred (DEDUCED, log entry 68). -/
def State.efficiency (s : State) : State :=
  let t := s.ftNs / 1000000000
  if t = s.bal.effSec then s
  else
    let a := s.bal.effP.natAbs
    let b := s.bal.effS.natAbs
    let e := if a < 10 ^ 16 ∨ b = 0 then 0x3FF else min 0x3FE (if 0 ≤ s.bal.effP then rdivN (1000 * a) b else rdivN (1000 * b) a)
    { s with bal := { s.bal with effP := 0, effS := 0, effSec := t } }.put BAL_SEC_EFF e

/-- The bank switch of BAL (R155, R168). -/
def State.bankFerry (s : State) : State :=
  let s := (List.range 32).foldl State.balCell s
  let s := if (List.range 32).any s.cellValid then { s with bal := { s.bal with validAt := s.now } } else s
  let s := (List.range 8).foldl
    (fun s p => s.putI (BAL_PHp_IPRI_I p) (satI 16 (rdivI (s.phase p).mean 10))) s
  let s := s.putI BAL_SEC_I (satI 16 (rdivI s.bal.secMean 10))
  s.efficiency.ferryRefresh

/-- The samples of the Ferry at a strobe (R160): primary currents and the summed secondary current in 0.1 mA; the cells on
which it acts, or has acted since the strobe before (R72). -/
def State.ferryStrobe (s : State) (x : StrobeSample) : State :=
  let s := (List.range 8).foldl
    (fun s p =>
      let i := (vget x.prim p 0).toInt
      let s := s.onPhase p fun h => { h with sum := h.sum + i, tickSum := h.tickSum + i, tickN := h.tickN + 1 }
      let mA := i.natAbs / 10
      if s.get (BAL_PHp_IPK_I p) < mA then s.put (BAL_PHp_IPK_I p) (min mA 8191) else s) s
  let m := ofBits ((List.range 8).filterMap fun p => match (s.phase p).sel with
    | some j => if (vget x.prim p 0) == 0 then none else some (4 * p + j)
    | none => none)
  { s with bal := { s.bal with secSum := s.bal.secSum + x.sec.toInt, secN := s.bal.secN + 1 },
           meas := { s.meas with ferryNow := s.meas.ferryNow ||| m ||| s.meas.ferryGap, ferryGap := 0 } }

/-! ## Selector events -/

/-- SELECTOR_BREAK_END (R145, steps 4 to 7): the bus readings of steps 5 and 6 in mV are checked; the new cell is connected. -/
def execSelectorBreakEnd (p : Fin 8) (busLow busHigh : BitVec 16) (s : State) : Outcome :=
  match (s.phase p).change with
  | none => .next s
  | some (j, t) =>
    let c := 4 * p + j
    let low := decide (300 ≤ busLow.toNat)
    let v : Int := busHigh.toNat * 1000
    let s := if low then (s.put (BAL_PHp_VGB_V p) busLow.toNat).put (BAL_PHp_VGB_STEP p) 5
      else (s.put (BAL_PHp_VGB_V p) busHigh.toNat).put (BAL_PHp_VGB_STEP p) 6
    if low || decide (150000 < (v - (s.cellBal c).lastV).natAbs) then .next (s.phaseFault p 0 true)
    else
      let s := s.account p
      let s := s.onPhase p fun h => { h with sel := some j, change := none, slotAt := if h.keepSlot then h.slotAt else t, keepSlot := false }
      let s := ((s.put (BAL_CELLc_STAT_SEL c) 1).put (BAL_PHp_STAT_SELV p) 1).put (BAL_PHp_STAT_POS p) j
      let s := if s.bleeding p then s.put (BAL_CELLc_STAT_BLEED c) 1 else s
      .next (s.applyPhase p)

/-- GROUP_BUS_NOT_DISCHARGED (R145): the break has not ended by 310 µs. -/
def execGroupBusNotDischarged (p : Fin 8) (s : State) : Outcome :=
  match (s.phase p).change with
  | none => .next s
  | some (_, t) => .next ((((s.reach (t + 310 * us)).put (BAL_PHp_VGB_STEP p) 3).phaseFault p 1 true))

/-- A scan of phase `p` with the eight readings of its closures in mV (R146). -/
def State.scanPhase (s : State) (p : Nat) (bus : Vector (BitVec 16) 8) : State :=
  let s := (s.deselect p).bump (BAL_PHp_SELCNT_SCAN p) 1
  if bus.toList.any fun v => decide (300 ≤ v.toNat) then s.phaseFault p 2 true
  else s.onPhase p fun h => { h with lastScan := s.now, scanReq := false, testScan := none }

/-- A scan of phase `p` is due that changes no selection: the periodic one (R146), once SCAN_S seconds have passed since the last one, with
the first selector change that falls due after them, or at a tick boundary 1 s later; the one asked for by TEST.SCAN, at the next
tick boundary (Table 6.6). -/
def State.scanDue (s : State) (p : Nat) : Bool :=
  let h := s.phase p
  let t := h.lastScan + s.getIn BAL_CTRL_SCAN_S 10 255 * sec
  let late := decide (t + sec ≤ s.now) && s.tick.open_
  let test := match h.testScan with
    | some k => decide (k < s.tickNo) && s.tick.open_
    | none => false
  match h.change with
  | some c => decide (t ≤ c.2) || late || test
  | none => late || test

/-- Phase `p` connects position `j` again after a scan, which changes no selection (R147). -/
def State.reselect (s : State) (p j : Nat) (keep : Bool) : State :=
  (s.setPhase p 1).onPhase p fun h => { h with change := some (j, s.now), keepSlot := keep }

/-- SELECTOR_SCAN (R146): at start, on request, or periodic. The cell selected before, or the one the change in progress leads to,
is connected afterwards; with none, selection waits for the next tick boundary (R147). -/
def execSelectorScan (p : Fin 8) (bus : Vector (BitVec 16) 8) (s : State) : Outcome :=
  let h := s.phase p
  let back := match h.change with
    | some c => some (c.1, h.keepSlot)
    | none => h.sel.map fun j => (j, true)
  if (h.scanReq || s.scanDue p) && s.ferryOn p && !s.flag (BAL_PHp_STAT_FENCED p) then
    let s := (s.setPhase p 3).scanPhase p bus
    .next (if s.flag (BAL_PHp_STAT_FENCED p) then s
      else match back with
        | some (j, keep) => s.reselect p j keep
        | none => (s.setPhase p 0).applyPhase p)
  else .next s

/-- SLOT_END (R147): at the first tick boundary after SLOT_MS a round-robin phase, or one in fallback (R164), moves to the next
cell; a test bleed ends (BAL_PHp_TEST). -/
def execSlotEnd (p : Fin 8) (s : State) : Outcome :=
  let h := s.phase p
  let len := s.getIn BAL_SLOT_SLOT_MS 10 1000 * ms
  if ¬ (h.slotAt + len ≤ s.now ∧ s.tick.open_ ∧ h.frozenAt = none) then .next s
  else if h.testBleed.isSome then
    .next (((s.deselect p).onPhase p fun h => { h with testBleed := none }).applyPhase p)
  else if s.get (BAL_PHp_STAT_STATE p) = 4 then .next (s.fallbackNext p)
  else
    match h.sel with
    | none => .next s
    | some j =>
      if s.phMode p = 1 ∧ s.ferryOn p ∧ ¬ s.flag (BAL_PHp_STAT_FENCED p) then
        match nextPos (fun k => s.bit (BAL_PHp_CFG_RRMASK p) k && s.eligible (4 * p + k) (k == j)) j with
        | some k =>
          if k = j then .next (s.onPhase p fun h => { h with slotAt := s.now }) else .next (s.beginChange p k false)
        | none => .next ((s.deselect p).setPhase p 0)
      else .next s

/-- A write of BAL_PHp_TEST that is performed (Table 6.6): a scan at the next tick boundary, or the bleed of one cell for one
slot while the phase is idle. -/
def State.writePhaseTest (s : State) (p : Nat) (i : Initiator) (v : Nat) : State :=
  let s := s.plainWrite i (BAL_PHp_TEST p) v
  let s := if bitOf v 0 then s.onPhase p fun h => { h with testScan := some s.tickNo } else s
  if bitOf v 1 ∧ s.get (BAL_PHp_STAT_STATE p) = 0 then
    ((s.deselect p).bump (BAL_PHp_SELCNT_CHG p) 1).onPhase p fun h =>
      { h with testBleed := some s.now, slotAt := s.now, keepSlot := false, change := some (s.get (BAL_PHp_TEST_POS p), s.now) }
  else s

/-- PHASE_TEST_SCAN (R146). -/
def execPhaseTestScan (p : Fin 8) (i : Initiator) (v : Word) (s : State) : Outcome :=
  .next (s.writeRow i (BAL_PHp_TEST p) fun s => s.writePhaseTest p i (setBitN v.toNat 0))

/-- PHASE_TEST_BLEED (R168). -/
def execPhaseTestBleed (p : Fin 8) (i : Initiator) (v : Word) (s : State) : Outcome :=
  .next (s.writeRow i (BAL_PHp_TEST p) fun s => s.writePhaseTest p i (setBitN v.toNat 1))

/-- The phase that has a drive (Table 6.6): SH0 to SH31, SL0 to SL31, then FGp and FSp of the phase itself. -/
def driveOf (p d : Nat) : Bool := decide (64 ≤ d) || d % 32 / 4 == p

/-- GATE_READBACK (R144): a drive of the phase misses its level. Selector drives hold the group off. -/
def execGateReadback (p : Fin 8) (drive : Fin 66) (s : State) : Outcome :=
  if driveOf p drive then .next ((s.put (BAL_PHp_FAULT_DRIVE p) drive).phaseFault p 3 (decide (drive.val < 64))) else .next s

/-- FALLBACK_STOP (R165): no VALID result has reached BAL for 100 ms. -/
def execFallbackStop (s : State) : Outcome :=
  if s.bal.validAt + 100 * ms ≤ s.now then
    .next ((List.range 8).foldl
      (fun s p => if s.get (BAL_PHp_STAT_STATE p) = 4 then (s.deselect p).setPhase p 5 else s) s)
  else .next s

/-- A phase is released (R166): its scan is made; if it passes, the phase accepts commands from the next tick boundary. -/
def State.releasePhase (s : State) (p bit : Nat) (bus : Vector (BitVec 16) 8) : State :=
  let s := s.onPhase p fun h => { h with cause := clrBitN h.cause bit }
  if (s.phase p).cause ≠ 0 then s
  else
    let s := s.scanPhase p bus
    if (s.phase p).cause ≠ 0 then s
    else
      let s := (List.range 4).foldl (fun s j => s.put (BAL_CELLc_STAT_NOSEL (4 * p + j)) 0) s
      (s.onPhase p fun h => { h with noFallback := false, releasing := true }).setPhase p 0

/-! ## Targets, commands, enable -/

/-- A write of BAL_CELLc_TGT that is performed (R149): DONE speaks of the time since the last one (Table 6.10). -/
def State.writeTarget (s : State) (c : Nat) (i : Initiator) (v : Nat) : State :=
  ((s.plainWrite i (BAL_CELLc_TGT c) v).put (BAL_CELLc_STAT_DONE c) 0).onCell c fun b => { b with newTgt := some (toI 32 v) }

/-- BAL_TARGET_WRITE (R149, R152); an engine's write is staged (R198). -/
def execBalTargetWrite (c : Fin 32) (i : Initiator) (v : Word) (s : State) : Outcome :=
  .next (s.orStaged i (BAL_CELLc_TGT c) v fun s =>
    s.writeRow i (BAL_CELLc_TGT c) fun s => s.writeTarget c i v.toNat)

/-- TARGET_DONE (R150): the charge measured so far is booked; a target reached is cleared with DONE. -/
def execTargetDone (c : Fin 32) (s : State) : Outcome := .next (s.account (c / 4))

/-- A write of BAL_PHp_CMD (R151, R152, R163): the register holds the clipped I_SET (R168), the command keeps it as written, so that
its clip is counted in each tick (R31, Table 6.3). FENCED while the phase is fenced, in RUN and TRIM for the owning engine only
(DESIGN CHOICE, log entry 237). -/
def State.writePhaseCmd (s : State) (p : Nat) (i : Initiator) (v : Nat) : Ended × State :=
  let a := BAL_PHp_CMD p
  if s.accessCode i a true = 0 ∧ s.flag (BAL_PHp_STAT_FENCED p) then (1, (s.countAccess i a true).refused i a true 1)
  else s.guarded i a fun s =>
    if s.mode = 4 ∨ isEngine i (8 + p / 2) then
      let s := s.plainWrite i a v
      s.onPhase p fun h =>
        { h with newCmd := some (fieldOf v 0 9, s.get (BAL_PHp_CMD_MODE p), s.get (BAL_PHp_CMD_CELL p)) }
    else s.refuseRight 5 i a

/-- PHASE_COMMAND_WRITE (R151); an engine's write is staged (R198). -/
def execPhaseCommandWrite (p : Fin 8) (i : Initiator) (v : Word) (s : State) : Outcome :=
  .next (s.orStaged i (BAL_PHp_CMD p) v fun s =>
    let r := s.writePhaseCmd p i v.toNat
    r.2.emit (.ended r.1))

/-- COMMAND_EXPIRY (R151): two ticks have passed without a command; I_SET is taken as 0. -/
def execCommandExpiry (p : Fin 8) (s : State) : Outcome :=
  if 2 ≤ (s.phase p).age then .next (s.applyPhase p) else .next s

/-- BAL_ENABLE (R156): EN at 0 stops all phases within one switching cycle. -/
def execBalEnable (i : Initiator) (v : Word) (s : State) : Outcome :=
  .next (s.writeRow i BAL_CTRL fun s => (s.plainWrite i BAL_CTRL v.toNat).ferryRefresh)

/-! ## Phase faults -/

/-- PRIMARY_OVERCURRENT (R157): the phase stops for the rest of the tick; the third such tick in succession is a fault. -/
def execPrimaryOvercurrent (p : Fin 8) (s : State) : Outcome :=
  if s.get (BAL_PHp_STAT_STATE p) = 2 then
    let s := s.onPhase p fun h => { h with overNow := true, overRun := h.overRun + 1 }
    if 3 ≤ (s.phase p).overRun then .next (s.phaseFault p 4 false) else .next (s.applyPhase p)
  else .next s

/-- NO_SECONDARY_CONDUCTION (R162): eight consecutive ticks below half a command of at least 200 mA. -/
def execNoSecondaryConduction (p : Fin 8) (s : State) : Outcome :=
  if 8 ≤ (s.phase p).lowRun then .next ((s.onPhase p fun h => { h with lowRun := 0 }).phaseFault p 5 false) else .next s

/-- COMMAND_TRANSFER (R162): a command word fails its CRC and is discarded; the third such tick in succession is a fault. -/
def execCommandTransfer (p : Fin 8) (s : State) : Outcome :=
  if s.flag (BAL_PHp_STAT_FENCED p) then .next s
  else
    let s := s.onPhase p fun h => { h with newCmd := none, xferRun := if h.xferNow then h.xferRun else h.xferRun + 1, xferNow := true }
    if 3 ≤ (s.phase p).xferRun then .next (s.phaseFault p 6 false) else .next s

/-! ## Diverse comparators -/

/-- The inhibitions of cell `c` follow its comparators within one switching cycle (R155, R156). -/
def State.followComparator (s : State) (c : Nat) : State :=
  let s := (s.putB (BAL_CELLc_STAT_OVINH c) (s.inhibited c true)).putB (BAL_CELLc_STAT_UVINH c) (s.inhibited c false)
  if s.mode = 2 ∨ s.mode = 4 then s.ferryRefresh else s

/-- The comparator pair of cell `c` is enabled: as the last seal left it (R61, R81), which a reset keeps (R361); before the first seal after
power-on, on the channels then used. -/
def State.pairOn (s : State) (c : Nat) : Bool :=
  s.flag (PSF_DCn_STAT_EN c) || (!((List.range 32).any fun d => s.flag (PSF_DCn_STAT_EN d)) && decide (c < s.cellsN))

/-- DC_QUALIFY (R78): a used channel's comparator qualifies and raises source 0 or 1; in SHIP it also
wakes the part (R350, Table 13.6). Unused pairs are disabled (R61); a pair under self-test qualifies after it (R83). -/
def execDcQualify (c : Fin 32) (ov : Bool) (s : State) : Outcome :=
  if s.pairOn c && !s.flag (dcQ ov c) && !s.dcTesting c then
    let s := (s.put (dcQ ov c) 1).bump (if ov then PSF_DCn_STAT_OVN c else PSF_DCn_STAT_UVN c) 1
    let s := (s.raiseSrc (if ov then 0 else 1) c).followComparator c
    .next (if s.mode = 0 then s.wakeRequest 5 else s)
  else .next s

/-- DC_RELEASE (R79): the comparator withdraws its demand; the source is withdrawn with the last one. -/
def execDcRelease (c : Fin 32) (ov : Bool) (s : State) : Outcome :=
  if s.flag (dcQ ov c) && !s.dcTesting c then
    let s := (s.put (dcQ ov c) 0).followComparator c
    .next (if (List.range 32).any fun d => s.flag (dcQ ov d) then s else s.releaseSrc (if ov then 0 else 1))
  else .next s

end Sys2Proof.Machine
end

