-- ==== Sys2Proof/Machine/Throttle.lean ====
section
/-! DEFINITION. The thermal throttle (R176 to R180, R468): evaluation of H, requests, grace, raises without grace, step down. -/

namespace Sys2Proof.Machine

/-- The target level L_t (R176). -/
def State.targetLevel (s : State) : Nat := s.get AUX_THR_STAT_LT

/-- Threshold T(n) in 0.1 °C. -/
def State.thrT (s : State) (n : Nat) : Int :=
  10 * (s.get (if n = 1 then AUX_THR_CFG_T1 else if n = 2 then AUX_THR_CFG_T2 else AUX_THR_CFG_T3) : Int)

/-- The largest die reading and its sensor, the lowest index on a tie (R176). -/
def State.hottest (s : State) : Int × Nat :=
  (List.range 6).foldl (fun m d => if m.1 < (s.die d).val then ((s.die d).val, d) else m) ((s.die 0).val, 0)

/-- Grace remaining in 1/16 ns. -/
def State.graceLeft (s : State) : Nat := match s.aux.grace with | some e => e - s.now | none => 0

/-- An entry of the throttle event ring (Table 7.7) (DEDUCED, log entry 14). -/
def State.throttleEvent (s : State) (src dst cause sensor : Nat) (h : Int) : State :=
  let n := s.aux.tev % 16
  let s := { s with aux := { s.aux with tev := s.aux.tev + 1 } }
  (((s.put AUX_TEV_WPTR_IDX n).put64 (AUX_TEVn_TLO n) s.ftNs).wrN (AUX_TEVn_INFO n)
    (src + 4 * dst + 16 * cause + 256 * sensor)).put (AUX_TEVn_VAL_H n) (ofI 16 h)

/-- H and its sensor as they were last evaluated. -/
def State.lastH (s : State) : Int × Nat := ((s.die s.aux.hot).val, s.aux.hot)

/-- A throttle request, updated request or withdrawal (R177, R468): a THROTTLE frame to 0x00 and, with HN, Host Notify
event 0x01. -/
def State.throttleFrame (s : State) (kind : Nat) : State :=
  let h := s.lastH
  let left := if kind = 2 then 0 else s.graceLeft / (100 * ms)
  let pay := leBytes 8 s.ftNs ++ leBytes 6 s.tickNo ++ leBytes 1 kind ++ leBytes 1 (s.targetLevel + 4 * s.throttle) ++
    leBytes 1 h.2 ++ leBytes 1 0 ++ leBytes 2 (ofI 16 h.1) ++ leBytes 2 left ++ leBytes 2 0
  let s := if kind = 2 then s.bump AUX_THR_CNT_WD 1 else s.bump AUX_THR_CNT_REQ 1
  let s := s.originate 0 0x03 pay
  if s.flag AUX_THR_CFG_HN then s.notifyQueue 1 (s.targetLevel + 4 * s.throttle + 16 * b2n (kind == 2)) else s

/-- The registers that show the grace timer. -/
def State.showGrace (s : State) : State :=
  (s.putB AUX_THR_STAT_GRACE_RUN s.aux.grace.isSome).put AUX_THR_STAT_REM (min 255 (s.graceLeft / (100 * ms)))

/-- The enforced level changes (R180): event, Ferry, ESS of every engine (R196), and at level 2 and above the end of a running sweep. -/
def State.setLevel (s : State) (l cause : Nat) : State :=
  let old := s.throttle
  if l = old then s
  else
    let h := s.lastH
    let s := ((s.put AUX_THR_STAT_LE l).throttleEvent old l cause h.2 h.1).logHw 0x24 (0x400 + l) cause h.2 (ofI 32 h.1)
    let s := if old < l then s.bump AUX_THR_CNT_ENF 1 else s
    let s := { s with aux := { s.aux with below := none } }
    let s := (List.range 8).foldl (fun s p => s.put (BAL_PHp_STAT_THR p) l) (s.put BAL_STAT_THR l)
    let s := (List.range 16).foldl (fun s e => s.putBit (ENG_n_STAT_YEC e) 8 (decide (2 ≤ l))) s
    let s := if 2 ≤ l then s.sweepEnd 2 else s
    s.ferryRefresh

/-- A raise without grace (R178): a grace timer that it makes pointless is cancelled and nothing is withdrawn
(DEDUCED, log entry 83). -/
def State.raiseLevel (s : State) (l cause : Nat) : State :=
  let s := if s.throttle < l then s.setLevel l cause else s
  if s.targetLevel ≤ s.throttle then { s with aux := { s.aux with grace := none } }.showGrace else s

/-- The request and the grace timer follow the target level `lt`, which was `was` (R176, R177). -/
def State.followTarget (s : State) (was lt : Nat) : State :=
  if s.throttle < lt then
    match s.aux.grace with
    | none =>
      let g := s.now + s.getIn AUX_THR_TIME_GRACE 1 100 * 100 * ms
      ({ s with aux := { s.aux with grace := some g } }.throttleFrame 0).showGrace
    | some _ => (if lt = was then s else s.throttleFrame 1).showGrace
  else if s.aux.grace.isSome then
    let s := { s with aux := { s.aux with grace := none } }
    ((s.throttleFrame 2).throttleEvent s.throttle s.throttle 6 s.aux.hot s.lastH.1).showGrace
  else s

/-- The hold at level 3 after a failure of sensor `x.1` (R178), with the end of its quiet period: it ends when the sensor has read
plausibly for that period. -/
def State.keepFailure (s : State) (x : Nat × Option Nat) : Option (Nat × Option Nat) :=
  if ¬ (s.die x.1).plaus then some (x.1, none)
  else match x.2 with
    | none => some (x.1, some (s.now + s.quiet))
    | some t => if t ≤ s.now then none else some x

/-- The holds at level 3 after sensor failures (R178). -/
def State.followFailure (s : State) : State :=
  let l := s.aux.sfail.filterMap s.keepFailure
  { s with aux := { s.aux with sfail := l } }.putB AUX_THR_STAT_SFAIL (!l.isEmpty)

/-- Sensor `d`, which gave H, has failed while throttling is active (R178). -/
def State.sensorFailed (s : State) (d : Nat) : State :=
  let l := (d, none) :: s.aux.sfail.filter fun x => x.1 != d
  ((({ s with aux := { s.aux with sfail := l } }.put AUX_THR_STAT_SFAIL 1).bump AUX_THR_CNT_SF 1)).raiseLevel 3 3

/-- The time for which H has stayed below T(L_e) - HYST (R179). -/
def State.followBelow (s : State) (h : Int) : State :=
  let l := s.throttle
  let low := l != 0 && s.aux.sfail.isEmpty && decide (h < s.thrT l - 10 * s.getIn AUX_THR_CFG_HYST 1 15)
  { s with aux := { s.aux with below := if low then some (s.aux.below.getD s.now) else none } }

/-- The time each sensor has spent at or above T1 advances by `dt` (DEDUCED, log entry 80). -/
def State.hotTimes (s : State) (dt : Nat) : State :=
  (List.range 6).foldl
    (fun s d =>
      if (s.die d).plaus ∧ s.thrT 1 ≤ (s.die d).val then
        let s := s.onDie d fun h => { h with hotAcc := h.hotAcc + dt }
        s.wrN (AUX_TDd_HOT d) (min (2 ^ 32 - 1) ((s.die d).hotAcc / sec))
      else s) s

/-- One evaluation of H (R176 to R179). The raises without grace come before the request: one that reaches the target leaves none to
send. -/
def State.evalThrottle (s : State) : State :=
  let active := decide (1 ≤ s.throttle) || s.aux.grace.isSome
  let failed := active && s.aux.hotOk && !(s.die s.aux.hot).plaus
  let bad := s.aux.hot
  let (h, d) := s.hottest
  let s := { s with aux := { s.aux with hot := d, hotOk := (s.die d).plaus } }
  let s := ((s.put AUX_THR_STAT_HOT d).putI AUX_THR_STAT_H (h / 10))
  let s := if s.flag AUX_TDIE_MAX_NEW ∧ h ≤ s.getI AUX_TDIE_MAX_T then s
    else ((s.putI AUX_TDIE_MAX_T h).put AUX_TDIE_MAX_NEW 1).put AUX_TDIE_MAX_SENS d
  let lt := if s.thrT 3 ≤ h then 3 else if s.thrT 2 ≤ h then 2 else if s.thrT 1 ≤ h then 1 else 0
  let was := s.targetLevel
  let s := s.put AUX_THR_STAT_LT lt
  let s := if failed then s.sensorFailed bad else s
  let s := if (List.range 6).any fun e => (s.die e).plaus && decide ((1550 : Int) ≤ (s.die e).val) then s.raiseLevel 3 4 else s
  ((s.followTarget was lt).followFailure.followBelow h).showGrace

/-- THROTTLE_EVALUATION (R173, R176): every 1 ms TD2 to TD5 are converted and H is evaluated; not in SHIP. -/
def execThrottleEvaluation (td : Vector DieReading 4) (s : State) : Outcome :=
  if s.mode = 0 ∨ s.mode = 6 then .next s
  else
    let dt := ms
    let s := s.reach (s.aux.evalAt + dt)
    let s := { s with aux := { s.aux with evalAt := s.now } }
    let s := (List.range 4).foldl (fun s k => s.dieConv (2 + k) (vget td k none)) s
    .next (s.hotTimes dt).evalThrottle

/-- THROTTLE_GRACE_EXPIRY (R177): L_e becomes the L_t of that moment. -/
def execThrottleGraceExpiry (s : State) : Outcome :=
  match s.aux.grace with
  | some e =>
    let s := { s.reach e with aux := { (s.reach e).aux with grace := none } }
    .next (s.setLevel s.targetLevel 0).showGrace
  | none => .next s

/-- THROTTLE_STEP_DOWN (R179): H has stayed low for REL; never below FLOOR. -/
def execThrottleStepDown (s : State) : Outcome :=
  match s.aux.below with
  | some t =>
    let l := s.throttle
    if s.aux.sfail.isEmpty ∧ s.get AUX_THR_CTRL_FLOOR < l then
      let s := s.reach (t + s.getIn AUX_THR_TIME_REL 1 100 * 100 * ms)
      .next ((s.setLevel (l - 1) 5).followBelow s.lastH.1)
    else .next s
  | none => .next s

/-- A write of AUX_THR_CTRL that is performed (R178): FLOOR raises L_e to its value, ENF to L_t (DEDUCED, log entry 83). -/
def State.writeThrCtrl (s : State) (i : Initiator) (v : Nat) : State :=
  let s := s.plainWrite i AUX_THR_CTRL v
  let s := s.raiseLevel (s.get AUX_THR_CTRL_FLOOR) 2
  if bitOf v 2 then s.raiseLevel s.targetLevel 1 else s

/-- THROTTLE_ENFORCE (R178). -/
def execThrottleEnforce (i : Initiator) (v : Word) (s : State) : Outcome :=
  .next (s.writeRow i AUX_THR_CTRL fun s => s.writeThrCtrl i (setBitN v.toNat 2))

/-- THROTTLE_FLOOR (R178). -/
def execThrottleFloor (i : Initiator) (v : Word) (s : State) : Outcome :=
  .next (s.writeRow i AUX_THR_CTRL fun s => s.writeThrCtrl i v.toNat)

end Sys2Proof.Machine
end

