-- ==== Sys2Proof/Machine/Impedance.lean ====
section
/-! DEFINITION. Impedance sweeps and sensorless cell temperature (chapter 5): windows and stages (R112 to R125), demodulation
(R126, R127), quality (R128), scheduling (R129 to R131), estimates and learning (R134 to R138). -/

namespace Sys2Proof.Machine

/-! ## Bins and windows -/

/-- The information of bin `b` in a sweep. -/
def SweepRun.binInfo (r : SweepRun) (b : Nat) : BinInfo :=
  vget r.info b { fact := 0, nw := 0, count := 0, state := 0, passive := false, complete := false }

/-- The information of bin `b` changed by `f`. -/
def SweepRun.onInfo (r : SweepRun) (b : Nat) (f : BinInfo → BinInfo) : SweepRun :=
  { r with info := vset r.info b (f (r.binInfo b)) }

/-- SRC of bin `b` (Table 5.1). -/
def State.binSrc (s : State) (b : Nat) : Nat := s.get (CSI_IMP_BINb_CFG_SRC b)

/-- AMP of bin `b` in 10 mA, which a write clips to 150 (Table 5.7). -/
def State.binAmp (s : State) (b : Nat) : Nat := min (s.get (CSI_IMP_BINb_CFG_AMP b)) 150

/-- M_b of bin `b` in a window of `nw` samples (R113). -/
def State.binM (s : State) (nw b : Nat) : Nat := windowCount (s.binF b) nw s.period s.nb

/-- Two bins of the stage have M_b values that differ by less than SLOTS (R117). -/
def State.planBad (s : State) (bins : List Nat) : Bool :=
  let nw := s.stageLen bins
  let slots := 2 ^ min (s.get CSI_IMP_PLAN_SLOTS_L2) 4
  let ms := bins.map (s.binM nw)
  ms.zipIdx.any fun x => ms.zipIdx.any fun y =>
    decide (x.2 < y.2) && decide (((x.1 : Int) - y.1).natAbs < slots)

/-- The bins of the next passive window of a stage (R125): before the first window every SRC 0b01 and 0b10 bin, then the SRC
0b01 bins not accepted, up to TRIES windows. -/
def State.passiveBins (s : State) (r : SweepRun) : List Nat :=
  r.bins.filter fun b =>
    !(r.binInfo b).complete &&
      ((r.tries == 0 && (s.binSrc b == 1 || s.binSrc b == 2)) ||
        (s.binSrc b == 1 && decide (r.tries < s.getIn CSI_IMP_PASV_TRIES 1 15)))

/-- The bins that still need an active window (R120): SRC 0b00 and the SRC 0b10 bins not complete, with AMP other than 0; none
where the plan forbids them (R117). -/
def State.activeBins (s : State) (r : SweepRun) : List Nat :=
  if s.planBad r.bins then []
  else r.bins.filter fun b =>
    (s.binSrc b == 0 || (s.binSrc b == 2 && !(r.binInfo b).complete)) && s.binAmp b != 0

/-- Σ A_b of a stage before scaling, in 10 mA (DEDUCED, log entry 90). -/
def State.ampSum (s : State) (bins : List Nat) : Nat := (bins.map s.binAmp).foldl (· + ·) 0

/-- The groups of excited phases of an active stage (R120): ascending, G at a time. -/
def State.phaseGroup (s : State) (bins : List Nat) (i : Nat) : List Nat :=
  let g := min 8 (400 / max 1 (min 150 (s.ampSum bins)))
  ((bitsOf 8 (s.get CSI_IMP_EXC_PHMASK)).drop (g * i)).take g

/-- The next window of a stage: passive or active, the phases excited, the selector position; none when the stage is done. -/
def State.planWindow (s : State) (r : SweepRun) : Option (Bool × List Nat × Nat) :=
  if s.passiveBins r ≠ [] then some (true, [], 0)
  else
    let act := s.activeBins r
    let i := r.win - r.tries
    let ph := s.phaseGroup act (i / 4)
    if act = [] ∨ ph = [] then none else some (false, ph, i % 4)

/-- The bins demodulated in the window that stands planned. -/
def State.windowBins (s : State) (r : SweepRun) : List Nat := if r.passive then s.passiveBins r else s.activeBins r

/-! ## The course of a sweep -/

/-- The own period count of bin `b` in a window: M_b + SLOT active, M_b passive (R116). -/
def State.ownCount (s : State) (r : SweepRun) (b : Nat) : Nat :=
  s.binM (s.stageLen r.bins) b + if r.passive then 0 else s.get CSI_IMP_PLAN_SLOT

/-- What the sweep has BAL do from the start of the settle interval to the end of the window it stands before, whose first sample
follows S(`k`): the waveform is the window's own, on the same phase law (R119, R121) (DESIGN CHOICE, log entry 255). -/
def State.driveFor (s : State) (r : SweepRun) (k : Nat) : SweepDrive :=
  if r.passive then { phases := [], pos := 0, bins := [], nw := 0, at_ := 0 }
  else { phases := r.phases, pos := r.pos, bins := (s.activeBins r).map fun b => (b, s.ownCount r b), nw := s.stageLen r.bins,
         at_ := s.sampleAt k + s.periodT / s.nb }

/-- The settle interval before the next window begins at tick `k` (R115); what the sweep does to the selectors follows
(R121). Excitation removed in the window before stays removed until the next one begins (R122). A window that is postponed moves the
phase of its waveform with it when it begins (DESIGN CHOICE, log entry 255). -/
def State.toSettle (s : State) (r : SweepRun) (w : Bool × List Nat × Nat) (k : Nat) : State :=
  let run : SweepRun := { r with inWindow := false, settleK := k, passive := w.1, phases := w.2.1, pos := w.2.2 }
  let run := { run with drive := s.driveFor run (k + s.getIn CSI_IMP_CTRL_SETTLE 2 255) }
  let s := { s with imp := { s.imp with run := some run } }
  let s := if ¬ w.1 ∧ r.win = r.tries ∧ 150 < s.ampSum (s.activeBins r) then s.bump CSI_IMP_CLIP_AMP 1 else s
  s.showSweep

/-- A stage begins: its bins, and PLAN_ERR where two of them lie closer than SLOTS (R117) (DEDUCED, log entry 90). -/
def State.beginStage (s : State) (r : SweepRun) (st : Nat) (bins : List Nat) : SweepRun × State :=
  let bad := s.planBad bins
  let r := { r with stage := st, bins := bins, win := 0, tries := 0, planErr := r.planErr || bad }
  (r, if bad then s.put CSI_IMP_STAT_PLAN_ERR 1 else s)

/-- The states of the bins of a stage that ends (Table 5.4): bins whose active windows the plan forbids are skipped. -/
def State.closeStage (s : State) (r : SweepRun) : SweepRun :=
  if s.planBad r.bins then
    r.bins.foldl (fun r b => if (r.binInfo b).state = 0 then r.onInfo b fun i => { i with state := 3 } else r) r
  else r

/-- The bins a stage of a sweep runs. -/
def State.runBins (s : State) (kind st : Nat) : List Nat :=
  if kind = 0 then s.stageBins st
  else (let b := s.get CSI_IMP_TCFG_BIN; if b < 24 ∧ s.binOn b ∧ s.get (CSI_IMP_BINb_CFG_STAGE b) = st then [b] else [])

/-- The stages from `st` on, with at most `fuel` of them: the first one that has a window begins its settle interval at tick
`k`; with none left the sweep completes (R112, R129). -/
def State.stagesFrom : Nat → State → SweepRun → Nat → Nat → State
  | 0, s, r, _, _ => s.sweepDone r
  | fuel + 1, s, r, st, k =>
    let bins := s.runBins r.kind st
    if bins = [] then s.stagesFrom fuel r (st + 1) k
    else
      let (r, s) := s.beginStage r st bins
      match s.planWindow r with
      | some w => s.toSettle r w k
      | none => s.stagesFrom fuel (s.closeStage r) (st + 1) k

/-- A sweep starts at tick `k`: its sequence number, its times, no result yet (R133) (DEDUCED, log entry 91). PLAN_ERR speaks of this
sweep from here on (DESIGN CHOICE, log entry 259). -/
def State.sweepStart (s : State) (kind k : Nat) : State :=
  let n := (s.imp.started + 1) % 2 ^ 32
  let r : SweepRun :=
    { kind := kind, seq := n, tStart := s.sampleAt k / 16, kStart := k, stage := 0, bins := [], inWindow := false, settleK := k,
      winK := 0, winAt := 0, lastAt := 0, win := 0, nw := 0, n := 0, passive := false, tries := 0,
      drive := { phases := [], pos := 0, bins := [], nw := 0, at_ := 0 }, phases := [], pos := 0, exc := 0, held := 0, sat := 0,
      late := 0, removed := 0, acc := [],
      info := Vector.replicate 24 { fact := 0, nw := 0, count := 0, state := 0, passive := false, complete := false },
      res := [], planErr := false, holdover := s.get TMG_STAT_STATE == 3, incoh := s.tick.exceeded,
      thr1 := s.throttle == 1, sumI := 0, cntI := 0 }
  let s := { s with imp := { s.imp with started := n } }.put CSI_IMP_STAT_PLAN_ERR 0
  s.stagesFrom 8 r 0 k

/-- A full sweep that waited behind a temperature pass goes on with its next stage (R131). -/
def State.sweepResume (s : State) (k : Nat) : State :=
  match s.imp.run with
  | some r => if r.kind = 0 then s.stagesFrom (8 - r.stage) r r.stage k else s
  | none => s

/-- A temperature pass starts between two stages of the full sweep `outer` (R131). -/
def State.passBetween (s : State) (outer : SweepRun) (k : Nat) : State :=
  let s := { s with imp := { s.imp with outer := some outer } }.put CSI_IMP_STAT_TPEND 0
  (s.sweepStart 1 k).sweepResume k

/-- A stage is done: a pass that waits runs before the next stage, or after the last one (R131). -/
def State.stageEnd (s : State) (r : SweepRun) (k : Nat) : State :=
  let r := s.closeStage r
  let more := (List.range 8).any fun st => decide (r.stage < st) && s.runBins r.kind st != []
  let wait := r.kind == 0 && s.flag CSI_IMP_STAT_TPEND
  if wait && more then s.passBetween { r with stage := r.stage + 1 } k
  else
    let s := s.stagesFrom (7 - r.stage) r (r.stage + 1) k
    if wait then (s.put CSI_IMP_STAT_TPEND 0).sweepStart 1 k
    else if r.kind = 1 then s.sweepResume k else s

/-- The tick boundary at or after the present fabric time. -/
def State.boundary (s : State) : Nat := if s.ft ≤ s.sampleAt s.tickNo then s.tickNo else s.tickNo + 1

/-- Why no sweep may start now (R129, Table 5.3). -/
def State.sweepBar (s : State) : Option Nat :=
  if 2 ≤ s.throttle then some 2 else if s.mode = 2 ∨ s.mode = 4 then none else some 3

/-- A full sweep is due or commanded, to start at tick `k` (R129, R131). -/
def State.wantFull (s : State) (k : Nat) : State :=
  if ¬ s.flag CSI_IMP_CTRL_EN then s
  else
    match s.sweepBar with
    | some c => s.sweepCode c 0
    | none => if s.imp.run.isSome then s else s.sweepStart 0 k

/-- The temperature bin, when it names an enabled bin (Table 5.6). -/
def State.tempBin (s : State) : Option Nat :=
  let b := s.get CSI_IMP_TCFG_BIN
  if b < 24 ∧ s.binOn b then some b else none

/-- A temperature pass is due or commanded, to start at tick `k` (R129, R131). -/
def State.wantPass (s : State) (k : Nat) : State :=
  match s.tempBin with
  | none => s
  | some b =>
    if ¬ s.flag CSI_IMP_CTRL_EN then s
    else
      match s.sweepBar, s.imp.run with
      | some c, _ => s.sweepCode c 0
      | none, none => s.sweepStart 1 k
      | none, some r =>
        if r.kind = 0 ∧ ((r.binInfo b).state ≠ 0 ∨ s.get (CSI_IMP_BINb_CFG_STAGE b) < r.stage) then s.put CSI_IMP_STAT_TPEND 1
        else s

/-- The next due time of a schedule of period `per` (1/16 ns) at or after the present fabric time (R130). -/
def State.nextDue (s : State) (per : Nat) : Nat :=
  let ng := s.get CSI_IMP_PLAN_NGROUP
  let g := if s.flag CSI_IMP_SCHED_STAGGER then s.get CSI_IMP_PLAN_GROUP else 0
  let ofs := if ng = 0 then 0 else per * g / ng
  let base := ofs % per
  if s.ft ≤ base then base else base + cdivN (s.ft - base) per * per

/-- FULL_SWEEP_DUE (R130). -/
def execFullSweepDue (s : State) : Outcome :=
  let m := s.get CSI_IMP_SCHED_FULL_MIN
  if m = 0 then .next s
  else
    let s := s.reachFt (s.nextDue (m * 60 * sec))
    .next (s.wantFull s.boundary)

/-- TEMP_PASS_DUE (R130, R131) (DEDUCED, log entry 99). -/
def execTempPassDue (s : State) : Outcome :=
  let n := s.get CSI_IMP_SCHED_TEMP_S
  if n = 0 then .next s
  else
    let s := s.reachFt (s.nextDue (n * sec))
    .next (s.wantPass s.boundary)

/-- The sweeps commanded since the last tick boundary start at this one (R130). -/
def State.sweepRequests (s : State) : State :=
  let q := s.imp
  let s := { s with imp := { s.imp with startReq := false, tstartReq := false } }
  let s := if q.startReq then s.wantFull s.tickNo else s
  if q.tstartReq then s.wantPass s.tickNo else s

/-- What TRELRN discards (R137). -/
def State.relearn (s : State) : State :=
  { s with imp := { s.imp with offset := Vector.replicate 32 0, count := Vector.replicate 32 0 } }.wrN CSI_IMP_TLRN 0

/-- A write of CSI_IMP_CTRL that is performed (Table 5.8); START and TSTART are ignored outside RUN and SERVICE (R130). EN cleared during a
sweep keeps the next ones from starting (DESIGN CHOICE, log entry 258). -/
def State.writeImpCtrl (s : State) (i : Initiator) (v : Nat) : State :=
  let s := s.plainWrite i CSI_IMP_CTRL v
  let ok := s.mode == 2 || s.mode == 4
  let s := { s with imp := { s.imp with startReq := s.imp.startReq || (ok && bitOf v 1),
                                        tstartReq := s.imp.tstartReq || (ok && bitOf v 2) } }
  let s := if bitOf v 3 then (s.sweepEnd 1).ferryRefresh else s
  if bitOf v 24 then s.relearn else s

/-- IMP_START (R130). -/
def execImpStart (i : Initiator) (v : Word) (s : State) : Outcome :=
  .next (s.writeRow i CSI_IMP_CTRL fun s => s.writeImpCtrl i (setBitN v.toNat 1))

/-- IMP_TSTART (R130). -/
def execImpTstart (i : Initiator) (v : Word) (s : State) : Outcome :=
  .next (s.writeRow i CSI_IMP_CTRL fun s => s.writeImpCtrl i (setBitN v.toNat 2))

/-- IMP_STOP (R129). -/
def execImpStop (i : Initiator) (v : Word) (s : State) : Outcome :=
  .next (s.writeRow i CSI_IMP_CTRL fun s => s.writeImpCtrl i (setBitN v.toNat 3))

/-- IMP_TRELRN (R137). -/
def execImpTrelrn (i : Initiator) (v : Word) (s : State) : Outcome :=
  .next (s.writeRow i CSI_IMP_CTRL fun s => s.writeImpCtrl i (setBitN v.toNat 24))

/-- CSI_IMP_PLAN takes the word `w`; a change during an active stage ends the sweep (Table 5.3). -/
def State.takePlan (s : State) (w : Nat) : State :=
  let old := s.rdN CSI_IMP_PLAN
  let s := s.wrN CSI_IMP_PLAN w
  match s.imp.run with
  | some r => if ¬ r.passive ∧ w ≠ old then (s.sweepEnd 7).ferryRefresh else s
  | none => s

/-- A write of CSI_IMP_PLAN (R139): only by the harbour. -/
def State.writeImpPlan (s : State) (i : Initiator) (v : Nat) : State :=
  if ¬ s.asHarbour i then s.refuseRight (ownerOf CSI_IMP_PLAN) i CSI_IMP_PLAN
  else
    let t := s.plainWrite i CSI_IMP_PLAN v
    (t.wrN CSI_IMP_PLAN (s.rdN CSI_IMP_PLAN)).takePlan (t.rdN CSI_IMP_PLAN)

/-- The harbour sets PLAN_MIS of an island whose table differs (R118); the other bits of the register are read-only
(DEDUCED, log entry 236). -/
def State.writeImpStat (s : State) (i : Initiator) (v : Nat) : State :=
  if s.asHarbour i then s.putB CSI_IMP_STAT_PLAN_MIS (bitOf v 12) else s

/-! ## Windows -/

/-- An empty accumulator of bin `b`: its own period count (R116). -/
def BinAcc.zero (b count : Nat) : BinAcc :=
  { bin := b, count := count, v := List.replicate 32 (0, 0), m := (0, 0), p := List.replicate 8 (0, 0), s := (0, 0) }

/-- The window about to start is shorter than an open-wire step that is scheduled within it, or that runs (R115). -/
def State.windowWaits (s : State) (r : SweepRun) : Bool :=
  let len := s.stageLen r.bins * s.periodT / s.nb
  let w := s.meas.ow
  let soon := match w.due with
    | some t => decide (t < s.now + len) && s.owMode && s.flag CMF_CTRL_EN && s.flag CMF_CTRL_OW_EN
    | none => s.owMode && s.flag CMF_CTRL_EN && s.flag CMF_CTRL_OW_EN
  decide (len < s.getIn CMF_OW_CFG_STEP_MS 10 4000 * ms) && (w.on || soon)

/-- The cells a phase mask's excitation would reach at a position but does not (R123). -/
def State.unexcited (s : State) (r : SweepRun) : Nat :=
  if r.passive then 0
  else ofBits ((r.phases.filter fun p => !s.excited p).map fun p => 4 * p + r.pos)

/-- SWEEP_WINDOW_START (R115): at a sample instant, before a strobe of the next tick, at least SETTLE ticks after the settle interval
began. Excitation removed in the window before is there again (R122); a phase that carries none has EXC (R123, R124). -/
def execSweepWindowStart (s : State) : Outcome :=
  match s.imp.run with
  | none => .next s
  | some r =>
    if !r.inWindow && s.tick.open_ && (s.chan 0).acc.n == 0 && decide (r.settleK + s.getIn CSI_IMP_CTRL_SETTLE 2 255 ≤ s.tickNo) && !s.windowWaits r then
      let r := { r with removed := 0 }
      let s := { s with imp := { s.imp with run := some r } }
      let late := ofBits ((List.range 32).filter fun c => s.engFenced (c / 4))
      let gone := ofBits (r.phases.filter fun p => !s.excited p)
      let run : SweepRun :=
        { r with inWindow := true, drive := s.driveFor r s.tickNo, winK := s.tickNo, winAt := s.sampleAt s.tickNo + s.periodT / s.nb, nw := s.stageLen r.bins, n := 0, exc := s.unexcited r, held := 0, sat := 0,
                 late := late, removed := if r.passive then 0 else gone,
                 acc := (s.windowBins r).map fun b => .zero b (s.ownCount r b) }
      .next ({ s with imp := { s.imp with run := some run } }.showSweep.ferryRefresh)
    else .next s

/-- One DFT step of the demodulation (R126, R194): `x` times the Q15 twiddles `c` and `d` of e^(-jθ), rounded at 2^15, added to a sum
kept in fixed point (DEDUCED, log entry 88). -/
def rotAdd (x c d : Int) (a : Int × Int) : Int × Int :=
  (a.1 + roundAway (x * c) 32768 * fixOne, a.2 - roundAway (x * d) 32768 * fixOne)

/-- One sample of a window in one bin (R126): the phase index (M' n) mod N_w is exact (DEDUCED, log entry 88). -/
def BinAcc.add (a : BinAcc) (n nw : Nat) (v : List Int) (m : Int) (p : List Int) (sec : Int) : BinAcc :=
  let t := a.count * n % nw
  let (c, d) := twiddles t nw
  { a with v := List.zipWith (fun x y => rotAdd x c d y) v a.v, m := rotAdd m c d a.m,
           p := List.zipWith (fun x y => rotAdd x c d y) p a.p, s := rotAdd sec c d a.s }

/-- A base-rate strobe enters the window in progress; with its last sample the boundary of the next settle interval is known
(R115, R126). -/
def State.sweepSample (s : State) (x : StrobeSample) : State :=
  match s.imp.run with
  | none => s
  | some r =>
    if r.sampling then
      let m := if s.flag CSI_CTRL_POL0 then -(sampleOf x 32) else sampleOf x 32
      let acc := r.acc.map fun a =>
        a.add r.n r.nw ((List.range 32).map (sampleOf x)) m (x.prim.toList.map (·.toInt)) x.sec.toInt
      let k := if r.n + 1 = r.nw then s.tickNo + 1 else r.settleK
      let at_ := if r.n + 1 = r.nw then s.ftNs else r.lastAt
      { s with imp := { s.imp with run := some { r with acc := acc, n := r.n + 1, settleK := k, lastAt := at_ } } }
    else s

/-- What a bank switch adds to the sweep: the cells with held or saturated samples in the window, LATE for all of them after a tick
without triggers, whose deferrable work has not run (R466), the flags of the record, the current (R128, Table 5.4). -/
def State.sweepTick (s : State) : State :=
  match s.imp.run with
  | none => s
  | some r =>
    let cells (m : Nat) : Nat := ofBits ((List.range 32).filter fun c => s.rdN (CMF_CELLn_FLAG c) &&& m != 0)
    let cs := s.rdN (CSI_CSn_FLAG 0)
    let held := cells 0x0A ||| (if cs &&& 0x02 != 0 then 2 ^ 32 else 0)
    let sat := cells 0x60 ||| (if cs &&& 0x60 != 0 then 2 ^ 32 else 0)
    let i := inUnits s.meas.cur.main 10000
    let late := if s.tick.trig then 0 else 2 ^ 32 - 1
    let f (r : SweepRun) : SweepRun :=
      { r with holdover := r.holdover || s.get TMG_STAT_STATE == 3, incoh := r.incoh || s.tick.exceeded,
               thr1 := r.thr1 || s.throttle == 1, sumI := r.sumI + i, cntI := r.cntI + 1 }
    let r := if r.inWindow ∧ r.winK < s.tickNo then { r with held := r.held ||| held, sat := r.sat ||| sat, late := r.late ||| late } else r
    { s with imp := { s.imp with run := some (f r), outer := s.imp.outer.map f } }

/-! ## Results -/

/-- The decimator response at a bin with `count` periods in `nw` samples, in fixed point (R62, R127): the third power of a sinc
of 256 samples. -/
def response (count nw : Nat) : Int :=
  let d := 256 * fixSin count (512 * nw)
  if d = 0 then fixOne
  else
    let h := fixSin count (2 * nw) * fixOne / d
    h * h / fixOne * h / fixOne

/-- The square of a complex number's magnitude. -/
def normSq (z : Int × Int) : Nat := (z.1 * z.1 + z.2 * z.2).toNat

/-- The module current of a window as numerator and denominator, to be taken times 2 / (N_w H) (R127): X_m (1 + g_0) / R_eff. -/
def State.moduleSum (s : State) (a : BinAcc) : (Int × Int) × Nat :=
  let g := 100000000 + toI 24 (s.rdN (CSI_CSn_TRIM_GAIN 0))
  let r0 := s.getIn (CSI_CSn_SHUNT_R0 0) 10000 10000000
  let d := r0 * (100000000 + s.getI (CSI_CSn_TCO_ALPHA 0) * ((s.shuntTemp 0).1 - 250)).toNat
  ((25 * g * a.m.1, 25 * g * a.m.2), d)

/-- The current through cell `c` of a window (R127): numerator and denominator in A, to be taken times 2 / (N_w H). -/
def State.cellSum (s : State) (a : BinAcc) (c : Nat) (passive : Bool) : (Int × Int) × Nat :=
  let (m, d) := s.moduleSum a
  let p := if passive then (0, 0) else a.p.getD (c / 4) (0, 0)
  ((m.1 * 10000 + (p.1 - a.s.1) * d, m.2 * 10000 + (p.2 - a.s.2) * d), d * 10000)

/-- The amplitude 2 |n| / (d N_w H) reaches `lim` mA. -/
def reaches (z : Int × Int) (d nw : Nat) (h : Int) (lim : Nat) : Bool :=
  decide ((lim * nw * d) ^ 2 * (h * h).toNat ≤ 4 * normSq z * 1000000)

/-- The impedance of cell `c` in 0.1 µΩ (R127), none where the current is 0 and the manual states no quotient. -/
def State.impedance (s : State) (a : BinAcc) (c : Nat) (passive : Bool) : Option (Int × Int) :=
  let (i, d) := s.cellSum a c passive
  let g := 100000000 + toI 24 (s.rdN (CMF_TRIMn_GAIN c))
  let v := a.v.getD c (0, 0)
  let n := normSq i
  if n = 0 then none
  else some (rdivI (g * (v.1 * i.1 + v.2 * i.2) * d) (10000000 * n), rdivI (g * (v.2 * i.1 - v.1 * i.2) * d) (10000000 * n))

/-- The quality bits 1 to 6 of a result (Table 5.2). -/
def SweepRun.quality (r : SweepRun) (c : Nat) (lowi : Bool) : Nat :=
  2 * b2n (bitOf r.exc c) + 4 * b2n (bitOf r.held c || bitOf r.held 32) + 8 * b2n lowi +
    16 * b2n (bitOf r.sat c || bitOf r.sat 32) + 32 * b2n (bitOf r.late c) + 64 * b2n r.passive

/-- The causes counted for an invalid result (R128). -/
def State.countInvalid (s : State) (q : Nat) : State :=
  let one (s : State) (bit : Nat) (f : Fld) : State := if bitOf q bit then s.bump f 1 else s
  one (one (one (one s 1 CSI_IMP_INV_EXC) 2 CSI_IMP_INV_HELD) 3 CSI_IMP_INV_LOWI) 5 CSI_IMP_INV_LATE

/-- The result of cell `c` in a bin of the window (R127, R128); unused cells have none. -/
def State.resultOf (s : State) (r : SweepRun) (a : BinAcc) (c : Nat) (lowi : Bool) : SweepRun × State :=
  if s.cellsN ≤ c then (r, s)
  else
    let q := r.quality c lowi
    let bad := q &&& 0x3E != 0
    let key := 24 * c + a.bin
    let old := r.res.filter fun e => e.key != key
    if bad then
      ({ r with res := { key := key, re := -(2 ^ 31 : Nat), im := -(2 ^ 31 : Nat), q := q } :: old }, s.countInvalid q)
    else
      match s.impedance a c r.passive with
      | some z => ({ r with res := { key := key, re := satI 32 z.1, im := satI 32 z.2, q := q + 1 } :: old }, s)
      | none =>
        let (x, s) := s.fresh 32
        let (y, s) := s.fresh 32
        ({ r with res := { key := key, re := x.toInt, im := y.toInt, q := q + 1 } :: old }, s)

/-- The cells whose results an active window records (R120, R127). -/
def SweepRun.windowCells (r : SweepRun) : List Nat := if r.passive then List.range 32 else r.phases.map fun p => 4 * p + r.pos

/-- The primary current amplitude of an excited phase is compared with A_b (R124): more than 20 % off is the excitation
mismatch of the phase. Every window without EXC is compared, also one with LATE cells (DESIGN CHOICE, log entry 260). -/
def State.checkExcitation (s : State) (r : SweepRun) (a : BinAcc) (sum p : Nat) : State :=
  if bitOf r.exc (4 * p + r.pos) then s
  else
    let h := response a.count r.nw
    let den := r.nw * r.nw * (h * h).toNat
    let q := 4 * normSq (a.p.getD p (0, 0)) * 10 ^ 10
    let an := s.binAmp a.bin * 10 ^ 7 * (if 150 < sum then 150 else 1)
    let ad := if 150 < sum then sum else 1
    if 36 * an * an * den < 25 * q * ad * ad ∨ 25 * q * ad * ad < 16 * an * an * den then
      let amp := isqrt (q / max 1 den)
      let dev := rdivN (1000 * ((amp * ad : Nat) - (an : Int)).natAbs) (max 1 an)
      let s := ((s.put CSI_IMP_XMIS_PHASE p).bump CSI_IMP_XMIS_CNT 1).put CSI_IMP_XMIS_DEV (min dev 65535)
      s.faultD 3 0x12 p (min dev 65535)
    else s

/-- One bin of the window that ends: its results, its acceptance (R125), what the record says of it. -/
def State.endBin (s : State) (r : SweepRun) (a : BinAcc) : SweepRun × State :=
  let h := response a.count r.nw
  let r := r.onInfo a.bin fun i =>
    { i with nw := r.nw, count := a.count, fact := ownFreq a.count r.nw s.period s.nb, passive := i.passive || r.passive }
  if r.passive then
    let (m, d) := s.moduleSum a
    let ok := reaches m d r.nw h (s.get CSI_IMP_PASV_THR)
    let last := s.binSrc a.bin == 1 && decide (s.getIn CSI_IMP_PASV_TRIES 1 15 ≤ r.tries + 1)
    if ok ∨ last then
      let (r, s) := (List.range 32).foldl (fun x c => x.2.resultOf x.1 a c (!ok)) (r, s)
      (r.onInfo a.bin fun i => { i with complete := ok, state := if ok then 1 else 2 }, s)
    else (r, s)
  else
    let low (c : Nat) : Bool :=
      let (z, d) := s.cellSum a c false
      !reaches z d r.nw h (s.get CSI_IMP_EXC_IMIN)
    let (r, s) := r.windowCells.foldl (fun x c => x.2.resultOf x.1 a c (low c)) (r, s)
    let sum := s.ampSum (s.activeBins r)
    (r, r.phases.foldl (fun s p => s.checkExcitation r a sum p) s)

/-- The state of bin `b` when its windows are done: 1 complete, 2 complete with invalid cells (Table 5.4). -/
def SweepRun.binDone (r : SweepRun) (b : Nat) : SweepRun :=
  let bad := r.res.any fun e => e.key % 24 == b && !bitOf e.q 0
  r.onInfo b fun i => { i with state := if bad then 2 else 1 }

/-! ## Sensorless cell temperature -/

/-- Point j of the chemistry table: phase in 0.01° and temperature in 0.1 °C (R135). -/
def State.tempPoint (s : State) (j : Nat) : Int × Int := (s.getI (CSI_IMP_TTBLj_PH j), s.getI (CSI_IMP_TTBLj_T j))

/-- The raw temperature of a phase angle and whether it lies beyond the table (R135). Between points that do not increase,
which R114 keeps out of a configuration, the value is free. -/
def State.rawTemp (s : State) (phi : Int) : (Int × Bool) × State :=
  let p := s.tempPoint
  if phi < (p 0).1 then (((p 0).2, true), s)
  else if (p 15).1 < phi then (((p 15).2, true), s)
  else
    match (List.range 15).find? fun j => decide ((p j).1 ≤ phi) && decide (phi ≤ (p (j + 1)).1) && decide ((p j).1 < (p (j + 1)).1) with
    | some j =>
      let dp := ((p (j + 1)).1 - (p j).1).toNat
      ((((p j).2 + rdivI ((phi - (p j).1) * ((p (j + 1)).2 - (p j).2)) dp), false), s)
    | none => let (w, s) := s.fresh 16; ((w.toInt, false), s)

/-- Input `i` is mapped and enabled: its cell (R136, Table 5.6). -/
def State.tempMap (s : State) (i : Nat) : Option Nat :=
  let b := s.rdN (CSI_IMP_TMAPk (i / 4)) / 2 ^ (8 * (i % 4)) % 256
  if bitOf b 7 then some (b % 32) else none

/-- Input `i` has changed by no more than 1.0 °C over the last 300 s (R136). -/
def State.steady (s : State) (i : Nat) : Bool :=
  let l := (s.imp.auxHist.take 300).map fun v => v.getD i 0
  let now := toI 32 (s.rdN (AUX_INi_VAL i))
  let w := l.foldl WinAcc.add (WinAcc.zero.add now)
  decide (300 ≤ l.length) && decide (w.hi - w.lo ≤ 10)

/-- The reference temperature of cell `c` (R136) (DEDUCED, log entry 93). -/
def State.tempRef (s : State) (c : Nat) : Option Int :=
  match (List.range 16).find? fun i => s.tempMap i == some c && (s.thermistor i).isSome && s.steady i with
  | some i => s.thermistor i
  | none =>
    let l := ((List.range 16).filter fun i => (s.tempMap i).isSome).filterMap s.thermistor
    let w := l.foldl WinAcc.add .zero
    if 2 ≤ l.length ∧ w.hi - w.lo ≤ s.get CSI_IMP_TCFG_SPREAD then meanI l else none

/-- The module rests (R136): the mean of |I| over the last 300 s is at most IREST. -/
def State.resting (s : State) : Bool :=
  let l := s.imp.rest
  let sum := (l.map fun e => e.1).foldl (· + ·) 0
  let n : Nat := (l.map fun e => e.2).foldl (· + ·) 0
  decide (301 ≤ l.length) && decide (0 < n) && decide (sum ≤ s.get CSI_IMP_TCFG_IREST * 10000 * n)

/-- A quotient that the manual does not say how to round: downward or upward, as `Config.tieUp` has it (DESIGN CHOICE, log entry 25). -/
def divOpen (a : Int) (b : Nat) : Int :=
  if a % (b : Int) ≠ 0 ∧ Config.tieUp a b then a / (b : Int) + 1 else a / (b : Int)

/-- One learning observation of cell `c` with e = T_ref - T_raw (R137) (DESIGN CHOICE, log entry 25; DEDUCED, log entry 87). -/
def State.learn (s : State) (c : Nat) (e : Int) : State :=
  let n := vget s.imp.count c 0
  let l := vget s.imp.offset c 0
  let set (s : State) (l : Int) (n : Nat) : State :=
    { s with imp := { s.imp with offset := vset s.imp.offset c l, count := vset s.imp.count c n } }.wrN CSI_IMP_TLRN
      (putBitN (s.rdN CSI_IMP_TLRN) c (decide (16 ≤ n)))
  let s := { s with imp := { s.imp with lastObs := vset s.imp.lastObs c (some s.now) } }
  if n < 16 then set s (l + divOpen (e - l) (n + 1)) (n + 1)
  else if 100 < (e - l).natAbs then
    { s with imp := { s.imp with outliers := vset s.imp.outliers c (vget s.imp.outliers c 0 + 1) } }
  else set s (l + divOpen (e - l) 64) (min (n + 1) 255)

/-- The estimate of cell `c` from its VALID result, and one learning observation where the conditions of R136 hold
(DEDUCED, log entry 87). -/
def State.estimate (s : State) (r : SweepRun) (b c : Nat) : Option TempEst × State :=
  let e := resFor r.res c b
  if ¬ bitOf e.q 0 then (none, s)
  else
    let ((raw, extrap), s) := s.rawTemp (phase100 e.im e.re)
    let est : TempEst := { t := raw + vget s.imp.offset c 0, at_ := s.ft, passive := bitOf e.q 6, extrap := extrap }
    let s := { s with imp := { s.imp with est := vset s.imp.est c (some est) } }
    let due := match vget s.imp.lastObs c none with
      | some t => decide (t + 300 * sec ≤ s.now)
      | none => true
    match (if due && s.resting then s.tempRef c else none) with
    | some t => (some est, s.learn c (t - raw))
    | none => (some est, s)

/-- Cell `c` is LEARNED (R137). -/
def State.learned (s : State) (c : Nat) : Bool := decide (16 ≤ vget s.imp.count c 0)

/-- The LEARNED estimate of cell `c` no older than three temperature-pass intervals (R138) (DEDUCED, log entry 99). -/
def State.snapT (s : State) (c : Nat) : Option Int :=
  match vget s.imp.est c none with
  | some e => if s.learned c ∧ s.ft ≤ e.at_ + 3 * s.get CSI_IMP_SCHED_TEMP_S * sec then some e.t else none
  | none => none

/-- The hottest of the cells of a list with an estimate, the lowest index on a tie. -/
def hottestOf (l : List (Nat × Int)) : Option (Nat × Int) :=
  l.foldl (fun m x => match m with | some y => if y.2 < x.2 then some x else m | none => some x) none

/-- The hottest cell of R138. -/
def State.hotCell (s : State) : Option (Nat × Int) :=
  hottestOf ((List.range 32).filterMap fun c => (s.snapT c).map fun t => (c, t))

/-- CSI_IMP_THOT follows the estimates (R138) (DEDUCED, log entry 92). -/
def State.showThot (s : State) : State :=
  match s.hotCell with
  | some (c, t) => (s.put CSI_IMP_THOT_IDX c).putI CSI_IMP_THOT_T t
  | none => (s.put CSI_IMP_THOT_IDX 0xFF).put CSI_IMP_THOT_T 0x8000

/-- The 128-byte record of the estimate ring of a window that ended at fabric time `at_` in ns (R138). -/
def State.estRecord (s : State) (at_ seq : Nat) (l : List (Option TempEst)) : List Byte :=
  let hot := hottestOf (l.zipIdx.filterMap fun x => x.1.map fun e => (x.2, e.t))
  let st (c : Nat) (e : Option TempEst) : Nat :=
    b2n e.isSome + 2 * b2n (s.learned c) + 4 * b2n ((e.map (·.passive)).getD false) + 8 * b2n ((e.map (·.extrap)).getD false) +
      16 * min (vget s.imp.count c 0) 15
  let body := leBytes 8 at_ ++ leBytes 4 seq ++ leBytes 1 ((hot.map (·.1)).getD 0xFF) ++ List.replicate 3 0 ++
    (l.map fun e => leBytes 2 ((e.map fun e => ofI 16 e.t).getD 0x8000)).flatten ++
    (l.zipIdx.map fun x => leBytes 1 (st x.2 x.1)).flatten ++ List.replicate 12 0
  body ++ leBytes 4 (crc32c body)

/-- The temperature bin completes: EE estimates, learns and writes its record (R134 to R138). A fenced EE runs nothing. -/
def State.estimates (s : State) (r : SweepRun) (b : Nat) : State :=
  if s.engFenced 14 then s
  else
    let (l, s) := (List.range 32).foldl
      (fun (x : List (Option TempEst) × State) c => let (e, s) := x.2.estimate r b c; (x.1 ++ [e], s)) ([], s)
    let wp := s.get CSI_IMP_EST_RING_WPTR
    let s := match s.ringPut (s.get CSI_IMP_EST_RING_BASE * 65536 + wp * 128) (s.estRecord r.lastAt r.seq l) with
      | some t => t.put CSI_IMP_EST_RING_WPTR ((wp + 1) % 2 ^ s.getIn CSI_IMP_EST_RING_DEPTH 4 15)
      | none => s
    s.showThot

/-- The bin completes in the window that ends: its last active window, or a passive one that settled it. -/
def State.completes (s : State) (r : SweepRun) (b : Nat) (wasDone : Bool) : Bool :=
  !wasDone && (r.binInfo b).state != 0 && (!r.passive || (r.binInfo b).complete || s.binSrc b == 1)

/-- The window of sweep `r` ends (R126 to R128): its bins yield results, and the next window, stage or the end of the sweep follows. -/
def State.closeWindow (s : State) (r : SweepRun) : State :=
  let done (b : Nat) : Bool := (r.binInfo b).state != 0
  let bins := r.acc.map BinAcc.bin
  let (q, s) := r.acc.foldl (fun x a => x.2.endBin x.1 a) (r, s)
  let s := if r.passive then
      (if bins.all fun b => (q.binInfo b).complete then s.bump CSI_IMP_PCNT_ACC 1
      else s.bump CSI_IMP_PCNT_NACC 1)
    else s
  let q := { q with inWindow := false, win := q.win + 1, tries := if q.passive then q.tries + 1 else q.tries, acc := [] }
  let plan := s.planWindow q
  let above := !r.passive && plan.isNone
  let q := if above then bins.foldl SweepRun.binDone q
    else bins.foldl (fun q b => if (q.binInfo b).complete then q.binDone b else q) q
  let s := match s.tempBin with
    | some b => if bins.contains b && s.completes q b (done b) then s.estimates q b else s
    | none => s
  match plan with
  | some w => s.toSettle q w q.settleK
  | none => s.stageEnd q q.settleK

/-- SWEEP_WINDOW_END: the window's last sample has been taken and the results of its tick are switched in, so that
their flags are known (DEDUCED, log entry 86). -/
def execSweepWindowEnd (s : State) : Outcome :=
  match s.imp.run with
  | none => .next s
  | some r =>
    if r.inWindow ∧ r.nw ≤ r.n ∧ (r.settleK < s.tickNo ∨ (r.settleK = s.tickNo ∧ ¬ s.tick.open_)) then .next (s.closeWindow r).ferryRefresh
    else .next s

/-- At the first tick boundary at or after a window's last sample the next settle interval begins, or the selection returns to the
phases' own modes (R115, R121, R161): what follows depends on the demodulated amplitudes alone, which are known, and not on the
flags for which the results wait. -/
def State.settleTick (s : State) : State :=
  match s.imp.run with
  | some r =>
    if r.inWindow ∧ r.nw ≤ r.n ∧ r.settleK = s.tickNo then
      let none_ : SweepDrive := { phases := [], pos := 0, bins := [], nw := 0, at_ := 0 }
      let d := ((s.closeWindow r).imp.run.map (·.drive)).getD none_
      { s with imp := { s.imp with run := some { r with drive := d } } }
    else s
  | none => s

/-- The excitation i_x,p at the present fabric time, in 10 mA and fixed point (R119): the sines of the bins,
scaled where their sum exceeds 1.5 A, on the phase law of the window (DEDUCED, log entry 235). -/
def State.excitation (s : State) (d : SweepDrive) : Int :=
  let sum := s.ampSum (d.bins.map (·.1))
  let den := d.nw * s.periodT
  let arg (m : Nat) : Nat := ((m * s.nb : Nat) * ((s.ft : Int) - d.at_) % (den : Int)).toNat
  let x := (d.bins.map fun a => (s.binAmp a.1 : Int) * fixSin (arg a.2) den).foldl (· + ·) 0
  if 150 < sum then x * 150 / sum else x

/-- The command i_bal + i_x of phase `p` at the present fabric time, in 10 mA and fixed point (R154, R159); positive into the cell
(DEDUCED, log entry 235). -/
def State.phaseSum (s : State) (d : SweepDrive) (p : Nat) : Int :=
  let c := 4 * p + d.pos
  let b : Int := s.balance p c * fixOne
  (if 0 < (s.cellBal c).rem then b else -b) + s.excitation d

/-- The limits in force that clip the sum of phase `p` now (R122, R154, R161), as the bits of `State.noteClips`: its cap, the throttle, or the
inhibition of its cell in the direction of the sum. The allowance covers the rounding of the sines (DEDUCED, log entry 235). -/
def State.sumClips (s : State) (d : SweepDrive) (p : Nat) : Nat :=
  let i := s.phaseSum d p
  let c := 4 * p + d.pos
  let cap := decide (s.baseCap p * fixOne + 2 ^ 16 < i.natAbs)
  b2n cap + 2 * b2n ((decide (2 ^ 16 < i) && s.inhibited c true) || (decide (i < -(2 ^ 16 : Nat)) && s.inhibited c false)) +
    4 * b2n (decide (s.icap p < s.baseCap p) && decide (s.icap p * fixOne + 2 ^ 16 < i.natAbs))

/-- The limits are applied to the sum of phase `p` (R154): a clip is counted, and within a window the excitation is
removed for its rest (R122); in the settle interval the sum is clipped only. -/
def State.limitExcitation (s : State) (p : Nat) : State :=
  match s.imp.run with
  | some r =>
    if s.excited p && s.sumClips r.drive p != 0 then
      let t := s.noteClips p (s.sumClips r.drive p)
      if r.carries p then ((t.dropExcitation p).bump CSI_IMP_CLIP_REM 1).ferryRefresh else t
    else s
  | none => s

/-- At every strobe of a settle interval and an active window the limits are applied to the sums of its phases (R122, R154, R159)
(DEDUCED, log entry 235). -/
def State.sweepLimits (s : State) : State :=
  match s.imp.run with
  | some r => r.drive.phases.foldl State.limitExcitation s
  | none => s

/-- EXCITATION_REMOVAL (R122): a limit clips the sum of the phase, whose excitation is removed for the rest of the window. -/
def execExcitationRemoval (p : Fin 8) (s : State) : Outcome := .next (s.limitExcitation p)

/-! ## Histories -/

/-- The resting and temperature histories advance at a bank switch (R136): |I| of the main path, the auxiliary values at each
whole second of fabric time. -/
def State.tempHistory (s : State) : State :=
  let sc := s.ft / sec
  let q := s.imp
  let i := (inUnits s.meas.cur.main 10000).natAbs
  if sc = q.atSec then
    match q.rest with
    | h :: t => { s with imp := { q with rest := (h.1 + i, h.2 + 1) :: t } }
    | [] => { s with imp := { q with rest := [(i, 1)] } }
  else
    let vals := (List.range 16).map fun k => toI 32 (s.rdN (AUX_INi_VAL k))
    { s with imp := { q with rest := ((i, 1) :: q.rest).take 301, auxHist := (vals :: q.auxHist).take 300, atSec := sc } }

end Sys2Proof.Machine
end

