-- ==== Sys2Proof/Machine/Admission.lean ====
section
/-! DEFINITION. Deadline admission (R50 to R55, R132, R205 to R207): engine loads, link loads, the safety cycle, and the code
that is reported. -/

namespace Sys2Proof.Machine

/-- N_b at a period of `p` µs (R36): round(P / 31.25 µs). -/
def nbOf (p : Nat) : Nat := rdivN (4 * p) 125

/-- A task table entry: cost, unit, essential, PRE, count (Table 8.14). -/
structure Task where
  cost : Nat
  unit : Nat
  ess : Bool
  pre : Bool
  count : Nat
  deriving DecidableEq, Repr

/-- The task table of engine `e`. -/
def State.tasks (s : State) (e : Nat) : List Task :=
  (List.range 16).map fun t =>
    let f (x : Fld) : Nat := s.get x
    { cost := f (ENG_n_TASKt_CFG_COST e t), unit := f (ENG_n_TASKt_CFG_UNIT e t), ess := s.flag (ENG_n_TASKt_CFG_ESS e t),
      pre := s.flag (ENG_n_TASKt_CFG_PRE e t), count := f (ENG_n_TASKt_CFG_COUNT e t) }

/-- The cycles a task is charged per tick (R51, R205); a slot not used is charged none. -/
def Task.cycles (t : Task) (nb : Nat) : Nat :=
  if t.unit = 0 ∨ t.unit = 2 then t.cost * t.count else if t.unit = 1 then t.cost * t.count * nb else 0

/-- The scheduling cost C_s of engine `e` (R206). -/
def schedCost (e nb : Nat) : Nat :=
  if e < 8 then 1000 + 60 * ((nb - 1) / 32) else if e < 12 then 1200 else if e < 14 then 1500 else if e = 14 then 1200 else 2000

/-- The sum of a list of numbers. -/
def sumN (l : List Nat) : Nat := l.foldl (· + ·) 0

/-- The wait charge W (R206). -/
def State.waitCharge (s : State) (nb : Nat) : Nat :=
  20 + ((List.range 8).map fun e =>
    schedCost e nb + sumN (((s.tasks e).filter (·.pre)).map (·.cycles nb))).foldl max 0

/-- The fixed cost C_fix of engine `e` (R206). -/
def State.fixedCost (s : State) (nb e : Nat) : Nat :=
  schedCost e nb + if s.get (ENG_n_CTRL_TRIG e) = 1 then s.waitCharge nb else 0

/-- The tasks of engine `e` with the multipliers in force: a sample engine's demodulation, its deferrable task per base sample, is
charged 4 × CONC invocations per base sample (R132) (DEDUCED, log entry 233). -/
def State.chargedTasks (s : State) (e : Nat) : List Task :=
  (s.tasks e).map fun t => if e < 8 ∧ t.unit = 1 ∧ ¬ t.ess then { t with count := 4 * s.getIn CSI_IMP_CTRL_CONC 1 12 } else t

/-- The admitted cycles of engine `e` per tick, and the essential ones (R51, R52) (DEDUCED, log entry 233). -/
def State.engineLoad (s : State) (nb e : Nat) : Nat × Nat :=
  let fix := s.fixedCost nb e
  let t := s.chargedTasks e
  (fix + sumN (t.map (·.cycles nb)), fix + sumN ((t.filter (·.ess)).map (·.cycles nb)))

/-- The first check that engine `e` fails at period `p` µs: 0x08, 0x01, 0x02 (R51, R52, R205), with the load in permille
(DEDUCED, log entry 94). -/
def State.engineCheck (s : State) (p nb e : Nat) : Option (Nat × Nat × Nat) :=
  let l := s.engineLoad nb e
  let budget := 200 * p
  if (s.tasks e).any fun t => t.unit != 3 && t.cost == 0 then some (8, e, rdivN (1000 * l.1) budget)
  else if 85 * budget < 100 * l.1 then some (1, e, rdivN (1000 * l.1) budget)
  else if 425 * budget < 1000 * l.2 then some (2, e, rdivN (1000 * l.2) budget)
  else none

/-- The Strait on which frames of a type for address `d` leave (R255, R271): at the harbour those for 0x00 go to the host. -/
def State.exitPort (s : State) (d typ : Nat) : Option Nat :=
  if s.isHarbour ∧ d = 0 then
    (if ((hostFwdBit typ).map fun b => s.bit FAB_HOST_FWD_F b).getD true then s.hostPort else none)
  else s.rtPort d

/-- The Straits on which frames of a type for address `d` leave: a broadcast of the harbour leaves on every child (R273). -/
def State.exitPorts (s : State) (d typ : Nat) : List Nat :=
  if d = 0xFF then (if s.isHarbour then bitsOf 4 (s.get FAB_BCAST_CHILD) else []) else (s.exitPort d typ).toList

/-- The largest wait of R312 in 0.1 µs at period `p` µs: the bank-switch deadline, 5 µs and 750 µs. -/
def State.wMin (s : State) (p : Nat) : Nat := s.getIn TMG_BANK_DL_DL 1 6 * p * 10 / 8 + 7550

/-- CYC_MAX in µs; without ceilings the longest the field can say (R285). -/
def State.cycMax (s : State) : Nat :=
  (if s.ceilings then fieldOf (s.rdN (PSF_OTPk 6)) 20 12 else 4095) * 1000

/-- The CYC in force at period `p` µs (R309, R312): the nearest that keeps the cycle from 1 ms to CYC_MAX and leaves room for
the wait; none where no CYC does (DEDUCED, log entry 244). -/
def State.cycAt (s : State) (p : Nat) : Option Nat :=
  let lo := max 1 (max (cdivN 1000 p) (1 + cdivN (s.wMin p) (10 * p)))
  let hi := min 1000 (s.cycMax / p)
  if hi < lo then none else some (clampN lo hi (s.get PSF_CWAY_CFG_CYC))

/-- The safety cycle in ticks (R309, R312). -/
def State.cyc (s : State) : Nat := (s.cycAt s.period).getD (max 1 (s.get PSF_CWAY_CFG_CYC))

/-- The bounds of the decision wait in µs at period `p` (R312): W_min rounded up to 10 µs, the cycle less one tick. -/
def State.waitBounds (s : State) (p : Nat) : Nat × Nat :=
  (cdivN (s.wMin p) 100 * 10, (s.cycAt p).getD (max 1 (s.get PSF_CWAY_CFG_CYC)) * p - p)

/-- CYC and WAIT are held to their bounds, at load and at every change of period; each raise and clip counts (R309, R312). The registers
keep what was configured, and the bounds act on what is used (DEDUCED, log entry 244). -/
def State.countCway (s : State) : State :=
  let b := s.waitBounds s.period
  let w := s.get PSF_CWAY_CFG_WAIT * 10
  let c := (s.cycAt s.period).any fun c => c != s.get PSF_CWAY_CFG_CYC
  s.bump PSF_CLIPS_CYCW (b2n c + b2n (decide (w < b.1)) + b2n (decide (b.2 < max b.1 w)))

/-- A field as a register word carries it. -/
def Fld.ofWord (f : Fld) (w : Nat) : Nat := fieldOf w f.lo f.width

/-- What a CMF_SNAP_CFG word says of the load of the snapshots. -/
def snapPart (w : Nat) : List Nat :=
  [CMF_SNAP_CFG_EN.ofWord w, CMF_SNAP_CFG_DELTA.ofWord w, CMF_SNAP_CFG_KEY.ofWord w, CMF_SNAP_CFG_DECIM.ofWord w,
    CMF_SNAP_CFG_DECIM_IMP.ofWord w]

/-- The snapshot slots per tick, times `den`, that an island with the CMF_SNAP_CFG word `w` is charged at decimation 2^d, the
largest of which counts (R53, R86, R88): with delta coding (192 + (KEY - 1) × 160) / KEY per snapshot sent. -/
def snapSlots (w d den : Nat) : Nat :=
  let key := max 1 (CMF_SNAP_CFG_KEY.ofWord w)
  let d := min 6 (max (CMF_SNAP_CFG_DECIM.ofWord w) d)
  if CMF_SNAP_CFG_EN.ofWord w = 0 then 0
  else if CMF_SNAP_CFG_DELTA.ofWord w = 1 then (192 + (key - 1) * 160) * den / (key * 2 ^ d)
  else 192 * den / 2 ^ d

/-- The slots of class `c` per tick charged to Strait `n`, times `den` (R53, R88): Narrows, Control, Bulk
(DESIGN CHOICE, log entry 26). -/
def State.linkSlots (s : State) (p n c den : Nat) : Nat :=
  let on (x : List Nat) (k : Nat) : Nat := if x.contains n then k else 0
  let a := s.exitPorts 0 0x02
  if c = 0 then
    let cyc := (s.cycAt p).getD 1
    let cw := if s.flag PSF_CWAY_CFG_EN then 52 * den / max 1 cyc else 0
    on a cw + (if s.flag PSF_CWAY_STAT_BV then on [s.get (FAB_RTd_ALT 0)] cw else 0) +
      on (s.exitPorts 0 0x03) (Config.eventSlots 0 * den)
  else if c = 1 then on (s.exitPorts 0 0x22) (Config.eventSlots 1 * den)
  else
    on (s.exitPorts (s.get CMF_SNAP_CFG_DEST) 0x01) (snapSlots (s.rdN CMF_SNAP_CFG) (s.get CMF_SNAP_CFG_DECIM_IMP) den) +
      on (s.exitPorts 0 0x31) (s.get FAB_MEMRD_CFG_RATE * s.getIn FAB_MEMRD_CFG_MAXS 1 4 * 528 * den) +
      (if s.flag MGT_LOG_CFG_PUSH then on (s.exitPorts (s.get MGT_LOG_CFG_DEST) 0x32) (s.getIn MGT_LOG_CFG_RATE 1 15 * 504 * den) else 0)

/-- The first Strait and class above 80 % of its slots, with the load in permille (R53) (DEDUCED, log entry 94). -/
def State.linkCheck (s : State) (p : Nat) : Option (Nat × Nat × Nat) :=
  let den := max 1 (s.get CMF_SNAP_CFG_KEY) * 64 * max 1 ((s.cycAt p).getD 1)
  let cum (n c : Nat) : Nat := sumN ((List.range (c + 1)).map fun k => s.linkSlots p n k den)
  let pairs := ((List.range 4).map fun n => (List.range 3).map fun c => (n, c)).flatten
  (pairs.find? fun x => decide (8 * 50 * p * den < 10 * cum x.1 x.2)).map fun x =>
    (3, x.1 + 16 * x.2, rdivN (1000 * cum x.1 x.2) (50 * p * den))

/-- Admission of the configuration the registers hold, at period `p` µs (R50 to R54, R207): code, index and load. -/
def State.admission (s : State) (p : Nat) : Nat × Nat × Nat :=
  if p < 100 ∨ 1000000 < p then (5, 0, 0)
  else if s.getIn TMG_LEAD_LEAD_US 2 100 * 16000 < s.rdN TMG_PATH_OFS + 16000 then (6, 0, 0)
  else if (s.cycAt p).isNone then (9, 0, 0)
  else
    let nb := nbOf p
    match (List.range 16).findSome? (s.engineCheck p nb) with
    | some r => r
    | none => (s.linkCheck p).getD (0, 0, 0)

/-- MGT_ADMIT_CODE as a word (R55) (DEDUCED, log entry 94). -/
def admitWord (r : Nat × Nat × Nat) : Nat := r.1 + r.2.1 * 256 + min r.2.2 65535 * 65536

/-- An admission is reported (R55); when it passes, the admitted cycles of each engine and the wait charge are shown. -/
def State.admitTasks (s : State) (p : Nat) : Bool × State :=
  let r := s.admission p
  let s := s.wrN MGT_ADMIT_CODE (admitWord r)
  if r.1 = 0 then
    let nb := nbOf p
    let s := (List.range 16).foldl (fun s e => s.put (TMG_ENGn_ADM_CYC e) (min (s.engineLoad nb e).1 (2 ^ 28 - 1))) s
    (true, s.put ENG_ADM_W (s.waitCharge nb))
  else (false, s)

end Sys2Proof.Machine
end

