-- ==== Sys2Proof/Machine/EngineCsr.lean ====
section
/-! DEFINITION. The control and status registers of an engine: the extension CSRs (Table 8.2), the counters (R212 to R214), the
machine CSRs of the RISC-V privileged specification that R186 names; entering the handler of an ECALL and leaving it (R188). -/

namespace Sys2Proof.Machine

/-! ## Machine CSRs -/

/-- The numbers of the machine CSRs that an exception uses, beside mstatus (PRESUMED, log entry 219). -/
def mtvec : Nat := 0x305
@[inherit_doc mtvec]
def mepcCsr : Nat := 0x341
@[inherit_doc mtvec]
def mcauseCsr : Nat := 0x342
@[inherit_doc mtvec]
def mtvalCsr : Nat := 0x343

/-- An exception enters the machine-mode handler of the firmware (R188): the cause, the program counter and the mode are saved,
interrupts masked (PRESUMED, log entry 219). -/
def State.enterHandler (s : State) (e c pc v : Nat) : State :=
  let st := (s.csr e mstatus).toNat
  let st := putBitN (putBitN st 7 (bitOf st 3)) 3 false
  let st := withField st 11 2 (if (s.engine e).user then 0 else 3)
  let s := (((s.setCsr e mepcCsr (BitVec.ofNat 32 pc)).setCsr e mcauseCsr (BitVec.ofNat 32 c)).setCsr e mtvalCsr (BitVec.ofNat 32 v))
  let s := s.setCsr e mstatus (BitVec.ofNat 32 st)
  let h := (s.csr e mtvec).toNat / 4 * 4
  s.onEng e fun g => { g with pc := BitVec.ofNat 32 h, user := false, handling := true }

/-- MRET (R188): back to the saved mode and program counter; MPRV ends with machine mode (PRESUMED, log entry 219). -/
def State.leaveHandler (s : State) (e : Nat) : State :=
  let st := (s.csr e mstatus).toNat
  let back := fieldOf st 11 2 != 3
  let st := withField (putBitN (putBitN st 3 (bitOf st 7)) 7 true) 11 2 0
  let s := s.setCsr e mstatus (BitVec.ofNat 32 (if back then putBitN st 17 false else st))
  let pc := s.csr e mepcCsr
  s.onEng e fun g => { g with pc := pc, user := back, handling := false }

/-! ## Counters -/

/-- The counter a CSR shows (R212): its number, 0 the cycle counter and 3 + k counter k, and whether the CSR is its high half. -/
def csrCounter (a : Nat) : Option (Nat × Bool) :=
  let o := a % 0x100
  if (a / 0x100 = 0xB ∨ a / 0x100 = 0xC) ∧ o % 0x80 < 0x20 ∧ o % 0x80 ≠ 1 then some (o % 0x80, decide (0x80 ≤ o)) else none

/-- Engine `e` may read counter `n` in user mode (R214). -/
def State.userCounter (s : State) (e n : Nat) : Bool :=
  if n = 0 then s.flag (ENG_n_PERF_UACC_CY e)
  else decide (3 ≤ n) && decide (n < 9) && s.bit (ENG_n_PERF_UACC_PM e) (n - 3)

/-- The value of counter `n` (R212): mcycle, the six counters; minstret is not given (DESIGN CHOICE, log entry 272) and the other
counters of the privileged specification read 0. -/
def State.counterOf (s : State) (e n : Nat) : Nat × State :=
  let s := s.syncEng e
  if n = 0 then (s.get64 (ENG_n_CYC_LO e), s)
  else if n = 2 then (let (w, s) := s.fresh 64; (w.toNat, s))
  else if 3 ≤ n ∧ n < 9 then (s.get64 (ENG_n_PMCk_LO e (n - 3)), s)
  else (0, s)

/-- A counter CSR read (R213): the low half latches the high half, which the next read of the high half returns. -/
def State.readCounter (s : State) (e n : Nat) (high : Bool) : Word × State :=
  let g := s.engine e
  match high, g.csrHigh.find? fun x => x.1 == n with
  | true, some x => (x.2, s.onEng e fun g => { g with csrHigh := g.csrHigh.filter fun y => y.1 != n })
  | true, none => (BitVec.ofNat 32 ((s.counterOf e n).1 / 2 ^ 32), (s.counterOf e n).2)
  | false, _ =>
    let (v, s) := s.counterOf e n
    (BitVec.ofNat 32 v, s.onEng e fun g => { g with csrHigh := (n, BitVec.ofNat 32 (v / 2 ^ 32)) :: g.csrHigh.filter fun y => y.1 != n })

/-- A counter CSR written (R212): mcycle ignores it. -/
def State.writeCounter (s : State) (e n : Nat) (high : Bool) (w : Word) : State :=
  if 3 ≤ n ∧ n < 9 then
    let s := s.syncEng e
    if high then s.wrN (ENG_n_PMCk_LO e (n - 3) + 4) (w.toNat % 2 ^ 16) else s.wr (ENG_n_PMCk_LO e (n - 3)) w
  else s

/-! ## Reads and writes of a CSR -/

/-- The machine CSRs that hold what is written to them, with the bits they keep (PRESUMED, log entry 219). -/
def plainCsrs : List (Nat × Nat) :=
  [(mstatus, 0x21888), (0x304, 0xFFFFFFFF), (mtvec, 0xFFFFFFFD), (0x340, 0xFFFFFFFF), (mepcCsr, 0xFFFFFFFE),
   (mcauseCsr, 0xFFFFFFFF), (mtvalCsr, 0xFFFFFFFF)]

/-- The machine CSRs whose value no rule gives: misa and the identification CSRs (R186; DESIGN CHOICE, log entry 272). -/
def openCsr (a : Nat) : Bool := a == 0x301 || (decide (0xF11 ≤ a) && decide (a ≤ 0xF15))

/-- The CSRs of the 16 physical memory protection regions, which only MC has (R186) (PRESUMED, log entry 219). -/
def pmpCsr (a : Nat) : Bool := (decide (0x3A0 ≤ a) && decide (a < 0x3A4)) || (decide (0x3B0 ≤ a) && decide (a < 0x3C0))

/-- A CSR of the protection regions written: a locked region keeps its configuration and its address, and the address below it where it
reaches from there up (PRESUMED, log entry 219). -/
def State.writePmp (s : State) (a : Nat) (w : Word) : State :=
  if a < 0x3B0 then
    let byte (k : Nat) : Nat :=
      let old := s.pmpCfg (4 * (a - 0x3A0) + k)
      if bitOf old 7 then old else w.toNat / 2 ^ (8 * k) % 256 &&& 0x9F
    s.setCsr 15 a (BitVec.ofNat 32 (byte 0 + byte 1 * 2 ^ 8 + byte 2 * 2 ^ 16 + byte 3 * 2 ^ 24))
  else
    let i := a - 0x3B0
    let above := s.pmpCfg (i + 1)
    if bitOf (s.pmpCfg i) 7 || (decide (i < 15) && bitOf above 7 && above / 8 % 4 == 1) then s else s.setCsr 15 a w

/-- The machine CSRs that read 0 and ignore writes: mcounteren, mcountinhibit, the event selects of counters that do not exist,
mip, mstatush, and the protection regions of the engines that have none. -/
def zeroCsr (e a : Nat) : Bool :=
  a == 0x306 || a == 0x310 || a == 0x320 || a == 0x344 || (decide (0x329 ≤ a) && decide (a < 0x340)) ||
    (e != 15 && pmpCsr a)

/-- The extension CSR that a number names for writing, and its value for reading (Table 8.2). -/
def extCsr (a : Nat) : Option ExtCsr :=
  match a with
  | 0x800 => some .yr
  | 0x801 => some .yn
  | 0x802 => some .ym
  | 0x803 => some .yst
  | 0x804 => some .ysp
  | _ => none

/-- What an extension CSR reads (Table 8.2). -/
def State.readExt (s : State) (e a : Nat) : Option Word :=
  let g := s.engine e
  match a with
  | 0x800 => some (g.yr.setWidth 32)
  | 0x801 => some (g.yn.setWidth 32)
  | 0x802 => some (g.ym.setWidth 32)
  | 0x803 => some (g.yst.setWidth 32)
  | 0x804 => some g.ysp
  | 0xCC0 => some (g.ytk.setWidth 32)
  | 0xCC1 => some (BitVec.ofNat 32 (g.ytk.toNat / 2 ^ 32))
  | 0xCC2 => some (BitVec.ofNat 32 (let y := s.get (ENG_n_STAT_YEC e); y % 16 + y / 256 % 2 * 256))
  | 0xCC3 => some g.yspw
  | _ => none

/-- The event select that mhpmevent shows (R212). -/
def csrEvent (a : Nat) : Option Nat := if 0x323 ≤ a ∧ a < 0x329 then some (a - 0x323) else none

/-- The CSR exists and the access is allowed: no machine CSR in user mode, no write of a read-only one, a counter in user mode only
as R214 grants it (PRESUMED, log entry 219). -/
def State.csrLegal (s : State) (e a : Nat) (write : Bool) : Bool :=
  let known := (s.readExt e a).isSome || (csrCounter a).isSome || (csrEvent a).isSome || openCsr a || pmpCsr a || zeroCsr e a ||
    plainCsrs.any fun x => x.1 == a
  let mode := !(s.engine e).user || (a / 0x100 % 4 == 0 && match csrCounter a with
    | some (n, _) => s.userCounter e n
    | none => true)
  known && mode && !(write && a / 0x400 == 3)

/-- A CSR read. -/
def State.readCsr (s : State) (e a : Nat) : Word × State :=
  match s.readExt e a, csrCounter a, csrEvent a with
  | some w, _, _ => (w, s)
  | none, some (n, h), _ => s.readCounter e n h
  | none, none, some k => (BitVec.ofNat 32 (s.get (ENG_n_PMCk_SEL_EVT e k)), s)
  | none, none, none => if openCsr a then s.fresh 32 else (s.csr e a, s)

/-- A CSR written; those that read 0, are open or belong to the boot ROM ignore it. -/
def State.writeCsr (s : State) (e a : Nat) (w : Word) : State :=
  match extCsr a, csrCounter a, csrEvent a with
  | some c, _, _ => s.setExt e c w
  | none, some (n, h), _ => s.writeCounter e n h w
  | none, none, some k => (s.syncEng e).put (ENG_n_PMCk_SEL_EVT e k) w.toNat
  | none, none, none =>
    match plainCsrs.find? fun x => x.1 == a with
    | some (_, m) => s.setCsr e a (w &&& BitVec.ofNat 32 m)
    | none => if e = 15 ∧ pmpCsr a then s.writePmp a w else s

end Sys2Proof.Machine
end

