-- ==== Sys2Proof/Machine/Engine.lean ====
section
/-! DEFINITION. The engine array (chapter 8): tick and event entries (R196, R197), staged writes and posting (R198, R199),
overruns (R48, R49), tasks (R208), mailboxes and semaphores (R200 to R204), restart, update and debug (R209 to R211, R216),
counters and their dump (R212 to R215). -/

namespace Sys2Proof.Machine

/-! ## Entries and sleep -/

/-- The cycles of the work in progress of engine `e` are added to those of the tick. -/
def State.bookCycles (s : State) (e : Nat) : State :=
  let s := s.syncEng e
  let c := s.cycNow e
  s.onEng e fun g => { g with used := g.used + (c - g.cycTick), cycTick := c }

/-- Engine `e` starts executing at an entry point in machine mode: state `st`, entry cause `cause` with ESS (R196, R197, Table 8.5;
DESIGN CHOICE, log entry 272). -/
def State.enterEngine (s : State) (e st entry cause : Nat) : State :=
  let s := s.setEng e st
  let c := s.cycNow e
  let k := s.tickNo
  let start (g : EngSt) : EngSt :=
    { g with pc := BitVec.ofNat 32 (s.rdN entry), ytk := BitVec.ofNat 48 k, samples := 0, cycTick := c, task := none,
             user := false, handling := false }
  (s.onEng e start).put (ENG_n_STAT_YEC e) (cause + 256 * b2n (decide (2 ≤ s.throttle)))

/-- The tick entry of engine `e` (R196) (DEDUCED, log entry 146). -/
def State.tickEntry (s : State) (e : Nat) : State :=
  let cause := (s.engine e).nextCause
  let s := (s.onEng e fun g => { g with nextCause := 0, trigWait := false, tickIn := some s.tickNo }).enterEngine e 1 (ENG_n_ENTRY e) cause
  ((s.put (ENG_n_STAT_POSTED e) 0).wrN (ENG_n_TICKSEQ e) (s.tickNo % 2 ^ 32)).pmc e 0x11 1

/-- Engine `e` is triggered in the present mode (Table 8.4, R466). -/
def State.triggered (s : State) (e : Nat) : Bool :=
  s.tick.trig && (if (8 ≤ e ∧ e < 12) ∨ e = 14 then s.active else s.mode != 0)

/-- The trigger of engine `e`: the tick entry now, or once the event work that runs has ended. Fenced engines have none. -/
def State.trigger (s : State) (e : Nat) : State :=
  if ¬ s.triggered e ∨ s.engFenced e then s
  else if s.running e then s.onEng e fun g => { g with trigWait := true }
  else s.tickEntry e

/-- The engines that the image triggers at the bank switch (1), or at the sample instant (0). -/
def State.triggerAll (s : State) (trig : Nat) : State :=
  let s := { s with tick := { s.tick with trigAt := vset s.tick.trigAt trig (some s.now) } }
  ((List.range 16).filter fun e => s.get (ENG_n_CTRL_TRIG e) == trig).foldl State.trigger s

/-- The event entries engine `e` may take per tick: the counts of its tasks of unit 2 (R197). -/
def State.eventQuota (s : State) (e : Nat) : Nat := sumN (((s.tasks e).filter fun t => t.unit == 2).map (·.count))

/-- The entry cause of an event (Table 8.5), by its bit of `deferred`. -/
def eventCause (bit : Nat) : Nat := if bit = 0 then 2 else if bit = 1 then 3 else 6

/-- The event of source `bit` waits for the next tick and is counted as deferred, once (R197). -/
def State.deferEvent (s : State) (e bit : Nat) : State :=
  let g := s.engine e
  let s := if bitOf g.counted bit then s else s.bump (ENG_n_EVCNT_DEF e) 1
  s.onEng e fun g => { g with deferred := setBitN g.deferred bit, counted := setBitN g.counted bit }

/-- The event entry of a sleeping engine (R197): counted against the declared count; beyond it the event waits for the next
tick. -/
def State.eventEntry (s : State) (e bit : Nat) : State :=
  if (s.engine e).events < s.eventQuota e then
    let s := s.onEng e fun g =>
      { g with events := g.events + 1, deferred := clrBitN g.deferred bit, counted := clrBitN g.counted bit,
               linkEv := if bit = 2 then false else g.linkEv }
    (s.enterEngine e 2 (ENG_n_EVENTRY e) (eventCause bit)).pmc e 0x12 1
  else s.deferEvent e bit

/-- The invocation of a task ends (R208). -/
def State.endTask (s : State) (e : Nat) : State :=
  match (s.engine e).task with
  | none => s
  | some (t, c) =>
    let n := s.cycNow e - c
    let s := s.onEng e fun g => { g with task := none }
    let s := if s.get (ENG_n_TASKt_USED_MAX e t) < n then s.put (ENG_n_TASKt_USED_MAX e t) (min n (2 ^ 20 - 1)) else s
    if s.get (ENG_n_TASKt_CFG_COST e t) < n then (s.put (ENG_n_TASKt_USED_EXC e t) 1).fault 8 0x12 e else s

/-! ## Staged writes -/

/-- One staged write performed (R198): results of a sample engine's own channels go to the inactive bank; Ferry commands and
targets count as written now. -/
def State.commitOne (s : State) (e : Fin 16) (w : Nat × Word) : State :=
  let (a, v) := w
  let s := s.pmc e 0x0F 1
  match (List.range 8).find? fun p => a == BAL_PHp_CMD p, (List.range 32).find? fun c => a == BAL_CELLc_TGT c with
  | some p, _ => (s.writePhaseCmd p (.engine e) v.toNat).2
  | none, some c => (s.guarded (.engine e) a fun s => s.writeTarget c (.engine e) v.toNat).2
  | none, none => { s with meas := { s.meas with staged := (a, v) :: s.meas.staged.filter fun x => x.1 != a } }

/-- Staged writes are committed in program order; after an overflow they are discarded and the tick counts as overrun
(R198, R199): all those of that tick. -/
def State.commit (s : State) (e : Fin 16) : State :=
  let g := s.engine e
  let s := (s.onEng e fun g => { g with staged := [] }).put (ENG_n_STAGE_N e) 0
  if g.overStaged then s.onEng e fun g => { g with overrunDue := true }
  else g.staged.foldl (fun s w => s.commitOne e w) (s.onEng e fun g => { g with commitIn := g.tickIn })

/-- The first post of a sample engine in a tick whose trigger it has taken (R47, R198) (DEDUCED, log entry 42). -/
def State.post (s : State) (e : Nat) : State :=
  if e < 8 ∧ (s.engine e).tickIn = some s.tickNo ∧ s.tick.trig ∧ ¬ s.flag (ENG_n_STAT_POSTED e) then
    let t := min 65535 ((s.ft - s.sampleAt s.tickNo) * 65536 / s.periodT)
    let s := (s.put (CMF_GRPg_POST_T e) t).put (CMF_GRPg_POST_MAX e) (max t (s.get (CMF_GRPg_POST_MAX e)))
    { s.put (ENG_n_STAT_POSTED e) 1 with meas := { s.meas with posted := setBitN s.meas.posted e } }
  else s

/-- YT_POST (R198) (DEDUCED, log entry 96). -/
def execYtPost (e : Fin 16) (s : State) : Outcome :=
  .next (s.instr e true fun s => ((s.endTask e).commit e).post e)

/-- Engine `e` sleeps; a trigger or events that waited start it anew (R196, R197). -/
def State.sleep (s : State) (e : Nat) : State :=
  let s := (s.bookCycles e).setEng e 0
  if (s.engine e).trigWait then s.tickEntry e
  else
    match (bitsOf 3 (s.engine e).deferred).head? with
    | some bit =>
      if (s.engine e).events < s.eventQuota e then s.eventEntry e bit
      else (bitsOf 3 (s.engine e).deferred).foldl (fun s b => s.deferEvent e b) s
    | none => s

/-- YT_WFT (R196, R198): staged writes are committed, the results of a sample engine posted, and the engine sleeps. -/
def execYtWft (e : Fin 16) (s : State) : Outcome :=
  if s.running e then
    let s := (((s.endTask e).commit e).post e).retire e
    .next (s.sleep e)
  else .next s

/-- YT_TASK (R208): an invocation of task rs1[3:0] begins; the one before it ends. -/
def execYtTask (e : Fin 16) (rs1 : Fin 32) (s : State) : Outcome :=
  .next (s.instr e true fun s =>
    let s := s.endTask e
    let t := (s.xreg e rs1).toNat % 16
    let c := s.cycNow e
    s.onEng e fun g => { g with task := some (t, c) })

/-- The base-rate samples that have come since the one at the last sample instant, which may be the latest. -/
def State.sinceInstant (s : State) : Nat := let g := (s.chan 0).acc.n; if s.nb ≤ g then g - s.nb else g

/-- The enable of an event source of engine `e` is set and the source is active (R197, Table 8.4). Sample-port events need no
enable, and have none for a 32nd sample that is the one at S(k); link events are those of R246, management events arise outside the
model. -/
def State.eventReady (s : State) (e : Nat) (c : EngineEvent) : Bool :=
  match c with
  | .mailbox => s.flag (ENG_n_CTRL_MBXEV e) && decide (s.getIn (ENG_n_MBX_CFG_WM e) 1 16 ≤ (s.engine e).mbox.length)
  | .samplePort =>
    decide (e < 8) && decide (32 ≤ (s.engine e).samples) && (s.engine e).samples - 32 != s.sinceInstant
  | .linkOrMgt => s.flag (ENG_n_CTRL_LNKEV e) && (e == 15 || ((e == 12 || e == 13) && (s.engine e).linkEv))

/-- The bit of `deferred` of an event source. -/
def eventBit : EngineEvent → Nat
  | .mailbox => 0
  | .samplePort => 1
  | .linkOrMgt => 2

/-- ENGINE_EVENT_ENTRY (R197). -/
def execEngineEventEntry (e : Fin 16) (cause : EngineEvent) (s : State) : Outcome :=
  if ¬ s.eventReady e cause ∨ s.engFenced e ∨ s.mode = 0 then .next s
  else if s.running e then .next (s.onEng e fun g => { g with deferred := setBitN g.deferred (eventBit cause) })
  else .next (s.eventEntry e (eventBit cause))

/-! ## Overruns -/

/-- At a sample instant the cycles of the tick just ended are shown, and an engine that still executes, or whose tick counts as
overrun, is due for R48; another's count of consecutive overruns ends. -/
def State.closeTick (s : State) (e : Nat) : State :=
  let s := if s.running e then s.bookCycles e else s
  let g := s.engine e
  let n := min g.used (2 ^ 28 - 1)
  let s := s.put (TMG_ENGn_CYC_CYC e) n
  let s := if s.get (TMG_ENGn_PEAK_CYC e) < n then s.put (TMG_ENGn_PEAK_CYC e) n else s
  let s := s.put (ENG_n_EVCNT_RUN e) (min g.events 255)
  let above := s.running e || g.overrunDue
  let s := s.onEng e fun g => { g with used := 0, events := 0, overStaged := false, overrunDue := above, ovrRun := if above then g.ovrRun else 0 }
  if above then s else (s.put (TMG_ENGn_OVR_RUN e) 0).put (ENG_n_STAT_OVR e) 0

/-- The work in progress of engine `e` is abandoned with its staged writes, and the engine starts at its tick entry (R48). -/
def State.abandon (s : State) (e : Nat) : State :=
  let s := (s.onEng e fun g => { g with staged := [], overStaged := false, task := none, trigWait := false }).put (ENG_n_STAGE_N e) 0
  let s := s.setEng e 0
  if s.get (ENG_n_CTRL_TRIG e) = 0 then s.trigger e else s

/-- One more consecutive overrun of engine `e` (R49). -/
def State.countRun (s : State) (e : Nat) : State :=
  let s := s.onEng e fun g => { g with ovrRun := g.ovrRun + 1 }
  s.put (TMG_ENGn_OVR_RUN e) (min (s.engine e).ovrRun 15)

/-- ENGINE_OVERRUN (R48, R199): the work of the tick before is abandoned with its staged writes and the engine starts at its
tick entry; an engine that has entered the new tick already is only counted. With the triggers stopped nothing is counted
(R466); a consequential overrun does not count toward R49 (R334) (DEDUCED, log entry 95). -/
def execEngineOverrun (e : Fin 16) (s : State) : Outcome :=
  if ¬ (s.engine e).overrunDue ∨ s.engFenced e then .next s
  else
    let stale := s.running e && (s.engine e).ytk.toNat != s.tickNo
    let s := s.onEng e fun g => { g with overrunDue := false }
    let s := if stale then (s.abandon e).loseSamples e else s
    if ¬ s.tick.trig then .next s
    else
      let s := s.onEng e fun g => { g with ovrDump := g.ovrDump + 1 }
      let s := (s.bump (TMG_ENGn_OVR_N e) 1).pmc e 0x14 1
      let s := { (s.put (ENG_n_STAT_OVR e) 1).put TMG_STAT_LATE 1 with tick := { s.tick with lateNext := true } }
      let r := s.collect 1 0x11 e 0 0 false none
      .next (if r.1.1 then r.2.countRun e else r.2)

/-- OVERRUN_LIMIT (R49): the engine is fenced and restarted. -/
def execOverrunLimit (e : Fin 16) (s : State) : Outcome :=
  if (s.engine e).ovrRun < s.getIn TMG_OVR_CFG_MAX 1 15 ∨ s.engFenced e then .next s
  else
    let s := s.onEng e fun g => { g with ovrRun := 0 }
    let s := (s.put (TMG_ENGn_OVR_RUN e) 0).fenceEngine e 3
    let s := match s.standing? 1 0x11 e with
      | some f => if f.conseq then s else s.openShadow (engShadow e) f.slot (1, 0x11, e)
      | none => s
    .next (s.restartEngine e 1 1)

/-- SAMPLE_PORT_OVERFLOW (R192): more than 64 samples wait; the tick counts as overrun. -/
def execSamplePortOverflow (e : Fin 8) (s : State) : Outcome :=
  let g := s.engine e
  if 64 < (g.yspw - g.ysp).toNat ∧ ¬ s.engFenced e then
    .next (((s.put (ENG_n_STAT_SPOVR e) 1).loseSamples e).onEng e fun g => { g with overrunDue := true })
  else .next s

/-! ## Traps, restart, enable, update -/

/-- Engine `e` halts and is fenced (R216, Table 8.10). -/
def State.haltEngine (s : State) (e : Nat) : State := (s.put (ENG_n_DBG_HALT e) 1).fenceEngine e 5

/-- A synchronous exception of engine `e` (R188): an ECALL enters the handler of the firmware; an EBREAK in SERVICE with BKEN halts
the engine; any other, and any before the handler of one before has executed MRET, stops it (PRESUMED, log entry 219). -/
def State.takeTrap (s : State) (e c pc v : Nat) : State :=
  if (c = 8 ∨ c = 11) ∧ ¬ (s.engine e).handling then s.enterHandler e c pc v
  else if c = 3 ∧ s.mode = 4 ∧ s.flag (ENG_n_DBG_BKEN e) then
    (s.onEng e fun g => { g with pc := BitVec.ofNat 32 pc }).haltEngine e
  else s.trapEngine e c pc v

/-- ENGINE_TRAP (R188). A fenced engine executes nothing, a sleeping one no ECALL; interrupts and the causes of a supervisor mode do
not occur (DEDUCED, log entry 67). -/
def execEngineTrap (e : Fin 16) (mcause mepc mtval : Word) (s : State) : Outcome :=
  let c := mcause.toNat
  if 2 ^ 31 ≤ c ∨ c = 9 ∨ c = 10 ∨ s.engFenced e ∨ ((c = 8 ∨ c = 11) ∧ ¬ s.running e) then .next s
  else .next (s.takeTrap e c mepc.toNat mtval.toNat)

/-- The phases of a balance engine that is no longer fenced: the condition 5/0x17 ends (R162, R166). -/
def State.phasesBack (s : State) (e : Nat) : State :=
  if 8 ≤ e ∧ e < 12 then (s.endCond 5 0x17 (2 * (e - 8))).endCond 5 0x17 (2 * (e - 8) + 1) else s

/-- The trigger of engine `e` comes now: its sample instant or bank switch has just been (Table 8.4). -/
def State.atTrigger (s : State) (e : Nat) : Bool := vget s.tick.trigAt (s.get (ENG_n_CTRL_TRIG e)) none == some s.now

/-- ENGINE_RESTART_RELEASE (Table 8.7, step 4): the first trigger at least 50 µs after the fence releases the engine and starts
it; consequential conditions that still stand are raised (R335). At any other moment the engine stays fenced. -/
def execEngineRestartRelease (e : Fin 16) (s : State) : Outcome :=
  match (s.engine e).restartAt with
  | some t =>
    if s.get (ENG_n_STAT_STATE e) = 4 ∧ s.triggered e ∧ s.atTrigger e ∧ t + 50 * us ≤ s.now ∧
        (s.flag (ENG_n_LMEM_CRCOK e) ∨ (s.engine e).image = 0) then
      let s := (s.onEng e fun g => { g with restartAt := none }).setEng e 0
      .next (((s.phasesBack e).promoteAll (engShadow e) (causeOf [1, 8, 9] e)).tickEntry e)
    else .next s
  | none => .next s

/-- An engine is fenced and restarted on command (R209). -/
def State.commandRestart (s : State) (e why : Nat) : State := (s.fenceEngine e 3).restartEngine e why 1

/-- A write of ENG_RESTART that is performed (R209). -/
def State.writeEngRestart (s : State) (v : Nat) : State := (bitsOf 16 v).foldl (fun s e => s.commandRestart e 2) s

/-- ENG_RESTART (R209); writable in SERVICE only (R216). -/
def execEngRestart (i : Initiator) (v : Word) (s : State) : Outcome :=
  .next (s.writeRow i ENG_RESTART fun s => s.writeEngRestart v.toNat)

/-- A write of ENG_n_CTRL that is performed (Table 8.11): EN 1 to 0, in SERVICE, fences; 0 to 1 restarts. -/
def State.writeEngCtrl (s : State) (e : Nat) (i : Initiator) (v : Nat) : State :=
  let was := s.flag (ENG_n_CTRL_EN e)
  let s := s.plainWrite i (ENG_n_CTRL e) v
  let s := if e = 12 ∨ e = 13 ∨ e = 15 then s else s.put (ENG_n_CTRL_LNKEV e) 0
  let is := s.flag (ENG_n_CTRL_EN e)
  if was ∧ ¬ is then s.fenceEngine e 3 else if ¬ was ∧ is then s.commandRestart e 3 else s

/-- ENGINE_ENABLE (R209). -/
def execEngineEnable (e : Fin 16) (i : Initiator) (v : Word) (s : State) : Outcome :=
  .next (s.writeRow i (ENG_n_CTRL e) fun s => s.writeEngCtrl e i v.toNat)

/-- The Lagoon offset of the firmware set that IMG names (R403): 0 the staged one, 1 the resident copy of FW_A, 2 that of FW_B
(DEDUCED, log entry 27). -/
def imageNamed (k : Nat) : Option Nat := if k = 0 then some stagingOff else if k = 1 then some 0x500000 else if k = 2 then some 0x700000 else none

/-- GO of a single-engine update (R211, R403): CODE 4 for a permanently fenced engine, 2 for an image not verified or an IMG that names
none (DEDUCED, log entry 27), 3 when admission with the new task table refuses it; otherwise pending until the next tick boundary. -/
def State.updateGo (s : State) : State :=
  let e := s.get ENG_UPD_CTRL_ENG
  let img := (imageNamed (s.get ENG_UPD_CTRL_IMG)).getD 0
  let s := s.put ENG_UPD_STAT_ENG e
  if s.get (ENG_n_STAT_STATE e) = 6 then s.put ENG_UPD_STAT_CODE 4
  else if ¬ s.imageVerified img then s.put ENG_UPD_STAT_CODE 2
  else
    let r := (s.installImage img e).admission s.period
    let s := s.wrN MGT_ADMIT_CODE (admitWord r)
    if r.1 ≠ 0 then s.put ENG_UPD_STAT_CODE 3
    else (s.put ENG_UPD_STAT_CODE 1).onEng e fun g => { g with update := some img }

/-- A write of ENG_UPD_CTRL that is performed (R216): from MC only. -/
def State.writeEngUpd (s : State) (i : Initiator) (v : Nat) : State :=
  if isMC i then
    let s := s.plainWrite i ENG_UPD_CTRL v
    if bitOf v 31 then s.updateGo else s
  else s.refuseRight 8 i ENG_UPD_CTRL

/-- ENGINE_UPDATE_GO (R211). -/
def execEngineUpdateGo (i : Initiator) (v : Word) (s : State) : Outcome :=
  .next (s.writeRow i ENG_UPD_CTRL fun s => s.writeEngUpd i (setBitN v.toNat 31))

/-- The slot that holds the firmware set at Lagoon offset `img`: of a resident copy its own, of the staged set the one it has been
written to, none before that. -/
def State.slotHolding (s : State) (img : Nat) : Option Nat :=
  match fwSlotOf img with
  | some i => some i
  | none => if s.get MGT_UPD_STAT_STATE = 5 then some (3 - s.get MGT_FW_STAT_SLOT) else none

/-- A firmware set activated for one engine is on probation while its PASSED word is erased (R398). A staged one stands in no slot
until it has been written: its time counts from here on (DEDUCED, log entry 270). -/
def State.probeImage (s : State) (img : Nat) : State :=
  match s.slotHolding img with
  | some i =>
    if s.flag (MGT_SLOTs_HDR_PASSED i) ∨ s.bit MGT_PROB_STAT_SLOTS i then s
    else
      let s := s.countProbation.putBit MGT_PROB_STAT_SLOTS i true
      { s with mgt := { s.mgt with prob := vset s.mgt.prob i 0 } }
  | none =>
    let s := s.countProbation
    { s with mgt := { s.mgt with probStaged := some (s.mgt.probStaged.getD 0) } }

/-- An admitted image is activated at the tick boundary (R211): the engine is fenced and restarted from it. One that is no longer
verified is not (R3; DEDUCED, log entry 240). -/
def State.activate (s : State) (e : Nat) : State :=
  match (s.engine e).update with
  | some img =>
    if ¬ s.imageVerified img then (s.onEng e fun g => { g with update := none }).put ENG_UPD_STAT_CODE 2 else
    let s := (s.onEng e fun g => { g with update := none }).fenceEngine e 3
    let s := (s.installImage img e).admitTasks s.period
    ((s.2.restartEngine e 4 4).put ENG_UPD_STAT_CODE 0).probeImage img
  | none => s

/-! ## Debug -/

/-- A write of ENG_n_DBG that is performed: HALT 0 to 1 halts, 1 to 0 lets the engine be triggered again, STEP asks for one
instruction while halted. -/
def State.writeEngDbg (s : State) (e : Nat) (i : Initiator) (v : Nat) : State :=
  let was := s.flag (ENG_n_DBG_HALT e)
  let s := s.plainWrite i (ENG_n_DBG e) v
  let is := s.flag (ENG_n_DBG_HALT e)
  let s := if ¬ was ∧ is then s.haltEngine e
    else if was ∧ ¬ is ∧ s.get (ENG_n_STAT_STATE e) = 5 then (s.setEng e 0).phasesBack e
    else s
  if bitOf v 1 ∧ s.get (ENG_n_STAT_STATE e) = 5 then s.onEng e fun g => { g with stepReq := true } else s

/-- ENGINE_BREAKPOINT (R216): a fetch at ENG_n_BKPT while BKEN is set halts the engine. -/
def execEngineBreakpoint (e : Fin 16) (pc : Word) (s : State) : Outcome :=
  if s.running e ∧ s.flag (ENG_n_DBG_BKEN e) ∧ pc = s.rd (ENG_n_BKPT e) then
    .next ((s.onEng e fun g => { g with pc := pc }).haltEngine e)
  else .next s

/-! ## Mailboxes and semaphores -/

/-- A write of ENG_s_MBX_TXHDR that is performed (R200): only engine s can write it (DEDUCED, log entry 98). -/
def State.writeTxHdr (s : State) (e : Nat) (i : Initiator) (v : Nat) : State :=
  if isEngine i e then s.plainWrite i (ENG_n_MBX_TXHDR e) v else s.refuseRight 8 i (ENG_n_MBX_TXHDR e)

/-- The staged message of engine `e` is sent (R200 to R202): refused while one waits, or when its tag is open already. -/
def State.sendMail (s : State) (e : Nat) (pay : Word) : State :=
  let m : Msg := { src := e, dst := s.get (ENG_n_MBX_TXHDR_DST e), tag := s.get (ENG_n_MBX_TXHDR_TAG e),
                   rreq := s.flag (ENG_n_MBX_TXHDR_RREQ e), reply := s.flag (ENG_n_MBX_TXHDR_REPLY e),
                   status := s.get (ENG_n_MBX_TXHDR_STATUS e), pay := pay }
  if (s.engine e).waiting.isSome ∨ (m.rreq ∧ (s.engine e).tags.any fun o => o.tag == m.tag) then
    s.bump (ENG_n_MBX_TXSTAT_REF e) 1
  else
    let k := s.tickNo
    let s := if m.rreq then s.onEng e fun g => { g with tags := { tag := m.tag, dst := m.dst, tick := k } :: g.tags } else s
    ((s.pmc e 0x0D 1).showMail e).carryMail m

/-- A write of ENG_s_MBX_TXPAY that is performed (DEDUCED, log entry 98). -/
def State.writeTxPay (s : State) (e : Nat) (i : Initiator) (v : Word) : State :=
  if isEngine i e then s.sendMail e v else s.refuseRight 8 i (ENG_n_MBX_TXPAY e)

/-- MAILBOX_SEND (R200 to R203). -/
def execMailboxSend (e : Fin 16) (i : Initiator) (v : Word) (s : State) : Outcome :=
  .next (s.writeRow i (ENG_n_MBX_TXPAY e) fun s => s.writeTxPay e i v)

/-- MAILBOX_DELIVERY (R201): the waiting message of engine `e` is delivered once its destination has space. -/
def execMailboxDelivery (e : Fin 16) (s : State) : Outcome :=
  match (s.engine e).waiting with
  | some m =>
    if (s.engine m.dst).mbox.length < 16 ∨ s.engFenced m.dst then
      .next (((s.onEng e fun g => { g with waiting := none }).showMail e).carryMail m)
    else .next s
  | none => .next s

/-- A write of ENG_r_MBX_RXPOP that is performed (R200). -/
def State.popMail (s : State) (e : Nat) (v : Nat) : State :=
  if bitOf v 0 then (s.onEng e fun g => { g with mbox := g.mbox.drop 1 }).showMail e else s

/-- MAILBOX_POP (R200). -/
def execMailboxPop (e : Fin 16) (i : Initiator) (v : Word) (s : State) : Outcome :=
  .next (s.writeRow i (ENG_n_MBX_RXPOP e) fun s => s.popMail e (setBitN v.toNat 0))

/-- MAILBOX_TIMEOUT (R202): a tag open for ENG_MBX_TMO ticks is closed with a reply of STATUS 5. -/
def execMailboxTimeout (e : Fin 16) (tag : Fin 8) (s : State) : Outcome :=
  match (s.engine e).tags.find? fun o => o.tag == tag.val with
  | some o => if o.tick + s.getIn ENG_MBX_TMO_TMO 1 255 ≤ s.tickNo then .next (s.hardReply e tag o.dst 5) else .next s
  | none => .next s

/-- A write of ENG_SEMk that is performed (R204): engines only (DEDUCED, log entry 97). -/
def State.writeSem (s : State) (k : Nat) (i : Initiator) (v : Nat) : State :=
  match i with
  | .engine n =>
    let s := if bitOf v 0 ∧ s.get (ENG_SEMk_OWNER k) = 0 then s.put (ENG_SEMk_OWNER k) (n.val + 1) else s
    if bitOf v 1 ∧ s.get (ENG_SEMk_OWNER k) = n.val + 1 then s.put (ENG_SEMk_OWNER k) 0 else s
  | _ => s

/-- SEMAPHORE_ACQUIRE (R204). -/
def execSemaphoreAcquire (k : Fin 32) (i : Initiator) (v : Word) (s : State) : Outcome :=
  .next (s.writeRow i (ENG_SEMk k) fun s => s.writeSem k i (setBitN v.toNat 0))

/-- SEMAPHORE_RELEASE (R204). -/
def execSemaphoreRelease (k : Fin 32) (i : Initiator) (v : Word) (s : State) : Outcome :=
  .next (s.writeRow i (ENG_SEMk k) fun s => s.writeSem k i (setBitN v.toNat 1))

/-! ## Counters -/

/-- PMC_SELECT_WRITE (R213): the counters are up to date when the selection changes. -/
def execPmcSelectWrite (e : Fin 16) (k : Fin 6) (i : Initiator) (v : Word) (s : State) : Outcome :=
  .next (s.writeRow i (ENG_n_PMCk_SEL e k) fun s => (s.syncEng e).plainWrite i (ENG_n_PMCk_SEL e k) v.toNat)

/-- The 56 bytes of engine `e` in a counter dump (Table 8.9). -/
def State.dumpEngine (s : State) (e : Nat) : List Byte :=
  leBytes 8 (s.get64 (ENG_n_CYC_LO e)) ++
    ((List.range 6).map fun k => leBytes 6 (s.get64 (ENG_n_PMCk_LO e k))).flatten ++
    ((List.range 6).map fun k => leBytes 1 (s.get (ENG_n_PMCk_SEL_EVT e k))).flatten ++
    leBytes 1 (s.rdN (ENG_n_PERF_OVF e)) ++ leBytes 1 (s.get (ENG_n_STAT_STATE e)) ++
    leBytes 4 (s.get (TMG_ENGn_CYC_CYC e) + min (s.engine e).ovrDump 15 * 2 ^ 28)

/-- The dump record with sequence number `seq` for the period of `n` ticks (R215) (DEDUCED, log entry 15). -/
def State.dumpRecord (s : State) (seq n : Nat) : List Byte :=
  let body := leBytes 8 (s.sampleAt s.tickNo / 16) ++ leBytes 6 s.tickNo ++ leBytes 2 (s.throttle + 4 * s.get ENG_STAT_HALF) ++
    leBytes 4 seq ++ leBytes 2 (s.get ENG_FENCED_F) ++ leBytes 2 n ++ List.replicate 40 0 ++
    ((List.range 16).map s.dumpEngine).flatten ++ List.replicate 60 0
  body ++ leBytes 4 (crc32c body)

/-- A dump record is written to the ring, or lost (R215) (DEDUCED, log entry 91). -/
def State.dumpCounters (s : State) (n : Nat) : State :=
  let seq := (s.rdN ENG_PERF_SEQ + 1) % 2 ^ 32
  let wp := s.get ENG_PERF_RING_WPTR
  match s.ringPut (s.get ENG_PERF_RING_BASE * 65536 + wp * 1024) (s.dumpRecord seq n) with
  | some t =>
    let t := (t.wrN ENG_PERF_SEQ seq).put ENG_PERF_RING_WPTR ((wp + 1) % 2 ^ min (t.get ENG_PERF_RING_DEPTH) 11)
    (List.range 16).foldl (fun (t : State) (e : Nat) => t.onEng e fun g => { g with ovrDump := 0 }) t
  | none => s.bump ENG_PERF_LOSS_N 1

/-- PERF_DUMP (R215): at S(k) with k mod N = 0 a record of all counters is written to the ring. -/
def execPerfDump (s : State) : Outcome :=
  let n := s.get ENG_PERF_DUMP_N
  if n = 0 ∨ s.tickNo % n ≠ 0 then .next s else .next (s.syncAll.dumpCounters n)

end Sys2Proof.Machine
end

