-- ==== Sys2Proof/Machine/NetCore.lean ====
section
/-! DEFINITION. What links and sounding share: the common bytes of SOUND frames (R258), the start of a round (R257, R259),
link events (R274), the entry to ACQUIRE (R44). -/

namespace Sys2Proof.Machine

/-- The first 12 bytes of a SOUND payload (R258). -/
def State.soundHead (s : State) (round : Nat) : List Byte :=
  leBytes 2 round ++ leBytes 2 (s.get FAB_TERM_TERM) ++ leBytes 8 (s.get64 FAB_HUID_LO)

/-- A SOUND frame of the harbour followed, on one Strait. -/
def State.sendSound (s : State) (n typ round : Nat) (body : List Byte) : State := s.sendHop n typ (s.soundHead round ++ body)

/-- The Strait of the sounding parent, while it is UP (R259). -/
def State.parentPort (s : State) : Option Nat := (s.upPorts 0).find? fun n => s.flag (FAB_PORTn_SND_PARENT n)

/-- What a REPORT says of Strait `n` (Table 10.1). -/
def State.repPort (s : State) (n : Nat) : RepPort :=
  if s.up n then { state := s.role n + 1, peer := s.get64 (FAB_PORTn_PEER_ID_LO n), peerPort := s.get (FAB_PORTn_PEER_INFO_PORT n) }
  else { state := 0, peer := 0, peerPort := 0 }

/-- The island's own REPORT (Table 10.1); CAP as FAB_NET_CFG.ROLE says. -/
def State.ownReport (s : State) : Report :=
  { uid := s.uid, depth := s.net.depth, prev := if s.flag FAB_NET_CFG_PREV_EN then s.net.prev else 0xFE,
    cap := b2n (s.get FAB_NET_CFG_ROLE = 2) + 2 * b2n (s.get FAB_NET_CFG_ROLE = 1), tchg := s.flag FAB_NET_STAT_TCHG,
    ports := (List.range 4).map s.repPort }

/-- A link engine is there to carry out a round or to relay its frames: LE0 and LE1 are not both fenced (R257). -/
def State.soundable (s : State) : Bool := !(s.engFenced 12 && s.engFenced 13)

/-- The harbour starts a round: its own report is the first, FLOOD with depth 0 leaves on every UP fabric Strait (R257,
R259). `rerun` keeps the map of an earlier round of the same change (R274). -/
def State.startRound (s : State) (rerun : Bool) : State :=
  let k := s.net.curRound + 1
  let k := k % 65536
  let s := ((s.put FAB_NET_STAT_SND 1).put FAB_NET_STAT_TCHG 0).put FAB_SND_STAT_ROUND k
  let s := s.bump FAB_SND_CNT_ROUNDS 1
  let s := if rerun then (s.put FAB_SND_STAT_RERUN (s.get FAB_SND_STAT_RERUN + 1)).bump FAB_SND_CNT_RERUNS 1
    else s.put FAB_SND_STAT_RERUN 0
  let rnd : RoundSt := { running := true, number := k, floodAt := s.now, lastReport := s.now, reports := [],
                         goodMap := if rerun then s.net.rnd.goodMap else none, assigns := [], gone := [], firstAssign := s.now,
                         holdTill := none, wanted := false }
  let s := { s with net := { s.net with rnd := rnd, curRound := k, depth := 0, staged := none } }
  let s := { s with net := { s.net with rnd := { s.net.rnd with reports := [s.ownReport] } } }
  (s.upPorts 0).foldl (fun s n => s.sendSound n 0x10 k [0]) s

/-- A round starts, or waits until a link engine can carry it out (R257) (DEDUCED, log entry 31). -/
def State.newRound (s : State) : State :=
  if s.soundable then s.startRound false
  else { s with net := { s.net with rnd := { s.net.rnd with running := false, wanted := true } } }

/-- A change of the topology reaches the harbour (R257, R274): a running round is marked; a holdoff, a commit on its way, or link
engines both fenced defer the next round (DEDUCED, log entry 31). -/
def State.wantRound (s : State) : State :=
  if ¬ s.isHarbour then s
  else
    let later := s.net.rnd.holdTill.isSome || s.net.commit.isSome || !s.soundable
    let run := s.net.rnd.running
    let s := if later then { s with net := { s.net with rnd := { s.net.rnd with wanted := true } } } else s
    if run then s.put FAB_NET_STAT_TCHG 1 else if later then s else s.startRound false

/-- A round that waited for a link engine starts (R257) (DEDUCED, log entry 31). -/
def State.lateRound (s : State) : State :=
  let r := s.net.rnd
  if s.isHarbour && r.wanted && !r.running && r.holdTill.isNone && s.net.commit.isNone && s.soundable then s.startRound false
  else s

/-- LINKEV sent on a Strait (R260, Table 10.1). -/
def State.sendLinkev (s : State) (n p : Nat) (up : Bool) : State :=
  let peer := if up then s.get64 (FAB_PORTn_PEER_ID_LO p) else 0
  (s.sendSound n 0x15 s.net.curRound (leBytes 8 s.uid ++ leBytes 1 p ++ leBytes 1 (b2n up) ++ leBytes 8 peer)).bump
    ⟨FAB_PORTn_SCNTm n 3, 0, 32⟩ 1

/-- A Strait goes UP or DOWN: the event is counted (Table 9.12), reported to LE0 and LE1 (R246) and, for a fabric Strait, LINKEV goes toward the harbour, or
on every UP fabric Strait where there is no sounding parent (R260, R274). -/
def State.linkEvent (s : State) (p : Nat) (up : Bool) : State :=
  let s := ((s.wrap FAB_LINKEV_N 1).put FAB_LINKEV_PORT p).putB FAB_LINKEV_UP up
  let s := (s.onEng 12 fun g => { g with linkEv := true }).onEng 13 fun g => { g with linkEv := true }
  if s.role p ≠ 0 then s
  else if ¬ s.soundable then (if s.isHarbour then s.wantRound else s)
  else if s.isHarbour then s.wantRound
  else
    let s := if s.get FAB_NET_STAT_SND = 1 then s.put FAB_NET_STAT_TCHG 1 else s
    match s.parentPort with
    | some n => s.sendLinkev n p up
    | none => (s.upPorts 0).foldl (fun s n => s.sendLinkev n p up) s

/-- PSF_CW_PRESk show the addresses expected in cycle `n` (R311) (DEDUCED, log entry 122). -/
def State.showExpected (s : State) (n : Nat) : State :=
  let l := s.psf.peers.filter fun p => decide (p.fromCycle ≤ n)
  (List.range 8).foldl
    (fun s w => s.wrN (PSF_CW_PRESk w) (ofBits ((l.filter fun p => p.addr / 32 == w).map fun p => p.addr % 32))) s

/-- The addresses from which the harbour expects causeway copies after the commit of tick `k` (R311): those present; a new one
from the second cycle that begins after it (DEDUCED, log entry 122). -/
def State.expectCopies (s : State) (k : Nat) : State :=
  let cyc := s.cyc
  let present := s.net.table.filter fun e => e.state == 1
  let one (e : AtEntry) : CwPeer :=
    match s.psf.peers.find? fun p => p.addr == e.addr && p.uidl == e.uid % 2 ^ 32 with
    | some p => p
    | none => { addr := e.addr, uidl := e.uid % 2 ^ 32, fromCycle := k / cyc + 2, copies := [], decided := false, lastOk := 0,
                count := 0, outcome := 4 }
  { s with psf := { s.psf with peers := present.map one } }.showExpected (k / cyc)

/-- The cycles from which addresses are expected are counted in the cycle now in force, where it was `old` ticks long: none that has begun
lies ahead, and one that lies ahead does not come earlier (R311) (DEDUCED, log entry 122). -/
def State.rebaseCopies (s : State) (old : Nat) : State :=
  let c := s.cyc
  let one (p : CwPeer) : CwPeer :=
    let t := p.fromCycle * old
    { p with fromCycle := if t ≤ s.tickNo then t / c else cdivN t c }
  if c = old then s else { s with psf := { s.psf with peers := s.psf.peers.map one } }.showExpected (s.tickNo / c)

/-- A new fabric period comes into force (R35, R56): a sweep and a TRIM run end under the one before (R129, Table 14.3), the safety
cycle keeps its bounds (R309, R312), and the configuration is admitted again (R50). -/
def State.newPeriod (s : State) (p : Nat) : State :=
  let old := s.cyc
  let s := (s.sweepEnd 4).calAbort 0x0A
  let s := ((s.put TMG_PERIOD_ACT_P p).put TMG_STAT_NB (nbOf p)).countCway
  ((s.rebaseCopies old).admitTasks p).2

/-- The island enters ACQUIRE; the harbour stays FREE (Table 2.3, Table 2.6). -/
def State.acquire (s : State) : State :=
  if s.isHarbour then s
  else { s.put TMG_STAT_STATE 1 with tick := { s.tick with running := false, accepted := false, good := 0, slew := 0, slewAt := s.now } }

end Sys2Proof.Machine
end

