-- ==== Sys2Proof/Machine/Link.lean ====
section
/-! DEFINITION. Strait links (chapter 9): reception, forwarding and transmission of frames, credits, HAZARD, training, link-down
and wake tones. -/

namespace Sys2Proof.Machine

/-! ## Credits -/

/-- A frame of `u` units occupies a receive queue. -/
def State.takeUnits (s : State) (p q u : Nat) : State :=
  let o := s.get (FAB_PORTn_RXQq_OCC p q) + u
  (s.put (FAB_PORTn_RXQq_OCC p q) o).put (FAB_PORTn_RXQq_HIGH p q) (max (s.get (FAB_PORTn_RXQq_HIGH p q)) o)

/-- A CREDIT sequence for queue `q` of Strait `p` is owed: it leaves within 1 µs, and what is freed until then shares it (R233). When
it leaves within that time is open (DESIGN CHOICE, log entry 251). -/
def State.oweCredit (s : State) (p q : Nat) : State :=
  if (s.strait p).credDue.any fun x => x.1 == q then s
  else
    let (x, s) := s.fresh 14
    s.onPort p fun y => { y with credDue := y.credDue ++ [(q, s.now + x.toNat % 16001)] }

/-- The units of a frame are freed and their credit is returned (R233) (DEDUCED, log entry 103). -/
def State.freeUnits (s : State) (p q u : Nat) : State :=
  let s := s.put (FAB_PORTn_RXQq_OCC p q) (s.get (FAB_PORTn_RXQq_OCC p q) - u)
  (s.onPort p fun x => { x with freed := vset x.freed q ((vget x.freed q 0 + u) % 256) }).oweCredit p q

/-- Another copy of a broadcast still waits on a child Strait (R273). -/
def State.copyWaits (s : State) (it : TxItem) : Bool :=
  it.frame.dst == 0xFF && (List.range 4).any fun n => (List.range 6).any fun q => (vget (s.strait n).txq q []).any fun x =>
    x.arrival == it.arrival && x.frame.dst == 0xFF && x.frame.src == it.frame.src && x.frame.seq == it.frame.seq &&
      x.frame.cls == it.frame.cls

/-- An item has left its transmit queue for good: the units it occupies where it arrived are freed (R233, R273)
(DEDUCED, log entry 103). -/
def State.releaseItem (s : State) (it : TxItem) : State :=
  match it.arrival with
  | some p => if s.copyWaits it then s else s.freeUnits p it.aq (frameUnits it.frame)
  | none => s

/-! ## Transmission -/

/-- The bytes of a frame between SOF and its end (R224, R228, Table 9.3). -/
def wireBytes (f : Frame) : List Byte :=
  let h := leBytes 1 f.dst ++ leBytes 1 f.src ++ leBytes 1 f.typ ++ leBytes 1 (f.cls + 4 * f.vc) ++
    leBytes 2 (f.payload.length + 1024 * f.hops) ++ leBytes 2 f.seq ++ f.payload
  h ++ leBytes 4 (crc32c h)

/-- The bytes `l` of a frame of queue `q` are sent on Strait `n` and occupy the line with SOF, the end, FILLs and the two COMMAs that
follow (R222); the credit of its `u` units is used (R233). -/
def State.sendBytes (s : State) (n q u len fills : Nat) (l : List Byte) (eof : Bool) : State :=
  let s := if fills = 0 then s else s.emit (.fill n fills)
  let s := s.emit (.frame n l eof)
  let s := if eof then (s.bump ⟨FAB_PORTn_CNTm n 1, 0, 32⟩ 1).wrap ⟨FAB_PORTn_CNTm n 3, 0, 32⟩ len
    else s.bump ⟨FAB_PORTn_CNTm n 6, 0, 32⟩ 1
  (s.onPort n fun p =>
    { p with sentU := vset p.sentU q ((vget p.sentU q 0 + u) % 256), inFrame := if eof then some (l, len, s.now) else none,
             sendTill := s.now + (l.length + fills + 4) * 320 }).showCredit n

/-- A frame is sent on Strait `n` (R224, R233) (DESIGN CHOICE, log entry 247). -/
def State.sendFrame (s : State) (n : Nat) (f : Frame) (eof : Bool) : State :=
  s.sendBytes n (frameQueue f) (frameUnits f) f.payload.length 0 (wireBytes f) eof

/-- An uncorrectable buffer memory error of a stored frame (R231). -/
def State.bufferError (s : State) (p : Nat) : State := (s.bump FAB_BUFECC_UNC 1).fault 7 0x12 p

/-- The head of a transmit queue, if there is credit for all of it. -/
def State.headReady (s : State) (n q : Nat) : Option TxItem :=
  match vget (s.strait n).txq q [] with
  | it :: _ => if frameUnits it.frame ≤ s.credit n q then some it else none
  | [] => none

/-- The queue of a class from which the next frame comes: VC0 and VC1 alternate while both have an eligible frame (R235). -/
def State.classPick (s : State) (n c : Nat) : Option Nat :=
  match s.headReady n (2 * c), s.headReady n (2 * c + 1) with
  | none, none => none
  | some _, none => some (2 * c)
  | none, some _ => some (2 * c + 1)
  | some _, some _ => some (2 * c + b2n (vget (s.strait n).turn c false))

/-- The queue of the next frame: Narrows, Control, Bulk (R235). -/
def State.pick (s : State) (n : Nat) : Option Nat := (List.range 3).findSome? fun c => s.classPick n c

/-- The frame at the head of a queue is sent (R235, R238): a frame with an uncorrectable buffer error ends with ABORT. -/
def State.sendHead (s : State) (n q : Nat) : State :=
  match vget (s.strait n).txq q [] with
  | [] => s
  | it :: rest =>
    let rest := match rest with
      | x :: t => { x with since := s.now } :: t
      | [] => []
    let s := s.onPort n fun p => { p with txq := vset p.txq q rest, turn := vset p.turn (q / 2) (q % 2 == 0) }
    let s := (s.showTxq n q).sendFrame n it.frame (!it.bad)
    let s := if it.bad then s.bufferError ((it.arrival.map (·.val)).getD n) else s
    let s := if it.arrival.isSome then s.bump ⟨FAB_PORTn_CNTm n 23, 0, 32⟩ 1 else s
    s.releaseItem it

/-- When, in fabric time, a time-exchange request of Strait `n` is due (R41, R242): none is outstanding, and 10 µs, or 125 µs once 64
exchanges are collected, have passed. -/
def State.timexAt (s : State) (n : Nat) : Option Nat :=
  let q := s.strait n
  if s.up n && q.out.isNone && !(s.isHarbour && s.role n != 0) then
    some (q.reqAt + (if q.exchanges < 64 then 10 else 125) * us)
  else none

/-- The request is sent: four symbols (R242). -/
def State.sendTimex (s : State) (n : Nat) : State :=
  let k := (s.strait n).txSeq % 256
  let s := s.onPort n fun q =>
    { q with out := some (k, s.ft), txSeq := (k + 1) % 256, reqAt := s.ft, inFrame := none, sendTill := s.now + 4 * 320 }
  s.emit (.timexReq n (timexRequestBytes k))

/-- Between frames the next one starts, after a due TIMEX sequence unless it is of Narrows (R235); `stored` limits this to frames that were stored for forwarding (R235, R238). -/
def State.transmit (s : State) (n : Nat) (stored : Bool) : State :=
  if ¬ s.up n then s
  else
    match s.pick n with
    | none => s
    | some q =>
      if stored && ((vget (s.strait n).txq q []).head?.map (·.arrival.isSome)) != some true then s
      else
        let s := s.reach (s.strait n).sendTill
        let due : Bool := match s.timexAt n with
          | some t => decide (t ≤ s.ft)
          | none => false
        let s := if 2 ≤ q ∧ due then (let s := s.sendTimex n; s.reach (s.strait n).sendTill) else s
        s.sendHead n q

/-- The frames of Narrows that wait on Strait `n`. -/
def State.narrowsWaiting (s : State) (n : Nat) : Nat :=
  (vget (s.strait n).txq 0 []).length + (vget (s.strait n).txq 1 []).length

/-- Frames of Narrows that have credit go first (R235). -/
def State.narrowsFirst (s : State) (n : Nat) : Nat → State
  | 0 => s
  | k + 1 =>
    match s.classPick n 0 with
    | some q => State.narrowsFirst ((s.reach (s.strait n).sendTill).sendHead n q) n k
    | none => s

/-! ## Reception -/

/-- The header and payload of a received frame (Table 9.3). -/
def parseFrame (l : List Byte) : Frame :=
  { dst := byteAt l 0, src := byteAt l 1, typ := byteAt l 2, cls := byteAt l 3 % 4, vc := byteAt l 3 / 4 % 2,
    hops := leAt l 4 2 / 1024, seq := leAt l 6 2, payload := (l.drop 8).take (leAt l 4 2 % 1024) }

/-- LEN of a received header. -/
def lenOf (l : List Byte) : Nat := leAt l 4 2 % 1024

/-- The units that the header of a received frame asks for. -/
def wireUnits (l : List Byte) : Nat := cdivN (lenOf l + 12) 64

/-- The discard reason of a line upset (Table 9.5). -/
def upsetCode : LineUpset → Nat
  | .violation => 4
  | .symbol => 6
  | .linkDown => 8

/-- The reasons met up to the end of the header (R229, steps 1 and 2). -/
def State.headerFault (s : State) (p : Nat) (w : HeardFrame) : Option Nat :=
  let early : Option Nat := match w.upset with
    | some (pos, k) => if pos < 8 then some (upsetCode k) else none
    | none => none
  let f := parseFrame w.bytes
  match early with
  | some c => some c
  | none =>
    if w.bytes.length < 8 then some (if w.ending = .abort then 2 else 3)
    else if f.cls = 3 ∨ 512 < lenOf w.bytes then some 5
    else if vget (s.strait p).own (frameQueue f) 0 < s.get (FAB_PORTn_RXQq_OCC p (frameQueue f)) + wireUnits w.bytes then some 7
    else none

/-- The reasons met after the header (R229, steps 3 and 4). -/
def bodyFault (w : HeardFrame) : Option Nat :=
  let n := w.bytes.length
  let rest : Option Nat :=
    if 524 < n then some 6
    else if w.ending = .abort then some 2
    else if n ≠ lenOf w.bytes + 12 then some 3
    else if crc32c (w.bytes.take (n - 4)) ≠ leAt w.bytes (n - 4) 4 then some 1
    else none
  match w.upset with
  | some (pos, k) => if pos < 525 then some (upsetCode k) else rest
  | none => rest

/-- The counter of a discard reason (Table 9.5). -/
def discardCounter (c : Nat) : Option Nat :=
  if c = 1 then some 4 else if c = 2 then some 5 else if c = 3 ∨ c = 6 then some 7 else if c = 4 then some 8
  else if c = 5 then some 9 else if c = 7 then some 10 else none

/-- A frame is discarded: counted and captured (R229). -/
def State.discard (s : State) (p c : Nat) (l : List Byte) : State :=
  let s := match discardCounter c with
    | some m => s.bump ⟨FAB_PORTn_CNTm p m, 0, 32⟩ 1
    | none => s
  let s := (s.wrN (FAB_PORTn_ERRCAP0 p) (leAt l 0 4)).wrN (FAB_PORTn_ERRCAP1 p) (leAt l 4 4)
  ((s.put (FAB_PORTn_ERRCAP2_REASON p) c).bump (FAB_PORTn_ERRCAP2_N p) 1).wrN (FAB_PORTn_ERRCAP3 p) s.ftNs

/-- What the switch does with a received frame. -/
inductive Way where
  /-- for this island: its agents, or the host Strait (R255) -/
  | own (f : Frame)
  | drop (r : Nat)
  | broadcast (f : Frame)
  | out (n : Nat) (f : Frame)
  deriving DecidableEq, Repr

/-- The way of a unicast frame that is routed onward (R225, R271). -/
def State.wayOn (s : State) (p : Nat) (f : Frame) : Way :=
  if f.hops = 63 then .drop 1
  else
    match s.transit f p with
    | some (n, vc) => .out n { f with vc := vc, hops := f.hops + 1 }
    | none => .drop 0

/-- The way of a frame from a fabric Strait (R227, R251, R271, R273). -/
def State.wayFabric (s : State) (p : Nat) (f : Frame) : Way :=
  if f.dst = 0xFE then .own f
  else if f.dst = 0xFF then
    (if s.flag FAB_NET_STAT_ASSIGNED ∧ s.flag FAB_BCAST_PV ∧ s.get FAB_BCAST_PARENT = p then .broadcast { f with hops := (f.hops + 1) % 64 } else .drop 0)
  else if 0xF0 < f.dst then .drop 3
  else if ¬ s.flag FAB_NET_STAT_ASSIGNED then .drop 0
  else if f.dst = s.get FAB_NET_STAT_ADDR ∨ s.flag (FAB_RTd_LOCAL f.dst) then .own f
  else s.wayOn p f

/-- The way of a frame from the host at the active harbour: it is routed as one the harbour originates (R253). -/
def State.wayHost (s : State) (f : Frame) : Way :=
  let f := { f with src := 0 }
  if f.dst = 0xFE ∨ f.dst = 0 then .own f
  else if f.dst = 0xFF then .broadcast { f with vc := 0 }
  else if 0xF0 < f.dst then .drop 3
  else
    match s.rtPort f.dst with
    | some n => .out n { f with vc := s.ringVc n 0 }
    | none => .drop 0

/-- The way of a received frame by the role of its Strait (R227, R253, R254). -/
def State.way (s : State) (p : Nat) (f : Frame) : Way :=
  if s.role p = 1 then
    (if s.isHarbour then s.wayHost f else if f.dst = 0xFE then .own f else .drop 0)
  else if s.role p = 2 then (if f.dst = 0xFE then .own { f with src := 0xFE } else .drop 0)
  else s.wayFabric p f

/-- Cut-through of a frame of `u` units onto Strait `n` is possible (R236). -/
def State.cutOk (s : State) (n : Nat) (f : Frame) (u : Nat) : Bool :=
  s.up n && decide ((s.strait n).sendTill ≤ s.now) && (vget (s.strait n).txq (frameQueue f) []).isEmpty &&
    decide (u ≤ s.credit n (frameQueue f)) && s.flag (FAB_PORTn_CFG_CUT n)

/-- The bytes that leave by cut-through of a received frame that goes on as `f` (R237, R253): its header with SRC, HOPS and VC as they leave, its
payload as far as it came, a fresh CRC; cut where a violation, a foreign symbol or a link-down struck. -/
def cutBytes (w : HeardFrame) (f : Frame) : List Byte :=
  let len := lenOf w.bytes
  let h := leBytes 1 f.dst ++ leBytes 1 f.src ++ (w.bytes.drop 2).take 1 ++ leBytes 1 (byteAt w.bytes 3 / 8 * 8 + f.cls + 4 * f.vc) ++ leBytes 2 (len + 1024 * f.hops) ++
    (w.bytes.drop 6).take (len + 2)
  let l := if h.length = len + 8 then h ++ leBytes 4 (crc32c h) else h
  match w.upset with
  | some (pos, _) => l.take pos
  | none => l

/-- A frame leaves on Strait `n` by cut-through (R236, R237): its residence, at most 280 ns, is open; FILL stands in the slots of the
symbols that were removed. After an uncorrectable buffer error ABORT takes the next slot; at which byte the error lies is no operand
(DESIGN CHOICE, log entry 252). -/
def State.cutThrough (s : State) (n : Nat) (f : Frame) (w : HeardFrame) (good : Bool) : State :=
  let (r, s) := s.fresh 9
  let (x, s) := s.fresh 10
  let l := cutBytes w f
  let l := if w.ecc = .uncorrectable then l.take (x.toNat % (l.length + 1)) else l
  let s := s.put (FAB_PORTn_LAT_V n) (max (s.get (FAB_PORTn_LAT_V n)) (r.toNat % 281))
  let s := s.sendBytes n (frameQueue f) (wireUnits w.bytes) (lenOf w.bytes) w.removed l good
  s.bump ⟨FAB_PORTn_CNTm n 22, 0, 32⟩ 1

/-- A complete frame is accepted (Table 9.15). -/
def State.accepted (s : State) (p : Nat) (f : Frame) : State :=
  (s.bump ⟨FAB_PORTn_CNTm p 0, 0, 32⟩ 1).wrap ⟨FAB_PORTn_CNTm p 2, 0, 32⟩ f.payload.length

/-- A frame stored in queue `q` of Strait `p` goes its way (R227, R236 to R238, R256, R273). A broadcast whose TYPE this island does not
deliver (`mine` false) still goes on to the children (R226); one that has crossed 64 Straits does not (R225), but for a frame of the host, whose HOPS is left as sent (R253). -/
def State.store (s : State) (p : Fin 4) (q : Nat) (f : Frame) (bad mine : Bool) : Way → State
  | .drop r => (s.drop r).freeUnits p q (frameUnits f)
  | .own g =>
    if bad then ((s.bufferError p).drop 7).freeUnits p q (frameUnits f)
    else
      let s' := s.deliver g (some p)
      if (s.destinations g).2.isSome then s' else s'.freeUnits p q (frameUnits f)
  | .broadcast g =>
    if bad then ((s.bufferError p).drop 7).freeUnits p q (frameUnits f)
    else
      let s' := if s.isHarbour ∨ ¬ mine then s else s.toAgents g
      let item (n : Nat) : TxItem :=
        { frame := { g with vc := s.ringVc n g.vc }, arrival := some p, aq := q, bad := false, since := s.now }
      let l := (bitsOf 4 (s.get FAB_BCAST_CHILD)).filter s.up
      if f.hops = 63 ∧ s.role p ≠ 1 ∧ ¬ (bitsOf 4 (s.get FAB_BCAST_CHILD)).isEmpty then (s'.drop 1).freeUnits p q (frameUnits f) else
      let s' := (bitsOf 4 (s.get FAB_BCAST_CHILD)).foldl (fun t n => t.enqueue n (item n)) s'
      if l.isEmpty then s'.freeUnits p q (frameUnits f) else s'
  | .out n g =>
    let s' := s.enqueue n { frame := g, arrival := some p, aq := q, bad := bad, since := s.now }
    if s.up n then s' else s'.freeUnits p q (frameUnits f)

/-- A frame whose header holds has arrived (R229, R236 to R238). -/
def State.receiveBody (s : State) (p : Fin 4) (w : HeardFrame) : State :=
  let f := parseFrame w.bytes
  let q := frameQueue f
  let u := wireUnits w.bytes
  let body := bodyFault w
  let way := s.way p f
  let s := s.takeUnits p q u
  let bad := w.ecc == .uncorrectable
  let s := if w.ecc = .corrected then (s.bump FAB_BUFECC_CORR 1).corrected 7 p else s
  let cut : Option (Nat × Frame) := match way with
    | .out n g => if s.cutOk n g u then some (n, g) else none
    | _ => none
  match cut with
  | some (n, g) =>
    let s := s.cutThrough n g w (body.isNone && !bad)
    match body with
    | some c => (s.discard p c w.bytes).freeUnits p q u
    | none =>
      let s := if bad then s.bufferError p else s
      (s.accepted p f).freeUnits p q u
  | none =>
    match body with
    | some c => (s.discard p c w.bytes).freeUnits p q u
    | none =>
      let wrong : Bool := match way with
        | .own g => typeClass g.typ != some g.cls
        | _ => false
      let deaf : Bool := match way with
        | .broadcast g => typeClass g.typ != some g.cls
        | _ => false
      if wrong then ((s.discard p 5 w.bytes).drop 4).freeUnits p q u
      else if deaf then ((s.discard p 5 w.bytes).drop 4).store p q f bad false way
      else (s.accepted p f).store p q f bad true way

/-- A frame arrives on an UP Strait (R229). One discarded by the end of its header has taken no units
(DESIGN CHOICE, log entry 247). -/
def State.receive (s : State) (p : Fin 4) (w : HeardFrame) : State :=
  if ¬ s.up p then s
  else
    let s := s.bump ⟨FAB_PORTn_CNTm p 11, 0, 32⟩ w.fills
    match s.headerFault p w with
    | none => s.receiveBody p w
    | some c =>
      let s := s.discard p c w.bytes
      if c = 7 then s.fault 15 0x11 p else s

/-! ## Link state -/

/-- The credit state of a Strait is reset (R234, R246). -/
def State.resetCredit (s : State) (n : Nat) : State :=
  let z : Vector Nat 6 := Vector.replicate 6 0
  let s := s.onPort n fun p =>
    { p with allot := z, sentU := z, credC := z, freed := z, own := z, credDue := [], sendTill := s.now }
  ((List.range 6).foldl (fun s q => s.put (FAB_PORTn_RXQq_OCC n q) 0) s).showCredit n

/-- The frames queued for a Strait are discarded, and their units are freed where they arrived (R246). -/
def State.dropQueued (s : State) (n : Nat) : State :=
  (List.range 6).foldl
    (fun s q =>
      let l := vget (s.strait n).txq q []
      let s := (s.onPort n fun p => { p with txq := vset p.txq q [] }).showTxq n q
      l.foldl (fun s it => (s.drop 6).releaseItem it) s) s

/-- Frames that arrived on Strait `n` and wait elsewhere no longer hold units: its credit state is reset. -/
def State.forgetArrival (s : State) (n : Nat) : State :=
  let f (p : PortSt) : PortSt :=
    { p with txq := p.txq.map fun l => l.map fun it => if it.arrival.map (·.val) = some n then { it with arrival := none } else it }
  { s with port := s.port.map f }

/-- A frame in progress on the output ends with ABORT where the link goes down (R246): it does not count as sent
(DEDUCED, log entry 104). -/
def State.cutShort (s : State) (n : Nat) : State :=
  match (s.strait n).inFrame with
  | some (l, len, t) =>
    if t + (l.length + 2) * 320 ≤ s.now then s
    else
      let s := s.put ⟨FAB_PORTn_CNTm n 1, 0, 32⟩ (s.get ⟨FAB_PORTn_CNTm n 1, 0, 32⟩ - 1)
      let s := s.put ⟨FAB_PORTn_CNTm n 3, 0, 32⟩ (s.get ⟨FAB_PORTn_CNTm n 3, 0, 32⟩ + 2 ^ 32 - len)
      (s.bump ⟨FAB_PORTn_CNTm n 6, 0, 32⟩ 1).emit (.cut n (l.take ((s.now - t) / 320 - 1)))
  | none => s

/-- A link that was UP goes down with a cause; the Strait takes the state `next` (R246) (DEDUCED, log entry 104)
(DESIGN CHOICE, log entry 222). -/
def State.dropLink (s : State) (n cause next : Nat) : State :=
  let s := (s.put (FAB_PORTn_DOWNCAUSE_CODE n) cause).bump ⟨FAB_PORTn_CNTm n 21, 0, 32⟩ 1
  let s := s.cutShort n
  let s := ((s.setPort n next).dropQueued n).forgetArrival n
  let s := ((s.resetCredit n).put (TMG_PORTn_DLY_VALID n) 0).put (FAB_PORTn_STAT_DLYVALID n) 0
  let s := (s.put (FAB_PORTn_LINE_LOCK n) 0).putB (FAB_PORTn_STAT_ECHOBAD n) (cause == 4)
  let s := s.onPort n fun p => { p with out := none, dlys := [], exchanges := 0, attemptAt := s.now + 10 * us, inFrame := none, tickOut := none }
  s.linkEvent n false

/-- A training attempt fails (R244, R245). -/
def State.trainFail (s : State) (n cause : Nat) : State :=
  let s := (s.put (FAB_PORTn_TRAIN_LASTFAIL n) cause).put (FAB_PORTn_DOWNCAUSE_CODE n) cause
  let s := (s.onPort n fun p => { p with fails := p.fails + 1, attemptAt := s.now }).setPort n (if cause = 10 then 6 else 5)
  if (s.strait n).fails = s.get FAB_TRAIN_CFG_TRIES then s.fault 15 0x12 n else s

/-- The state a Strait takes after a link-down cause: off when it is disabled or fenced or at entry to SHIP, otherwise it
listens until it trains (R246, Table 9.11). -/
def State.afterDown (s : State) (cause : Nat) : Nat :=
  if cause = 1 then 0 else if cause = 11 then (if s.mode = 0 then 0 else 1) else 1

/-- A link-down cause occurs on a Strait (R246, Table 9.9) (DEDUCED, log entry 105). -/
def State.linkDown (s : State) (n cause : Nat) : State :=
  let st := s.get (FAB_PORTn_STAT_STATE n)
  if cause = 0 then s
  else if st = 4 then s.dropLink n cause (if cause = 10 then 6 else s.afterDown cause)
  else if st = 3 ∧ (cause = 8 ∨ cause = 9 ∨ cause = 10) then s.trainFail n cause
  else if cause = 1 ∨ cause = 11 then (s.put (FAB_PORTn_DOWNCAUSE_CODE n) cause).setPort n (s.afterDown cause)
  else s

/-! ## Training -/

/-- A Strait may train: enabled, in a mode whose Straits are active, not in a line test (R246, R248, R250). -/
def State.mayTrain (s : State) (n : Nat) : Bool :=
  s.domOn 6 && (decide (2 ≤ s.mode ∧ s.mode ≤ 5) || s.flag MGT_FW_STAT_RECOVERY) && s.flag FAB_CTRL_EN && s.flag (FAB_PORTn_CFG_EN n) &&
    s.rdN (FAB_PORTn_TEST n) % 4 == 0

/-- Training begins: the port sends COMMA (R244, Table 9.10 step 1). -/
def State.beginTraining (s : State) (n : Nat) : State :=
  let s := (s.bump ⟨FAB_PORTn_CNTm n 20, 0, 32⟩ 1).bump (FAB_PORTn_TRAIN_ATT n) 1
  let s := (s.setPort n 3).put (FAB_PORTn_TRAIN_STEP n) 1
  s.onPort n fun p =>
    { p with aligned := false, lastTs := none, sameRun := 0, ts2Run := 0, ts2Sent := none, attemptAt := s.now }

/-- The own allotment of a Strait (FAB_PORTn_BUF0 and BUF1, R231). -/
def State.ownAllot (s : State) (n : Nat) : Vector Nat 6 :=
  #v[s.get (FAB_PORTn_BUF0_Q0 n), s.get (FAB_PORTn_BUF0_Q1 n), s.get (FAB_PORTn_BUF0_Q2 n), s.get (FAB_PORTn_BUF0_Q3 n),
     s.get (FAB_PORTn_BUF1_Q4 n), s.get (FAB_PORTn_BUF1_Q5 n)]

/-- The TRAIN ordered set that Strait `n` sends (Table 9.8): ROLE 0, VER 1, the own allotment, HAZIN, TIMEX answered. -/
def State.ownSet (s : State) (n : Nat) (ts2 : Bool) : List Byte :=
  trainBytes { ts2 := ts2, uid := BitVec.ofNat 64 s.uid, port := Fin.ofNat 4 n, role := 0, ver := 1,
               allot := (s.ownAllot n).map (BitVec.ofNat 8), cap := BitVec.ofNat 8 (2 + b2n (s.hazIn n)), crcOk := true }

/-- 64 consecutive aligned COMMAs have been received and the port sends TS1 (Table 9.10 step 2). The echo residual and the
signal-to-noise ratio that FAB_PORTn_LINE shows are no operands: free (DESIGN CHOICE, log entry 222). -/
def State.alignTraining (s : State) (n : Nat) : State :=
  if s.get (FAB_PORTn_STAT_STATE n) = 3 ∧ ¬ (s.strait n).aligned then
    let (w, s) := s.fresh 16
    let s := ((s.wrN (FAB_PORTn_LINE n) (w.toNat + 65536)).put (FAB_PORTn_STAT_ECHOBAD n) 0).put (FAB_PORTn_TRAIN_STEP n) 2
    (s.onPort n fun p => { p with aligned := true }).emit (.train n (s.ownSet n false))
  else s

/-- A training attempt, preceded by the wake tone when WAKEOUT is set (R245, R247). -/
def State.attempt (s : State) (n : Nat) : State :=
  if s.flag (FAB_PORTn_CFG_WAKEOUT n) then
    let t := s.getIn FAB_WAKE_CFG_TONE_US 200 5000
    ((s.emit (.tone n t)).reach (s.now + t * us)).beginTraining n
  else s.beginTraining n

/-- The peer's data from training (Table 9.8, Table 9.12). -/
def State.takePeer (s : State) (n : Nat) (t : TrainSet) : State :=
  let s := s.put64 (FAB_PORTn_PEER_ID_LO n) t.uid.toNat
  (((s.put (FAB_PORTn_PEER_INFO_PORT n) t.port).put (FAB_PORTn_PEER_INFO_ROLE n) t.role).put (FAB_PORTn_PEER_INFO_VER n)
    t.ver.toNat).put (FAB_PORTn_PEER_INFO_CAP n) t.cap.toNat

/-- The Strait reaches UP (Table 9.10 step 4): credit from the peer's allotment, a CREDIT sequence for every queue; consequential
conditions that still stand are raised anew (R335); the upstream Strait coming up puts the island into ACQUIRE (Table 2.3). -/
def State.linkUp (s : State) (n : Nat) (t : TrainSet) : State :=
  let s := ((s.takePeer n t).resetCredit n).setPort n 4
  let s := (s.put (FAB_PORTn_TRAIN_STEP n) 4).put (FAB_PORTn_TRAIN_ATT n) 0
  let own := s.ownAllot n
  let s := (s.onPort n fun p =>
    { p with allot := t.allot.map (·.toNat), own := own, fails := 0, upAt := s.now, exchanges := 0, dlys := [], out := none,
             reqAt := s.ft - 10 * us }
    ).showCredit n
  let s := (List.range 6).foldl (fun s q => s.sendCredit n q) s
  let s := (s.endCond 15 0x12 n).promoteAll 0x8082 (causeOf [7, 15] n)
  let s := if s.flag FAB_POS_UPV ∧ s.get FAB_POS_UPSTREAM = n then s.acquire else s
  s.linkEvent n true

/-- A valid TRAIN ordered set in training (Table 9.10 steps 3 and 4). -/
def State.trainStep (s : State) (n : Nat) (t : TrainSet) : State :=
  let p := s.strait n
  let same := if p.lastTs = some t then p.sameRun + 1 else 1
  let ts2 := if t.ts2 then p.ts2Run + 1 else 0
  let s := s.onPort n fun p => { p with lastTs := some t, sameRun := same, ts2Run := ts2 }
  let s := if 3 ≤ same ∧ p.ts2Sent.isNone then
      ((s.put (FAB_PORTn_TRAIN_STEP n) 3).onPort n fun p => { p with ts2Sent := some s.now }).emit (.train n (s.ownSet n true))
    else s
  match (s.strait n).ts2Sent with
  | some a => if 3 ≤ ts2 then (s.reach (a + 7 * 8000)).linkUp n t else s
  | none => s

/-- A TRAIN ordered set arrives (R244, R246). -/
def State.train (s : State) (n : Nat) (t : TrainSet) : State :=
  if s.up n then s.linkDown n 12
  else if s.get (FAB_PORTn_STAT_STATE n) ≠ 3 ∨ ¬ (s.strait n).aligned then s
  else if ¬ t.crcOk then s.onPort n fun p => { p with lastTs := none, sameRun := 0, ts2Run := 0 }
  else if t.ver ≠ 1 then s.linkDown n 9
  else if t.uid.toNat = s.uid then s.linkDown n 10
  else s.trainStep n t

/-! ## Registers -/

/-- A write of FAB_PORTn_CTRL: RETRAIN, WAKE (R246, R247) (DEDUCED, log entry 105). -/
def State.writePortCtrl (s : State) (n : Nat) (v : Word) : State :=
  let retrain (s : State) : State :=
    if s.up n then s.linkDown n 7
    else if s.get (FAB_PORTn_STAT_STATE n) = 0 then s
    else (s.setPort n 1).onPort n fun p => { p with attemptAt := s.now + 10 * us }
  let s := if bitOf v.toNat 0 || bitOf v.toNat 1 then retrain s else s
  if bitOf v.toNat 1 && s.mayTrain n then
    let t := s.getIn FAB_WAKE_CFG_TONE_US 200 5000
    ((s.setPort n 2).emit (.tone n t)).onPort n fun p => { p with attemptAt := s.now + t * us }
  else s

/-- A PRBS test of Strait `n` ends: the errors it has counted are no operand, and free (R250; DESIGN CHOICE, log entry 222). -/
def State.endPrbs (s : State) (n : Nat) : State :=
  let (w, s) := s.fresh 32
  s.bump (FAB_PORTn_PRBSERR_V n) w.toNat

/-- A write of FAB_PORTn_TEST: either test takes the link down (R250); its cause has no code in Table 9.9
(DESIGN CHOICE, log entry 106). -/
def State.writePortTest (s : State) (i : Initiator) (n : Nat) (v : Word) : State :=
  let was := s.flag (FAB_PORTn_TEST_PRBS n)
  let s := s.plainWrite i (FAB_PORTn_TEST n) v.toNat
  let s := if was ∧ ¬ s.flag (FAB_PORTn_TEST_PRBS n) then s.endPrbs n else s
  if s.rdN (FAB_PORTn_TEST n) % 4 = 0 then s
  else if s.up n then
    let (c, s) := s.fresh 4
    s.dropLink n c.toNat 1
  else if s.get (FAB_PORTn_STAT_STATE n) = 0 then s
  else s.setPort n 1

/-- A Strait follows its enables: disabled it goes down with cause 1, enabled it listens until it trains (R246). -/
def State.followEnable (s : State) (n : Nat) : State :=
  if s.flag FAB_CTRL_EN && s.flag (FAB_PORTn_CFG_EN n) then
    (if s.get (FAB_PORTn_STAT_STATE n) = 0 ∧ s.domOn 6 then s.setPort n 1 else s)
  else if s.get (FAB_PORTn_STAT_STATE n) = 0 then s
  else s.linkDown n 1

/-- A write of FAB_PORTn_CFG: HAZIN and HAZOUT stay 1 on a fabric Strait (R241). -/
def State.writePortCfg (s : State) (i : Initiator) (n : Nat) (v : Word) : State :=
  let s := s.plainWrite i (FAB_PORTn_CFG n) v.toNat
  let s := if s.role n = 0 then (s.put (FAB_PORTn_CFG_HAZIN n) 1).put (FAB_PORTn_CFG_HAZOUT n) 1 else s
  s.followEnable n

/-- A write of FAB_CTRL. -/
def State.writeFabCtrl (s : State) (i : Initiator) (v : Word) : State :=
  (List.range 4).foldl State.followEnable (s.plainWrite i FAB_CTRL v.toNat)

/-! ## Rows -/

/-- FRAME_RECEIVE (R229) (DESIGN CHOICE, log entry 102). -/
def execFrameReceive (p : Fin 4) (w : WireFrame) (s : State) : Outcome := .next (s.receive p (hear w))

/-- STORE_AND_FORWARD (R238). -/
def execStoreAndForward (p : Fin 4) (s : State) : Outcome := .next (s.transmit p true)

/-- FRAME_TRANSMIT (R235). -/
def execFrameTransmit (p : Fin 4) (s : State) : Outcome := .next (s.transmit p false)

/-- CREDIT_RECEIVE (R232) (DEDUCED, log entry 101). -/
def execCreditReceive (p : Fin 4) (qb c : Byte) (s : State) : Outcome :=
  if ¬ s.up p then .next s
  else
    let q := qb.toNat % 8
    let x := s.strait p
    let ok := decide (q < 6) && qb.toNat == creditByte q c.toNat &&
      decide ((c.toNat + 256 - vget x.credC q 0) % 256 ≤ (vget x.sentU q 0 + 256 - vget x.credC q 0) % 256)
    let s := s.bump ⟨FAB_PORTn_CNTm p 12, 0, 32⟩ 1
    if ok then .next ((s.onPort p fun y => { y with credC := vset y.credC q c.toNat }).showCredit p)
    else .next (s.bump ⟨FAB_PORTn_CNTm p 13, 0, 32⟩ 1)

/-- CREDIT_REFRESH (R233): a sequence for every queue, which carries what is still owed. -/
def execCreditRefresh (p : Fin 4) (s : State) : Outcome :=
  .next (if s.up p then ((List.range 6).foldl (fun s q => s.sendCredit p q) s).onPort p fun x => { x with credDue := [] } else s)

/-- Since when the head frame of Strait `p` that has waited longest for credit waits. -/
def State.stalledSince (s : State) (p : Nat) : Option Nat :=
  ((List.range 6).filterMap fun q =>
    match vget (s.strait p).txq q [] with
    | it :: _ => if s.credit p q < frameUnits it.frame then some it.since else none
    | [] => none).min?

/-- A credit stall has lasted long enough: the fault, and the link goes down (R234), unless the fault is consequential (R334). -/
def State.stall (s : State) (p : Nat) : State :=
  let r := s.collect 15 0x10 p 0 0 false none
  if r.1.1 then (r.2.openShadow 0x8082 r.1.2 (15, 0x10, p)).linkDown p 6 else r.2

/-- CREDIT_STALL (R234): the head frame that has waited for credit for STALL_MS. -/
def execCreditStall (p : Fin 4) (s : State) : Outcome :=
  match s.stalledSince p with
  | some t => .next (if s.up p then (s.reach (t + s.getIn (FAB_PORTn_CFG_STALL_MS p) 1 255 * ms)).stall p else s)
  | none => .next s

/-- HAZARD_RECEIVE (R239) (DEDUCED, log entries 55, 56, 57, 107). -/
def execHazardReceive (src : HazardSource) (s : State) : Outcome :=
  match src with
  | .strait p valid =>
    if ¬ s.up p then .next s
    else if ¬ valid then .next (s.bump ⟨FAB_PORTn_CNTm p 8, 0, 32⟩ 1)
    else if s.hazIn p then .next (s.floodHazard p).raiseHaz
    else .next s
  | .tripLine => .next (if s.domOn 6 then (s.floodHazard 4).raiseHaz else s)

/-- HAZARD_HOLD_EXPIRY (R239). -/
def execHazardHoldExpiry (s : State) : Outcome :=
  if s.flag FAB_STAT_HOLDOFF then
    .next ((s.reach (s.net.hazHoldAt + s.getIn FAB_HAZ_CFG_HOLD 10 4000 * us)).putB FAB_STAT_HOLDOFF false)
  else .next s

/-- LINK_TRAINING (R244). -/
def execLinkTraining (p : Fin 4) (s : State) : Outcome :=
  let st := s.get (FAB_PORTn_STAT_STATE p)
  if s.mayTrain p && decide (st ≤ 2) then
    let s := s.reach (s.strait p).attemptAt
    .next (if st = 2 then s.beginTraining p else s.attempt p)
  else .next s

/-- TRAIN_RECEIVE (R244). -/
def execTrainReceive (p : Fin 4) (l : List Byte) (s : State) : Outcome := .next (s.train p (parseTrain l))

/-- TRAINING_TIMEOUT (R244). -/
def execTrainingTimeout (p : Fin 4) (s : State) : Outcome :=
  if s.get (FAB_PORTn_STAT_STATE p) = 3 then .next ((s.reach ((s.strait p).attemptAt + 5 * ms)).linkDown p 8)
  else .next s

/-- TRAINING_RETRY (R245). -/
def execTrainingRetry (p : Fin 4) (s : State) : Outcome :=
  if s.mayTrain p && s.get (FAB_PORTn_STAT_STATE p) == 5 then
    let wait := if (s.strait p).fails < s.get FAB_TRAIN_CFG_TRIES then s.get FAB_TRAIN_CFG_RETRY_MS * ms
      else s.getIn FAB_TRAIN_CFG_BACKOFF_S 1 60 * sec
    .next ((s.reach ((s.strait p).attemptAt + wait)).attempt p)
  else .next s

/-- LINK_DOWN (R246). -/
def execLinkDown (p : Fin 4) (cause : Fin 13) (s : State) : Outcome := .next (s.linkDown p cause)

/-- PORT_RETRAIN (R246). -/
def execPortRetrain (p : Fin 4) (i : Initiator) (v : Word) (s : State) : Outcome :=
  .next (s.writeRow i (FAB_PORTn_CTRL p) fun s => s.writePortCtrl p (v ||| 1))

/-- PORT_WAKE (R247) (DEDUCED, log entry 105). -/
def execPortWake (p : Fin 4) (i : Initiator) (v : Word) (s : State) : Outcome :=
  .next (s.writeRow i (FAB_PORTn_CTRL p) fun s => s.writePortCtrl p (v ||| 2))

/-- PORT_LOOPBACK (R250). -/
def execPortLoopback (p : Fin 4) (i : Initiator) (v : Word) (s : State) : Outcome :=
  .next (s.writeRow i (FAB_PORTn_TEST p) fun s => s.writePortTest i p (v ||| 1))

/-- PORT_PRBS (R250). -/
def execPortPrbs (p : Fin 4) (i : Initiator) (v : Word) (s : State) : Outcome :=
  .next (s.writeRow i (FAB_PORTn_TEST p) fun s => s.writePortTest i p (v ||| 2))

/-- COMMA_ALIGNMENT (R244). -/
def execCommaAlignment (p : Fin 4) (s : State) : Outcome := .next (s.alignTraining p)

/-- WAKE_TONE_DETECT (R247): the detector of a Strait with WAKEIN that is not UP, sends no tone itself and is not ignored. In the modes
with active Straits training starts at once. -/
def execWakeToneDetect (p : Fin 4) (s : State) : Outcome :=
  let x := s.strait p
  if s.flag (FAB_PORTn_CFG_WAKEIN p) && !s.up p && !x.toneIgnored && s.get (FAB_PORTn_STAT_STATE p) != 2 &&
      decide (x.toneTill ≤ s.now) then
    let s := s.onPort p fun x => { x with toneSince := some (x.toneSince.getD s.now) }
    let s := (s.put (FAB_PORTn_STAT_TONE p) 1).putBit FAB_WAKE_STAT_TONE p true
    let s := s.wakeRequest 1
    .next (if s.mayTrain p && s.get (FAB_PORTn_STAT_STATE p) != 3 then s.beginTraining p else s)
  else .next s

/-- WAKE_TONE_HELD (R247). -/
def execWakeToneHeld (p : Fin 4) (s : State) : Outcome :=
  match (s.strait p).toneSince with
  | some t =>
    let s := (s.reach (t + 60 * sec)).putBit FAB_WAKE_STAT_HELD p true
    .next (s.onPort p fun x => { x with toneIgnored := true })
  | none => .next s

/-- WAKE_TONE_ABSENT (R247). -/
def execWakeToneAbsent (p : Fin 4) (s : State) : Outcome :=
  .next (s.onPort p fun x => { x with toneSince := none, toneIgnored := false })

end Sys2Proof.Machine
end

