-- ==== Sys2Proof/Machine/Topology.lean ====
section
/-! DEFINITION. The harbour's computation on a sounded map (chapter 10): settled links, classes (R265), positions (R266), address
assignment (R268), routing tables and causeway routes (R267, R271 to R273), ASSIGN contents (Table 10.1). -/

namespace Sys2Proof.Machine

/-! ## The graph -/

/-- The graph of a map: node, Strait ↦ neighbour and its Strait. Node 0 is the harbour. -/
abbrev Graph := List (List (Option (Nat × Nat)))

/-- The report of an island. -/
def reportOf (m : List Report) (uid : Nat) : Option Report := m.find? fun r => r.uid == uid

/-- What a report says of Strait `p`. -/
def Report.strait (r : Report) (p : Nat) : RepPort := r.ports.getD p { state := 0, peer := 0, peerPort := 0 }

/-- An UP fabric entry (A, p, B, q) that is matched by (B, q, A, p) (R261). -/
def settledEnd (m : List Report) (r : Report) (p : Nat) : Bool :=
  let x := r.strait p
  x.state == 1 &&
    (match reportOf m x.peer with
    | some b => let y := b.strait x.peerPort; y.state == 1 && y.peer == r.uid && y.peerPort == p
    | none => false)

/-- The unsettled ports of a map: island, Strait (R261). -/
def unsettled (m : List Report) : List (Nat × Nat) :=
  (m.map fun r => ((List.range 4).filter fun p => (r.strait p).state == 1 && !settledEnd m r p).map fun p => (r.uid, p)).flatten

/-- The map is closed: every peer named in an UP fabric entry has reported (R261). -/
def closedMap (m : List Report) : Bool :=
  m.all fun r => (List.range 4).all fun p => (r.strait p).state != 1 || (reportOf m (r.strait p).peer).isSome

/-- The graph of the settled links. -/
def graphOf (m : List Report) : Graph :=
  m.map fun r => (List.range 4).map fun p =>
    if settledEnd m r p then (m.findIdx? fun b => b.uid == (r.strait p).peer).map fun j => (j, (r.strait p).peerPort) else none

/-- The neighbour behind a Strait. -/
def adj (g : Graph) (i p : Nat) : Option (Nat × Nat) := (g.getD i []).getD p none

/-- The Straits of a node that lead to a neighbour, ascending. -/
def portsOf (g : Graph) (i : Nat) : List Nat := (List.range 4).filter fun p => (adj g i p).isSome

/-- The neighbours of a node. -/
def nbrsOf (g : Graph) (i : Nat) : List Nat := (portsOf g i).filterMap fun p => (adj g i p).map (·.1)

/-- The first Strait of `i` that leads to `j`. -/
def portTo (g : Graph) (i j : Nat) : Option Nat := (portsOf g i).find? fun p => (adj g i p).map (·.1) == some j

/-- Breadth-first distances from node 0, `k` rounds. -/
def bfs (g : Graph) : Nat → List (Option Nat)
  | 0 => (List.range g.length).map fun i => if i = 0 then some 0 else none
  | k + 1 =>
    let d := bfs g k
    (List.range g.length).map fun i =>
      match d.getD i none with
      | some x => some x
      | none => if (nbrsOf g i).any fun j => d.getD j none == some k then some (k + 1) else none

/-- The depth of every node; none where node 0 does not reach it. -/
def depths (g : Graph) : List (Option Nat) := bfs g g.length

/-! ## Classes and positions -/

/-- Where a node stands: rail, position, the Straits in positive and negative direction and over the rung. -/
structure Place where
  node : Nat
  rail : Nat
  pos : Nat
  plus : Option Nat
  minus : Option Nat
  rung : Option Nat
  deriving DecidableEq, Repr

/-- A classified map (R265, R266). -/
structure Topo where
  kind : Nat
  l : Nat
  h : Nat
  places : List Place
  deriving DecidableEq, Repr

/-- The positions of a ring from node `i`, entered on Strait `q`, onward. -/
def ringWalk (g : Graph) : Nat → Nat → Nat → Nat → List Place
  | 0, _, _, _ => []
  | k + 1, pos, i, q =>
    match (portsOf g i).find? fun p => p != q with
    | none => []
    | some p =>
      { node := i, rail := 0, pos := pos, plus := some p, minus := some q, rung := none } ::
        (match adj g i p with
        | some (j, r) => ringWalk g k (pos + 1) j r
        | none => [])

/-- A single cycle of 3 to 64 islands (R265). Position 0 is the harbour; the positive direction leaves it on its lower-numbered
ring Strait (R266). -/
def ringTopo (g : Graph) : Option Topo :=
  let n := g.length
  if 3 ≤ n ∧ n ≤ 64 ∧ ((List.range n).all fun i => (portsOf g i).length == 2) ∧ (depths g).all Option.isSome then
    some { kind := 1, l := n, h := 0, places := ringWalk g n 0 0 ((portsOf g 0).getD 1 0) }
  else none

/-- The pairs of a ladder from the pair (a, b) on, where (pa, pb) came before. -/
def ladderWalk (g : Graph) : Nat → Nat → Nat → Nat → Nat → List (Nat × Nat)
  | 0, _, _, _, _ => []
  | k + 1, pa, pb, a, b =>
    (a, b) ::
      (match (nbrsOf g a).find? (fun x => x != pa && x != b), (nbrsOf g b).find? (fun x => x != pb && x != a) with
      | some a', some b' => ladderWalk g k a b a' b'
      | _, _ => [])

/-- The two rails of a ladder, the harbour's first, in the order of the walk: none where the graph is no ladder (R265). -/
def ladderPairs (g : Graph) : Option (List (Nat × Nat)) :=
  let n := g.length
  let deg (i : Nat) : Nat := (portsOf g i).length
  match (List.range n).find? fun i => deg i == 2 with
  | none => none
  | some a =>
    match (nbrsOf g a).find? fun b => deg b == 2 with
    | none => none
    | some b =>
      let w := ladderWalk g n n n a b
      let l := w.length
      let nodes := (w.map fun x => [x.1, x.2]).flatten
      let edges := ((List.range n).map deg).foldl (· + ·) 0
      if 3 ≤ l ∧ l ≤ 120 ∧ 2 * l = n ∧ nodes.Nodup ∧ edges = 2 * (3 * l - 2) ∧
          (w.all fun x => (portTo g x.1 x.2).isSome) then
        some (if w.any fun x => x.1 == 0 then w else w.map fun x => (x.2, x.1))
      else none

/-- Two rails of 3 to 120 islands joined at every position. Positions run in the direction of the harbour's lower-numbered rail
Strait; a harbour at the end of its rail is position 0 (R265, R266). -/
def ladderTopo (g : Graph) : Option Topo :=
  match ladderPairs g with
  | none => none
  | some w =>
    let l := w.length
    let at0 (v : List (Nat × Nat)) (i : Nat) : Nat × Nat := v.getD i (0, 0)
    let h0 := w.findIdx fun x => x.1 == 0
    let up := portTo g 0 (at0 w (h0 + 1)).1
    let down := portTo g 0 (at0 w (h0 - 1)).1
    let turn : Bool := if h0 = 0 then false else if h0 = l - 1 then true else down.getD 4 < up.getD 4
    let w := if turn then w.reverse else w
    let place (rail : Nat) (i : Nat) : Place :=
      let me (j : Nat) : Nat := if rail = 0 then (at0 w j).1 else (at0 w j).2
      { node := me i, rail := rail, pos := i,
        plus := if i + 1 < l then portTo g (me i) (me (i + 1)) else none,
        minus := if 0 < i then portTo g (me i) (me (i - 1)) else none,
        rung := portTo g (me i) (if rail = 0 then (at0 w i).2 else (at0 w i).1) }
    some { kind := 2, l := l, h := w.findIdx fun x => x.1 == 0,
           places := (List.range l).map (place 0) ++ (List.range l).map (place 1) }

/-- The class of a consistent map (R265). -/
def classify (g : Graph) : Topo :=
  if g.length ≤ 1 then { kind := 0, l := 1, h := 0, places := [] }
  else
    match ringTopo g with
    | some t => t
    | none => (ladderTopo g).getD { kind := 3, l := 0, h := 0, places := [] }

/-- The place of a node. -/
def Topo.place (t : Topo) (i : Nat) : Place :=
  (t.places.find? fun p => p.node == i).getD { node := i, rail := 0, pos := 0, plus := none, minus := none, rung := none }

/-! ## Addresses -/

/-- The lowest free address of a table. -/
def lowestFree (t : List AtEntry) : Option Nat :=
  ((List.range 0xF1).filter fun a => a != 0 && !(t.any fun e => e.addr == a)).head?

/-- The address an island receives (R268): the address, and whether a held one was released for it. -/
def addressFor (t : List AtEntry) (uid prev : Nat) : Option (Nat × Bool) :=
  match t.find? fun e => e.uid == uid with
  | some e => some (e.addr, false)
  | none =>
    if 1 ≤ prev ∧ prev ≤ 0xF0 ∧ !(t.any fun e => e.addr == prev) then some (prev, false)
    else
      match lowestFree t with
      | some a => some (a, false)
      | none =>
        let held := t.filter fun e => e.state == 2
        match held with
        | [] => none
        | e :: r => some ((r.foldl (fun x y => if y.holdEnd < x.holdEnd then y else x) e).addr, true)

/-- The entry of an island is put into the table. -/
def giveAddress (t : List AtEntry) (uid a round : Nat) : List AtEntry :=
  { addr := a, uid := uid, state := 1, holdEnd := 0, round := round } :: t.filter fun e => e.addr != a && e.uid != uid

/-- Nodes other than the harbour in ascending depth, then ascending UID. -/
def islandOrder (m : List Report) (d : List (Option Nat)) : List Nat :=
  let key (i : Nat) : Nat := (d.getD i none).getD 0 * 2 ^ 64 + ((m.map (·.uid)).getD i 0)
  ((List.range m.length).filter fun i => i != 0 && (d.getD i none).isSome).mergeSort fun i j => decide (key i ≤ key j)

/-- Addresses for all islands (R268): node and address, the table, whether a held address was released. -/
def assignAddresses (m : List Report) (round : Nat) :
    List Nat → List (Nat × Nat) × List AtEntry × Bool → List (Nat × Nat) × List AtEntry × Bool
  | [], r => r
  | i :: rest, (l, t, b) =>
    match m[i]? with
    | none => assignAddresses m round rest (l, t, b)
    | some rep =>
      match addressFor t rep.uid rep.prev with
      | none => assignAddresses m round rest (l, t, b)
      | some (a, rel) => assignAddresses m round rest ((i, a) :: l, giveAddress t rep.uid a round, b || rel)

/-! ## Routes -/

/-- The Strait on which the harbour's route to a node arrives (R266, R271, R273). `addr` gives addresses for the ties of a
tree. -/
def backPort (g : Graph) (t : Topo) (d : List (Option Nat)) (addr : Nat → Nat) (i : Nat) : Option Nat :=
  if i = 0 then none
  else
    let p := t.place i
    if t.kind = 1 then (if 2 * p.pos ≤ t.l then p.minus else p.plus)
    else if t.kind = 2 then (if p.rail = 1 then p.rung else if p.pos < t.h then p.plus else p.minus)
    else
      match d.getD i none with
      | some (k + 1) =>
        let up := (portsOf g i).filter fun q => (adj g i q).any fun x => d.getD x.1 none == some k
        match up with
        | [] => none
        | q :: r =>
          let a (q : Nat) : Nat := (adj g i q).elim 0 fun x => addr x.1
          some (r.foldl (fun x y => if a y < a x then y else x) q)
      | _ => none

/-- The nodes from `i` up to the harbour along the back ports, with the Strait of the upper node that leads down: `k` steps. -/
def climb (g : Graph) (back : List (Option Nat)) : Nat → Nat → List (Nat × Nat)
  | 0, _ => []
  | k + 1, i =>
    match back.getD i none with
    | none => []
    | some q =>
      match adj g i q with
      | some (j, p) => (j, p) :: climb g back k j
      | none => []

/-- The Strait on which a frame of node `i` for node `j` leaves (R271). -/
def firstPort (g : Graph) (t : Topo) (back : List (Option Nat)) (i j : Nat) : Option Nat :=
  let p := t.place i
  let q := t.place j
  if t.kind = 1 then
    (if (q.pos + t.l - p.pos) % t.l ≤ (p.pos + t.l - q.pos) % t.l then p.plus else p.minus)
  else if t.kind = 2 then
    (if p.pos < q.pos then p.plus else if q.pos < p.pos then p.minus else p.rung)
  else
    match (climb g back g.length j).find? fun x => x.1 == i with
    | some x => some x.2
    | none => back.getD i none

/-- The first Strait of route B toward the harbour, and its length (R272) (DEDUCED, log entry 112). -/
def routeB (t : Topo) (i : Nat) : Option (Nat × Nat) :=
  let p := t.place i
  let dist := if p.pos < t.h then t.h - p.pos else p.pos - t.h
  if i = 0 then none
  else if t.kind = 1 then
    (if 2 * p.pos < t.l then p.plus.map fun n => (n, t.l - p.pos)
    else p.minus.map fun n => (n, p.pos))
  else if t.kind = 2 then
    (if p.rail = 0 then p.rung.map fun n => (n, dist + 2)
    else if p.pos ≠ t.h then p.rung.map fun n => (n, dist + 1)
    else (if t.h < t.l - 1 then p.plus else p.minus).map fun n => (n, 3))
  else none

/-- The length of route A toward the harbour (R272) (DEDUCED, log entry 112). -/
def routeA (t : Topo) (d : List (Option Nat)) (i : Nat) : Nat :=
  let p := t.place i
  let dist := if p.pos < t.h then t.h - p.pos else p.pos - t.h
  if t.kind = 1 then min p.pos (t.l - p.pos)
  else if t.kind = 2 then dist + p.rail
  else (d.getD i none).getD 0

/-- What a computed round holds: topology, addresses by node, ASSIGN contents, address table, RESULT bits. -/
structure Computed where
  topo : Topo
  addrs : List (Nat × Nat)
  assigns : List Assign
  table : List AtEntry
  beyond : Bool
  released : Bool
  bbeyond : Bool
  deriving DecidableEq, Repr

/-- The ASSIGN of a node (Table 10.1, Table 10.10); `marks` are the unsettled ports. -/
def assignFor (g : Graph) (t : Topo) (d back : List (Option Nat)) (m : List Report) (addrs : List (Nat × Nat))
    (marks : List (Nat × Nat)) (i : Nat) : Assign :=
  let uid := (m.map (·.uid)).getD i 0
  let p := t.place i
  let b := (routeB t i).filter fun x => decide (x.2 ≤ 64)
  let own := ((addrs.find? fun x => x.1 == i).map (·.2)).getD 0
  let entry (a : Nat) : Byte :=
    BitVec.ofNat 8
      (match (addrs.find? fun x => x.2 == a) with
      | none => 0
      | some (j, _) =>
        if j = i then 0x14
        else
          (match firstPort g t back i j with
          | none => 0
          | some n => n + 4 + (if a = 0 then b.elim 0 (fun x => x.1 * 32 + 128) else 0)))
  let up := (firstPort g t back i 0).getD 0
  let kids := (portsOf g i).filter fun q => (adj g i q).any fun x => back.getD x.1 none == some x.2
  let dl : Option Nat := if t.kind = 1 ∧ p.pos = t.l - 1 then p.plus else if t.kind = 1 ∧ p.pos = 0 then p.minus else none
  { uid := uid, path := (climb g back g.length i).reverse.map (·.2), addr := own, kind := t.kind, pos := p.pos + 128 * p.rail,
    depth := (d.getD i none).getD 0, upstream := up,
    bcast := (back.getD i none).elim 0 (fun n => n + 4) + 16 * ofBits kids,
    dlport := dl.elim 0 (fun n => n + 4),
    unset := ofBits ((marks.filter fun x => x.1 == uid).map (·.2)),
    cway := if i = 0 then 0 else
      up + routeA t d i * 256 + b.elim 0 (fun x => x.1 * 2 ^ 16 + 2 ^ 18 + x.2 * 2 ^ 24),
    rt := (List.range 241).map entry }

/-- The whole computation on a consistent map (R262, R265 to R273) (DEDUCED, log entry 112). -/
def computeRound (m : List Report) (table : List AtEntry) (round : Nat) (marks : List (Nat × Nat)) : Computed :=
  let g := graphOf m
  let t := classify g
  let d := depths g
  let reach := (islandOrder m d).filter fun i => decide (routeA t d i ≤ 64)
  let (l, tab, rel) := assignAddresses m round reach ([(0, 0)], table, false)
  let addr (i : Nat) : Nat := ((l.find? fun x => x.1 == i).map (·.2)).getD 0xFE
  let back := (List.range g.length).map (backPort g t d addr)
  { topo := t, addrs := l,
    assigns := (0 :: reach.filter fun i => l.any fun x => x.1 == i).map (assignFor g t d back m l marks),
    table := tab, beyond := reach.length + 1 < m.length, released := rel,
    bbeyond := reach.any fun i => (routeB t i).any fun x => decide (64 < x.2) }

end Sys2Proof.Machine
end

