-- ==== Sys2Proof/Machine/Sounding.lean ====
section
/-! DEFINITION. Sounding rounds and the harbour (chapter 10): flood, reports, assignment, commit and installation, reruns and
holdoff, election and loss of the harbour, the snapshot plan (R54). -/

namespace Sys2Proof.Machine

/-! ## Who is followed -/

/-- A harbour ranks above another: higher TERM, or the same TERM and the lower HUID (R258). -/
def ranksAbove (t h t' h' : Nat) : Bool := decide (t' < t) || (t == t' && decide (h < h'))

/-- Round `b` is newer than round `a` (R258). -/
def newerRound (a b : Nat) : Bool := let x := (b + 65536 - a) % 65536; decide (1 ≤ x) && decide (x ≤ 32767)

/-- The part stops being the active harbour (R277): standby if configured as harbour or standby, ordinary otherwise
(DEDUCED, log entry 110). -/
def State.leaveHarbour (s : State) : State :=
  let r := s.get FAB_NET_CFG_ROLE
  let s := ((s.put FAB_NET_STAT_HARBOUR 0).put FAB_NET_STAT_STANDBY (b2n (r = 1 ∨ r = 2))).put FAB_NET_STAT_SND 0
  let s := ((s.put FAB_NET_STAT_ADDR 0xFE).put FAB_NET_STAT_ASSIGNED 0).put TMG_STAT_HARBOUR 0
  let s := { s with net := { s.net with rnd := { s.net.rnd with running := false, holdTill := none, wanted := false },
                                        commit := none, staged := none, heardAt := s.now } }
  s.acquire

/-- The active harbour hears one that ranks higher (R277). -/
def State.demote (s : State) : State := (s.fault 7 0x11 0).leaveHarbour

/-- The part joins a harbour it hears in its listen phase as a standby (R276). -/
def State.joinStandby (s : State) : State :=
  if s.net.listenTill.isSome then
    { s.put FAB_NET_STAT_STANDBY 1 with net := { s.net with listenTill := none, heardAt := s.now } }
  else s

/-- A SOUND frame is held against R258: whether it is taken up, and the state after following its harbour or counting it as
discarded (DEDUCED, log entries 62, 109). -/
def State.soundCheck (s : State) (p : Nat) (f : Frame) : Bool × State :=
  let round := leAt f.payload 0 2
  let term := leAt f.payload 2 2
  let huid := leAt f.payload 4 8
  let t := s.get FAB_TERM_TERM
  let h := s.get64 FAB_HUID_LO
  let bad : Bool × State := (false, s.bump ⟨FAB_PORTn_SCNTm p 4, 0, 32⟩ 1)
  if ¬ isSound f.typ ∨ f.typ = 0x17 ∨ f.payload.length < 12 then bad
  else
    let s := { s with net := { s.net with highTerm := max s.net.highTerm term } }
    if term = t ∧ huid = h then
      (if newerRound round s.net.curRound then (false, s.bump ⟨FAB_PORTn_SCNTm p 4, 0, 32⟩ 1)
      else (true, { s with net := { s.net with heardAt := s.now } }))
    else if ranksAbove term huid t h ∨ (t = 0 ∧ term ≠ 0) then
      let s := if s.isHarbour then s.demote else s
      let s := (s.put FAB_TERM_TERM term).put64 FAB_HUID_LO huid
      let s := (List.range 4).foldl (fun s n => s.put (FAB_PORTn_SND_PARENT n) 0) s
      (true, { s with net := { s.net with curRound := (round + 65535) % 65536, heardAt := s.now, staged := none, commit := none } })
    else (false, s.bump ⟨FAB_PORTn_SCNTm p 4, 0, 32⟩ 1)

/-- A SOUND frame is sent again on every UP fabric Strait but the one it came from. -/
def State.relayFlood (s : State) (p : Nat) (f : Frame) : State :=
  ((s.upPorts 0).filter fun n => n != p).foldl (fun s n => s.sendHop n f.typ f.payload) s

/-- A SOUND frame is sent on to the sounding parent unchanged, and counted; a LINKEV goes on every UP fabric Strait where there is
no parent (R260) (DEDUCED, log entry 108). -/
def State.relayParent (s : State) (f : Frame) (m : Option Nat) : State :=
  let go (s : State) (n : Nat) : State :=
    let s := s.sendHop n f.typ f.payload
    match m with
    | some k => s.bump ⟨FAB_PORTn_SCNTm n k, 0, 32⟩ 1
    | none => s
  match s.parentPort with
  | some n => go s n
  | none => if f.typ = 0x15 then (s.upPorts 0).foldl go s else s

/-! ## Flood and reports -/

/-- The REPORT of an island (Table 10.1). -/
def reportBytes (r : Report) : List Byte :=
  leBytes 8 r.uid ++ leBytes 1 r.depth ++ leBytes 1 r.prev ++ leBytes 1 r.cap ++ leBytes 1 (b2n r.tchg) ++
    ((List.range 4).map fun p =>
      let x := r.strait p
      leBytes 1 x.state ++ leBytes 8 x.peer ++ leBytes 1 x.peerPort ++ leBytes 2 0).flatten

/-- A REPORT read from a payload. -/
def parseReport (l : List Byte) : Report :=
  { uid := leAt l 12 8, depth := byteAt l 20, prev := byteAt l 21, cap := byteAt l 22, tchg := byteAt l 23 != 0,
    ports := (List.range 4).map fun p =>
      { state := byteAt l (24 + 12 * p), peer := leAt l (25 + 12 * p) 8, peerPort := byteAt l (33 + 12 * p) } }

/-- A FLOOD arrives (R259). -/
def State.flood (s : State) (p : Nat) (f : Frame) : State :=
  let (ok, s) := s.soundCheck p f
  if ¬ ok then s
  else
    let s := s.joinStandby.bump ⟨FAB_PORTn_SCNTm p 0, 0, 32⟩ 1
    let round := leAt f.payload 0 2
    if s.isHarbour || !newerRound s.net.curRound round then s
    else
      let d := byteAt f.payload 12 + 1
      let s := (List.range 4).foldl (fun s n => s.putB (FAB_PORTn_SND_PARENT n) (n == p)) s
      let s := ((s.put FAB_NET_STAT_SND 1).put FAB_NET_STAT_TCHG 0).put FAB_SND_STAT_ROUND round
      let s := { s with net := { s.net with curRound := round, depth := d, staged := none, commit := none } }
      let s := if d ≤ 64 then ((s.upPorts 0).filter fun n => n != p).foldl (fun s n => s.sendSound n 0x10 round (leBytes 1 d)) s
        else s
      s.sendSound p 0x11 round (reportBytes s.ownReport)

/-- A REPORT is taken into the harbour's map (R260, R274). -/
def State.recordReport (s : State) (f : Frame) : State :=
  if s.net.rnd.running ∧ leAt f.payload 0 2 = s.net.rnd.number then
    let r := parseReport f.payload
    let l := s.net.rnd.reports.filter fun x => x.uid != r.uid
    let s := { s with net := { s.net with rnd := { s.net.rnd with reports := l ++ [r], lastReport := s.now } } }
    if r.tchg then s.put FAB_NET_STAT_TCHG 1 else s
  else s

/-! ## Assignment and commit -/

/-- A list of 2-bit Strait indices as the PATH field (Table 10.1). -/
def pathField : List Nat → Nat
  | [] => 0
  | p :: t => p % 4 + 4 * pathField t

/-- The ASSIGN payload after byte 11, with PIDX (Table 10.1). -/
def assignBytes (a : Assign) (pidx : Nat) : List Byte :=
  leBytes 8 a.uid ++ leBytes 1 a.path.length ++ leBytes 1 pidx ++ leBytes 16 (pathField a.path) ++ leBytes 1 a.addr ++
    leBytes 1 a.kind ++ leBytes 1 a.pos ++ leBytes 1 a.depth ++ leBytes 1 a.upstream ++ leBytes 1 a.bcast ++
    leBytes 1 a.dlport ++ leBytes 1 a.unset ++ leBytes 4 a.cway ++ a.rt

/-- An ASSIGN read from a payload. -/
def parseAssign (l : List Byte) : Assign :=
  { uid := leAt l 12 8, path := (List.range (byteAt l 20)).map fun j => fieldOf (leAt l 22 16) (2 * j) 2, addr := byteAt l 38,
    kind := byteAt l 39, pos := byteAt l 40, depth := byteAt l 41, upstream := byteAt l 42, bcast := byteAt l 43,
    dlport := byteAt l 44, unset := byteAt l 45, cway := leAt l 46 4, rt := l.drop 50 }

/-- The ASSIGN of an island leaves the harbour on the first Strait of its path (R262). -/
def State.sendAssign (s : State) (a : Assign) : State :=
  match a.path with
  | n :: _ => s.sendSound n 0x12 s.net.rnd.number (assignBytes a 1)
  | [] => s

/-- A change to the harbour's round. -/
def State.onRound (s : State) (f : RoundSt → RoundSt) : State := { s with net := { s.net with rnd := f s.net.rnd } }

/-- COMMIT is flooded (R263): the first tick at least 16 ticks ahead and at least 2 × (last ACK - first ASSIGN) + 5 ms ahead. -/
def State.floodCommit (s : State) : State :=
  let t : Int := s.ft + 2 * (s.now - s.net.rnd.firstAssign) + 5 * ms
  let k := max (s.tickNo + 16) (-(-(t - s.epoch) / (max 1 s.periodT : Nat))).toNat
  let amax := (s.net.rnd.assigns.map (·.a.addr)).foldl max 0
  let s := (s.upPorts 0).foldl (fun s n => s.sendSound n 0x14 s.net.rnd.number (leBytes 6 k ++ leBytes 1 amax)) s
  let s := (s.onRound fun r => { r with running := false }).put FAB_NET_STAT_SND 2
  { s with net := { s.net with commit := some (k, k) } }

/-- The computed tables of a map are assigned: the harbour stages its own, every island is sent an ASSIGN (R262)
(DEDUCED, log entry 113). -/
def State.beginAssign (s : State) (m : List Report) (marks : List (Nat × Nat)) : State :=
  let c := computeRound m s.net.table s.net.rnd.number marks
  let s := ((s.putB FAB_SND_STAT_TREE (c.topo.kind == 3)).putB FAB_SND_STAT_BEYOND c.beyond).putB FAB_SND_STAT_RELEASED c.released
  let s := (s.putB FAB_SND_STAT_BBEYOND c.bbeyond).put FAB_UNSET_CNT_N (min 255 marks.length)
  let s := (((s.put FAB_TOPO_KIND c.topo.kind).put FAB_TOPO_N m.length).put FAB_TOPO_L c.topo.l).put FAB_TOPO_HPOS c.topo.h
  let others := c.assigns.filter fun a => a.uid != s.uid
  let own := c.assigns.find? fun a => a.uid == s.uid
  let p (a : Assign) : Pending := { a := a, tries := 0, sentAt := s.now, acked := false, absent := false }
  let s := s.onRound fun r => { r with goodMap := some m, assigns := others.map p, firstAssign := s.now }
  let s := { s with net := { s.net with staged := own } }
  let s := others.foldl State.sendAssign s
  if others.isEmpty then s.floodCommit else s

/-- No further round starts for HOLDOFF_S (R274). -/
def State.holdOff (s : State) : State :=
  let hold := s.now + s.getIn FAB_SND_CFG_HOLDOFF_S 1 15 * sec
  s.onRound fun r => { r with holdTill := some hold }

/-- The unsettled ports of the round: those its reports show, and those of the islands recorded as absent (R261, R262). -/
def State.marks (s : State) : List (Nat × Nat) :=
  let r := s.net.rnd
  let lost := ((r.reports.filter fun x => r.gone.contains x.uid).map fun x =>
    ((List.range 4).filter fun p => (x.strait p).state == 1).map fun p => (x.uid, p)).flatten
  (unsettled r.reports ++ lost).eraseDups

/-- The marks of the unsettled ports of an island, as ASSIGN carries them (Table 10.1). -/
def unsetOf (marks : List (Nat × Nat)) (uid : Nat) : Nat := ofBits ((marks.filter fun x => x.1 == uid).map (·.2))

/-- The committed tables are kept, with the ports now unsettled: the harbour marks its own, and the islands whose marks change are sent
their tables again with them, since an ASSIGN is what carries a mark (R274) (DEDUCED, log entry 113). -/
def State.keepTables (s : State) (marks : List (Nat × Nat)) : State :=
  let s := (List.range 4).foldl (fun s n => s.putB (FAB_PORTn_SND_UNSET n) (marks.contains (s.uid, n))) s
  let s := (s.putB FAB_NET_STAT_UNSET (marks.any fun x => x.1 == s.uid)).put FAB_UNSET_CNT_N (min 255 marks.length)
  let l := s.net.tables.map fun a => { a with unset := unsetOf marks a.uid }
  let changed := l.filter fun a => !s.net.tables.contains a
  let s := { s with net := { s.net with tables := l, staged := none } }
  if changed.isEmpty then (s.onRound fun r => { r with running := false }).put FAB_NET_STAT_SND 3
  else
    let p (a : Assign) : Pending := { a := a, tries := 0, sentAt := s.now, acked := false, absent := false }
    changed.foldl State.sendAssign (s.onRound fun r => { r with assigns := changed.map p, firstAssign := s.now })

/-- The ports that stay unsettled are marked, the fault is raised and a holdoff begins; the most recent consistent map is
committed, or the committed tables are kept (R274). -/
def State.settle (s : State) : State :=
  let marks := s.marks
  let s := (((s.put FAB_SND_STAT_UNSET 1).bump FAB_SND_CNT_UNSET 1).fault 7 0x10 0).holdOff
  match s.net.rnd.goodMap with
  | some m => s.beginAssign m marks
  | none => s.keepTables marks

/-- A changed round is not committed: RESTART and the next round, at most four reruns (R274). -/
def State.changedRound (s : State) : State :=
  if s.get FAB_SND_STAT_RERUN < 4 then
    ((s.upPorts 0).foldl (fun s n => s.sendSound n 0x16 s.net.rnd.number []) s).startRound true
  else s.settle

/-- Every ASSIGN has been acknowledged or given up: the round is committed, or rerun if the topology changed (R262, R263,
R274). After the fourth rerun the map is computed again without the islands that are absent. -/
def State.finishAssign (s : State) : State :=
  if ¬ s.net.rnd.running ∨ s.net.rnd.assigns.any (fun p => !p.acked && !p.absent) then s
  else if s.flag FAB_NET_STAT_TCHG ∧ s.net.rnd.holdTill.isNone then s.changedRound
  else if s.net.rnd.assigns.any (·.absent) ∧ s.net.rnd.goodMap.isSome then
    s.beginAssign ((s.net.rnd.goodMap.getD []).filter fun x => !s.net.rnd.gone.contains x.uid) s.marks
  else s.floodCommit

/-- When the collection phase ends (R261), and whether it ends with the map open. -/
def State.closeAt (s : State) : Nat × Bool :=
  let r := s.net.rnd
  let limit := r.floodAt + s.getIn FAB_SND_CFG_ROUND_MS 100 4000 * ms
  let quiet := r.lastReport + s.getIn FAB_SND_CFG_QUIET_MS 2 255 * ms
  if closedMap r.reports then (min quiet limit, false) else (limit, true)

/-- The harbour closes the collection phase (R261, R262, R274). -/
def State.closeCollection (s : State) : State :=
  let r := s.net.rnd
  if ¬ s.isHarbour ∨ ¬ r.running ∨ ¬ r.assigns.isEmpty then s
  else
    let (t, open_) := s.closeAt
    let s := s.reach t
    let s := if open_ then s.put FAB_NET_STAT_TCHG 1 else s
    let good := !open_ && (unsettled s.net.rnd.reports).isEmpty
    let s := if good then s.onRound fun r => { r with goodMap := some r.reports } else s
    if good ∧ ¬ s.flag FAB_NET_STAT_TCHG then s.beginAssign s.net.rnd.reports [] else s.changedRound

/-- An ASSIGN arrives: it is relayed along its path, or staged and acknowledged (R262). -/
def State.takeAssign (s : State) (p : Nat) (f : Frame) : State :=
  let (ok, s) := s.soundCheck p f
  if ¬ ok ∨ s.isHarbour then s
  else
    let l := f.payload
    let plen := byteAt l 20
    let pidx := byteAt l 21
    if pidx < plen ∧ l.length = 291 then
      let n := fieldOf (leAt l 22 16) (2 * pidx) 2
      (s.sendHop n f.typ (l.take 21 ++ leBytes 1 (pidx + 1) ++ l.drop 22)).bump ⟨FAB_PORTn_SCNTm n 2, 0, 32⟩ 1
    else
      let a := parseAssign l
      let st := if l.length ≠ 291 then 2 else if a.uid ≠ s.uid then 1 else 0
      let s := if st = 0 then { s with net := { s.net with staged := some a } } else s
      let ack := leBytes 8 s.uid ++ leBytes 1 a.addr ++ leBytes 4 (crc32c a.rt) ++ leBytes 1 st
      match s.parentPort with
      | some n => s.sendSound n 0x13 s.net.curRound ack
      | none => s

/-- An ACK arrives at the harbour (R262, Table 10.1). -/
def State.takeAck (s : State) (f : Frame) : State :=
  let l := f.payload
  if s.net.rnd.running ∧ leAt l 0 2 = s.net.rnd.number ∧ byteAt l 25 = 0 then
    (s.onRound fun r =>
      { r with assigns := r.assigns.map fun p =>
          if p.a.uid = leAt l 12 8 ∧ crc32c p.a.rt = leAt l 21 4 then { p with acked := true } else p }).finishAssign
  else s

/-- A COMMIT arrives (R263); it is relayed, and a late one installs at the next tick boundary. -/
def State.takeCommit (s : State) (p : Nat) (f : Frame) : State :=
  let (ok, s) := s.soundCheck p f
  if ¬ ok || s.isHarbour || s.get FAB_NET_STAT_SND != 1 then s
  else
    let k := leAt f.payload 12 6
    let late := decide (s.sampleAt k ≤ s.ft)
    let s := (s.relayFlood p f).put FAB_NET_STAT_SND 2
    let s := if late then s.bump FAB_SND_CNT_LATE 1 else s
    { s with net := { s.net with commit := some (k, if late then s.tickNo + 1 else k) } }

/-- A RESTART arrives: what was staged for the round is discarded (Table 10.1, R274). -/
def State.takeRestart (s : State) (p : Nat) (f : Frame) : State :=
  let (ok, s) := s.soundCheck p f
  if ¬ ok || s.isHarbour || s.get FAB_NET_STAT_SND == 0 then s
  else
    let s := (s.relayFlood p f).put FAB_NET_STAT_SND 0
    { s with net := { s.net with staged := none, commit := none } }

/-! ## The snapshot plan (R54, R117) -/

/-- The harbour's own agents have one word of an island to read or to write by remote access (Table 10.3, R279)
(DEDUCED, log entries 113, 118). -/
def State.harbourAsk (s : State) (dst a op : Nat) (data : List Byte) : State :=
  let t := s.net.tags % 2 ^ 15
  let pay := leBytes 2 t ++ leBytes 1 op ++ leBytes 1 1 ++ leBytes 4 a ++ data
  let f : Frame := { dst := dst, src := 0, typ := 0x20, cls := 1, vc := 0, hops := 0, seq := 0, payload := pay }
  let r : RaSlot := { frame := f, startAt := s.now, sentAt := s.now, sends := 0, addr := a, len := 4, got := [], base := 0 }
  { s with net := { s.net with tags := s.net.tags + 1, auto := s.net.auto ++ [r] } }

/-- The harbour's own agents have to write one word on an island (DEDUCED, log entries 113, 118). -/
def State.harbourWrite (s : State) (dst a w : Nat) : State := s.harbourAsk dst a 1 (leBytes 4 w)

/-- CMF_SNAP_CFG of address `a` as the harbour knows it: its own, what it has read from the island, and until then its own word
(R54; DEDUCED, log entry 114). -/
def State.snapWord (s : State) (a : Nat) : Nat :=
  if a = 0 then s.rdN CMF_SNAP_CFG
  else ((s.net.snapCfg.find? fun x => x.1 == a).map (·.2)).getD (s.rdN CMF_SNAP_CFG)

/-- The entry of the committed table of address `a` for the destination `d` (Table 10.10). -/
def State.tableByte (s : State) (a d : Nat) : Nat :=
  if a = 0 then s.rdN (FAB_RTd d) else ((s.net.tables.find? fun x => x.addr == a).map fun x => byteAt x.rt d).getD 0

/-- The directed Straits, address and Strait, that a frame for `d` crosses from address `a` on (R54, R271): at most `k`
(DEDUCED, log entry 114). -/
def State.planRoute (s : State) (d : Nat) : Nat → Nat → List (Nat × Nat)
  | 0, _ => []
  | k + 1, a =>
    let b := s.tableByte a d
    if a = d ∨ ¬ bitOf b 2 ∨ bitOf b 4 then []
    else (a, b % 4) :: s.planRoute d k (fieldOf (s.rdN (FAB_MAPa a)) (8 * (b % 4)) 8)

/-- The addresses of the archipelago as committed. -/
def State.isles (s : State) : List Nat := 0 :: s.net.tables.map (·.addr)

/-- The directed Straits the snapshots of every address cross, each with the address (R54); what goes to the host leaves on the
host-facing Strait (R255) (DEDUCED, log entry 114). -/
def State.planCrossed (s : State) : List ((Nat × Nat) × Nat) :=
  let one (a : Nat) : List ((Nat × Nat) × Nat) :=
    let d := CMF_SNAP_CFG_DEST.ofWord (s.snapWord a)
    let host : List (Nat × Nat) := if d = 0 then ((s.exitPort 0 0x01).map fun n => (0, n)).toList else []
    (host ++ s.planRoute d 64 a).map fun x => (x, a)
  (s.isles.map one).flatten

/-- The first directed Strait of the archipelago whose snapshot load exceeds 80 % at period `p` (R53, R54), with the load in
permille: with `d` imposed on every island, or else with what is imposed on each. The host-facing Strait carries a reserve of 1.6 slots
per µs. Every island is charged with its own snapshot configuration (DEDUCED, log entry 114). -/
def State.planFails (s : State) (p : Nat) (d : Option Nat) : Option (Nat × Nat) :=
  let key (a : Nat) : Nat := max 1 (CMF_SNAP_CFG_KEY.ofWord (s.snapWord a))
  let den := 64 * 10 * (s.isles.map key).foldl Nat.lcm 1
  let slots (a : Nat) : Nat := snapSlots (s.snapWord a) (d.getD (CMF_SNAP_CFG_DECIM_IMP.ofWord (s.snapWord a))) den
  let l := s.planCrossed
  let host := s.hostPort
  let load (x : Nat × Nat) : Nat :=
    sumN ((l.filter fun y => y.1 == x).map fun y => slots y.2) + (if x.1 = 0 ∧ host = some x.2 then 16 * p * den / 10 else 0)
  ((l.map (·.1)).eraseDups.find? fun x => decide (8 * 50 * p * den < 10 * load x)).map fun x => (x.2, rdivN (1000 * load x) (50 * p * den))

/-- Decimation 2^d is imposed on every island (R54): each keeps the other fields of its CMF_SNAP_CFG. -/
def State.imposeDecim (s : State) (d : Nat) : State :=
  let word (a : Nat) : Nat := withField (s.snapWord a) CMF_SNAP_CFG_DECIM_IMP.lo CMF_SNAP_CFG_DECIM_IMP.width d
  let l := (s.net.tables.map (·.addr)).map fun a => (a, word a)
  let s := { s.put CMF_SNAP_CFG_DECIM_IMP d with net := { s.net with snapCfg := l } }
  l.foldl (fun s x => s.harbourWrite x.1 CMF_SNAP_CFG x.2) s

/-- The snapshot plan of the archipelago is checked (R54): a refused one leaves the plan before it in force, or without one
imposes the smallest decimation that passes (DEDUCED, log entry 114). -/
def State.snapshotPlan (s : State) (p : Nat) : State :=
  match s.planFails p none with
  | none => { s with net := { s.net with planOk := true } }
  | some (n, load) =>
    let s := s.wrN MGT_ADMIT_CODE (admitWord (4, n, load))
    if s.net.planOk then s
    else s.imposeDecim (((List.range 7).find? fun d => (s.planFails p (some d)).isNone).getD 6)

/-- The active harbour asks for the period `p` (R56). The answers of the other islands are not commands of the table: the
address of one that refuses, if any, is free (DESIGN CHOICE, log entry 38). Where the snapshot plan fails at the new period and
one is admitted, that plan stays and the change is dropped (DEDUCED, log entries 128, 217). -/
def State.askPeriod (s : State) (p : Nat) : State :=
  let (a, s) := s.fresh 8
  let refused := s.net.table.any fun e => e.addr == a.toNat && e.state == 1 && e.addr != 0
  let r := s.admission p
  if refused then s.wrN MGT_ADMIT_CODE (7 + a.toNat * 256)
  else if r.1 = 5 then s.wrN MGT_ADMIT_CODE (admitWord r)
  else if r.1 ≠ 0 then s.wrN MGT_ADMIT_CODE 7
  else if (s.planFails p none).isSome ∧ s.net.planOk then s.snapshotPlan p
  else
    let s := s.snapshotPlan p
    let k := s.tickNo + 1 + max 16 (cdivN 10000 s.period)
    { s.put TMG_STAT_PCHG_PEND 1 with tick := { s.tick with pchg := some (k, p) } }

/-- The harbour asks for the period of its own configuration where another one is in force (R35, R56), once a change that is announced
has been made. -/
def State.ownPeriod (s : State) : State :=
  let p := s.get TMG_PERIOD_P_US
  if s.tick.pchg.isSome then s
  else
    let s := { s with tick := { s.tick with askDue := false } }
    if s.isHarbour ∧ p ≠ s.period then s.askPeriod p else s

/-- CSI_IMP_PLAN of an address (R117). -/
def planWord (l2 amax a : Nat) : Nat :=
  let n := 2 ^ l2
  a % n + l2 * 16 + a / n % 256 * 256 + cdivN (amax + 1) n % 256 * 65536

/-- The harbour writes CSI_IMP_PLAN on every island, takes its own, and reads CSI_IMP_STAT of each to compare its table (R117, R118,
R263) (DEDUCED, log entry 236), and CMF_SNAP_CFG for the snapshot plan (R54; DEDUCED, log entry 114). -/
def State.writePlans (s : State) (l : List Nat) : State :=
  let l2 := s.getIn CSI_IMP_PLAN_SLOTS_L2 0 4
  let amax := l.foldl max 0
  let s := s.takePlan (planWord l2 amax 0)
  let s := l.foldl (fun s a => s.harbourWrite a CSI_IMP_PLAN (planWord l2 amax a)) s
  l.foldl (fun s a => (s.harbourAsk a CSI_IMP_STAT 0 []).harbourAsk a CMF_SNAP_CFG 0 []) s

/-! ## Installation -/

/-- An island in FAB_POS layout (Table 10.6); the upstream Strait is the PORT of the entry for 0x00 (R264). -/
def posWord (a : Assign) (harbour : Bool) : Nat :=
  a.pos % 256 + a.depth % 128 * 256 + (if harbour then 0 else byteAt a.rt 0 % 4 * 2 ^ 16 + 2 ^ 18) + a.dlport % 4 * 2 ^ 20 +
    a.dlport / 4 % 2 * 2 ^ 22

/-- The destinations to which a table routes on Strait `n` (Table 10.10). -/
def routedOn (rt : List Byte) (n : Nat) : List Nat :=
  (List.range 241).filter fun d => let b := byteAt rt d; bitOf b 2 && !bitOf b 4 && b % 4 == n

/-- The harbour's position in a ladder of length `l`, from the island's own, the length of its route A and the number of islands that its
upstream Strait leads to; `plus` decides where both sides fit (Table 10.6, R266, R271, R272; DESIGN CHOICE, log entry 30). -/
def ladderHarbour (a : Assign) (l : Nat) (plus : Bool) : Nat :=
  let p := a.pos % 128
  let x := fieldOf a.cway 8 6 - a.pos / 128
  let k := (routedOn a.rt (byteAt a.rt 0 % 4)).length
  if x = 0 then p
  else if p < x then p + x
  else if l ≤ p + x then p - x
  else if k = 2 * (l - 1 - p) ∧ k = 2 * p then (if plus then p + x else p - x)
  else if k = 2 * (l - 1 - p) then p + x
  else p - x

/-- FAB_TOPO on an island: an ASSIGN carries KIND only, the rest follows from its table, which has an entry for every island of the map,
and its position (Table 10.6; DESIGN CHOICE, log entry 30). -/
def State.islandTopo (s : State) (a : Assign) : State :=
  let n := ((List.range 241).filter fun d => bitOf (byteAt a.rt d) 2).length
  let (x, s) := s.fresh 1
  let l := if a.kind = 1 then n else if a.kind = 2 then n / 2 else 0
  let h := if a.kind = 2 then ladderHarbour a l (x == 1) else 0
  (((s.put FAB_TOPO_KIND a.kind).put FAB_TOPO_N n).put FAB_TOPO_L l).put FAB_TOPO_HPOS h

/-- The staged contents are installed (R263): address, routing table, positions, broadcast ports, causeway routes. The neighbour behind
a settled Strait is one of the islands to which its table routes there; which one, where there are several, it has no way to learn
(Table 10.6; DESIGN CHOICE, log entry 30). -/
def State.installTables (s : State) (a : Assign) : State :=
  let h := s.isHarbour
  let s := (List.range 241).foldl (fun s d => s.wrN (FAB_RTd d) (byteAt a.rt d &&& 0xF7)) s
  let s := ((s.put FAB_NET_STAT_ADDR a.addr).put FAB_NET_STAT_ASSIGNED 1).put FAB_NET_STAT_ROUND s.net.curRound
  let s := (s.put FAB_NET_STAT_EDITED 0).putB FAB_NET_STAT_UNSET (a.unset % 16 != 0)
  let s := ((s.wrN FAB_POS (posWord a h)).wrN FAB_BCAST (a.bcast % 8 + a.bcast / 16 % 16 * 16)).wrN FAB_CWAY_RT (a.cway &&& 0x3F073F03)
  let s := if h then s else s.islandTopo a
  let ring (n : Nat) : Bool := a.kind == 1 && a.rt.any fun b => bitOf b.toNat 2 && !bitOf b.toNat 4 && b.toNat % 4 == n
  let pair := (s.net.rnd.assigns.find? fun x => x.a.pos % 128 == a.pos % 128 && x.a.pos / 128 != a.pos / 128).map (·.a.addr)
  let rung (n : Nat) : Bool := a.kind == 2 && (if h then pair.any fun d => n == byteAt a.rt d % 4 else n == s.rungPort)
  let s := (List.range 4).foldl
    (fun s n =>
      let s := ((s.putB (FAB_PORTn_SND_UNSET n) (bitOf a.unset n)).putB (FAB_PORTn_SND_BCHILD n) (bitOf (a.bcast / 16) n))
      let s := (s.putB (FAB_PORTn_SND_RING n) (ring n)).putB (FAB_PORTn_SND_RUNG n) (rung n)
      let near := routedOn a.rt n
      if s.up n && s.role n == 0 && !bitOf a.unset n && !near.isEmpty then
        (let (x, s) := s.fresh 8
        s.put (FAB_PORTn_SND_PEER_ADDR n) (near.getD (x.toNat % near.length) 0xFE))
      else s.put (FAB_PORTn_SND_PEER_ADDR n) 0xFE) s
  { s with net := { s.net with prev := if a.addr = 0 then s.net.prev else a.addr } }

/-- The upstream Strait follows the entry for 0x00 (R264): a new one passes through ACQUIRE. -/
def State.followUpstream (s : State) (was : Option Nat) (a : Assign) : State :=
  let n := byteAt a.rt 0 % 4
  let s := (List.range 4).foldl (fun s k => s.putB (FAB_PORTn_STAT_UPSTREAM k) (k == n)) (s.put TMG_STAT_UPSTREAM n)
  if was = some n then s else s.acquire

/-- What the harbour records at a commit: address table (R268, R269), FAB_MAPa and FAB_POSa, neighbours' addresses. -/
def State.harbourRecord (s : State) (own : Assign) : State :=
  let r := s.net.rnd
  let all := own :: (r.assigns.filter fun p => !p.absent).map (·.a)
  let m := r.goodMap.getD []
  let t := all.foldl (fun t a => if a.addr = 0 then t else giveAddress t a.uid a.addr s.net.curRound) s.net.table
  let hold := s.now + s.getIn FAB_ADDR_HOLD_HOLD_S 0 3600 * sec
  let t := t.map fun e => if e.state = 1 ∧ !(all.any fun a => a.uid == e.uid) then { e with state := 2, holdEnd := hold } else e
  let addr (uid : Nat) : Nat := ((all.find? fun a => a.uid == uid).map (·.addr)).getD 0xFF
  let s := { s with net := { s.net with table := t, tables := all.filter fun a => a.addr != 0 } }
  let s := (List.range 241).foldl (fun s a => (s.wrN (FAB_MAPa a) 0).wrN (FAB_POSa a) 0) s
  let peer (uid p : Nat) : Nat := match reportOf m uid with
    | some x => if settledEnd m x p then addr (x.strait p).peer else 0xFF
    | none => 0xFF
  let s := all.foldl
    (fun s a => (s.wrN (FAB_MAPa a.addr) (peer a.uid 0 + peer a.uid 1 * 256 + peer a.uid 2 * 65536 + peer a.uid 3 * 2 ^ 24)).wrN
      (FAB_POSa a.addr) (posWord a (a.addr == 0))) s
  (List.range 4).foldl
    (fun s n => let x := peer own.uid n; s.put (FAB_PORTn_SND_PEER_ADDR n) (if x = 0xFF then 0xFE else x)) s

/-- At S(k_c) the staged tables are installed (R263); afterwards the harbour checks the snapshot plan and writes the impedance
plans, and a part whose address or table changed admits its configuration again (R50); the log records it (Table 15.10)
(DEDUCED, log entry 31). -/
def State.install (s : State) (k : Nat) : State :=
  let was := if s.flag FAB_POS_UPV then some (s.get FAB_POS_UPSTREAM) else none
  let before := (s.get FAB_NET_STAT_ADDR, (List.range 241).map fun d => s.rdN (FAB_RTd d))
  let hold := s.isHarbour && s.net.rnd.holdTill.isSome
  let s := { (s.put FAB_NET_STAT_SND (if hold then 3 else 0)).wrN FAB_COMMIT_TICK k with net := { s.net with commit := none } }
  match s.net.staged with
  | none => s
  | some a =>
    let s := { s with net := { s.net with staged := none } }
    let s := (s.installTables a).logHw 0x27 0x300 s.net.curRound a.addr a.kind
    let s := if s.isHarbour then (s.harbourRecord a).expectCopies k else s.followUpstream was a
    let changed := before != (s.get FAB_NET_STAT_ADDR, (List.range 241).map fun d => s.rdN (FAB_RTd d))
    let s := if changed then (s.admitTasks s.period).2 else s
    if s.isHarbour then
      let s := if hold then s else s.endCond 7 0x10 0
      let s := (s.snapshotPlan s.period).writePlans (s.net.tables.map (·.addr))
      let s := if s.tick.askDue then s.ownPeriod else s
      if s.net.rnd.wanted ∧ ¬ hold then (s.onRound fun r => { r with wanted := false }).newRound else s
    else s

/-! ## The active harbour -/

/-- The configured period comes into force on a part that enters FREE without having been LOCKED: no island has answered it yet,
so that there is none to ask (R35, R56) (DEDUCED, log entry 217). A change of the period is one that R50 admits. -/
def State.takePeriod (s : State) : State :=
  let p := s.getIn TMG_PERIOD_P_US 100 1000000
  if p = s.period then s.put TMG_STAT_NB (nbOf p) else s.newPeriod p

/-- "Holdover exceeded" ends, whichever Strait was the upstream one when it was raised (R45, Table 12.1). -/
def State.endHoldover (s : State) : State := (List.range 4).foldl (fun s n => s.endCond 1 0x12 n) s

/-- The part becomes the active harbour (R276): the next TERM, address 0x00, fabric time in FREE, a round. One that was LOCKED
keeps the period in force, carries out a change that was announced, as every island does, and asks for its own period once the round has
given it the islands (R35, R56) (DEDUCED, log entry 217). -/
def State.becomeHarbour (s : State) : State :=
  let term := max 1 ((max s.net.highTerm (s.get FAB_TERM_TERM) + 1) % 65536)
  let locked := 2 ≤ s.get TMG_STAT_STATE
  let s := ((s.put FAB_TERM_TERM term).put64 FAB_HUID_LO s.uid).put FAB_NET_STAT_HARBOUR 1
  let s := ((s.put FAB_NET_STAT_STANDBY 0).put FAB_NET_STAT_ADDR 0).put FAB_NET_STAT_ASSIGNED 1
  let s := ((s.put FAB_POS_UPV 0).put TMG_STAT_HARBOUR 1).put TMG_STAT_STATE 0
  let s := (List.range 4).foldl (fun s n => (s.put (FAB_PORTn_SND_PARENT n) 0).put (FAB_PORTn_STAT_UPSTREAM n) 0) s
  let s := (s.put TMG_PATH_OFS_V 0).wrN (FAB_RTd 0) 0x14
  let s := if locked then s else s.takePeriod.startTicks
  let s := { s with tick := { s.tick with running := true, exceeded := false, askDue := locked, pchg := if locked then s.tick.pchg else none },
                    net := { s.net with listenTill := none, highTerm := term, staged := none, commit := none, depth := 0,
                                        tables := [], snapCfg := [], auto := [], planOk := false } }
  let s := (s.putB TMG_STAT_PCHG_PEND s.tick.pchg.isSome).endHoldover
  { s with net := { s.net with rnd := { s.net.rnd with running := false, holdTill := none } } }.newRound

/-- A write of FAB_NET_CTRL (R257, R276, R284): `v` as written (DEDUCED, log entry 111). ATCLR holds nothing, so a 1 written to it
outside SERVICE changes no field and is ignored without a record (R12; DESIGN CHOICE, log entry 216). -/
def State.writeNetCtrl (s : State) (i : Initiator) (v : Word) : State :=
  let s := if bitOf v.toNat 0 ∧ s.isHarbour ∧ s.net.rnd.holdTill.isNone ∧ ¬ s.net.rnd.running then s.wantRound else s
  let s := if bitOf v.toNat 1 ∧ i = .remoteHost ∧ s.flag FAB_NET_STAT_STANDBY then s.becomeHarbour else s
  if bitOf v.toNat 2 ∧ s.mode = 4 then { s with net := { s.net with table := [] } } else s

/-! ## Rows -/

/-- SOUND frames are the link engines' work: with both fenced nothing is done with one (R257). -/
def State.ifSound (s : State) (f : State → State) : State := if s.soundable then f s else s

/-- NET_SOUND (R257): accepted on the active harbour only; no round starts during the holdoff. -/
def execNetSound (i : Initiator) (v : Word) (s : State) : Outcome :=
  .next (s.writeRow i FAB_NET_CTRL fun s => s.writeNetCtrl i (v ||| 1))

/-- SOUND_FLOOD (R259). -/
def execSoundFlood (p : Fin 4) (f : Frame) (s : State) : Outcome := .next ((s.takeInbox f).ifSound fun s => s.flood p f)

/-- SOUND_REPORT (R260). -/
def execSoundReport (p : Fin 4) (f : Frame) (s : State) : Outcome :=
  let (ok, s) := (s.takeInbox f).soundCheck p f
  .next (if ¬ ok ∨ ¬ s.soundable then s else if s.isHarbour then s.recordReport f else s.relayParent f (some 1))

/-- COLLECTION_CLOSE (R261). -/
def execCollectionClose (s : State) : Outcome := .next (s.ifSound State.closeCollection)

/-- SOUND_ASSIGN (R262). -/
def execSoundAssign (p : Fin 4) (f : Frame) (s : State) : Outcome := .next ((s.takeInbox f).ifSound fun s => s.takeAssign p f)

/-- SOUND_ACK (R262). -/
def execSoundAck (p : Fin 4) (f : Frame) (s : State) : Outcome :=
  let (ok, s) := (s.takeInbox f).soundCheck p f
  .next (if ¬ ok ∨ ¬ s.soundable then s else if s.isHarbour then s.takeAck f else s.relayParent f none)

/-- ASSIGN_TIMEOUT (R262): resent up to three times, then the island is absent and the round counts as changed. -/
def execAssignTimeout (addr : Fin 256) (s : State) : Outcome :=
  match (if s.soundable then s.net.rnd.assigns.find? fun p => p.a.addr == addr.val && !p.acked && !p.absent else none) with
  | none => .next s
  | some p =>
    let s := s.reach (p.sentAt + s.getIn FAB_SND_CFG_ACK_MS 5 255 * ms)
    let set (q : Pending) : State :=
      s.onRound fun r => { r with assigns := r.assigns.map fun x => if x.a.uid = p.a.uid then q else x }
    if p.tries < 3 then .next ((set { p with tries := p.tries + 1, sentAt := s.now }).sendAssign p.a)
    else
      let s := ((set { p with absent := true }).onRound fun r => { r with gone := p.a.uid :: r.gone }).put FAB_NET_STAT_TCHG 1
      .next (s.put FAB_UNSET_CNT_N (min 255 s.marks.length)).finishAssign

/-- SOUND_COMMIT (R263). -/
def execSoundCommit (p : Fin 4) (f : Frame) (s : State) : Outcome := .next ((s.takeInbox f).ifSound fun s => s.takeCommit p f)

/-- TABLE_INSTALL (R263). -/
def execTableInstall (s : State) : Outcome :=
  match s.net.commit with
  | some (k, at_) => .next ((s.reachFt (s.sampleAt at_)).install k)
  | none => .next s

/-- SOUND_LINKEV (R274) (DEDUCED, log entries 31, 108, 109). -/
def execSoundLinkev (p : Fin 4) (f : Frame) (s : State) : Outcome :=
  let (ok, s) := (s.takeInbox f).soundCheck p f
  .next (if ¬ ok ∨ ¬ s.soundable then s else if s.isHarbour then s.wantRound else s.relayParent f (some 3))

/-- SOUND_RESTART (R274). -/
def execSoundRestart (p : Fin 4) (f : Frame) (s : State) : Outcome := .next ((s.takeInbox f).ifSound fun s => s.takeRestart p f)

/-- SOUNDING_HOLDOFF_END (R274). -/
def execSoundingHoldoffEnd (s : State) : Outcome :=
  match s.net.rnd.holdTill with
  | none => .next s
  | some t =>
    let s := s.reach t
    let w := s.net.rnd.wanted
    let s := (s.onRound fun r => { r with holdTill := none, wanted := false })
    let s := if s.get FAB_NET_STAT_SND = 3 then s.put FAB_NET_STAT_SND 0 else s
    .next (if w then s.wantRound else s)

/-- ADDRESS_HOLD_EXPIRY (R269). -/
def execAddressHoldExpiry (addr : Fin 256) (s : State) : Outcome :=
  match s.net.table.find? fun e => e.addr == addr.val && e.state == 2 with
  | some e =>
    let s := s.reach e.holdEnd
    .next { s with net := { s.net with table := s.net.table.filter fun x => x.addr != e.addr } }
  | none => .next s

/-- ADDRESS_TABLE_CLEAR (R284). -/
def execAddressTableClear (i : Initiator) (v : Word) (s : State) : Outcome :=
  .next (s.writeRow i FAB_NET_CTRL fun s => s.writeNetCtrl i (v ||| 4))

/-- HARBOUR_LISTEN_END (R276). -/
def execHarbourListenEnd (s : State) : Outcome :=
  match s.net.listenTill with
  | some t => .next (s.reach t).becomeHarbour
  | none => .next s

/-- NET_TAKEOVER (R276) (DEDUCED, log entry 119). -/
def execNetTakeover (i : Initiator) (v : Word) (s : State) : Outcome :=
  .next (s.writeRow i FAB_NET_CTRL fun s => s.writeNetCtrl i (v ||| 2))

/-- HARBOUR_LOSS (R276). -/
def execHarbourLoss (s : State) : Outcome :=
  if s.flag FAB_NET_STAT_STANDBY && s.flag FAB_NET_CFG_AUTO then
    .next (s.reach (s.net.heardAt + s.getIn FAB_HBR_CFG_LOSS_MS 2 1000 * ms)).becomeHarbour
  else .next s

end Sys2Proof.Machine
end

