-- ==== Sys2Proof/Machine/Remote.lean ====
section
/-! DEFINITION. Remote access (R278 to R281): the local requester's slots, and memory-read streams. The agent that performs the
words of an RA_REQ stands in Bus.lean. -/

namespace Sys2Proof.Machine

/-! ## The requester -/

/-- The slot of the local requester. -/
def State.slot (s : State) (k : Nat) : Option RaSlot := vget s.net.slots k none

/-- A slot given a value. -/
def State.setSlot (s : State) (k : Nat) (x : Option RaSlot) : State :=
  { s with net := { s.net with slots := vset s.net.slots k x } }

/-- Requests outstanding toward a destination (R279). -/
def State.outstanding (s : State) (dst : Nat) : Nat :=
  (s.net.slots.toList.filter fun x => x.any fun r => r.frame.dst == dst && r.sends != 0).length +
    (s.net.auto.filter fun r => r.frame.dst == dst && r.sends != 0).length

/-- A request leaves: an island without an address originates none (R251). -/
def State.request (s : State) (f : Frame) : State := if s.flag FAB_NET_STAT_ASSIGNED then s.inject f false else s

/-- A slot sends its request for the first time, with the next SEQ (R225, R279). -/
def State.slotSend (s : State) (k : Nat) (r : RaSlot) : State :=
  let (q, s) := s.nextSeq r.frame.dst r.frame.cls
  let f := { r.frame with seq := q, src := s.get FAB_NET_STAT_ADDR }
  let s := s.setSlot k (some { r with frame := f, sentAt := s.now, sends := 1 })
  ((s.put (FAB_RASs_STAT_SENT k) 1).put (FAB_RASs_SEQ_SEQ k) q).request f

/-- Slots that waited for the window of their destination send (R279). -/
def State.slotPump (s : State) : State :=
  (List.range 16).foldl
    (fun s k =>
      match s.slot k with
      | some r => if r.sends = 0 ∧ s.outstanding r.frame.dst < s.getIn FAB_RA_CFG_WIN 1 4 then s.slotSend k r else s
      | none => s) s

/-- A slot completes with a status (R281). -/
def State.slotDone (s : State) (k code words : Nat) : State :=
  let t := ((s.slot k).map (·.startAt)).getD s.now
  let s := ((s.put (FAB_RASs_STAT_STATE k) 2).put (FAB_RASs_STAT_CODE k) code).put (FAB_RASs_STAT_DONE_WORDS k) (min 127 words)
  let s := (s.put (FAB_RASs_LAT_US k) (min (2 ^ 20 - 1) ((s.now - t) / us))).putBit FAB_RA_STAT_BUSY k false
  (s.setSlot k none).slotPump

/-- The Lagoon offset of a slot's buffer, 64-byte aligned (Table 10.6). -/
def State.slotBuf (s : State) (k : Nat) : Nat := s.rdN (FAB_RASs_BUF k) / 64 * 64

/-- How the requester's write of `n` bytes at Lagoon offset `o` ends (R415, R443): the requester writes as the remote access agent, and
what it writes is no privileged request (DEDUCED, log entry 248). -/
def State.storeCode (s : State) (o n : Nat) : Ended :=
  if 48 * 2 ^ 20 < o + n then 4
  else if ¬ (s.lagoonGrants .remoteOther (lagoon + o) ∧ s.lagoonGrants .remoteOther (lagoon + (o + (n - 1)))) then 3
  else if s.domOn 8 then 0 else 1

/-- Data received for a slot are stored in its buffer where a window grants it; otherwise the access ends as a refused one, and its
code completes the slot (R415, Table 10.4; DEDUCED, log entry 248). -/
def State.slotStore (s : State) (k off : Nat) (l : List Byte) : Ended × State :=
  let o := s.slotBuf k + off
  let c := s.storeCode o l.length
  if c = 0 then (0, s.memPut (lagoon + o) l)
  else if c = 1 then (1, s)
  else
    let s := if c = 3 then s.countRefused (lagoon + o) else s
    (c, s.busError (ownerOf (lagoon + o)) .remoteOther 1 (lagoon + o))

/-- The request of a slot (Table 10.3, R280). -/
def State.slotFrame (s : State) (k tag : Nat) : Frame :=
  let op := s.get (FAB_RASs_CTRL_OP k)
  let n := s.getIn (FAB_RASs_CTRL_COUNT k) 1 126
  let a := s.rdN (FAB_RASs_ADDR k)
  let w := s.rdN (FAB_RASs_WDATA k)
  let typ := if op = 2 then 0x30 else 0x20
  let data := if op = 1 then (if n = 1 then leBytes 4 w else s.memBytes (lagoon + s.slotBuf k) (4 * n)) else []
  let pay := if op = 2 then leBytes 2 tag ++ leBytes 2 0 ++ leBytes 4 a ++ leBytes 4 w
    else leBytes 2 tag ++ leBytes 1 (b2n (op = 1)) ++ leBytes 1 n ++ leBytes 4 a ++ data
  { dst := s.get (FAB_RASs_CTRL_DST k), src := 0, typ := typ, cls := (typeClass typ).getD 1, vc := 0, hops := 0, seq := 0,
    payload := pay }

/-- A route to a destination exists. -/
def State.hasRoute (s : State) (d : Nat) : Bool :=
  s.flag FAB_NET_STAT_ASSIGNED && decide (d ≤ 0xF0) &&
    (d == s.get FAB_NET_STAT_ADDR || s.flag (FAB_RTd_LOCAL d) || s.flag (FAB_RTd_VALID d))

/-- GO of a slot (R281, Table 10.9): ignored while the slot is waiting; without a route it completes at once with 0x81
(DEDUCED, log entry 118). -/
def State.slotGo (s : State) (k : Nat) : State :=
  if (s.slot k).isSome then s
  else
    let tag := s.net.tags % 2 ^ 15 + 2 ^ 15 * s.get (FAB_RASs_CTRL_HOSTTAG k)
    let s := { s with net := { s.net with tags := s.net.tags + 1 } }
    let f := s.slotFrame k tag
    let s := (s.wrN (FAB_RASs_STAT k) 0).put (FAB_RASs_SEQ_TAG k) tag
    let r : RaSlot := { frame := f, startAt := s.now, sentAt := s.now, sends := 0, addr := s.rdN (FAB_RASs_ADDR k), len := s.rdN (FAB_RASs_WDATA k), got := [], base := 0 }
    let s := ((s.setSlot k (some r)).put (FAB_RASs_STAT_STATE k) 1).putBit FAB_RA_STAT_BUSY k true
    if s.hasRoute f.dst then s.slotPump else s.slotDone k 0x81 0

/-- A write of FAB_RASs_CTRL: the fields are written, and GO is ignored while the slot is waiting (Table 10.9)
(DEDUCED, log entry 118). -/
def State.writeRasCtrl (s : State) (i : Initiator) (k : Nat) (v : Word) : State :=
  let s := s.plainWrite i (FAB_RASs_CTRL k) v.toNat
  if bitOf v.toNat 31 then s.slotGo k else s

/-- The slot whose request a response answers: the same TAG, sent to its source. -/
def State.slotOf (s : State) (f : Frame) (typ : Nat) : Option (Nat × RaSlot) :=
  (List.range 16).findSome? fun k =>
    match s.slot k with
    | some r =>
      if r.sends ≠ 0 ∧ r.frame.typ = typ ∧ frameTag r.frame = frameTag f ∧ r.frame.dst = f.src then some (k, r) else none
    | none => none

/-- An RA_RSP completes its slot (R279, R281) (DEDUCED, log entry 117). -/
def State.slotAnswer (s : State) (f : Frame) : State :=
  match s.slotOf f 0x20 with
  | none => s
  | some (k, r) =>
    let st := byteAt f.payload 2
    let n := byteAt r.frame.payload 3
    let (c, s) : Ended × State :=
      if byteAt r.frame.payload 2 = 0 ∧ st = 0 then
        (if n = 1 then (0, s.wrN (FAB_RASs_RDATA k) (leAt f.payload 8 4)) else s.slotStore k 0 ((f.payload.drop 8).take (4 * n)))
      else (0, s)
    s.slotDone k (if c = 0 then st else c) (byteAt f.payload 3)

/-- The request for the missing range from offset `lo` up to `hi` of a memory read (R280). -/
def State.slotAgain (s : State) (k : Nat) (r : RaSlot) (lo hi : Nat) : State :=
  let p := r.frame.payload.take 4 ++ leBytes 4 (r.addr + lo) ++ leBytes 4 (hi - lo)
  s.slotSend k { r with frame := { r.frame with payload := p }, base := lo }

/-- MEM_RD_DATA arrives at the requester (R280): data are stored at their offset; after the last frame the first missing range is
asked for again. -/
def State.slotData (s : State) (f : Frame) : State :=
  match s.slotOf f 0x30 with
  | none => s
  | some (k, r) =>
    let st := byteAt f.payload 2
    let off := r.base + leAt f.payload 4 4
    let data := f.payload.drop 8
    if st ≠ 0 then s.slotDone k st (rangeSum r.got / 4)
    else
      let (c, s) := s.slotStore k off data
      if c ≠ 0 then s.slotDone k c (rangeSum r.got / 4) else
      let r := { r with got := addRange off (off + data.length) r.got, sentAt := s.now }
      let s := s.setSlot k (some r)
      if byteAt f.payload 3 = 0 then s
      else match firstGap r.len r.got with
        | some (lo, hi) => s.slotAgain k r lo hi
        | none => s.slotDone k 0 (rangeSum r.got / 4)

/-- No response within TMO_MS (R279): the same frame again, or status 0x80. -/
def State.slotTimeout (s : State) (k : Nat) : State :=
  match s.slot k with
  | none => s
  | some r =>
    if r.sends = 0 then s
    else
      let s := s.reach (r.sentAt + s.getIn FAB_RA_CFG_TMO_MS 1 100 * ms)
      if r.sends ≤ s.getIn FAB_RA_CFG_TRIES 0 7 then
        let s := s.setSlot k (some { r with sentAt := s.now, sends := r.sends + 1 })
        ((s.bump FAB_RA_CNT1_RETRY 1).put (FAB_RASs_STAT_SENT k) (min 7 (r.sends + 1))).request r.frame
      else (s.bump FAB_RA_CNT1_TMO 1).slotDone k 0x80 0

/-! ## The harbour's own requests -/

/-- A write that has waited TMO_MS for its answer is sent again or given up; one not sent yet is sent when the window of its
destination has room (R279). -/
def State.autoStep (s : State) (r : RaSlot) : State :=
  let keep (s : State) (r : RaSlot) : State := { s with net := { s.net with auto := s.net.auto ++ [r] } }
  if r.sends = 0 then
    if s.outstanding r.frame.dst < s.getIn FAB_RA_CFG_WIN 1 4 ∧ s.flag FAB_NET_STAT_ASSIGNED then
      let (q, s) := s.nextSeq r.frame.dst r.frame.cls
      let f := { r.frame with seq := q, src := s.get FAB_NET_STAT_ADDR }
      (keep s { r with frame := f, sentAt := s.now, sends := 1 }).request f
    else keep s r
  else if s.now < r.sentAt + s.getIn FAB_RA_CFG_TMO_MS 1 100 * ms then keep s r
  else if r.sends ≤ s.getIn FAB_RA_CFG_TRIES 0 7 then
    ((keep s { r with sentAt := s.now, sends := r.sends + 1 }).bump FAB_RA_CNT1_RETRY 1).request r.frame
  else s.bump FAB_RA_CNT1_TMO 1

/-- The harbour's own requests at a tick boundary (R117, R279) (DEDUCED, log entry 113). -/
def State.autoTick (s : State) : State :=
  if s.isHarbour then s.net.auto.foldl State.autoStep { s with net := { s.net with auto := [] } }
  else { s with net := { s.net with auto := [] } }

/-! ## Memory-read streams -/

/-- An answer of the remote access agent: on the same Strait to a service tool, a host endpoint away from the active harbour, or
a neighbour (R254), otherwise to the source address. An island without an address originates nothing on a fabric Strait, but for the
boot ROM in recovery (R251, R404). -/
def State.answer (s : State) (p : Option (Fin 4)) (dst typ : Nat) (pay : List Byte) : State :=
  match p with
  | some n => if s.role n = 0 ∧ ¬ s.flag FAB_NET_STAT_ASSIGNED ∧ ¬ s.flag MGT_FW_STAT_RECOVERY then s else s.sendHop n typ pay
  | none => s.originate dst typ pay

/-- The Strait on which a request must be answered directly. -/
def State.answerPort (s : State) (p : Fin 4) (f : Frame) : Option (Fin 4) :=
  if f.src = 0xFE ∨ s.role p = 2 ∨ (s.role p = 1 ∧ ¬ s.isHarbour) then some p else none

/-- A range lies wholly in the Lagoon, the lifetime store or the OTP window (R280). -/
def streamRange (a len : Nat) : Bool :=
  a % 4 == 0 && len % 4 == 0 && decide (len ≤ 2 ^ 24) &&
    ((decide (lagoon ≤ a) && decide (a + len ≤ 0x13000000)) || (decide (lifeBase ≤ a) && decide (a + len ≤ 0x21000000)) ||
      (decide (otpBase ≤ a) && decide (a + len ≤ 0x30001000)))

/-- One MEM_RD_DATA frame (R280). -/
def State.streamFrame (s : State) (x : Stream) (status : Nat) (last : Bool) (data : List Byte) : State :=
  s.answer x.port x.dst 0x31 (leBytes 2 x.tag ++ leBytes 1 status ++ leBytes 1 (b2n last) ++ leBytes 4 x.done ++ data)

/-- A MEM_RD_REQ arrives (R280). -/
def State.openStream (s : State) (p : Fin 4) (f : Frame) : State :=
  let a := leAt f.payload 4 4
  let len := leAt f.payload 8 4
  let x : Stream := { dst := f.src, tag := frameTag f, addr := a, len := len, done := 0, port := s.answerPort p f }
  if s.net.streams.any fun y => y.dst == x.dst && y.tag == x.tag && y.port == x.port then s
  else if ¬ streamRange a len then s.streamFrame x 4 true []
  else if lagoon ≤ a ∧ a < 0x13000000 ∧ ¬ s.domOn 8 then s.streamFrame x 1 true []
  else if s.getIn FAB_MEMRD_CFG_MAXS 1 4 ≤ s.net.streams.length then s.streamFrame x 6 true []
  else
    let s := { s with net := { s.net with streams := s.net.streams ++ [x] } }
    s.put FAB_MEMRD_STAT_ACT s.net.streams.length

/-- A stream reads the Lagoon, which is off: it is FENCED (R23). -/
def State.streamFenced (s : State) (x : Stream) : Bool := decide (lagoon ≤ x.addr ∧ x.addr < 0x13000000) && !s.domOn 8

/-- Up to `k` frames of a stream: what is left of it, and the state. One that is FENCED ends with that status (R23). -/
def State.serveStream : Nat → Stream → State → Option Stream × State
  | 0, x, s => (some x, s)
  | k + 1, x, s =>
    if s.streamFenced x then (none, s.streamFrame x 1 true []) else
    let n := min 504 (x.len - x.done)
    let last := decide (x.len ≤ x.done + n)
    let s := s.streamFrame x 0 last (s.memBytes (x.addr + x.done) n)
    if last then (none, s.bump FAB_MEMRD_STAT_DONE 1) else State.serveStream k { x with done := x.done + n } s

/-- Every stream sends its frames of the tick (R280). -/
def State.serveStreams (s : State) : State :=
  let l := s.net.streams
  let s := { s with net := { s.net with streams := [] } }
  let s := l.foldl
    (fun s x =>
      let (r, s) := State.serveStream (s.get FAB_MEMRD_CFG_RATE) x s
      match r with
      | some y => { s with net := { s.net with streams := s.net.streams ++ [y] } }
      | none => s) s
  s.put FAB_MEMRD_STAT_ACT s.net.streams.length

/-- The streams that read the Lagoon end as FENCED when it goes off (R23). -/
def State.fenceStreams (s : State) : State :=
  let hit (x : Stream) : Bool := decide (lagoon ≤ x.addr ∧ x.addr < 0x13000000)
  let l := s.net.streams.filter hit
  let s := { s with net := { s.net with streams := s.net.streams.filter fun x => !hit x } }
  (l.foldl (fun s x => s.streamFrame x 1 true []) s).put FAB_MEMRD_STAT_ACT (s.net.streams.filter fun x => !hit x).length

/-! ## Rows -/

/-- The harbour compares the table identifier that an island reports with its own, and sets or clears the island's PLAN_MIS where it
does not say the same (R118) (DEDUCED, log entry 236). -/
def State.comparePlan (s : State) (r : RaSlot) (f : Frame) : State :=
  let w := leAt f.payload 8 4
  let mis := fieldOf w 16 16 != s.tableId
  if r.addr = CSI_IMP_STAT ∧ byteAt r.frame.payload 2 = 0 ∧ byteAt f.payload 2 = 0 ∧ bitOf w 12 ≠ mis then
    s.harbourWrite f.src CSI_IMP_STAT (4096 * b2n mis)
  else s

/-- The harbour learns the snapshot configuration of an island from the answer to its read, and checks its plan again where that differs
from what it took for it (R54) (DEDUCED, log entry 114). -/
def State.learnSnap (s : State) (r : RaSlot) (f : Frame) : State :=
  if r.addr = CMF_SNAP_CFG ∧ byteAt r.frame.payload 2 = 0 ∧ byteAt f.payload 2 = 0 then
    let w := leAt f.payload 8 4
    let was := s.snapWord f.src
    let s := { s with net := { s.net with snapCfg := (f.src, w) :: s.net.snapCfg.filter fun x => x.1 != f.src } }
    if snapPart was = snapPart w then s else s.snapshotPlan s.period
  else s

/-- The answer to a request of the harbour's own (R279). -/
def State.autoAnswer (s : State) (f : Frame) : State :=
  let own (r : RaSlot) : Bool := r.sends != 0 && frameTag r.frame == frameTag f && r.frame.dst == f.src
  let l := s.net.auto.filter own
  let s := { s with net := { s.net with auto := s.net.auto.filter fun r => !own r } }
  l.foldl (fun s r => (s.comparePlan r f).learnSnap r f) s

/-- RA_RESPONSE (R279) (DEDUCED, log entry 117). -/
def execRaResponse (_p : Fin 4) (f : Frame) (s : State) : Outcome := .next (((s.takeInbox f).autoAnswer f).slotAnswer f)

/-- RA_TIMEOUT (R279). -/
def execRaTimeout (k : Fin 16) (s : State) : Outcome := .next (s.slotTimeout k)

/-- RA_SLOT_GO (R281). -/
def execRaSlotGo (k : Fin 16) (i : Initiator) (v : Word) (s : State) : Outcome :=
  .next (s.writeRow i (FAB_RASs_CTRL k) fun s => s.writeRasCtrl i k (v ||| 0x80000000))

/-- MEM_READ_REQUEST (R280). -/
def execMemReadRequest (p : Fin 4) (f : Frame) (s : State) : Outcome := .next ((s.takeInbox f).openStream p f)

/-- MEM_READ_DATA (R280). -/
def execMemReadData (_p : Fin 4) (f : Frame) (s : State) : Outcome := .next ((s.takeInbox f).slotData f)

end Sys2Proof.Machine
end

