-- ==== Sys2Proof/Machine/Protection.lean ====
section
/-! DEFINITION. PSF (chapter 11): main-path limits at the bank switch, demands withdrawn, safety inputs, arming, outputs and their
off-pulses, lockout. -/

namespace Sys2Proof.Machine

/-- A change to the PSF core's own state. -/
def State.onPsf (s : State) (f : PsfSt → PsfSt) : State := { s with psf := f s.psf }

/-- Run `k` of consecutive ticks. -/
def State.runOf (s : State) (k : Nat) : Nat := vget s.psf.runs k 0

/-- A run goes on, or begins anew; it stays at 65,535. -/
def State.count (s : State) (k : Nat) (hit : Bool) : State :=
  s.onPsf fun p => { p with runs := vset p.runs k (if hit then min 65535 (vget p.runs k 0 + 1) else 0) }

/-! ## Limits at the bank switch (R291 to R293) -/

/-- A main-path limit of cells: source, first channel beyond it, whether all lie inside it less the hysteresis, count. -/
def State.cellLimit (s : State) (src k qt : Nat) (beyond : Option Nat) (inside : Bool) : State :=
  let s := (s.count k beyond.isSome).count (k + 1) inside
  if qt ≤ s.runOf k ∧ beyond.isSome then s.raiseSrc src (beyond.getD 0)
  else if qt ≤ s.runOf (k + 1) ∧ bitOf s.psf.cause src then s.releaseSrc src
  else s

/-- The results of the used channels are compared with the main-path limits (R291). -/
def State.compareCells (s : State) : State :=
  let l := List.range s.cellsN
  let ov : Int := 1000 * s.get PSF_OV_CFG_LIM
  let uv : Int := 1000 * s.get PSF_UV_CFG_LIM
  let ho : Int := 10000 * s.get PSF_OV_CFG_HYST
  let hu : Int := 10000 * s.get PSF_UV_CFG_HYST
  let s := s.cellLimit 2 0 (s.getIn PSF_OV_CFG_QT 1 255) (l.find? fun c => decide (ov ≤ s.cellV c))
    (l.all fun c => decide (s.cellV c ≤ ov - ho))
  s.cellLimit 3 2 (s.getIn PSF_UV_CFG_QT 1 255) (l.find? fun c => decide (s.cellV c ≤ uv))
    (l.all fun c => decide (uv + hu ≤ s.cellV c))

/-- One overcurrent limit in 0.1 A against the current `i` in its direction (R292). -/
def State.currentLimit (s : State) (src k qt lim : Nat) (i : Int × Nat) (sgn : Int) : State :=
  let hit := decide ((lim : Int) * i.2 ≤ sgn * i.1 * 10)
  let low := decide ((i.1.natAbs * 10 : Int) < ((lim : Int) - s.get PSF_OC_QCFG_HYST) * i.2)
  let s := (s.count k hit).count (k + 1) low
  if hit ∧ qt ≤ s.runOf k then s.raiseSrc src 0
  else if qt ≤ s.runOf (k + 1) ∧ bitOf s.psf.cause src then s.releaseSrc src
  else s

/-- The main-path current is compared with the overcurrent limits and, while the cold-charge demand stands, with its limit
(R292, R293). -/
def State.compareCurrent (s : State) : State :=
  let i := s.meas.cur.main
  let s := s.currentLimit 4 4 (max 1 (s.get PSF_OC_QCFG_QCHG)) (s.get PSF_OC_CFG_CHG) i 1
  let s := s.currentLimit 5 6 (max 1 (s.get PSF_OC_QCFG_QDSG)) (s.get PSF_OC_CFG_DSG) i (-1)
  if s.psf.ccd then
    let hit := decide ((s.get PSF_CCHG_CFG_I : Int) * i.2 < i.1 * 10)
    let s := s.count 8 hit
    if hit ∧ max 1 (s.get PSF_CCHG_CFG_QT) ≤ s.runOf 8 then s.raiseSrc 11 (((bitsOf 16 (s.get (limitFld 2))).head?).getD 0) else s
  else s.count 8 false

/-! ## Demands withdrawn -/

/-- The bits of the safety inputs: 13 and 14 by input. -/
def inputSrc (k : Nat) : Nat := 13 + k

/-- How many faults of the input's own stand (R297 to R299). -/
def State.ownFaults (s : State) (k : Nat) : Nat :=
  b2n (s.flag (PSF_SIi_STAT_CHAT k)) + b2n (if k = 0 then s.flag (PSF_SIi_STAT_XFEED 0) else s.flag (PSF_SIi_STAT_RBERR 1))

/-- A fault of the input's own stands (R299). -/
def State.ownFault (s : State) (k : Nat) : Bool := s.ownFaults k != 0

/-- The demand of an input follows its level and its own faults (R296, R299). -/
def State.followInput (s : State) (k : Nat) : State :=
  let open_ := !vget s.psf.closed k false || s.ownFault k || (k == 1 && s.psf.selfCycle.isSome)
  let s := s.putB (PSF_SIi_STAT_DEMAND k) open_
  if open_ then s.raiseSrc (inputSrc k) 0 else s.releaseSrc (inputSrc k)

/-- Source 15 and the fault of an input follow its faults, of which `was` stood before (R297 to R299). -/
def State.followInputFault (s : State) (k was : Nat) : State :=
  let is := s.ownFaults k
  let s :=
    if was < is then
      (s.bump (PSF_SIi_CNT_FLT k) 1 |>.raiseSrc 15 0).faultU 6 0x12 k 0 (s.rdN (PSF_SIi_STAT k))
    else if was != 0 && is == 0 then s.endCond 6 0x12 k
    else s
  let s := if s.ownFault 0 || s.ownFault 1 then s else s.releaseSrc 15
  s.followInput k

/-- CHAT ends once the input has made no transition for one full WIN and reads closed (R299). -/
def State.endChat (s : State) (k : Nat) : State :=
  if s.flag (PSF_SIi_STAT_CHAT k) ∧ vget s.psf.closed k false then
    let last := ((vget s.psf.trans k []).head?).getD 0
    let s := s.reach (last + s.getIn PSF_CHATTER_MAX_WIN 100 60000 * ms)
    (s.putB (PSF_SIi_STAT_CHAT k) false).followInputFault k (s.ownFaults k)
  else s

/-- HOLD has passed since the last accepted HAZARD (R288). -/
def State.hazardQuiet (s : State) : Bool :=
  match s.psf.hazAt with
  | some t => decide (t + s.getIn FAB_HAZ_CFG_HOLD 10 4000 * us ≤ s.now)
  | none => true

/-- A privileged write of PSF_DEM_CLR (R288): latched sources whose causes have released are withdrawn. -/
def State.clearDemands (s : State) (v : Nat) : State :=
  let s := if bitOf v 6 then s.clearTrip else s
  [4, 5, 9, 13, 15, 16, 17, 18].foldl
    (fun s b =>
      if bitOf v b ∧ ¬ bitOf s.psf.cause b ∧ (b ≠ 16 ∨ s.hazardQuiet) then s.withdraw b else s) s

/-- A write of PSF_OFFREQ (R294): any initiator sets, a privileged one clears; CLR acts before SET. -/
def State.writeOffreq (s : State) (i : Initiator) (v : Nat) : State :=
  let s := if bitOf v 1 then s.ifPrivileged i PSF_OFFREQ fun s => s.releaseSrc 19 else s
  if bitOf v 0 then s.raiseSrc 19 0 else s

/-! ## Safety inputs -/

/-- A recognised transition is counted; more than MAX within WIN is chatter (R299). -/
def State.countTransition (s : State) (k : Nat) : State :=
  let win := s.getIn PSF_CHATTER_MAX_WIN 100 60000 * ms
  let l := s.now :: (vget s.psf.trans k []).filter fun t => decide (s.now < t + win)
  let s := (s.onPsf fun p => { p with trans := vset p.trans k l }).bump (PSF_SIi_CNT_TRANS k) 1
  if s.getIn PSF_CHATTER_MAX_MAX 2 255 < l.length ∧ ¬ s.flag (PSF_SIi_STAT_CHAT k) then s.putB (PSF_SIi_STAT_CHAT k) true else s

/-- SI_ILK recognised open and then closed sets ILK_SEEN, and ILKCYC in lockout (R300, R308). -/
def State.ilkLevel (s : State) (closed : Bool) : State :=
  if closed then
    let s := if s.psf.ilkOpen then s.put PSF_STAT_ILK_SEEN 1 else s
    let s := if s.psf.cycOpen ∧ s.flag PSF_STAT_LOCKOUT then s.put PSF_LOCKOUT_STAT_ILKCYC 1 else s
    s.onPsf fun p => { p with ilkOpen := false, cycOpen := false }
  else s.onPsf fun p => { p with ilkOpen := true, cycOpen := true }

/-- The length of each half of a self-cycle (R300). -/
def State.selfTime (s : State) : Nat := s.getIn PSF_ILK_SELFTEST_MS 5 255 * ms

/-- A level recognised during a self-cycle (R300). -/
def State.selfLevel (s : State) (closed : Bool) (t : Nat) : State :=
  s.onPsf fun p =>
    if closed then { p with selfClosed := p.selfClosed || (p.selfOpen && decide (s.now ≤ t + 2 * s.selfTime)) }
    else { p with selfOpen := p.selfOpen || decide (s.now ≤ t + s.selfTime) }

/-- The debounce time of input `k` (Table 11.4). -/
def State.debounce (s : State) (k : Nat) : Nat := s.getIn (PSF_SIi_CFG_DEB k) 1 255 * 100 * us

/-- A loop has held a level for its debounce time, which began no earlier than the last change was recognised (R296, R299, R300)
(DESIGN CHOICE, log entry 60). -/
def State.inputLevel (s : State) (k : Nat) (closed : Bool) : State :=
  let changed := vget s.psf.closed k false != closed
  let s := if changed then s.reach (vget s.psf.levelAt k 0 + s.debounce k) else s
  let was := s.ownFaults k
  let s := (s.onPsf fun p => { p with closed := vset p.closed k closed, levelAt := if changed then vset p.levelAt k s.now else p.levelAt }).putB
    (PSF_SIi_STAT_CLOSED k) closed
  match (if k = 1 then s.psf.selfCycle else none) with
  | some t => s.selfLevel closed t
  | none =>
    let s := if changed then s.countTransition k else s
    let s := if k = 1 ∧ (changed ∨ ¬ closed) then s.ilkLevel closed else s
    s.followInputFault k was

/-- SO_TEST and ILK_SRC feed their loops: not in SHIP, nor before power-on reset is released; they do during a warm reset (R365). -/
def State.loopsFed (s : State) : Bool := !s.mgt.por && s.mode != 0

/-- The inputs are monitored: not in SHIP (Table 11.11). During a dark pulse the debounce of SI_ESTOP does not act (R297). -/
def State.monitored (s : State) (k : Nat) : Bool := s.loopsFed && (k != 0 || s.psf.dark.isNone)

/-- The source and return currents of the interlock loop have differed by more than 2.0 mA for DEB, or have agreed for it as `agree`
says, which began no earlier than the last change (R298). -/
def State.readback (s : State) (agree : Bool) (src ret : Nat) : State :=
  let bad := decide (200 < (max src ret) - (min src ret))
  let was := s.ownFaults 1
  let s := (s.put (PSF_SIi_RB_SRC 1) src).put (PSF_SIi_RB_RET 1) ret
  if bad = agree || bad == s.flag (PSF_SIi_STAT_RBERR 1) then s
  else
    let s := s.reach (s.psf.rbAt + s.debounce 1)
    ((s.onPsf fun p => { p with rbAt := s.now }).putB (PSF_SIi_STAT_RBERR 1) bad).followInputFault 1 was

/-! ## Outputs -/

/-- What the comparison of a feedback pin reads: above its threshold, inverted when FBPOL is set (R304). -/
def State.fbReads (s : State) (o : Nat) (above : Bool) : Bool := above != s.flag (PSF_OUTo_CFG_FBPOL o)

/-- An output's feedback reads on, given which pins lie above their thresholds. -/
def State.fbAny (s : State) (fb : BitVec 3) : Bool := (List.range 3).any fun o => s.fbReads o (bitOf fb.toNat o)

/-- The feedback pins as compared: bit o of `fb` says that the pin of output o lies above its threshold. -/
def State.takeFeedback (s : State) (fb : BitVec 3) : State :=
  (List.range 3).foldl (fun s o => s.putB (PSF_OUTo_STAT_FB o) (s.fbReads o (bitOf fb.toNat o))) s

/-- A pulse of any output is in progress. -/
def State.pulsing (s : State) : Bool := (List.range 3).any fun o => (s.pulseOf o).start.isSome

/-- An ON bit is cleared by a write; its pulse's readback is discarded (Table 11.6). -/
def State.clearOn (s : State) (o : Nat) : State :=
  let s := (s.putBit PSF_OUT_CMD_ON o false).onPsf fun p => { p with onLater := clrBitN p.onLater o }
  if (s.pulseOf o).start.isSome then s.onPulse o fun p => { p with discard := true } else s

/-- An ON bit written 1 by MC (R301, Table 11.6): refused while disarmed or with an off-demand, held back during a pulse. -/
def State.setOn (s : State) (o : Nat) : State :=
  if ¬ s.flag PSF_STAT_ARMED ∨ s.rdN PSF_DEM_STAT ≠ 0 then (s.clearOn o).bump (PSF_OUTo_SWCNT_REF o) 1
  else if s.bit PSF_OUT_CMD_ON o then s
  else if s.pulsing then s.onPsf fun p => { p with onLater := setBitN p.onLater o }
  else s.putBit PSF_OUT_CMD_ON o true

/-- A write of PSF_OUT_CMD (R301). -/
def State.writeOutCmd (s : State) (i : Initiator) (v : Nat) : State :=
  let on := v % 8
  let off := v / 16 % 8
  let s :=
    if isMC i then
      (List.range 3).foldl
        (fun s o => if bitOf off o then s.clearOn o else if bitOf on o then s.setOn o else s.clearOn o) s
    else
      let s := if (List.range 3).any fun o => bitOf on o && !s.bit PSF_OUT_CMD_ON o then s.refuseRight 6 i PSF_OUT_CMD else s
      (bitsOf 3 off).foldl State.clearOn s
  s.showOuts

/-- The output fault of R304 and the failed pulse of R305: source 20, lockout, the contained fault. -/
def State.outputFault (s : State) (o cause : Nat) : State :=
  let s := (s.raiseSrc 20 o).lockoutEnter cause o
  s.faultU 6 0x13 o (s.rdN (PSF_OUTo_FLT o)) (s.rdN (PSF_OUTo_STAT o))

/-- FBT of output `o` (R304). -/
def State.fbTime (s : State) (o : Nat) : Nat := s.getIn (PSF_OUTo_CFG_FBT o) 1 255 * ms

/-- The output's feedback has been compared, and has disagreed with it for FBT when it disagrees: since the output last switched, or the
feedback last agreed (R304) (DESIGN CHOICE, log entry 60). -/
def State.judgeFeedback (s : State) (o : Nat) (above : Bool) (level : Nat) : State :=
  let fbOn := s.fbReads o above
  let s := (s.putB (PSF_OUTo_STAT_FB o) fbOn).put (PSF_OUTo_FB_V o) level
  let on := s.flag (PSF_OUTo_STAT_ON o)
  if on = fbOn then (s.fbFrom o).onPulse o fun p => { p with reported := false }
  else if (s.pulseOf o).reported ∨ (s.pulseOf o).start.isSome then s
  else
    let s := (s.reach (vget s.psf.fbAt o 0 + s.fbTime o)).onPulse o fun p => { p with reported := true }
    let s := if on then s.put (PSF_OUTo_FLT_STATIC_OFF o) 1 else s.put (PSF_OUTo_FLT_STATIC_ON o) 1
    s.outputFault o 1

/-- The length of a pulse and the period of pulses (Table 11.12). -/
def State.pulseW (s : State) : Nat := s.getIn PSF_PT_CFG_W 50 400 * us
@[inherit_doc State.pulseW]
def State.pulsePer (s : State) : Nat := s.getIn PSF_PT_CFG_PER 1 60 * sec

/-- An off-pulse falls due (R305): one PER after the output came on or after the start of its last pulse; one that falls due during the
pulse of another output starts 10 µs after that pulse's end. -/
def State.startPulse (s : State) (o : Nat) : State :=
  let p := s.pulseOf o
  if ¬ s.flag (PSF_OUTo_STAT_ON o) ∨ s.pulsing then s
  else
    let due := max p.onSince p.last + s.pulsePer
    let during (k : Nat) : Bool := k != o && (s.pulseOf k).last != 0 && decide ((s.pulseOf k).last ≤ due ∧ due < (s.pulseOf k).last + s.pulseW)
    let after := ((List.range 3).filter during).map fun k => (s.pulseOf k).last + s.pulseW + 10 * us
    let s := (s.reach (after.foldl max due)).fbFrom o
    let s := s.onPulse o fun p => { p with start := some s.now, last := s.now, discard := false }
    let s := ((s.putB (PSF_OUTo_STAT_ON o) false).put (PSF_OUTo_STAT_PULSE o) 1).put PSF_STAT_PT_OUT (2 ^ o)
    s.wrN (PSF_OUTo_PTLAST o) s.ftNs

/-- ON bits written during a pulse take effect (Table 11.6). -/
def State.applyLater (s : State) : State :=
  let l := bitsOf 3 s.psf.onLater
  ((l.foldl State.setOn (s.onPsf fun p => { p with onLater := 0 }))).showOuts

/-- The pulse in progress ends and its feedback is judged (R305, R306). -/
def State.endPulse (s : State) (above : Bool) (level : Nat) : State :=
  match (List.range 3).findSome? fun o => (s.pulseOf o).start.map fun t => (o, t) with
  | none => s
  | some (o, t) =>
    let s := s.reach (t + s.pulseW)
    let drop := (s.pulseOf o).discard
    let fbOn := s.fbReads o above
    let s := s.onPulse o fun p => { p with start := none, discard := false }
    let s := ((s.put (PSF_OUTo_STAT_PULSE o) 0).put PSF_STAT_PT_OUT 0).put (PSF_OUTo_FB_V o) level
    let s := s.putB (PSF_OUTo_STAT_FB o) fbOn
    let back := s.outWanted o && !drop && !fbOn
    let acc := vget s.psf.onAcc o 0 + (t - (s.pulseOf o).onSince)
    let s := if back then (s.putB (PSF_OUTo_STAT_ON o) true).fbFrom o else s.onPsf fun p => { p with onAcc := vset p.onAcc o acc }
    let s :=
      if drop then s.bump (PSF_OUTo_PTCNT_DISC o) 1
      else if fbOn then ((s.bump (PSF_OUTo_PTCNT_FAIL o) 1).put (PSF_OUTo_FLT_PULSE o) 1).outputFault o 2
      else s.bump (PSF_OUTo_PTCNT_PASS o) 1
    s.applyLater

/-! ## Arming -/

/-- A refused request (R302): code, count, event. -/
def State.armRefuse (s : State) (code : Nat) : State :=
  (((s.put PSF_ARM_STAT_CODE code).put PSF_ARM_STAT_PEND 0).bump PSF_ARM_STAT_REF 1).psfEvent 8 0xFF code s.addr 0 0

/-- An entry to WATCH or SHIP has been accepted, which keeps the part disarmed (R303, R349). -/
def State.goingOff (s : State) : Bool := s.flag MGT_MODE_STAT_PEND && decide (s.get MGT_MODE_STAT_TGT ≤ 1)

/-- The checks of codes 0x01 to 0x04 (Table 11.5). A configuration in force has been admitted; what a later check of another one or of
another period left in MGT_ADMIT_CODE says nothing of it (R391). -/
def State.armFirst (s : State) : Option Nat :=
  if ¬ s.ceilings then some 1
  else if ¬ s.sealed ∨ s.flag MGT_CFG_STAT_BASE then some 2
  else if ¬ s.active ∨ s.goingOff then some 3
  else if s.flag PSF_STAT_LOCKOUT then some 4
  else none

/-- The checks of codes 0x05 to 0x07, and arming (R302). -/
def State.armLast (s : State) (fb : BitVec 3) : State :=
  let s := s.takeFeedback fb
  if ¬ s.flag PSF_STAT_ILK_SEEN then s.armRefuse 5
  else if s.rdN PSF_DEM_STAT ≠ 0 then s.armRefuse 6
  else if s.fbAny fb then s.armRefuse 7
  else (((s.put PSF_ARM_STAT_CODE 0).put PSF_ARM_STAT_PEND 0).put PSF_STAT_ARMED 1).psfEvent 2 0xFF 0 s.addr 0 0

/-- An arming request (R300, R302): ignored while one is pending; a self-cycle runs first where ILK_SEEN is clear and the
self-test is enabled (DEDUCED, log entry 123). -/
def State.armRequest (s : State) (fb : BitVec 3) : State :=
  if s.flag PSF_ARM_STAT_PEND then s
  else
    match s.armFirst with
    | some c => s.armRefuse c
    | none =>
      if s.flag PSF_ILK_SELFTEST_EN ∧ ¬ s.flag PSF_STAT_ILK_SEEN then
        let s := s.onPsf fun p => { p with selfCycle := some s.now, selfOpen := false, selfClosed := false }
        (s.put PSF_ARM_STAT_PEND 1).followInput 1
      else s.armLast fb

/-- The self-cycle ends, completed or timed out (R300). What the first checks asked for must still hold (DEDUCED, log entry 123). -/
def State.selfCycleEnd (s : State) (fb : BitVec 3) : State :=
  match s.psf.selfCycle with
  | none => s
  | some t =>
    let ok := s.psf.selfClosed
    let s := if ok then s else s.reach (t + (if s.psf.selfOpen then 2 else 1) * s.selfTime)
    let s := s.onPsf fun p => { p with selfCycle := none, selfOpen := false, selfClosed := false }
    if ok then
      let s := ((s.put PSF_STAT_ILK_SEEN 1).put PSF_STAT_ILK_SELF 1).followInput 1
      match s.armFirst with
      | some c => s.armRefuse c
      | none => s.armLast fb
    else (s.followInput 1).armRefuse 8

/-- A write of PSF_ARM (R302, R303): REQ by MC only, DIS by a privileged initiator (DEDUCED, log entry 123). -/
def State.writeArm (s : State) (i : Initiator) (v : Nat) (fb : BitVec 3) : State :=
  let s := if bitOf v 0 then (if isMC i then s.armRequest fb else s.refuseRight 6 i PSF_ARM) else s
  if bitOf v 1 then s.ifPrivileged i PSF_ARM State.disarm else s

/-! ## Lockout -/

/-- A write of PSF_LOCKOUT_KEY (R308): 0x5A17 begins the sequence, whatever came before (DEDUCED, log entry 242). -/
def State.writeKey (s : State) (i : Initiator) (v : Nat) : State :=
  s.ifPrivileged i PSF_LOCKOUT_KEY fun s =>
    let k := v % 65536
    let wrong (s : State) : State :=
      ((s.onPsf fun p => { p with key1 := none }).put PSF_LOCKOUT_STAT_KEYOK 0).bump PSF_LOCKOUT_STAT_KEYERR 1
    if ¬ s.flag PSF_STAT_LOCKOUT then s
    else
      if k = 0x5A17 then s.onPsf fun p => { p with key1 := some s.now }
      else match s.psf.key1 with
      | none => wrong s
      | some t =>
        if k = 0xA5E8 ∧ s.now ≤ t + sec then (s.onPsf fun p => { p with key1 := none }).put PSF_LOCKOUT_STAT_KEYOK 1
        else wrong s

/-- The conditions for leaving lockout hold (R308). -/
def State.mayLeave (s : State) (fb : BitVec 3) : Bool :=
  s.flag PSF_STAT_LOCKOUT && s.flag PSF_LOCKOUT_STAT_KEYOK && s.flag PSF_LOCKOUT_STAT_ILKCYC && !s.fbAny fb &&
    (!s.psf.holdLock || !s.flag FCR_STATUS_FATAL)

/-- Lockout is left (R308). -/
def State.leaveLockout (s : State) : State :=
  let s := ((s.put PSF_STAT_LOCKOUT 0).put PSF_LOCKOUT_STAT_LOCK 0).put PSF_LOCKOUT_STAT_KEYOK 0
  let s := (s.put PSF_LOCKOUT_STAT_ILKCYC 0).onPsf fun p => { p with holdLock := false, cause := clrBitN p.cause 20, key1 := none }
  (s.withdraw 20).psfEvent 5 0xFF 0 s.addr 0 0

/-! ## Rows -/

/-- DEMAND_CLEAR (R288). -/
def execDemandClear (i : Initiator) (v : Word) (s : State) : Outcome :=
  .next (s.writeRow i PSF_DEM_CLR fun s => s.ifPrivileged i PSF_DEM_CLR fun s => s.clearDemands v.toNat)

/-- OFFREQ_SET (R294). -/
def execOffreqSet (i : Initiator) (v : Word) (s : State) : Outcome :=
  .next (s.writeRow i PSF_OFFREQ fun s => s.writeOffreq i (v ||| 1).toNat)

/-- OFFREQ_CLR (R294). -/
def execOffreqClr (i : Initiator) (v : Word) (s : State) : Outcome :=
  .next (s.writeRow i PSF_OFFREQ fun s => s.writeOffreq i (v ||| 2).toNat)

/-- SAFETY_INPUT_CHANGE (R296) (DEDUCED, log entry 55) (DESIGN CHOICE, log entry 60). -/
def execSafetyInputChange (k : Fin 2) (closed : Bool) (s : State) : Outcome :=
  .next (if s.monitored k then s.inputLevel k closed else s)

/-- DARK_PULSE (R297): TP after the one before. The first is due at once (DESIGN CHOICE, log entry 243). -/
def execDarkPulse (s : State) : Outcome :=
  let s := s.reach ((s.psf.darkAt.map (· + s.getIn (PSF_SIi_CFG_TP 0) 10 1000 * ms)).getD s.now)
  .next (if s.loopsFed then s.onPsf fun p => { p with dark := some s.now, darkAt := some s.now } else s)

/-- DARK_PULSE_END (R297): 200 µs after the pulse began. -/
def execDarkPulseEnd (closed : Bool) (s : State) : Outcome :=
  match s.psf.dark with
  | some t =>
    let s := (s.reach (t + 200 * us)).onPsf fun p => { p with dark := none }
    let was := s.ownFaults 0
    .next ((s.putB (PSF_SIi_STAT_XFEED 0) closed).followInputFault 0 was)
  | none => .next s

/-- ILK_READBACK (R298). -/
def execIlkReadback (src ret : BitVec 16) (s : State) : Outcome :=
  .next (if s.loopsFed then s.readback false src.toNat ret.toNat else s)

/-- READBACK_AGREEMENT (R298). -/
def execReadbackAgreement (src ret : BitVec 16) (s : State) : Outcome :=
  .next (if s.loopsFed then s.readback true src.toNat ret.toNat else s)

/-- CHATTER_QUIET (R299). -/
def execChatterQuiet (k : Fin 2) (s : State) : Outcome := .next (s.endChat k)

/-- ARM_REQUEST (R302). -/
def execArmRequest (i : Initiator) (v : Word) (fb : BitVec 3) (s : State) : Outcome :=
  .next (s.writeRow i PSF_ARM fun s => s.writeArm i (v ||| 1).toNat fb)

/-- ILK_SELF_CYCLE_END (R300). -/
def execIlkSelfCycleEnd (fb : BitVec 3) (s : State) : Outcome := .next (s.selfCycleEnd fb)

/-- ARM_DISABLE (R303); a request written with it meets feedback the row does not carry. -/
def execArmDisable (i : Initiator) (v : Word) (s : State) : Outcome :=
  let (fb, s) := s.fresh 3
  .next (s.writeRow i PSF_ARM fun s => s.writeArm i (v ||| 2).toNat fb)

/-- OUTPUT_ON_WRITE (R301). -/
def execOutputOnWrite (i : Initiator) (v : Word) (s : State) : Outcome :=
  .next (s.writeRow i PSF_OUT_CMD fun s => s.writeOutCmd i v.toNat)

/-- OUTPUT_OFF_WRITE (R301). -/
def execOutputOffWrite (i : Initiator) (v : Word) (s : State) : Outcome :=
  .next (s.writeRow i PSF_OUT_CMD fun s => s.writeOutCmd i v.toNat)

/-- OUTPUT_FAULT (R304) (DESIGN CHOICE, log entry 60). -/
def execOutputFault (o : Fin 3) (above : Bool) (level : BitVec 16) (s : State) : Outcome :=
  .next (if s.mode = 0 then s else s.judgeFeedback o above level.toNat)

/-- OFF_PULSE (R305). -/
def execOffPulse (o : Fin 3) (s : State) : Outcome := .next (s.startPulse o)

/-- OFF_PULSE_END (R305). -/
def execOffPulseEnd (above : Bool) (level : BitVec 16) (s : State) : Outcome := .next (s.endPulse above level.toNat)

/-- LOCKOUT_KEY (R308). -/
def execLockoutKey (i : Initiator) (v : Word) (s : State) : Outcome :=
  .next (s.writeRow i PSF_LOCKOUT_KEY fun s => s.writeKey i v.toNat)

/-- LOCKOUT_EXIT (R308). -/
def execLockoutExit (fb : BitVec 3) (s : State) : Outcome :=
  let s := s.takeFeedback fb
  .next (if s.mayLeave fb then s.leaveLockout else s)

/-- HEARTBEAT_LOST (R16): an off-demand of the stack die. -/
def execHeartbeatLost (s : State) : Outcome :=
  if s.flag PSF_HB_STAT_LOST then .next s
  else .next (((s.put PSF_HB_STAT_LOST 1).bump PSF_HB_STAT_N 1).raiseSrc 17 0)

end Sys2Proof.Machine
end

