-- ==== Sys2Proof/Machine/Causeway.lean ====
section
/-! DEFINITION. The causeway (R309 to R315): capture and sending of the copies, their comparison at the harbour, the safe
reaction. -/

namespace Sys2Proof.Machine

/-- The wait of the decision in 1/16 ns (R312) (DEDUCED, log entry 244). -/
def State.cwWait (s : State) : Nat :=
  let b := s.waitBounds s.period
  min b.2 (max b.1 (s.get PSF_CWAY_CFG_WAIT * 10)) * us

/-- The safety CRC (R310): over the HUID of the harbour followed and bytes 0 to 31 of the payload. -/
def State.scrc (s : State) (l : List Byte) : Nat := crc32 (leBytes 8 (s.get64 FAB_HUID_LO) ++ l)

/-- The causeway payload of a capture (Table 11.7). -/
def State.cwBytes (s : State) (path n k : Nat) (late : Bool) (prot dcmp : Nat) : List Byte :=
  let l := leBytes 1 1 ++ leBytes 1 path ++ leBytes 1 s.addr ++
    leBytes 1 (b2n (!s.flag FAB_CWAY_RT_BV) + 2 * b2n late + 4 * b2n s.psf.htx) ++ leBytes 4 n ++ leBytes 6 k ++ leBytes 2 prot ++
    leBytes 4 (s.rdN PSF_DEM_STAT) ++ leBytes 4 s.psf.newSrc ++ leBytes 4 dcmp ++ leBytes 4 (s.rdN FAB_UID_LO)
  l ++ leBytes 4 (s.scrc l)

/-- DCMP: bit c says that either diverse comparator of channel c is qualified (Table 3.8). -/
def State.dcmp (s : State) : Nat :=
  ofBits ((List.range 32).filter fun c => s.flag (PSF_DCn_STAT_OVQ c) || s.flag (PSF_DCn_STAT_UVQ c))

/-- The capture at the bank switch of tick `k`: at the beginning of a cycle the two copies leave on routes A and B (R309); the
active harbour sends none to itself (DEDUCED, log entry 120). -/
def State.capture (s : State) (k : Nat) (late : Bool) : State :=
  let c := s.cyc
  if k % c ≠ 0 then s
  else
    let n := k / c
    let sends := s.flag PSF_CWAY_CFG_EN && s.flag FAB_NET_STAT_ASSIGNED && !s.isHarbour && (s.active || s.mode == 5)
    let bv := s.flag FAB_CWAY_RT_BV
    let p := s.protWord
    let d := s.dcmp
    let b := s
    let s :=
      if sends then
        let s := s.originate 0 0x02 (b.cwBytes 0 n k late p d)
        let s := if bv then s.originate 0 0x02 (b.cwBytes 1 n k late p d) true else s
        ((s.wrap PSF_CWAY_STAT_SENT 1).putB PSF_CWAY_STAT_BV bv).wrN PSF_CWAY_SEQ n
      else s
    s.onPsf fun p => { p with newSrc := 0, htx := false, cycle := n }

/-! ## Comparison -/

/-- A bit of a causeway bitmap: `a` is the address of word 0. -/
def State.cwBit (s : State) (a addr : Nat) (b : Bool) : State := s.putBit ⟨a + addr / 32 * 4, 0, 32⟩ (addr % 32) b

/-- The peer with an address given another record. -/
def State.setPeer (s : State) (p : CwPeer) : State :=
  s.onPsf fun x => { x with peers := x.peers.map fun y => if y.addr = p.addr then p else y }

/-- The harbour's PSF compares copies (PSF_STAT.HARBOUR). -/
def State.compares (s : State) : Bool := s.isHarbour && s.flag PSF_CWAY_CFG_EN

/-- A new cycle begins at tick `k`: the copies of the one before are given up (DEDUCED, log entry 120)
(DEDUCED, log entry 122). -/
def State.cwBegin (s : State) (k : Nat) : State :=
  if k % s.cyc = 0 then
    (s.onPsf fun x => { x with peers := x.peers.map fun p => { p with copies := [], decided := false } }).showExpected (k / s.cyc)
  else s

/-- The safe reaction (R315). -/
def State.safeReaction (s : State) (addr reason : Nat) : State :=
  let s := ((s.put PSF_SAFE_RX_ADDR addr).put PSF_SAFE_RX_REASON reason).bump PSF_SAFE_RX_CNT 1
  let s := if reason = 1 then s.cwBit (PSF_CW_MISk 0) addr true else s
  let s := (s.raiseSrc 18 0).psfEvent 7 18 reason addr 0 0
  s.onPsf fun p => { p with cause := clrBitN p.cause 18 }

/-- Two copies agree: bytes 0 and 2 to 31 are equal (R312). -/
def copiesAgree (a b : List Byte) : Bool := a.take 1 == b.take 1 && (a.take 32).drop 2 == (b.take 32).drop 2

/-- A HAZARD matches HTX of cycle n: one was accepted after the start of cycle n - 1 (R314). -/
def State.hazardMatched (s : State) (n : Nat) : Bool :=
  s.psf.hazAt.isSome && decide (s.sampleAt ((n - 1) * s.cyc) < s.get64 FAB_HAZ_T_LO * 16)

/-- The outcome of cycle `n` for one expected island (Table 11.8, R313, R314). -/
def State.cwDecide (s : State) (n : Nat) (p : CwPeer) : State :=
  let htx := p.copies.any fun c => bitOf (byteAt c.bytes 3) 2
  let lost := htx && s.flag PSF_CWAY_CFG_HAZCHK && !s.hazardMatched n
  let (q, s, differ) : CwPeer × State × Bool :=
    match p.copies with
    | a :: b :: _ =>
      if copiesAgree a.bytes b.bytes then
        ({ p with count := 0, outcome := 0, lastOk := n % 65536 },
          (s.bump PSF_CWAY_CNT0_TWO 1).cwBit (PSF_CW_ONEk 0) p.addr false, false)
      else ({ p with outcome := 3 }, s.cwBit (PSF_CW_ONEk 0) p.addr false, true)
    | [a] =>
      let free := bitOf (byteAt a.bytes 3) 0 && s.flag PSF_CWAY_CFG_SINGLE_OK
      ({ p with count := if free then p.count else min 16 (p.count + 1), outcome := 1 },
        (s.bump PSF_CWAY_CNT0_ONE 1).cwBit (PSF_CW_ONEk 0) p.addr true, false)
    | [] =>
      ({ p with count := min 16 (p.count + 1), outcome := 2 },
        (s.bump PSF_CWAY_CNT1_NONE 1).cwBit (PSF_CW_ONEk 0) p.addr false, false)
  let s := (s.setPeer { q with decided := true }).cwBit (PSF_CW_DEGk 0) p.addr (q.count != 0)
  let s := if differ then s.safeReaction p.addr 1 else s
  let s := if q.outcome ≠ 0 ∧ q.outcome ≠ 3 ∧ max 1 (s.get PSF_ONEPATH_MAX_MAX) < q.count then s.safeReaction p.addr 2 else s
  if lost then s.safeReaction p.addr 3 else s

/-- A CAUSEWAY copy arrives at the harbour (R311, R312) (DEDUCED, log entries 39, 121). -/
def State.takeCopy (s : State) (f : Frame) : State :=
  let l := f.payload
  let n := s.tickNo / s.cyc
  if leAt l 32 4 ≠ s.scrc (l.take 32) ∨ l.length ≠ 36 then s.bump PSF_CWAY_CNT1_SCRC 1
  else
    match s.psf.peers.find? fun p => p.addr == byteAt l 2 && decide (p.fromCycle ≤ n) with
    | none => s.bump PSF_CWAY_CNT1_NEXP 1
    | some p =>
      if leAt l 28 4 ≠ p.uidl ∨ leAt l 4 4 ≠ n % 2 ^ 32 then s.bump PSF_CWAY_CNT1_WRONG 1
      else
        let s := if leAt l 16 4 ≠ 0 then s.cwBit (PSF_CW_DEMk 0) p.addr true else s
        if p.decided then s
        else
          let q := { p with copies := p.copies ++ [{ bytes := l, at_ := s.now }] }
          let s := s.setPeer q
          if 2 ≤ q.copies.length then s.cwDecide n q else s

/-! ## Rows -/

/-- CAUSEWAY_RECEIVE (R312) (DEDUCED, log entry 121). -/
def execCausewayReceive (_p : Fin 4) (f : Frame) (s : State) : Outcome :=
  let s := s.takeInbox f
  .next (if s.compares then s.takeCopy f else s)

/-- CAUSEWAY_DECISION (R312): S(n × CYC) + WAIT. -/
def execCausewayDecision (s : State) : Outcome :=
  if s.compares then
    let n := s.tickNo / s.cyc
    let s := s.reachFt (s.sampleAt (n * s.cyc) + s.cwWait)
    .next ((s.psf.peers.filter fun p => !p.decided && decide (p.fromCycle ≤ n)).foldl (fun s p => s.cwDecide n p) s)
  else .next s

end Sys2Proof.Machine
end

