-- ==== Sys2Proof/Machine/FaultCmds.lean ====
section
/-! DEFINITION. Commands and events of the collector (chapter 12): acknowledgement, recovery, the end of shadow windows, the checks of
configuration and OTP. -/

namespace Sys2Proof.Machine

/-! ## Acknowledgement -/

/-- Every standing fatal fault ends; an engine held by a fatal restart limit is restarted once (R332). -/
def State.endFatals (s : State) : State :=
  let l := s.fcr.standing.filter fun f => f.cls == 3
  let s := { s with fcr := { s.fcr with standing := s.fcr.standing.filter fun f => f.cls != 3 } }
  l.foldl
    (fun s f =>
      let s := match f.slot with
        | some i => s.put (FCR_HQi_INFO_ACTIVE i) 0
        | none => s
      if f.src = 8 ∧ f.code = 0x11 ∧ f.inst < 16 ∧ s.bit ENG_FENCED_PERM f.inst then
        (s.putBit ENG_FENCED_PERM f.inst false).beginRestart f.inst 0 1
      else s) s

/-- FATAL of FCR_ACK (R332): clears the summary only when no fatal condition stands. What the NOTIFY of kind 3 says of source, code
and detail is not stated (DESIGN CHOICE, log entry 17). -/
def State.ackFatal (s : State) : State :=
  if ¬ s.flag FCR_STATUS_FATAL ∨ s.fatalStands then s
  else
    let s := (s.endFatals).put FCR_STATUS_FATAL 0
    let (x, s) := s.fresh 80
    s.notify 3 (x.toNat % 16) (x.toNat / 16 % 4) (x.toNat / 64 % 256) false (x.toNat / 2 ^ 14 % 2 ^ 32) (x.toNat / 2 ^ 46 % 2 ^ 32) none

/-- A queue slot is freed, with its NOTIFY (R327, R338). -/
def State.freeEntry (s : State) (i : Nat) : State :=
  let s := s.put (FCR_HQi_INFO_VALID i) 0
  s.notify 2 (s.get (FCR_HQi_INFO_SRC i)) (s.get (FCR_HQi_INFO_CLASS i)) (s.get (FCR_HQi_INFO_CODE i))
    (s.flag (FCR_HQi_INFO_FORCED i)) (s.rdN (FCR_HQi_D0 i)) (s.rdN (FCR_HQi_D1 i)) (some i)

/-- A slot holds an entry whose fault no longer stands. -/
def State.endedEntry (s : State) (i : Nat) : Bool := s.flag (FCR_HQi_INFO_VALID i) && !s.flag (FCR_HQi_INFO_ACTIVE i)

/-- SRC bit `k` of FCR_ACK (R327). -/
def State.ackSource (s : State) (k : Nat) : State :=
  let s := if bitOf s.fcrActive k then s else s.putBit FCR_STATUS_SRC k false
  let l := (List.range 32).filter fun i => s.endedEntry i && s.get (FCR_HQi_INFO_SRC i) == k
  let s := l.foldl State.freeEntry s
  let c := (List.range 32).filter fun i =>
    s.endedEntry i && s.flag (FCR_HQi_INFO_CONSEQ i) && l.contains (s.get (FCR_HQi_INFO_CAUSE i))
  c.foldl State.freeEntry s

/-- A write of FCR_ACK (R327): FATAL acts first; other initiators are recorded. -/
def State.writeAck (s : State) (i : Initiator) (v : Nat) : State :=
  s.ifPrivileged i FCR_ACK fun s =>
    let s := if bitOf v 31 then s.ackFatal else s
    (bitsOf 16 v).foldl State.ackSource s

/-- A write of FCR_FB_INFO: clearing VALID clears MORE (Table 12.8). -/
def State.writeFbInfo (s : State) (i : Initiator) (v : Nat) : State :=
  let s := s.plainWrite i FCR_FB_INFO v
  if s.flag FCR_FB_INFO_VALID then s else s.put FCR_FB_INFO_MORE 0

/-! ## Recovery -/

/-- What a recovery releases (R210, R329, R335): a phase by its scan, an engine at a contained restart limit by one restart with its
window cleared, an engine that a consequential or a forced fault keeps
fenced by its restart. -/
def State.releaseFor (s : State) (f : Standing) (bus : Vector (BitVec 16) 8) : State :=
  if f.src = 5 ∧ 0x10 ≤ f.code ∧ f.code ≤ 0x17 ∧ f.inst < 8 then s.releasePhase f.inst (f.code - 0x10) bus
  else if f.src = 8 ∧ f.code = 0x11 ∧ f.inst < 16 then
    let s := if s.bit ENG_FENCED_PERM f.inst then
        ((s.putBit ENG_FENCED_PERM f.inst false).onEng f.inst fun g => { g with restarts := [] }).beginRestart f.inst 0 1
      else s
    s
  else if f.forced ∧ ((f.src = 9 ∧ f.code = 0x11) ∨ (f.src = 8 ∧ f.code = 0x10)) ∧ f.inst < 16 ∧ s.get (ENG_n_STAT_STATE f.inst) = 3 then s.restartEngine f.inst 0 1
  else if f.conseq ∧ ((f.src = 8 ∧ f.code = 0x10) ∨ (f.src = 1 ∧ f.code = 0x11)) ∧ f.inst < 16 ∧
      s.get (ENG_n_STAT_STATE f.inst) = 3 then s.restartEngine f.inst 0 1
  else s

/-! ## Integrity -/

/-- A field whose value the seal record holds for the integrity check: RWS, or a sealed limit (R322). -/
def sealedField (a : Nat) (f : FieldDesc) : Bool := f.kind == .rws || (sealLimit a f.lo).isSome

/-- A register whose content an upset changed: whether a sealed limit differs from what the register held. -/
def State.upsetHits (s : State) (a : Nat) (w : Word) : Bool :=
  match regAt a with
  | some (d, _, _) => d.fields.any fun f => (sealLimit a f.lo).isSome && fieldOf w.toNat f.lo f.width != fieldOf (s.rdN a) f.lo f.width
  | none => false

/-- An upset changes a register. A sealed limit that it changes stays changed, and differs from the seal, until the next seal. -/
def State.takeUpset (s : State) (u : Nat × Word) : State :=
  if (regAt u.1).isNone then s
  else
    let l := if s.upsetHits u.1 u.2 then u.1 :: s.fcr.upset else s.fcr.upset
    { s.wr u.1 u.2 with fcr := { s.fcr with upset := l } }

/-- A RWS field differs from its sealed value, or an upset has changed a sealed limit; limits may have been tightened since the
seal. -/
def State.sealBroken (s : State) (a : Nat) : Bool :=
  s.fcr.upset.contains a || match regAt a with
  | some (d, _, _) => d.fields.any fun f =>
      f.kind == .rws && (sealLimit a f.lo).isNone && fieldOf (s.rdN a) f.lo f.width != s.sealedOf a f.lo f.width
  | none => false

/-- CONFIG_INTEGRITY_CHECK (R322): once every 100 ms the registers as upsets left them are checked against the seal. The first check is
due at once (DESIGN CHOICE, log entries 61, 243). -/
def execConfigIntegrityCheck (upsets : List (Nat × Word)) (s : State) : Outcome :=
  let s := s.reach ((s.fcr.crcAt.map (· + 100 * ms)).getD s.now)
  let s := { s with fcr := { s.fcr with crcAt := some s.now } }
  let s := upsets.foldl State.takeUpset s
  let bad := (s.regs.map (·.1) ++ s.sealRec.map (·.1) ++ s.fcr.upset).any s.sealBroken
  .next (if s.sealed && bad then s.fault 13 0x10 0 else s)

/-- OTP_MIRROR_CHECK (R322): once every second, each word read again that differs from its mirror, in ascending order. The first check
is due at once (DESIGN CHOICE, log entries 61, 243). -/
def execOtpMirrorCheck (reread : List (Nat × Word)) (s : State) : Outcome :=
  let s := s.reach ((s.fcr.otpAt.map (· + sec)).getD s.now)
  let s := { s with fcr := { s.fcr with otpAt := some s.now } }
  .next ((List.range 8).foldl
    (fun s k => if reread.any fun u => u.1 == k && u.2 != s.rd (PSF_OTPk k) then s.fault 13 0x11 k else s) s)

/-! ## Rows -/

/-- FAULT_ACK (R327). -/
def execFaultAck (i : Initiator) (v : Word) (s : State) : Outcome :=
  .next (s.writeRow i FCR_ACK fun s => s.writeAck i v.toNat)

/-- FATAL_ACK (R332). -/
def execFatalAck (i : Initiator) (v : Word) (s : State) : Outcome :=
  .next (s.writeRow i FCR_ACK fun s => s.writeAck i (v ||| 0x80000000).toNat)

/-- FAULT_RECOVERY (R329): the quiet period of a standing contained fault has passed. -/
def execFaultRecovery (src : Fin 16) (code inst : Byte) (bus : Vector (BitVec 16) 8) (s : State) : Outcome :=
  match s.standing? src code.toNat inst.toNat with
  | some f =>
    match f.quietEnd with
    | some t => .next (((s.reach t).recover f).releaseFor f bus)
    | none => .next s
  | none => .next s

/-- SHADOW_WINDOW_CLOSE (R333): the window that ends first. -/
def execShadowWindowClose (s : State) : Outcome :=
  match s.fcr.shadows with
  | [] => .next s
  | w :: r =>
    let t := r.foldl (fun t x => min t x.till) w.till
    let s := s.reach t
    .next { s with fcr := { s.fcr with shadows := s.fcr.shadows.filter fun x => decide (s.now < x.till) } }

end Sys2Proof.Machine
end

