-- ==== Sys2Proof/Machine/CalCore.lean ====
section
/-! DEFINITION. Calibration slots (R381 to R383), the trims in force (R368, R384), the terms of a run and their checks (R375,
R376), the preconditions (R373, R378). -/

namespace Sys2Proof.Machine

/-! ## Trim registers -/

/-- The width of a trim register's field. -/
def trimWidth (a : Nat) : Nat := ((allTrims.find? fun e => e.1 == a).map (·.2)).getD 32

/-- The factory value of a trim register of width `w`, expanded to the register's LSB (R369). -/
def factoryTerm (a w : Nat) : Int := 4 * toI (w - 2) (ofI (w - 2) (Config.factoryTrim a))

/-- The signed value of a trim register. -/
def State.trimVal (s : State) (a w : Nat) : Int := toI w (s.rdN a)

/-! ## Slots -/

/-- The address of calibration slot `b`: 0 A, 1 B (R381). -/
def calSlotAt (b : Nat) : Nat := lifeBase + 0xFFE000 + b * 0x1000

/-- GEN of calibration slot `b`. -/
def State.calGen (s : State) (b : Nat) : Nat := s.memLE (calSlotAt b + 8) 4

/-- The terms a slot holds: register, width, word. -/
def State.slotTerms (s : State) (b : Nat) : List (Nat × Nat × Nat) :=
  allTrims.zipIdx.map fun e => (e.1.1, e.1.2, s.memLE (calSlotAt b + 32 + 4 * e.2) 4)

/-- Calibration slot `b` verifies (R382). -/
def State.calVerifies (s : State) (b : Nat) : Bool :=
  let a := calSlotAt b
  s.memLE a 4 == 0x314C43 && s.memLE (a + 4) 2 == 1 && s.memLE (a + 6) 2 == 1012 && s.memLE (a + 20) 8 == s.uid &&
    s.memLE (a + 1012) 4 == crc32c (s.memBytes a 1012) && s.memLE (a + 1016) 4 == s.calGen b ^^^ 0xA5C35A3C &&
    (s.slotTerms b).all fun t => decide (t.2.2 < 2 ^ t.2.1)

/-- The newest verifying calibration slot, A when both have the same GEN (R382). -/
def State.newestCal (s : State) : Option Nat :=
  match s.calVerifies 0, s.calVerifies 1 with
  | true, true => if s.calGen 0 < s.calGen 1 then some 1 else some 0
  | true, false => some 0
  | false, true => some 1
  | false, false => none

/-- MGT_CAL_SLOT.VA and VB follow the slots. -/
def State.showCalSlots (s : State) : State :=
  (s.putB MGT_CAL_SLOT_VA (s.calVerifies 0)).putB MGT_CAL_SLOT_VB (s.calVerifies 1)

/-- The body of a calibration slot (Table 14.4): `terms` in place of the trims in force, `src` the source bits. A trim
written since the last tick boundary is not yet in force (R68). -/
def State.calBody (s : State) (gen kind procs : Nat) (ts : Int) (terms : List (Nat × Int)) (src : Nat → Nat) : List Byte :=
  let term (e : Nat × Nat) : List Byte :=
    match terms.find? fun t => t.1 == e.1 with
    | some t => leBytes 4 (ofI e.2 t.2)
    | none => leBytes 4 (s.trimIn e.1)
  let body := leBytes 4 0x314C43 ++ leBytes 2 1 ++ leBytes 2 1012 ++ leBytes 4 gen ++ leBytes 8 s.ftNs ++ leBytes 8 s.uid ++
    leBytes 1 kind ++ leBytes 1 procs ++ leBytes 2 (ofI 16 (rdivI ts 2)) ++ (allTrims.map term).flatten ++
    (((List.range 32).map (· + 2)) ++ [0, 1] ++ (List.range 16).map (· + 34)).map (fun ch => BitVec.ofNat 8 (src ch)) ++
    List.replicate 274 0
  body ++ leBytes 4 (crc32c body)

/-- A calibration slot is committed (R383): `kind` 0 TRIM run, 1 short TRIM, 2 STORE; `stored` says that the lifetime store
took the records. A commit that fails leaves the target without its commit record (fault 9/0x13) (DEDUCED, log entry 41). No commit starts during a
thermal shutdown (Table 7.5). -/
def State.calCommit (s : State) (kind procs : Nat) (ts : Int) (terms : List (Nat × Int)) (src : Nat → Nat) (stored : Bool) : State :=
  let n := s.newestCal
  let t := match n with
    | some b => 1 - b
    | none => 0
  let gen := match n with
    | some b => (s.calGen b + 1) % 2 ^ 32
    | none => 1
  let a := calSlotAt t
  if s.aux.shutAt.isSome then s else
  let s := s.memPut (a + 1016) (leBytes 4 0)
  if stored then
    let s := (s.memPut a (s.calBody gen kind procs ts terms src)).memPut (a + 1016) (leBytes 4 (gen ^^^ 0xA5C35A3C))
    let s := ((s.put MGT_CAL_SLOT_ACT t).wrN MGT_CAL_GEN gen).put64 MGT_CAL_T_LO s.ftNs
    s.showCalSlots.endCond 0 0x13 0
  else s.showCalSlots.fault 9 0x13 0

/-- The OTP factory trims are in force (R382). -/
def State.factoryTrims (s : State) : State :=
  let s := allTrims.foldl (fun (s : State) (t : Nat × Nat) => s.wrN t.1 (ofI t.2 (factoryTerm t.1 t.2))) s
  let s := { s with cal := { s.cal with src := [] } }
  ((s.put MGT_CAL_SLOT_ACT 2).wrN MGT_CAL_GEN 0).put64 MGT_CAL_T_LO 0

/-- Step 6 of start-up (R368, R382): the newest verifying slot is loaded, the OTP factory trims otherwise (fault 0/0x13). -/
def State.loadTrims (s : State) : State :=
  let s := s.showCalSlots
  let s := match s.newestCal with
    | some b =>
      let a := calSlotAt b
      let s := (s.slotTerms b).foldl (fun (s : State) (t : Nat × Nat × Nat) => s.wrN t.1 t.2.2) s
      let chans : List Nat := ((List.range 32).map (· + 2)) ++ [0, 1] ++ (List.range 16).map (· + 34)
      let src := chans.zipIdx.map fun (e : Nat × Nat) => (e.1, s.memLE (a + 688 + e.2) 1)
      let s := { s with cal := { s.cal with src := src } }
      ((s.put MGT_CAL_SLOT_ACT b).wrN MGT_CAL_GEN (s.calGen b)).put64 MGT_CAL_T_LO (s.memLE (a + 12) 8)
    | none => s.factoryTrims.fault 0 0x13 0
  { s with trimOld := [] }

/-! ## Terms -/

/-- A quotient by an integer of either sign, rounded; none for 0 (DEDUCED, log entry 133). -/
def qdiv (a d : Int) : Option Int := if d = 0 then none else some (rdivI (a * d.sign) d.natAbs)

/-- o, g and q of a cell from its four points (R375): `x` the sums of `n` results in µV, `r` the reference values in 0.5 nV
(DEDUCED, log entry 133). -/
def cellTerms (n : Nat) (x : List Int) (r : List Int) : Option (Int × Int × Int) :=
  let p (j : Nat) : Int := x.getD j 0
  let u (j : Nat) : Int := (p j - 3000000 * n) * (p j - 3000000 * n)
  let a1 := p 1 - p 0
  let a3 := p 3 - p 0
  let b1 := u 1 - u 0
  let b3 := u 3 - u 0
  let r1 := r.getD 1 0 - r.getD 0 0
  let r3 := r.getD 3 0 - r.getD 0 0
  let d := a1 * b3 - a3 * b1
  let num := r1 * b3 - r3 * b1
  let num2 := a1 * r3 - a3 * r1
  match qdiv (r.getD 0 0 * d - num * p 0 - num2 * u 0) (200 * d), qdiv (100000000 * (n * num - 2000 * d)) (2000 * d),
    qdiv (n * n * num2 * 10 ^ 14) (2000 * d) with
  | some o, some g, some q => some (o, g, q)
  | _, _, _ => none

/-- The offset of a cell with gain and quadratic term held (R375), in 0.1 µV: `x` the sum of `n` results in µV, `r0` in 0.5 nV. -/
def cellOffset (n : Nat) (x r0 g q : Int) : Int :=
  let d := x - 3000000 * n
  rdivI (r0 * 50000000000 * n * n - x * (100000000 + g) * 1000000 * n - q * d * d) (10000000000000 * n * n)

/-- The calibrated value in 0.1 µV of `x` / n µV, without its temperature term. -/
def cellTrimmed (n : Nat) (x o g q : Int) : Int :=
  let d := x - 3000000 * n
  rdivI (x * (100000000 + g) * 1000000 * n + o * 10000000000000 * n * n + q * d * d) (10000000000000 * n * n)

/-- The largest deviation of a term from its factory value (Table 14.2): the index of the register in `trimRegs`. -/
def termBound (ch k : Nat) : Nat :=
  if ch < 2 then (if k = 0 then 100000 else 200000)
  else if ch < 34 then (if k = 0 then 20000 else if k = 1 then 100000 else 5000)
  else if k = 0 then 64 else 200000

/-- A term passes R376: it fits its field and lies within its bound of the factory value. -/
def termOk (ch k : Nat) (z : Int) : Bool :=
  match (trimRegs ch)[k]? with
  | some (a, w) => z == satI w z && decide ((z - factoryTerm a w).natAbs ≤ termBound ch k)
  | none => false

/-- R'_j of a cell point in 0.5 nV (R375): point 0 is the short. -/
def State.cellRef (s : State) (ch j : Nat) : Int :=
  2 * (if j = 0 then 0 else Config.refPoint ch j) - s.trimVal (CMF_TRIMn_TC (ch - 2)) 16 * (s.aux.ts - 500)

/-- A trim register's value in a run: the term determined before, or the one in force. -/
def State.termOf (s : State) (terms : List (Nat × Int)) (a w : Nat) : Int :=
  match terms.find? fun t => t.1 == a with
  | some t => t.2
  | none => s.trimVal a w

/-- The terms a procedure determines from its point sums (R375): register index and value; none when there is no solution or
the check point fails (R376). -/
def State.procTerms (s : State) (terms : List (Nat × Int)) (ch proc n : Nat) (x : List Int) : Option (List (Nat × Int)) :=
  let g0 := (((trimRegs ch)[1]?).map fun e => s.termOf terms e.1 e.2).getD 0
  let p (j : Nat) : Int := x.getD j 0
  if proc = 1 then
    let d := 25 * (p 0 - p 1)
    (qdiv (100000000 * ((Config.refPoint ch 0 - Config.refPoint ch 1) * n - d)) d).map fun g => [(1, g)]
  else if proc = 2 then some [(0, rdivI (-(25 * p 0 * (100000000 + g0))) (100000000 * n))]
  else if proc = 3 then
    match cellTerms n x ((List.range 4).map (s.cellRef ch)) with
    | some (o, g, q) =>
      if (2 * cellTrimmed n (p 2) o g q * 100 - s.cellRef ch 2).natAbs ≤ 100000 then some [(0, o), (1, g), (2, q)] else none
    | none => none
  else if proc = 4 then
    let q := s.termOf terms (CMF_TRIMn_QUAD (ch - 2)) 16
    some [(0, cellOffset n (p 0) (s.cellRef ch 0) g0 q)]
  else
    let d := 1000 * (p 1 - p 0)
    match qdiv (100000000 * (Config.refPoint ch 1 * n - d)) d with
    | some g => some [(0, rdivI (-(p 0 * (100000000 + g))) (100000000 * n)), (1, g)]
    | none => none

/-- The points of a procedure (Table 14.1). -/
def procPoints (proc : Nat) : Nat := if proc = 3 then 4 else if proc = 1 ∨ proc = 5 then 2 else 1

/-- The source bits a term sets (R384): offset 1, gain and q 2. -/
def termSrc (l : List (Nat × Int)) : Nat :=
  b2n (l.any fun t => t.1 == 0) + 2 * b2n (l.any fun t => t.1 == 1)

/-! ## Preconditions -/

/-- The first precondition of the procedures still to do that fails (R372, R373), by its code of Table 14.3; the Ferry is
checked from the first tick of the run on. -/
def State.calFails (s : State) (todo : List (Nat × Nat)) (ts0 : Int) (ferry : Bool) : Option Nat :=
  let has (l : List Nat) : Bool := todo.any fun t => l.contains t.2
  let v := s.vstk
  if v < 1000 ∨ 16500 < v then some 0x0C
  else if s.get MGT_CAL_CFG_DTMAX * 2 < (s.aux.ts - ts0).natAbs then some 5
  else if ferry ∧ has [3, 4] ∧ (s.get BAL_STAT_RUN ≠ 0 ∨ s.get BAL_STAT_FB ≠ 0) then some 2
  else if has [2] ∧ ((List.range 3).any fun o => s.flag (PSF_OUTo_STAT_FB o)) then some 3
  else if has [2] ∧ ¬ s.flag CSI_STAT_ZW then some 4
  else if has [5] ∧ ¬ s.flag AUX_REF_OK then some 6
  else none

/-- The channel under trim carried MOD or RANGE at a bank switch (Table 14.3). -/
def State.pointBad (s : State) (ch : Nat) : Bool :=
  if ch < 2 then (s.chan (32 + ch)).modTick || (s.filtered (32 + ch)).any fun f => (s.csConv ch f.1 f.2.1).2
  else if ch < 34 then (s.chan (ch - 2)).modTick || (s.cellResult (ch - 2)).any fun r => r.2.2.2
  else false

/-- A run at a bank switch (R372, R373, R378): a point counts the tick; a failed precondition aborts the run. -/
def State.calTick (s : State) : State :=
  match s.cal.run with
  | some r =>
    if r.todo.isEmpty then s
    else
      let ch := (r.todo.head?.getD (0, 0)).1
      match s.calFails r.todo r.ts0 true with
      | some reason => s.calAbort reason
      | none =>
        if s.pointBad ch then s.calAbort 8
        else
          let seen := if ch < 34 then r.seen + 1 else r.seen
          { s with cal := { s.cal with run := some { r with ferryChecked := true, seen := seen } } }
  | none => s

/-- At a tick boundary a run that has ended gives up STALE, and committed terms take effect together (R377, R378)
(DEDUCED, log entry 186). -/
def State.calBoundary (s : State) : State :=
  if s.cal.staleEnds then
    let s := s.cal.newTerms.foldl (fun (s : State) (t : Nat × Int) => s.wrN t.1 (ofI (trimWidth t.1) t.2)) s
    { s with cal := { s.cal with run := none, newTerms := [], staleEnds := false } }
  else s

end Sys2Proof.Machine
end

