-- ==== Sys2Proof/Machine/LifeCore.lean ====
section
/-! DEFINITION. The lifetime record (R409 to R413): the accumulators, their two banks, the daily trend record, loading at
step 6 of start-up. -/

namespace Sys2Proof.Machine

/-- Life state changed by `f`. -/
def State.onLife (s : State) (f : LifeSt → LifeSt) : State := { s with life := f s.life }

/-! ## Advance -/

/-- UTC in ns: fabric time with TMG_UTC_OFS (Table 2.6). -/
def State.utcNs (s : State) : Nat := ((s.ftNs : Int) + toI 64 (s.get64 TMG_UTC_OFS_LO)).toNat

/-- Seconds since first use, by the identity area (Table 15.12). -/
def State.sinceFirst (s : State) : Nat := (s.utcNs - s.memLE (lifeBase + 16) 8) / 1000000000

/-- The temperature that counts for cell `c` (R410). -/
def State.lifeTemp (s : State) (c : Nat) : Option Int :=
  match (if s.learned c then (vget s.imp.est c none).map (·.t) else none) with
  | some t => some t
  | none =>
    match ((List.range 16).filter fun i => s.tempMap i == some c).findSome? s.thermistor with
    | some t => some t
    | none => meanI ((List.range 16).filterMap s.thermistor)

/-- How many of three edges lie at or below a value (DEDUCED, log entry 39). -/
def bandOf (x : Int) (edges : List Int) : Nat := (edges.filter fun e => decide (e ≤ x)).length

/-- A cell adds `dt` µs to its bin or to NOTEMP, and enters its extremes (R410). -/
def State.lifeCell (s : State) (dt c : Nat) : State :=
  if c < s.cellsN ∧ s.cellValid c then
    let v := s.cellV c
    let t := s.sinceFirst
    let hi := match vget s.life.vmax c none with
      | some m => if m.1 < v then some (v, t) else some m
      | none => some (v, t)
    let lo := match vget s.life.vmin c none with
      | some m => if v < m.1 then some (v, t) else some m
      | none => some (v, t)
    let s := s.onLife fun f => { f with vmax := vset f.vmax c hi, vmin := vset f.vmin c lo }
    match s.lifeTemp c with
    | none => s.onLife fun f => { f with notemp := f.notemp + dt }
    | some x =>
      let vb := bandOf v ((List.range 3).map fun k => ((fieldOf (s.rdN MEM_LT_VBND) (8 * k) 8 * 20000 : Nat) : Int))
      let tb := bandOf x ((List.range 3).map fun k => 10 * toI 8 (fieldOf (s.rdN MEM_LT_TBND) (8 * k) 8))
      let j := 16 * c + 4 * vb + tb
      s.onLife fun f => { f with hist := vset f.hist j (vget f.hist j 0 + dt) }
  else s

/-- The bin of the main-path current (R410); the manual gives none for STEP 0 (DESIGN CHOICE, log entry 40). -/
def State.lifeBin (s : State) : Nat × State :=
  let step := s.get MEM_LT_IBND_STEP
  let i := s.meas.cur.main
  if step = 0 then ((s.fresh 5).1.toNat, (s.fresh 5).2)
  else ((clampI 0 31 (16 + i.1 * 10 / ((i.2 * step : Nat) : Int))).toNat, s)

/-- The plausible value of input `i` enters its extremes. -/
def State.lifeTherm (s : State) (i : Nat) : State :=
  match s.thermistor i with
  | some t =>
    let hi := match vget s.life.tmax i none with | some m => max m t | none => t
    let lo := match vget s.life.tmin i none with | some m => min m t | none => t
    s.onLife fun f => { f with tmax := vset f.tmax i (some hi), tmin := vset f.tmin i (some lo) }
  | none => s

/-- The accumulators advance by `dt` µs at a bank switch, in RUN, TRIM, SERVICE and HOLD, or at a burst in WATCH; the extremes take only
VALID and plausible values (R410). -/
def State.lifeAdvance (s : State) (dt : Nat) : State :=
  let s := if s.mode = 1 then s.onLife fun f => { f with watchs := f.watchs + dt }
    else s.onLife fun f => { f with runs := f.runs + dt }
  let s := (List.range 32).foldl (fun s c => s.lifeCell dt c) s
  let (j, s) := s.lifeBin
  let a := if [0, 1].any fun n => s.flag (CSI_CSn_FLAG_VALID n) then inUnits s.meas.cur.main 10 else 0
  let dies := ((List.range 6).filter fun d => (s.die d).plaus && decide (0 < (s.die d).seq)).map fun d => (s.die d).val
  let die := dies.foldl (fun m x => some (match m with | some y => max y x | none => x)) s.life.die
  let s := s.onLife fun f =>
    { f with ihist := vset f.ihist j (vget f.ihist j 0 + dt), iChg := if 0 < a then max f.iChg a.toNat else f.iChg,
             iDsg := if a < 0 then max f.iDsg a.natAbs else f.iDsg, die := die }
  (List.range 16).foldl State.lifeTherm s

/-- Energy totals of phase `p` in J: into and out of cells (R410). -/
def State.energyOf (s : State) (p : Nat) : Int × Int :=
  let b := s.life.phe.getD p (0, 0)
  (b.1 + ((s.phase p).eIn / 10 ^ 12 : Nat), b.2 + ((s.phase p).eOut / 10 ^ 12 : Nat))

/-- Charge totals of cell `c` in mA·s: QIN, QOUT, BLQ (R410). -/
def State.chargeOf (s : State) (c : Nat) : Int × Int × Int :=
  let b := s.life.cq.getD c (0, 0, 0)
  let x := s.cellBal c
  (b.1 + (x.qin / 1000 : Nat), b.2.1 + (x.qout / 1000 : Nat), b.2.2 + (x.blq / 1000 : Nat))

/-- Before the BAL counters return to zero their totals are kept (R410). -/
def State.keepTotals (s : State) : State :=
  s.onLife fun f => { f with phe := (List.range 8).map s.energyOf, cq := (List.range 32).map s.chargeOf }

/-! ## Banks -/

/-- The address of accumulator bank `b`: 0 X, 1 Y (Table 15.11). -/
def bankAt (b : Nat) : Nat := lifeBase + 0x1000 + b * 0x2000

/-- GEN of bank `b`. -/
def State.bankGen (s : State) (b : Nat) : Nat := s.memLE (bankAt b + 4) 4

/-- Bank `b` verifies (Table 15.12). -/
def State.bankVerifies (s : State) (b : Nat) : Bool :=
  s.memLE (bankAt b) 4 == 0x424C4C4F && s.memLE (bankAt b + 8184) 4 == crc32c (s.memBytes (bankAt b) 8184) &&
    s.memLE (bankAt b + 8188) 4 == s.bankGen b ^^^ 0x3CA5C35A

/-- The bank with the higher verifying GEN (R411). -/
def State.newestBank (s : State) : Option Nat :=
  match s.bankVerifies 0, s.bankVerifies 1 with
  | true, true => if s.bankGen 0 < s.bankGen 1 then some 1 else some 0
  | true, false => some 0
  | false, true => some 1
  | false, false => none

/-- TID of the lifetime record (Table 15.12). -/
def State.tempTable (s : State) : Nat :=
  crc32c (((List.range 16).map fun j => leBytes 4 (s.rdN (CSI_IMP_TTBLj j))).flatten ++
    leBytes 4 (s.binF (s.get CSI_IMP_TCFG_BIN)))

/-- The 128 bytes of EXTM, in the order of its description (DEDUCED, log entry 34). -/
def State.extmBytes (s : State) : List Byte :=
  let f := s.life
  let t (o : Option Int) : List Byte := leBytes 2 ((o.map (ofI 16)).getD 0x8000)
  let l := leBytes 4 f.iChg ++ leBytes 4 f.iDsg ++
    ((List.range 16).map fun i => t (vget f.tmax i none) ++ t (vget f.tmin i none)).flatten ++ t f.die
  l ++ List.replicate (128 - l.length) 0

/-- The 8,184 bytes of an accumulator bank that its CRC covers (Table 15.12). -/
def State.bankBody (s : State) (gen : Nat) : List Byte :=
  let f := s.life
  let secs (x : Nat) : Nat := x / 1000000
  let ext (c : Nat) : List Byte :=
    let a := (vget f.vmax c none).getD (0, 0)
    let b := (vget f.vmin c none).getD (0, 0)
    leBytes 4 (ofI 32 a.1) ++ leBytes 4 (ofI 32 b.1) ++ leBytes 4 a.2 ++ leBytes 4 b.2
  let lrn (c : Nat) : List Byte :=
    leBytes 2 (ofI 16 (vget s.imp.offset c 0)) ++ leBytes 1 (vget s.imp.count c 0) ++ leBytes 1 (min 255 (vget s.imp.outliers c 0))
  leBytes 4 0x424C4C4F ++ leBytes 4 gen ++ leBytes 8 s.utcNs ++ leBytes 8 (secs f.runs) ++ leBytes 4 (secs f.watchs) ++
  leBytes 4 f.ships ++ leBytes 4 (secs f.notemp) ++ List.replicate 28 0 ++
  ((List.range 512).map fun j => leBytes 4 (secs (vget f.hist j 0))).flatten ++
  ((List.range 32).map fun j => leBytes 4 (secs (vget f.ihist j 0))).flatten ++
  ((List.range 8).map fun p => leBytes 8 (s.energyOf p).1.toNat ++ leBytes 8 (s.energyOf p).2.toNat).flatten ++
  ((List.range 32).map fun c => leBytes 8 (s.chargeOf c).1.toNat ++ leBytes 8 (s.chargeOf c).2.1.toNat ++ leBytes 8 (s.chargeOf c).2.2.toNat).flatten ++
  ((List.range 32).map ext).flatten ++ s.extmBytes ++
  ((List.range 16).map fun k => leBytes 4 (vget f.faults k 0) ++ leBytes 4 (vget f.recs k 0)).flatten ++
  leBytes 4 s.tempTable ++ ((List.range 32).map lrn).flatten ++ List.replicate 4148 0

/-! ## Trend record -/

/-- The 544 bytes of a daily trend record (Table 15.13) (DEDUCED, log entry 41). -/
def State.trendBytes (s : State) (day : Nat) : List Byte :=
  let f := s.life
  let taux := if f.taux.2 = 0 then 0x8000 else ofI 16 (rdivI f.taux.1 f.taux.2)
  let half (z : Int) (n : Nat) : List Byte := leBytes 2 (ofI 16 (satI 16 (rdivI z (10 * n))))
  let one (k : Nat) : List Byte :=
    match f.z.find? fun x => x.1 == k with
    | some (_, re, im, n) => half re n ++ half im n
    | none => leBytes 4 0x80008000
  let freq (i : Nat) : List Byte := leBytes 4 (((s.trendBin i).map s.binF).getD 0)
  let a := leBytes 4 day ++ leBytes 2 f.nsw ++ leBytes 2 taux ++ ((List.range 4).map freq).flatten ++
    leBytes 1 (b2n (s.get64 TMG_UTC_OFS_LO == 0)) ++ List.replicate 3 0
  let b := ((List.range 128).map one).flatten
  a ++ leBytes 4 (crc32c (a ++ b)) ++ b

/-- The trend record of the day just ended, at the first flush after the UTC day changes (R412). -/
def State.trendFlush (s : State) : State :=
  let today := s.utcNs / 86400000000000
  match s.life.day with
  | some d =>
    if d = today then s
    else
      let s := s.memPut (lifeBase + 0x100000 + s.life.trends % 7710 * 544) (s.trendBytes d)
      s.onLife fun f => { f with day := some today, trends := f.trends + 1, nsw := 0, taux := (0, 0), z := [] }
  | none => s.onLife fun f => { f with day := some today }

/-! ## Flush and load -/

/-- A flush (R411): the bank that does not hold the newest verifying generation is written, COMMIT last; `stored` says that it
reads back good. A bank that does not raises fault 9/0x13 (DEDUCED, log entry 144). No commit starts during a thermal shutdown
(Table 7.5). -/
def State.lifeFlush (s : State) (stored : Bool) : State :=
  if s.aux.shutAt.isSome then s else
  let s := s.trendFlush
  let n := s.newestBank
  let b := match n with | some b => 1 - b | none => 0
  let gen := match n with | some b => (s.bankGen b + 1) % 2 ^ 32 | none => 1
  let a := bankAt b
  let s := (s.memPut (a + 8188) (leBytes 4 0)).onLife fun f => { f with flushAt := s.now }
  if stored then
    let body := s.bankBody gen
    let s := (s.memPut a (body ++ leBytes 4 (crc32c body))).memPut (a + 8188) (leBytes 4 (gen ^^^ 0x3CA5C35A))
    let s := ((s.wrap MEM_LT_FLUSH_N 1).put MEM_STAT_BANK b).wrN MEM_LT_GEN gen
    s.put64 MEM_LT_T_LO s.utcNs
  else (s.bump MEM_LT_FLUSH_FAIL 1).fault 9 0x13 0

/-- The CRC of the identity area follows its content (Table 15.11; DEDUCED, log entry 34). -/
def State.sealIdentity (s : State) : State := s.memPut (lifeBase + 60) (leBytes 4 (crc32c (s.memBytes lifeBase 60)))

/-- The identity area is written by MC's own record-keeping: CLEARS incremented, CRC renewed (Table 15.11, DEDUCED, log entry 34). -/
def State.countClear (s : State) : State :=
  let n := (s.memLE (lifeBase + 56) 4 + 1) % 2 ^ 32
  (s.memPut (lifeBase + 56) (leBytes 4 n)).sealIdentity

/-- The identity area is set up on a part that has none (DEDUCED, log entry 34). -/
def State.ensureIdentity (s : State) : State :=
  if s.memLE lifeBase 4 = 0x544C4C4F then s
  else
    (s.memPut lifeBase (leBytes 4 0x544C4C4F ++ leBytes 2 1 ++ leBytes 2 0 ++ leBytes 8 s.uid ++ leBytes 8 s.utcNs)).sealIdentity

/-- The accumulators that bank `b` holds. -/
def State.bankLife (s : State) (b : Nat) : LifeSt :=
  let a := bankAt b
  let w (o k : Nat) : Nat := s.memLE (a + o) k
  let t16 (o : Nat) : Option Int := if w o 2 = 0x8000 then none else some (toI 16 (w o 2))
  let ext (c k : Nat) : Option (Int × Nat) :=
    if w (3136 + 16 * c) 4 = 0 ∧ w (3140 + 16 * c) 4 = 0 then none
    else some (toI 32 (w (3136 + 16 * c + 4 * k) 4), w (3144 + 16 * c + 4 * k) 4)
  { s.life with
    runs := w 16 8 * 1000000, watchs := w 24 4 * 1000000, ships := w 28 4, notemp := w 32 4 * 1000000,
    hist := Vector.ofFn fun j => w (64 + 4 * j) 4 * 1000000, ihist := Vector.ofFn fun j => w (2112 + 4 * j) 4 * 1000000,
    phe := (List.range 8).map fun p => ((w (2240 + 16 * p) 8 : Int), (w (2248 + 16 * p) 8 : Int)),
    cq := (List.range 32).map fun c => ((w (2368 + 24 * c) 8 : Int), (w (2376 + 24 * c) 8 : Int), (w (2384 + 24 * c) 8 : Int)),
    vmax := Vector.ofFn fun c => ext c 0, vmin := Vector.ofFn fun c => ext c 1,
    iChg := w 3648 4, iDsg := w 3652 4, tmax := Vector.ofFn fun i => t16 (3656 + 4 * i), tmin := Vector.ofFn fun i => t16 (3658 + 4 * i),
    die := t16 3720, faults := Vector.ofFn fun k => w (3776 + 8 * k) 4, recs := Vector.ofFn fun k => w (3780 + 8 * k) 4 }

/-- The learned offsets that bank `b` holds, unless its table is another one (R137). -/
def State.bankLearned (s : State) (b : Nat) : State :=
  if s.memLE (bankAt b + 3904) 4 = s.tempTable then
    let w (c : Nat) : Nat := s.memLE (bankAt b + 3908 + 4 * c) 4
    let n (c : Nat) : Nat := fieldOf (w c) 16 8
    { s with imp := { s.imp with
        offset := Vector.ofFn fun c => toI 16 (fieldOf (w c) 0 16), count := Vector.ofFn fun c => n c,
        outliers := Vector.ofFn fun c => fieldOf (w c) 24 8 } }.wrN CSI_IMP_TLRN
      (ofBits ((List.range 32).filter fun c => decide (16 ≤ n c)))
  else s.relearn

/-- Step 6 of start-up: the newest verifying bank is loaded; without one the accumulators start at zero (R411). -/
def State.loadLife (s : State) : State :=
  let s := s.ensureIdentity
  match s.newestBank with
  | some b =>
    let s := ({ s with life := s.bankLife b }.bankLearned b).put MEM_STAT_BANK b
    (s.wrN MEM_LT_GEN (s.bankGen b)).put64 MEM_LT_T_LO (s.memLE (bankAt b + 8) 8)
  | none => ({ s with life := { LifeSt.reset with archive := s.life.archive, trends := s.life.trends } }.put MEM_STAT_LTLOST 1).countClear

/-- MEM_LT_CTRL.CLEAR (R413): areas 1, 2, 3 and 5 are cleared with the accumulators they hold (DEDUCED, log entry 34). -/
def State.lifeClear (s : State) : State :=
  let phe := (List.range 8).map fun p => (-((s.phase p).eIn / 10 ^ 12 : Int), -((s.phase p).eOut / 10 ^ 12 : Int))
  let neg (c : Nat) : Int × Int × Int :=
    (-((s.cellBal c).qin / 1000 : Int), -((s.cellBal c).qout / 1000 : Int), -((s.cellBal c).blq / 1000 : Int))
  let s := (s.memDrop (lifeBase + 0x1000) (lifeBase + 0x7000)).memDrop (lifeBase + 0x100000) (lifeBase + 0x500000)
  let s := { s with life := { LifeSt.reset with phe := phe, cq := (List.range 32).map neg } }
  s.countClear

end Sys2Proof.Machine
end

