-- ==== Sys2Proof/Machine/Snapshot.lean ====
section
/-! DEFINITION. The snapshot of a tick (R85 to R89): its bytes, the frame sent, the entry of the Lagoon ring. -/

namespace Sys2Proof.Machine

/-- The estimators have run in tick k - 1, so that their fields carry its values (R28, Table 3.8): EE took that tick's entry and
committed what it staged in it (R198) (DEDUCED, log entry 51). -/
def State.estValid (s : State) (k : Nat) : Bool :=
  decide (0 < k) && (s.engine 14).tickIn == some (k - 1) && (s.engine 14).commitIn == some (k - 1) && !s.engFenced 14

/-- The sensorless temperature of cell `c` in whole degrees above -50 °C, 0xFF when there is none (Table 3.7). -/
def State.estByte (s : State) (c : Nat) : List Byte :=
  leBytes 1 (match s.snapT c with
    | some t => (clampI 0 254 (rdivI t 10 + 50)).toNat
    | none => 0xFF)

/-- What the snapshot of tick `k` will say of temperatures, as they stand at S(k): the work of tick k - 1 (R28, Table 3.7). -/
def State.estBytes (s : State) (k : Nat) : List Byte :=
  ((List.range 4).map fun i => s.estByte (4 * (k % 8) + i)).flatten ++ leBytes 1 (s.get CSI_IMP_THOT_IDX) ++
    leBytes 2 (s.get CSI_IMP_THOT_T)

/-- The estimator fields of tick `k` (Table 3.7). The states of charge are firmware's and no command carries them: free
(DEDUCED, log entry 51; DESIGN CHOICE, log entry 72). -/
def State.estFields (s : State) (k : Nat) : List Byte × State :=
  let c0 := 4 * (k % 8)
  if s.estValid k then
    let (soc, s) := s.fresh 32
    (leBytes 1 c0 ++ leBytes 4 soc.toNat ++ s.meas.est, s)
  else (leBytes 1 c0 ++ leBytes 4 0xFFFFFFFF ++ leBytes 4 0xFFFFFFFF ++ leBytes 1 0xFF ++ leBytes 2 0x8000, s)

/-- AUX[i] of the snapshot (Table 3.7). -/
def State.auxField (s : State) (i : Nat) : List Byte :=
  let m := s.get (AUX_INi_CFG_MODE i)
  leBytes 2 (if m = 1 ∨ m = 2 then s.rdN (AUX_INi_VAL i) % 65536 else 0x8000)

/-- The fields of Table 3.7 from CS0 up to PROT. -/
def State.snapMid (s : State) : List Byte :=
  leBytes 3 (s.rdN (CSI_CSn_V 0)) ++ leBytes 3 (s.rdN (CSI_CSn_V 1)) ++ leBytes 8 (s.get64 CSI_QACC_LO) ++
    ((List.range 16).map s.auxField).flatten ++ leBytes 4 (ofBits ((List.range 32).filter s.cellValid)) ++
    leBytes 4 (s.rdN CMF_OW_TAP_LO) ++ leBytes 4 s.dcmp ++ leBytes 2 s.protWord

/-- SFLAGS without DELTA, DSAT and DECIM (Table 3.8) (DEDUCED, log entry 129). -/
def State.sflags (s : State) (late hold incoh estv : Bool) : Nat :=
  let used := List.range s.cellsN
  let stale := used.any fun c => s.flag (CMF_CELLn_FLAG_STALE c)
  let test := (List.range 32).any (fun c => bitOf (s.rdN (CMF_CELLn_FLAG c)) 15) || bitOf (s.rdN (CSI_CSn_FLAG 0)) 15 ||
    bitOf (s.rdN (CSI_CSn_FLAG 1)) 15
  b2n late + 2 * b2n hold + 4 * b2n incoh + 8 * b2n (stale || s.mode == 3) + 16 * b2n s.anyTrimReq +
    32 * b2n (s.flag CMF_OW_TAP_HI_T32) + 2048 * b2n estv + 4096 * b2n test

/-- The entry of the Lagoon snapshot ring (R89). The index written is the next one after the last; it starts at 0 (log
entry 14) (DEDUCED, log entry 15). -/
def State.snapRing (s : State) (full : List Byte) (ft : Nat) : State :=
  let body := full ++ leBytes 8 ft ++ leBytes 4 (s.rdN CMF_BANK_TAG)
  let i := s.meas.ringN % 2 ^ s.getIn CMF_SNAP_RING_DEPTH 4 15
  match s.ringPut (s.get CMF_SNAP_RING_BASE * 16384 + 192 * i) (body ++ leBytes 4 (crc32c body)) with
  | some t => { t.put CMF_SNAP_RING_WPTR i with meas := { t.meas with ringN := t.meas.ringN + 1 } }
  | none => s

/-- The snapshot frame of tick `k` is sent (R86, R87): full or delta, with the flags `fl`. -/
def State.sendSnapshot (s : State) (k fl : Nat) (mid est : List Byte) : State :=
  let a := s.addr
  let key := !s.flag CMF_SNAP_CFG_DELTA || (s.meas.sentN + a) % max 1 (s.get CMF_SNAP_CFG_KEY) == 0
  let v := (List.range 32).map s.cellV
  let d := (List.range 32).map fun c => clampI (-32767) 32767 (v.getD c 0 - s.meas.ref.getD c 0)
  let sat := (List.range 32).any fun c => d.getD c 0 != v.getD c 0 - s.meas.ref.getD c 0
  let r := if key then v else (List.range 32).map fun c => s.meas.ref.getD c 0 + d.getD c 0
  let fl := fl + 256 * s.meas.decim + (if key then 0 else 64 + 128 * b2n sat)
  let cells := if key then (v.map fun x => leBytes 3 (ofI 24 x)).flatten else (d.map fun x => leBytes 2 (ofI 16 x)).flatten
  let s := { s with meas := { s.meas with ref := r, sentN := s.meas.sentN + 1 } }
  s.originate (s.get CMF_SNAP_CFG_DEST) 0x01 (leBytes 6 k ++ leBytes 2 fl ++ cells ++ mid ++ est)

/-- The snapshot release of tick `k` (R26, R85 to R89); `late` says that this tick is LATE. The flags of the frame cover the D ticks
up to `k` (R86); none is sent in ACQUIRE (Table 2.3). -/
def State.snapshot (s : State) (k : Nat) (late : Bool) : State :=
  let hold := s.get TMG_STAT_STATE == 3
  let incoh := s.tick.exceeded
  let estv := s.estValid k
  let mid := s.snapMid
  let (est, s) := s.estFields k
  let cells := ((List.range 32).map fun c => leBytes 3 (ofI 24 (s.cellV c))).flatten
  let s := s.snapRing (leBytes 6 k ++ leBytes 2 (s.sflags late hold incoh estv) ++ cells ++ mid ++ est) (s.sampleAt k / 16)
  let s := { s with tick := { s.tick with flags := ((late, hold, incoh) :: s.tick.flags).take 64 } }
  let l := s.tick.flags.take (2 ^ s.meas.decim)
  if (k + s.addr) % 2 ^ s.meas.decim = 0 ∧ s.flag CMF_SNAP_CFG_EN ∧ s.flag FAB_NET_STAT_ASSIGNED ∧ s.get TMG_STAT_STATE ≠ 1 ∧
      (s.active ∨ s.mode = 5) then
    s.sendSnapshot k (s.sflags (l.any (·.1)) (l.any (·.2.1)) (l.any (·.2.2)) estv) mid est
  else s

end Sys2Proof.Machine
end

