-- ==== Sys2Proof/Machine/Tick.lean ====
section
/-! DEFINITION. The tick (chapter 2): base-rate strobes (R36, R62), sample instants (R34), TICK origination, forwarding and
acceptance (R37 to R39, R43 to R45), time exchanges (R40 to R42, R242), the bank switch (R47), the change of period (R56). -/

namespace Sys2Proof.Machine

/-! ## Base-rate strobes -/

/-- Every tick is sampled in this mode (Table 3.6). -/
def State.sampling (s : State) : Bool := s.active || s.mode == 5

/-- A strobe's sample of each stream at the sample port of SEn: streams 0 to 3 its cells, 4 and 5 the current channels, 6 the
primary current of phase n, 7 the summed secondary current (R192, Table 8.1). -/
def portWord (x : StrobeSample) (n i : Nat) : Int :=
  if i < 4 then sampleOf x (4 * n + i) else if i < 6 then sampleOf x (28 + i)
  else if i = 6 then (vget x.prim n 0).toInt else x.sec.toInt

/-- A strobe enters the sample port of SEn (R192): yspw holds the index of the latest sample. -/
def State.portSample (s : State) (x : StrobeSample) (n : Nat) : State :=
  let m := ((s.engine n).yspw + 1).toNat % 64
  let s := (List.range 8).foldl
    (fun s i => s.memPutWord (samplePort n + 4 * (64 * i + m)) (BitVec.ofInt 32 (portWord x n i))) s
  s.onEng n fun g => { g with yspw := g.yspw + 1, samples := g.samples + 1 }

/-- What a strobe does in every block that takes it (R62, R72, R74, R126, R160, R192). -/
def State.strobe (s : State) (x : StrobeSample) : State :=
  let s := ((List.range 34).foldl (fun s ch => s.takeSample x ch) s).owCutoff x
  let was := s.meas.ferryNow
  let s := { s with meas := { s.meas with ferryNow := 0 } }.ferryStrobe x
  let m := s.meas.ferryNow
  let s := { s with meas := { s.meas with ferryNow := was ||| m, hist := ((x, m) :: s.meas.hist).take 32 } }
  (List.range 8).foldl (fun s n => s.portSample x n) (s.sweepLimits.sweepSample x)

/-- BASE_RATE_STROBE (R36, R62, R467): in a tick the strobe after the n-th since S(k) falls at S(k) + (n + 1) × P / N_b, the
last one on S(k+1); in a WATCH burst 31.25 µs after the one before, the first 32 being discarded. -/
def execBaseRateStrobe (x : StrobeSample) (s : State) : Outcome :=
  match s.meas.burst with
  | some n =>
    if 64 ≤ n then .next s
    else
      let s := (s.reach (s.now + 125 * us / 4)).strobe x
      let s := if n + 1 = 32 then s.regather else s
      .next { s with meas := { s.meas with burst := some (n + 1) } }
  | none =>
    if ¬ s.sampling then .next s
    else if s.tick.running then
      let n := s.gathered
      if s.nb ≤ n then .next s
      else .next ((s.reachFt (s.sampleAt s.tickNo + (n + 1) * s.periodT / s.nb)).strobe x)
    else
      let s := if s.nb ≤ s.gathered then s.regather else s
      .next ((s.reach (s.now + s.periodT / s.nb)).strobe x)

/-! ## Sample instants -/

/-- The entries of the log at and after number `n`, up to 15 of them, as they stand in the ring (R408)
(DEDUCED, log entry 50). -/
def State.logFrame (s : State) (n : Nat) : List Byte :=
  let c := min 15 (s.log.seq - n)
  leBytes 4 n ++ leBytes 1 c ++ List.replicate 3 0 ++
    ((List.range c).map fun j => s.memBytes (lagoon + (n + j) % 131072 * 32) 32).flatten

/-- Up to `r` LOG_XFER frames leave in a tick (R408) (DEDUCED, log entries 49, 50). -/
def State.pushLog : Nat → State → State
  | 0, s => s
  | r + 1, s =>
    let n := max s.log.pushed (s.log.seq - 131072)
    if s.log.seq ≤ n then s
    else
      let s := s.originate (s.get MGT_LOG_CFG_DEST) 0x32 (s.logFrame n)
      State.pushLog r { s with log := { s.log with pushed := min s.log.seq (n + 15) } }

/-- The log at a tick boundary (R408). -/
def State.logTick (s : State) : State :=
  if s.flag MGT_LOG_CFG_PUSH then State.pushLog (s.getIn MGT_LOG_CFG_RATE 1 15) s
  else { s with log := { s.log with pushed := s.log.seq } }

/-- The windows and the decimation of a new tick (R36, R64, R72, R86). -/
def State.newWindows (s : State) : State :=
  let m := s.meas
  let acc := if m.accP = 0 then s.period else m.accP
  let d := min 6 (max (s.get CMF_SNAP_CFG_DECIM) (s.get CMF_SNAP_CFG_DECIM_IMP))
  let s := { s with trimOld := [], meas := { m with
    chan := m.chan.map ChanSt.atInstant, histS := m.hist, ferryPrev := m.ferryWin, ferryWin := m.ferryNow, ferryNow := 0,
    prevOk := m.winP == acc, winP := acc, accP := s.period, decim := d, posted := 0, staged := [] } }
  (s.put CMF_SNAP_CFG_PHASE (s.addr % 2 ^ d)).latchFilter

/-- The engine clock of a new tick (R187): halved at throttle level 2 and above. The cycles so far are counted first. -/
def State.engineClock (s : State) : State :=
  let half := b2n (decide (2 ≤ s.throttle))
  (List.range 16).foldl (fun s e => s.put (ENG_n_CLK_DIV e) half) (s.syncAll.put ENG_STAT_HALF half)

/-- SAMPLE_INSTANT (R34): tick k + 1 begins at S(k + 1) of fabric time, and what takes effect at a tick boundary does so
(DEDUCED, log entry 52). -/
def execSampleInstant (s : State) : Outcome :=
  if ¬ s.tick.running ∨ ¬ s.sampling then .next s
  else
    let k := s.tickNo + 1
    let s := (s.reachFt (s.sampleAt k)).put64 TMG_TICK_LO k
    let s := { s with tick := { s.tick with open_ := true, accepted := false, trig := s.flag TMG_CTRL_EN },
                      meas := { s.meas with est := s.estBytes k } }
    let s := s.calBoundary.newWindows.engineClock
    let s := (List.range 16).foldl State.closeTick s
    let s := (List.range 16).foldl State.activate s
    let s := (s.settleTick.sweepRequests.ferryTick).triggerAll 0
    .next ((s.cwBegin k).serveStreams.autoTick.lateRound.logTick)

/-! ## The bank switch -/

/-- The sample engines that have not posted. -/
def State.unposted (s : State) : Nat := 0xFF - s.meas.posted % 256

/-- The bank switch of tick k (R22, R26, R47): `late` has a bit for each sample engine that has not posted. -/
def State.switchBank (s : State) (late : Nat) : State :=
  let k := s.tickNo
  let p := s.meas.winP
  let s := ((s.bankAux.bankCells late).bankCurrent k (p * 1000) false).bankFerry
  let s := (s.compareCells.compareCurrent).tempLimits.rateEval
  let bad := late != 0 || s.tick.lateNext
  let s := { s with tick := { s.tick with lateNext := false, open_ := false } }
  let s := ((s.snapshot k bad).capture k bad).calTick
  let s := (s.lifeAdvance p).sweepTick.tempHistory
  s.showThot.triggerAll 1

/-- BANK_SWITCH (R47): all eight sample engines have posted. -/
def execBankSwitch (s : State) : Outcome :=
  if s.tick.open_ && s.unposted == 0 && s.sampling then .next (s.switchBank 0) else .next s

/-- BANK_SWITCH_DEADLINE (R47, R466): S(k) + TMG_BANK_DL comes first. With the triggers stopped no fault is raised. -/
def execBankSwitchDeadline (s : State) : Outcome :=
  if s.tick.open_ && s.unposted != 0 && s.sampling then
    let s := s.reachFt (s.sampleAt s.tickNo + s.getIn TMG_BANK_DL_DL 1 6 * s.periodT / 8)
    let late := s.unposted
    let s := if s.tick.trig then (s.put TMG_STAT_LATE 1).fault 1 0x10 (((bitsOf 8 late).head?).getD 0) else s
    .next (s.switchBank late)
  else .next s

/-! ## TICK -/

/-- A TICK takes the slot `d` after the present moment on Strait `n`, unless a HAZARD burst takes that slot (R39, R240). -/
def State.sendTick (d : Nat) (s : State) (n : Nat) : State :=
  if (s.strait n).hazFrom ≤ s.now + d ∧ s.now + d < (s.strait n).hazTill then s.bump TMG_TICK_REJ_HAZ 1
  else if d = 0 then s.emit (.tick n)
  else s.onPort n fun p => { p with tickOut := some (s.now + d) }

/-- The residence of a TICK in 1/16 ns (R38). -/
def residence : Nat := 768

/-- The lead L in 1/16 ns (R37). -/
def State.lead (s : State) : Nat := s.getIn TMG_LEAD_LEAD_US 2 100 * us

/-- TICK_ORIGINATE (R37): at S(k) - L of the coming tick, on every Strait that is up; none once that time has passed
(DEDUCED, log entry 46). -/
def execTickOriginate (s : State) : Outcome :=
  let t := s.sampleAt (s.tickNo + 1) - s.lead
  if s.isHarbour && s.tick.running && !s.tick.accepted && decide (s.ft ≤ t) then
    let s := s.reachFt t
    let s := { s with tick := { s.tick with accepted := true } }
    .next (((List.range 4).filter s.up).foldl (State.sendTick 0) s)
  else .next s

/-- A change of the island's fabric time that is not slewed (Table 2.3, R33); the intervals of the time exchanges go on through it
(DEDUCED, log entry 44). -/
def State.stepFt (s : State) (d : Int) : State :=
  let keep (t : Nat) : Nat := ((t : Int) + d).toNat
  { s with ftOfs := s.ftOfs + d, tick := { s.tick with slew := 0, slewAt := s.now },
           port := s.port.map fun p => { p with reqAt := keep p.reqAt, out := p.out.map fun x => (x.1, keep x.2) } }

/-- The island reaches LOCKED (R44, R45). -/
def State.lock (s : State) : State :=
  let s := (s.put TMG_STAT_STATE 2).put TMG_HOLD_CNT_RUN 0
  { s with tick := { s.tick with exceeded := false, accepted := true } }.endHoldover

/-- The phase correction of an accepted TICK in 1/16 ns (R43, Table 2.8) (DEDUCED, log entry 43). -/
def State.correction (s : State) (err : Int) : Int := rdivI (-err) (2 ^ (4 - s.get TMG_SERVO_GAIN))

/-- A TICK in ACQUIRE (R43, R44): the full error `err` is stepped; eight in succession within 2 ns lock the island to tick `k`. -/
def State.acquireTick (s : State) (k : Nat) (err : Int) : State :=
  let good := if err.natAbs ≤ 32 then s.tick.good + 1 else 0
  let s := (s.stepFt (-err)).put64 TMG_TICK_LO (k - 1)
  let s := { s with tick := { s.tick with good := good } }
  if 8 ≤ good then
    { s with tick := { s.tick with running := true, open_ := false, good := 0 }, meas := { s.meas with accP := 0 } }.regather.lock
  else s

/-- A TICK on the upstream Strait is held against fabric time (R43 to R45): `stamp` its arrival in 1/16 ns (DEDUCED, log entries 43, 44). -/
def State.servo (s : State) (stamp : Nat) : State :=
  let ofs : Int := toI 32 (s.get TMG_PATH_OFS_V)
  let k := (rdivI ((stamp : Int) + s.lead - ofs - s.epoch) s.periodT).toNat
  let err : Int := stamp - (s.epoch + k * s.periodT - s.lead + ofs)
  let s := s.put TMG_PHASE_ERR_V (ofI 32 (satI 32 err))
  if s.get TMG_STAT_STATE = 1 then s.acquireTick k err
  else if s.getIn TMG_SERVO_OUTLIER 2 63 * 16 < err.natAbs then s.bump TMG_TICK_REJ_OUTL 1
  else
    let s := { s with tick := { s.tick with slew := s.correction err, slewAt := s.now } }
    if k ≤ s.tickNo then s
    else if s.get TMG_STAT_STATE = 3 then s.lock
    else { s with tick := { s.tick with accepted := true } }

/-- TICK_ACCEPT (R38, R43): a TICK on any other Strait than the upstream one is neither forwarded nor used. Before the delay of
the upstream Strait is known it is forwarded only (DEDUCED, log entry 45). -/
def execTickAccept (port : Fin 4) (stamp : Nat) (s : State) : Outcome :=
  if ¬ s.up port then .next s
  else
    let s := (s.reachFt stamp).bump ⟨FAB_PORTn_CNTm port 14, 0, 32⟩ 1
    if s.isHarbour || !s.flag FAB_POS_UPV || s.get TMG_STAT_UPSTREAM != port.val then
      .next (s.bump ⟨FAB_PORTn_CNTm port 15, 0, 32⟩ 1)
    else
      let s := ((List.range 4).filter fun n => s.up n && n != port.val).foldl (State.sendTick residence) s
      let s := { s with net := { s.net with heardAt := s.now } }
      .next (if s.flag (TMG_PORTn_DLY_VALID port) then s.servo stamp else s)

/-- TICK_MISSING (R44, R45): no TICK has been accepted by S(k) of the coming tick. -/
def execTickMissing (s : State) : Outcome :=
  let st := s.get TMG_STAT_STATE
  if s.tick.running && !s.isHarbour && !s.tick.accepted && (st == 2 || st == 3) && s.sampling then
    let s := s.reachFt (s.sampleAt (s.tickNo + 1))
    let s := { s with tick := { s.tick with accepted := true } }
    .next (((s.put TMG_STAT_STATE 3).bump TMG_HOLD_CNT_RUN 1).bump TMG_HOLD_CNT_TOTAL 1)
  else .next s

/-- HOLDOVER_EXCEEDED (R45). -/
def execHoldoverExceeded (s : State) : Outcome :=
  if s.get TMG_STAT_STATE == 3 && decide (max 1 (s.get TMG_SERVO_HOLD_MAX) ≤ s.get TMG_HOLD_CNT_RUN) && !s.tick.exceeded then
    let s := { s with tick := { s.tick with exceeded := true } }.put TMG_STAT_INCOH 1
    .next (s.fault 1 0x12 (s.get TMG_STAT_UPSTREAM))
  else .next s

/-! ## Time exchanges -/

/-- The exchange of a Strait ends without a delay (R242). -/
def State.discardExchange (s : State) (p : Nat) : State :=
  (s.bump (TMG_PORTn_XCNT_DISC p) 1).onPort p fun q => { q with out := none }

/-- TIMEX_REQUEST_SEND (R41, R242): 10 µs apart until 64 exchanges are collected, then 125 µs of fabric time; at most one is outstanding. It waits for
a frame in progress and for the frames of Narrows that can go (R235). -/
def execTimexRequestSend (port : Fin 4) (s : State) : Outcome :=
  match s.timexAt port with
  | some t =>
    let s := s.reachFt t
    let s := s.narrowsFirst port (s.narrowsWaiting port)
    .next ((s.reach (s.strait port).sendTill).sendTimex port)
  | none => .next s

/-- The reply to a request that arrived at `t2` (R42, Table 9.7), stamped at the present fabric time. -/
def State.timexReply (s : State) (seq : Byte) (t2 : Nat) : TimexReply :=
  { seq := seq, t2 := t2, t3 := s.ft, tick := s.tickNo, off := s.get TMG_PATH_OFS_V, res := 768, period := s.period,
    epoch := s.get64 TMG_EPOCH_LO, utc := BitVec.ofNat 64 (s.get64 TMG_UTC_OFS_LO), ksw := (s.tick.pchg.map (·.1)).getD 0,
    pnew := (s.tick.pchg.map (·.2)).getD 0, lock := Fin.ofNat 4 (s.get TMG_STAT_STATE), harbour := s.isHarbour,
    pchg := s.tick.pchg.isSome, crcOk := true }

/-- The reply is sent: 65 symbols (R242). -/
def State.sendReply (s : State) (n : Nat) (r : TimexReply) : State :=
  (s.emit (.timexReply n (timexReplyBytes r))).onPort n fun q => { q with inFrame := none, sendTill := s.now + 65 * 320 }

/-- TIMEX_REQUEST (R242): answered after `turn` of at most 2 µs, and after a frame in progress and the frames of Narrows that can go
(R235); one whose SEQ check fails is discarded (DEDUCED, log entry 32). -/
def execTimexRequest (port : Fin 4) (seq nseq : Byte) (turn : Fin 32001) (s : State) : Outcome :=
  if ¬ s.up port then .next s
  else
    let s := s.bump ⟨FAB_PORTn_CNTm port 18, 0, 32⟩ 1
    if nseq ≠ ~~~seq then .next (s.bump ⟨FAB_PORTn_CNTm port 19, 0, 32⟩ 1)
    else
      let t2 := s.ft
      let s := s.reach (s.now + turn)
      let s := s.narrowsFirst port (s.narrowsWaiting port)
      let s := s.reach (s.strait port).sendTill
      .next (s.sendReply port (s.timexReply seq t2))

/-- The mean of the delays held for a Strait. -/
def meanDelay (l : List Int) : Int := (meanI l).getD 0

/-- A measured delay `d` enters those of Strait `p` (R41): 64 at link-up, then the last 16 and none more than 2 ns off their
mean. Answers whether the exchange is kept. -/
def State.takeDelay (s : State) (p : Nat) (d : Int) : Bool × State :=
  let q := s.strait p
  if q.exchanges < 64 then
    let l := d :: q.dlys
    let s := (s.bump (TMG_PORTn_XCNT_N p) 1).onPort p fun q => { q with exchanges := q.exchanges + 1, dlys := l, out := none }
    if q.exchanges + 1 = 64 then
      (true, (((s.put (TMG_PORTn_DLY_D p) (ofI 24 (meanDelay l))).put (TMG_PORTn_DLY_VALID p) 1).put (FAB_PORTn_STAT_DLYVALID p) 1).put
        (FAB_PORTn_TRAIN_STEP p) 5)
    else (true, s)
  else if 32 < (d - meanDelay (q.dlys.take 16)).natAbs then (false, (s.bump (TMG_PORTn_XCNT_N p) 1).discardExchange p)
  else
    let l := (d :: q.dlys).take 16
    let s := (s.bump (TMG_PORTn_XCNT_N p) 1).onPort p fun q => { q with dlys := l, out := none }
    (true, s.put (TMG_PORTn_DLY_D p) (ofI 24 (meanDelay l)))

/-- The delay of Strait `p` in use, in 1/16 ns. -/
def State.delayOf (s : State) (p : Nat) : Nat := s.get (TMG_PORTn_DLY_D p)

/-- A period that comes into force outside a switch. -/
def State.setPeriod (s : State) (p : Nat) : State :=
  let s := (s.put TMG_PERIOD_ACT_P p).put TMG_STAT_NB (nbOf p)
  { s with meas := { s.meas with accP := 0 } }

/-- What an island takes from the reply of its upstream neighbour (R42, R44, R56): path offset, UTC offset, an announced period
change; in ACQUIRE fabric time, tick, period and epoch; otherwise a difference beyond 1 µs, or a period change it has not
seen announced, puts it into ACQUIRE. -/
def State.followReply (s : State) (p : Nat) (r : TimexReply) (t4 : Nat) : State :=
  let d := s.delayOf p
  let s := s.put TMG_PATH_OFS_V (if r.harbour then d else r.off + r.res + d)
  let s := s.put64 TMG_UTC_OFS_LO r.utc.toNat
  let s : State := if r.pchg then { s.put TMG_STAT_PCHG_PEND 1 with tick := { s.tick with pchg := some (r.ksw, r.pnew) } } else s
  if s.get TMG_STAT_STATE = 1 then
    let s := if r.period != s.period then (let s := s.newPeriod r.period; { s with meas := { s.meas with accP := 0 } }) else s
    ((s.stepFt ((r.t3 : Int) + d - t4)).put64 TMG_TICK_LO r.tick).put64 TMG_EPOCH_LO r.epoch
  else if 16000 < ((r.t3 : Int) + d - t4).natAbs then s.acquire
  else if s.tick.pchg.isNone && (r.period != s.period || r.epoch != s.get64 TMG_EPOCH_LO) then s.acquire
  else s

/-- What a reply on Strait `p` says of its sender to a part that starts as harbour or is one: fabric time, once the delay of the
Strait is known (R33, R41); a harbour to stand by for (R276), or one that ranks higher (R258, R277). A reply carries no TERM:
the sender's is taken to be the highest heard (DEDUCED, log entries 47, 62). -/
def State.hearReply (s : State) (p : Nat) (r : TimexReply) (t4 : Nat) : State :=
  if s.net.listenTill.isSome then
    let s := if s.flag (TMG_PORTn_DLY_VALID p) then s.stepFt ((r.t3 : Int) + s.delayOf p - t4) else s
    if r.harbour then s.joinStandby else s
  else if s.isHarbour && r.harbour &&
      ranksAbove s.net.highTerm (s.get64 (FAB_PORTn_PEER_ID_LO p)) (s.get FAB_TERM_TERM) s.uid then s.demote
  else s

/-- TIMEX_REPLY (R40 to R42, R242): a reply more than 10 µs after the request finds it given up, and an exchange that is discarded
tells nothing else either (DEDUCED, log entry 47). -/
def execTimexReply (port : Fin 4) (l : List Byte) (t4 : Nat) (s : State) : Outcome :=
  let r := parseReply l
  let bad (s : State) : State := s.bump ⟨FAB_PORTn_CNTm port 19, 0, 32⟩ 1
  if ¬ s.up port then .next s
  else
    match (s.strait port).out with
    | none => .next (bad s)
    | some (n, t1) =>
      if t1 + 10 * us < t4 then .next (bad ((s.reachFt (t1 + 10 * us)).discardExchange port))
      else
        let s := s.reachFt t4
        if ¬ r.crcOk ∨ r.seq.toNat ≠ n then .next ((bad s).discardExchange port)
        else
          let d := rdivI (((t4 : Int) - t1) - ((r.t3 : Int) - r.t2)) 2 - toI 32 (s.rdN (TMG_PORTn_ASYM port))
          let k := s.takeDelay port d
          let s := k.2.onPort port fun q => { q with lastReply := some r }
          if ¬ k.1 then .next s
          else
            let s := s.hearReply port r t4
            let up := !s.isHarbour && s.flag FAB_POS_UPV && s.get TMG_STAT_UPSTREAM == port.val
            .next (if up && s.flag (TMG_PORTn_DLY_VALID port) then s.followReply port r t4 else s)

/-- TIMEX_REPLY_TIMEOUT (R242): 10 µs after the request. -/
def execTimexReplyTimeout (port : Fin 4) (s : State) : Outcome :=
  match (s.strait port).out with
  | some (_, t1) => .next ((s.reachFt (t1 + 10 * us)).discardExchange port)
  | none => .next s

/-! ## TMG_CTRL -/

/-- A write of TMG_CTRL that is performed (Table 2.6). -/
def State.writeTmgCtrl (s : State) (i : Initiator) (v : Nat) : State :=
  let s := s.plainWrite i TMG_CTRL v
  if bitOf v 1 then s.acquire else s

/-- TMG_ENABLE (R466): it acts from the next tick boundary. -/
def execTmgEnable (i : Initiator) (v : Word) (s : State) : Outcome :=
  .next (s.writeRow i TMG_CTRL fun s => s.writeTmgCtrl i v.toNat)

/-- FORCE_ACQ (R44, Table 2.6). -/
def execForceAcq (i : Initiator) (v : Word) (s : State) : Outcome :=
  .next (s.writeRow i TMG_CTRL fun s => s.writeTmgCtrl i (setBitN v.toNat 1))

/-! ## The change of period -/

/-- PERIOD_SWITCH (R56): at S(k_sw) the new period is in force with E such that S(k_sw) stays where it is; a sweep and a TRIM
run end (R129, Table 14.3), and the configuration is admitted again (R50) (DEDUCED, log entry 52). -/
def execPeriodSwitch (s : State) : Outcome :=
  match s.tick.pchg with
  | none => .next s
  | some (k, p) =>
    let s := s.reachFt (s.sampleAt k)
    let t : Int := s.get64 TMG_EPOCH_LO + k * s.period * 1000
    let e := ofI 64 (t - k * p * 1000)
    let open_ := decide (k ≤ s.tickNo)
    let acc := if s.meas.accP = 0 then s.period else s.meas.accP
    let s := ((s.newPeriod p).put64 TMG_EPOCH_LO e).put TMG_STAT_PCHG_PEND 0
    let s := { s with tick := { s.tick with pchg := none }, meas := { s.meas with accP := if open_ then p else acc } }
    .next (if s.tick.askDue && !s.net.rnd.running && !s.net.rnd.wanted && s.net.commit.isNone then s.ownPeriod else s)

end Sys2Proof.Machine
end

