-- ==== Sys2Proof/Machine/Slots.lean ====
section
/-! DEFINITION. Flash slots (R386 to R395): the header, verification, the records of a configuration, seal, selection and
adoption (R390, R391), probation (R398), the switch between resident configurations (R396, R397), the change of period (R56). -/

namespace Sys2Proof.Machine

/-! ## Layout -/

/-- The number of `k` bytes at offset `o` of the image at Lagoon offset `img`. -/
def State.imgLE (s : State) (img o k : Nat) : Nat := s.memLE (lagoon + img + o) k

/-- VERSION of an image. -/
def State.imgVersion (s : State) (img : Nat) : Nat := s.imgLE img 8 4

/-- The body bytes of an image, at most what its slot holds. -/
def State.imgBody (s : State) (img kind : Nat) : List Byte :=
  s.memBytes (lagoon + img + 256) (min (s.imgLE img 12 4) (slotSize kind - 256))

/-! ## Verification -/

/-- MAGIC, HVER, KIND, LEN and HCRC (Table 15.2). -/
def State.headGood (s : State) (img kind : Nat) : Bool :=
  s.imgLE img 0 4 == (if kind = 0 then 0x46434C4F else 0x57464C4F) && s.imgLE img 4 2 == 1 && s.imgLE img 6 1 == kind &&
    decide (1 ≤ s.imgVersion img) && decide (s.imgLE img 12 4 + 256 ≤ slotSize kind) &&
    s.imgLE img 60 4 == crc32c (s.memBytes (lagoon + img) 60)

/-- COMMIT holds (Table 15.2). -/
def State.commitGood (s : State) (img : Nat) : Bool := s.imgLE img 192 4 == s.imgVersion img ^^^ 0x5A5AA5A5

/-- The OTP CFGKEY bit (Table 11.1). -/
def State.cfgKey (s : State) : Bool := bitOf (s.rdN (PSF_OTPk 7)) 1

/-- The signature of an image holds against the key hash at an OTP offset (R389; PRESUMED, log entry 6). -/
def State.signatureGood (s : State) (img kind : Nat) : Bool :=
  let a := lagoon + img
  let key := if kind = 0 then 0x820 else 0x700
  bitOf (s.imgLE img 7 1) 0 &&
    signatureHolds (s.memBytes (otpBase + key) 32) (s.memBytes a 64 ++ s.imgBody img kind) (s.memBytes (a + 64) 128)

/-- The registers whose write R32 withholds from engine `e` after seal. The disconnect output controls are taken to be PSF_OUT_CMD and
PSF_ARM; an engine other than MC requests output-off through PSF_OFFREQ (R32, R301; DEDUCED, log entry 238). -/
def withheld (e : Nat) : List Nat :=
  ((List.range 32).map fun n => PSF_DCn_CFG n) ++ [PSF_SC_CFG] ++ (if e = 15 then [] else [PSF_OUT_CMD, PSF_ARM])

/-- The image of engine `e` in a firmware set passes R395 (DEDUCED, log entry 238). -/
def State.fwEngineGood (s : State) (img e : Nat) : Bool :=
  let w (o k : Nat) : Nat := s.fwLE img (32 * e + o) k
  let iofs := w 0 4
  let ilen := w 4 4
  let dlen := w 8 4
  let nwin := w 28 1
  let tab := iofs + ilen + dlen
  let word (o : Nat) : Nat := s.fwLE img (tab + o) 4
  let sizes := if e < 15 then decide (ilen ≤ 0x10000) && decide (dlen ≤ 0xF000)
    else decide (cdivN ilen 4096 * 4096 + dlen ≤ 0x3F000)
  let tasks := (List.range 16).all fun t => fieldOf (word (4 * t)) 20 2 == 3 || fieldOf (word (4 * t)) 0 20 != 0
  let grant (k : Nat) : Bool :=
    let perm := word (64 + 12 * k + 8)
    (bitOf perm 1 || bitOf perm 5) &&
      (withheld e).any fun a => decide (word (64 + 12 * k) ≤ a + 3) && decide (a ≤ word (64 + 12 * k + 4))
  sizes && decide (1 ≤ nwin) && decide (nwin ≤ 32) && decide (tab + 64 + 12 * nwin ≤ s.imgLE img 12 4) &&
    crc32c (s.imageCode img e) == w 24 4 && tasks && !(List.range nwin).any grant

/-! ## Configuration records -/

/-- A record of a configuration body (Table 15.3). -/
inductive CfgRec where
  | reg (a : Nat) (ws : List Nat)
  | field (a m v : Nat)
  | data (o : Nat) (l : List Byte)
  | task (e t c : Nat)
  deriving DecidableEq, Repr

/-- The records of a body from offset `o` on, none where it is not well formed (R393): `n` bounds their number. -/
def State.records (s : State) (img len : Nat) : Nat → Nat → Option (List CfgRec)
  | 0, _ => none
  | n + 1, o =>
    let w (x k : Nat) : Nat := s.imgLE img (256 + o + x) k
    let l := w 2 2
    if len < o + 4 + l then none
    else
      let rest := s.records img len n (o + 4 + l)
      let add (r : CfgRec) : Option (List CfgRec) := rest.map (r :: ·)
      match w 0 1 with
      | 1 => if l < 4 ∨ l % 4 ≠ 0 then none else add (.reg (w 4 4) ((List.range (l / 4 - 1)).map fun j => w (8 + 4 * j) 4))
      | 2 => if l ≠ 12 then none else add (.field (w 4 4) (w 8 4) (w 12 4))
      | 3 => if l < 4 then none else add (.data (w 4 4) (s.memBytes (lagoon + img + 256 + o + 8) (l - 4)))
      | 4 => if l ≠ 4 then none else add (.task (w 4 1) (w 5 1) (w 6 1))
      | 0xFF => if l = 0 then some [] else none
      | _ => none

/-- The records of the configuration at Lagoon offset `img`. -/
def State.cfgRecords (s : State) (img : Nat) : Option (List CfgRec) :=
  let len := min (s.imgLE img 12 4) (slotSize 0 - 256)
  s.records img len (len / 4 + 1) 0

/-- The bits of a register that the configuration loader may touch: RW, RWS and RW1C fields (R393). -/
def loadMask (d : RegDesc) : Nat :=
  ((d.fields.filter fun f => f.kind == .rw || f.kind == .rws || f.kind == .rw1c).map fun f => (2 ^ f.width - 1) * 2 ^ f.lo).foldl
    (· ||| ·) 0

/-- A REG or FIELD record may touch the bits `m` of address `a` (R393) (DEDUCED, log entry 35). -/
def mayLoad (a m : Nat) : Bool :=
  decide (a < 0xA1000) && match regAt a with
    | some (d, _, _) => m &&& loadMask d == m
    | none => false

/-- A record is permitted (R393). A REG record touches the bits that it sets (DEDUCED, log entry 35). -/
def State.recordGood (s : State) : CfgRec → Bool
  | .reg a ws => ws.zipIdx.all fun x => mayLoad (a + 4 * x.2) x.1
  | .field a m _ => mayLoad a m
  | .data o l => decide (o + l.length ≤ 0x40000)
  | .task e t _ => decide (e < 16) && decide (t < 16) && s.get (ENG_n_TASKt_CFG_UNIT e t) != 3

/-- The configuration loader gives the bits `m` of register `a` the value `v` (R392): clipped under R31 and R286; RW fields it
writes are sealed like RWS fields; an RW1C bit of value 1 is cleared (R393, Table 0.3) (DESIGN CHOICE, log entry 237). -/
def State.loadBits (s : State) (a m v : Nat) : State :=
  match regAt a with
  | none => s
  | some (d, _, _) =>
    d.fields.foldl
      (fun (s : State) (f : FieldDesc) =>
        let fm := fieldOf m f.lo f.width
        let set := fieldOf v f.lo f.width &&& fm
        if fm = 0 ∨ ¬ (f.kind = .rw ∨ f.kind = .rws ∨ f.kind = .rw1c) then s
        else
          let old := fieldOf (s.rdN a) f.lo f.width
          let s := s.takeField a f (if f.kind = .rw1c then set else (old - (old &&& fm)) + set)
          if f.kind = .rw then { s with loaderRw := (a, (2 ^ f.width - 1) * 2 ^ f.lo) :: s.loaderRw } else s) s

/-- The Lagoon offset of the configuration data area (Table 15.7). -/
def dataOff : Nat := 0xB40000

/-- A record applied (R392). -/
def State.applyRecord (s : State) : CfgRec → State
  | .reg a ws => ws.zipIdx.foldl (fun (s : State) (x : Nat × Nat) => s.loadBits (a + 4 * x.2) 0xFFFFFFFF x.1) s
  | .field a m v => s.loadBits a m v
  | .data o l => s.memPut (lagoon + dataOff + o) l
  | .task e t c => s.put (ENG_n_TASKt_CFG_COUNT e t) c

/-- A register word with what a configuration gives it back at its reset value: RWS fields and the RW fields the loader wrote
(DEDUCED, log entry 36). -/
def State.revertWord (s : State) (a : Nat) (w : Word) : Word :=
  match regAt a with
  | none => w
  | some (d, _, _) =>
    let r := (resetWord a).toNat
    BitVec.ofNat 32 (d.fields.foldl
      (fun (x : Nat) (f : FieldDesc) =>
        if f.kind = .rws ∨ s.loaderBits a f.lo f.width then withField x f.lo f.width (fieldOf r f.lo f.width) else x) w.toNat)

/-- The values of a configuration are given up: the registers as before its records (DEDUCED, log entry 36). -/
def State.revertConfig (s : State) : State :=
  let one (e : Nat × Word) : Option (Nat × Word) :=
    let w := s.revertWord e.1 e.2
    if w = resetWord e.1 then none else some (e.1, w)
  let s := { s with regs := s.regs.filterMap one, loaderRw := [], sealed := false }
  (List.range 16).foldl
    (fun (s : State) (e : Nat) => (List.range 16).foldl (fun (s : State) (t : Nat) => s.put (ENG_n_TASKt_CFG_COUNT e t) 0) s) s

/-- Values beyond the ceilings are clipped at once, and the clips counted (R286); the seal record keeps what it holds (R447, R448). -/
def State.clipAll (s : State) : State :=
  let one (s : State) (c : Ceil) : State :=
    let f : Fld := ⟨c.addr, c.lo, c.width⟩
    let x := s.ceilClip c.addr c.lo (s.get f)
    if x = s.get f then s else (s.put f x).bump PSF_CLIPS_CEIL 1
  ceilTable.foldl one s

/-- The thresholds of the stack die's comparators within their ceilings (R286, R361). -/
def State.clipComparators (s : State) : State :=
  let one (s : State) (c : Ceil) : State :=
    let f : Fld := ⟨c.addr, c.lo, c.width⟩
    s.put f (s.ceilClip c.addr c.lo (s.get f))
  (ceilTable.filter fun c => c.addr == PSF_SC_CFG || (List.range 32).any fun n => c.addr == PSF_DCn_CFG n).foldl one s

/-- The configuration at Lagoon offset `img` applied over reset values (R392); none where its records do not parse
(DEDUCED, log entry 36). A value that it leaves at reset is clipped to its ceiling as well (R30, R286). -/
def State.applyConfig (s : State) (img : Nat) : Option State :=
  (s.cfgRecords img).map fun l => (l.foldl State.applyRecord s.syncScrub.revertConfig).clipAll

/-! ## Checks of a configuration's content -/

/-- Two entries of a list are equal. -/
def hasTwins : List Nat → Bool
  | [] => false
  | x :: t => t.contains x || hasTwins t

/-- The temperature table of R135 is strictly ordered. -/
def State.tempOrdered (s : State) : Bool :=
  let p := s.tempPoint
  let inc (f : Nat → Int) : Bool := (List.range 15).all fun j => decide (f j < f (j + 1))
  inc (fun j => (p j).1) && (inc (fun j => (p j).2) || inc fun j => -(p j).2)

/-- The checks that "fail verification at load" (R60, R114, R176, R207, R231), on the registers a configuration gives. -/
def State.contentGood (s : State) : Bool :=
  let n := s.get CMF_CELLS_N
  let t (f : Fld) : Nat := s.get f
  let freq := (List.range 24).all fun b => s.binF b == 0 || (decide (5 ≤ s.binF b) && decide (s.binF b ≤ 500000))
  let stage (st : Nat) : Bool :=
    let bins := s.stageBins st
    decide (bins.length ≤ s.get CSI_IMP_CTRL_CONC) && !hasTwins (bins.map (s.binM (s.stageLen bins)))
  let temp := s.tempBin.isNone || s.tempOrdered
  let ring := decide (s.get CSI_IMP_RING_BASE * 2 ^ 20 + 2 ^ s.get CSI_IMP_RING_DEPTH * 8192 ≤ 48 * 2 ^ 20)
  let thr := decide (t AUX_THR_CFG_T1 < t AUX_THR_CFG_T2) && decide (t AUX_THR_CFG_T2 < t AUX_THR_CFG_T3) &&
    decide (t AUX_THR_CFG_T3 ≤ 150)
  let pre := (List.range 16).all fun e => (s.tasks e).all fun k => k.unit == 3 || k.count == 0 || !k.pre || k.ess
  let buf (p : Nat) : Bool :=
    let l := (s.ownAllot p).toList
    (l.all fun u => decide (9 ≤ u)) && decide (sumN l ≤ 128)
  decide (12 ≤ n) && decide (n ≤ 32) && freq && (List.range 8).all stage && temp && ring && thr && pre && (List.range 4).all buf

/-- The registers that the configuration at `img` gives, at its own period where `own` says so (R114), otherwise at the active
fabric period (R50). -/
def State.trial (s : State) (own : Bool) (img : Nat) : Option State :=
  (s.applyConfig img).map fun t => if own then t.setPeriod (t.get TMG_PERIOD_P_US) else t

/-- The body of an image passes its own checks (R389). -/
def State.bodyGood (s : State) (img kind : Nat) : Bool :=
  if kind = 0 then
    match s.cfgRecords img with
    | some l => l.all s.recordGood && match s.trial true img with
      | some t => t.contentGood
      | none => false
    | none => false
  else (List.range 16).all fun e => s.fwEngineGood img e

/-- The first check that an image fails, as MGT_UPD_STAT.CODE numbers them; 0 when it verifies (R389). A slot without its
commit record is incomplete, code 1 (DEDUCED, log entry 37). -/
def State.verifyCode (s : State) (img kind : Nat) (commit : Bool) : Nat :=
  if ¬ s.headGood img kind then 2
  else if commit && !s.commitGood img then 1
  else if s.imgLE img 16 4 ≠ crc32c (s.imgBody img kind) then 3
  else if (kind == 1 || s.cfgKey) && !s.signatureGood img kind then 4
  else if ¬ s.bodyGood img kind then 5
  else 0

/-- The registers that describe slot `i` (Table 15.15), from its resident copy; `code` its first failed check. A signature has held where
only the body checks after it fail. -/
def State.showSlot (s : State) (i code : Nat) : State :=
  let img := slotOff i
  let kind := slotKind i
  let h := s.headGood img kind
  let signed := (code == 0 || code == 5) && (kind == 1 || s.cfgKey)
  let w := b2n h + 2 * b2n (s.commitGood img) + 4 * b2n (code == 0) + 8 * b2n (s.imgLE img 196 4 != 0xFFFFFFFF) +
    16 * b2n (s.imgLE img 200 4 == 0) + 32 * b2n signed + 64 * b2n (s.flag (MGT_SLOTs_HDR_INFORCE i)) + code * 256
  let s := s.wrN (MGT_SLOTs_HDR i) w
  if h then (s.wrN (MGT_SLOTs_VER i) (s.imgVersion img)).put64 (MGT_SLOTs_TS_LO i) (s.imgLE img 20 8) else s

/-- Slot `i` is read from the flash into the Lagoon: no further than its header where that fails (Table 13.8, step 3)
(DEDUCED, log entry 148). -/
def State.readSlot (s : State) (i : Nat) : State :=
  let img := lagoon + slotOff i
  let s := s.memPut img (bytesAt flashDefault s.flash (slotBase i) 256)
  if s.headGood (slotOff i) (slotKind i) then
    s.memPut (img + 256) (bytesAt flashDefault s.flash (slotBase i + 256) (s.imgLE (slotOff i) 12 4))
  else s

/-- The resident copy of slot `i` is verified; one that does not verify is fault 0/0x11 (Table 12.1). -/
def State.checkSlot (s : State) (i : Nat) : State :=
  let code := s.verifyCode (slotOff i) (slotKind i) true
  let s := s.showSlot i code
  if code = 0 then s else s.fault 0 0x11 i

/-! ## Adoption -/

/-- The slot of highest VERSION, the first one on a tie. -/
def State.newestSlot (s : State) (l : List Nat) : Option Nat :=
  l.foldl (fun m i => match m with
    | some j => if s.rdN (MGT_SLOTs_VER j) < s.rdN (MGT_SLOTs_VER i) then some i else some j
    | none => some i) none

/-- Slot `i` verifies. -/
def State.slotGood (s : State) (i : Nat) : Bool := s.flag (MGT_SLOTs_HDR_VERIFIED i)

/-- Slot `i` has been rejected. -/
def State.slotBad (s : State) (i : Nat) : Bool := s.flag (MGT_SLOTs_HDR_REJECTED i)

/-- Slot `i` comes into force: INFORCE and, while PASSED is erased, probation (R398). -/
def State.putInForce (s : State) (i : Nat) : State :=
  let other := if i < 2 then 1 - i else 5 - i
  let s := (s.put (MGT_SLOTs_HDR_INFORCE i) 1).put (MGT_SLOTs_HDR_INFORCE other) 0
  let prob := !s.flag (MGT_SLOTs_HDR_PASSED i)
  let s := s.countProbation
  let s := (s.putBit MGT_PROB_STAT_SLOTS other false).putBit MGT_PROB_STAT_SLOTS i prob
  let s := { s with mgt := { s.mgt with prob := vset s.mgt.prob i 0 } }
  s.putB (if i < 2 then MGT_CFG_STAT_PROB else MGT_FW_STAT_PROB) prob

/-- The firmware set of slot `i` comes into force, with the images of every engine (R394, R395); FORCED speaks of either kind (R390). -/
def State.takeFirmware (s : State) (i : Nat) (forced : Bool) : State :=
  let s := ((s.put MGT_FW_STAT_SLOT (i - 2)).putB MGT_FW_STAT_FORCED forced).putB MGT_CFG_STAT_FORCED forced
  let s := s.wrN ENG_BUILD (s.rdN (MGT_SLOTs_VER i))
  let s := (s.putInForce i).logSlot 0 i
  (List.range 16).foldl (fun (s : State) (e : Nat) => s.installImage (slotOff i) e) s

/-- The firmware set is adopted (R390): newest verifying one not rejected, else the newest verifying one. Answers whether there
is one. -/
def State.adoptFirmware (s : State) : Bool × State :=
  let good := [2, 3].filter s.slotGood
  match s.newestSlot (good.filter fun i => !s.slotBad i), s.newestSlot good with
  | some i, _ => (true, s.takeFirmware i false)
  | none, some i => (true, (s.takeFirmware i true).logSlot 6 i)
  | none, none => (false, s)

/-- The configuration is sealed (R31, R447): the registers as they stand are the seal record, and the comparator pairs of the
used channels are enabled (R61, R81). -/
def State.sealConfig (s : State) : State :=
  let s := (List.range 32).foldl (fun (s : State) (c : Nat) => s.putB (PSF_DCn_STAT_EN c) (decide (c < s.cellsN))) s
  { s.countCway with sealed := true, sealRec := s.regs, fcr := { s.fcr with upset := [] } }

/-- The base duty set (R55): registers at their reset values, outputs not armed. -/
def State.baseDuty (s : State) : State :=
  let s := s.revertConfig.clipAll
  (((s.put MGT_CFG_STAT_BASE 1).put MGT_CFG_STAT_VERSION 0).put MGT_CFG_STAT_PROB 0).sealConfig

/-- The configuration of slot `i` is in force and sealed, in the state `t` that its records gave. -/
def State.takeConfig (t : State) (i : Nat) : State :=
  let t := ((t.put MGT_CFG_STAT_BASE 0).put MGT_CFG_STAT_SLOT i).put MGT_CFG_STAT_VERSION (t.rdN (MGT_SLOTs_VER i) % 2 ^ 24)
  ((t.putB MGT_CFG_STAT_FORCED (t.flag MGT_FW_STAT_FORCED)).putInForce i).sealConfig

/-- Selection and adoption of the configuration (R390, R391): `n` bounds the attempts. `first` permits the forced adoption of a
rejected one, which runs the base duty set. Admission is at the active fabric period, which is the configured one where none is in
force yet, `own` (R50); a configured period outside its range is code 0x05 (R55). -/
def State.adoptConfig (own : Bool) : Nat → Bool → State → State
  | 0, _, s => s.baseDuty
  | n + 1, first, s =>
    let fw := s.rdN ENG_BUILD
    let good := [0, 1].filter fun i => s.slotGood i && decide (s.imgLE (slotOff i) 28 4 ≤ fw)
    match s.newestSlot (good.filter fun i => !s.slotBad i), (if first then s.newestSlot good else none) with
    | some i, _ =>
      match s.trial own (slotOff i) with
      | none => s.baseDuty
      | some t =>
        let (ok, t) := t.admitTasks t.period
        if ok then (t.takeConfig i).logSlot 0 i
        else State.adoptConfig own n false (((s.wrN MGT_ADMIT_CODE (t.rdN MGT_ADMIT_CODE)).rejectSlot i).logSlot 1 i)
    | none, some i => ((s.baseDuty.put MGT_CFG_STAT_FORCED 1).put MGT_CFG_STAT_SLOT i).logSlot 6 i
    | none, none => s.baseDuty

/-! ## The switch -/

/-- The configuration in force is newer than the one at `img` and its slot is not rejected: that one may not be adopted (R390)
(DEDUCED, log entry 263). -/
def State.tooOld (s : State) (img : Nat) : Bool :=
  let i := s.get MGT_CFG_STAT_SLOT
  !s.flag MGT_CFG_STAT_BASE && s.flag (MGT_SLOTs_HDR_INFORCE i) && decide (s.imgVersion img < s.rdN (MGT_SLOTs_VER i)) && !s.slotBad i

/-- A switch to configuration slot `i` is asked for (R396): the status of Table 15.5, the tick scheduled, and the state
(DEDUCED, log entries 48, 128). An older VERSION than the one in force is a mismatch unless the newer slot has been rejected (R390;
DEDUCED, log entry 263). -/
def State.askSwitch (s : State) (i version ksw : Nat) : (Nat × Nat) × State :=
  let img := slotOff i
  if ¬ (s.mode = 2 ∨ s.mode = 4) then ((4, 0), s)
  else if s.cfgSwitch.isSome ∨ s.flag (MGT_SLOTs_HDR_BUSY i) then ((5, 0), s)
  else
    let good := s.verifyCode img 0 true == 0 && !s.slotBad i && (version == 0 || version == s.imgVersion img) &&
      decide (s.imgLE img 28 4 ≤ s.rdN ENG_BUILD) && !s.tooOld img
    match (if good then s.applyConfig img else none) with
    | none => ((2, 0), s)
    | some t =>
      let r := t.admission s.period
      let s := s.wrN MGT_ADMIT_CODE (admitWord r)
      if r.1 ≠ 0 then ((1, 0), s)
      else if ksw ≠ 0 ∧ ksw ≤ s.tickNo then ((3, 0), s)
      else
        let k := if ksw = 0 then s.tickNo + 1 else ksw
        ((0, k), { s.put MGT_CFG_SW_STAT_PEND 1 with cfgSwitch := some (i, k) })

/-- A write of MGT_CFG_SWITCH that is performed (R396). -/
def State.writeCfgSwitch (s : State) (i : Initiator) (v : Nat) : State :=
  s.ifPrivileged i MGT_CFG_SWITCH fun s =>
    if ¬ bitOf v 31 then s
    else
      let ((st, k), s) := s.askSwitch (v % 2) 0 (s.get64 MGT_CFG_KSW_LO % 2 ^ 48)
      let s := s.put MGT_CFG_SW_STAT_STATUS st
      if st = 0 then s.put64 MGT_CFG_KSW_LO k else s

/-- CFG_SWITCH_REQUEST (R396). -/
def execCfgSwitchRequest (i : Initiator) (v : Word) (s : State) : Outcome :=
  .next (s.writeRow i MGT_CFG_SWITCH fun s => s.writeCfgSwitch i (setBitN v.toNat 31))

/-- CFG_SWITCH_FRAME (R396, Table 15.5): from SRC 0x00 only; every request is answered. -/
def execCfgSwitchFrame (port : Fin 4) (f : Frame) (s : State) : Outcome :=
  let s := s.takeInbox f
  if f.typ ≠ 0x23 ∨ f.src ≠ 0 ∨ f.payload.length ≠ 20 ∨ byteAt f.payload 2 ≠ 0 then .next s
  else
    let ((st, k), s) := s.askSwitch (byteAt f.payload 3 % 2) (leAt f.payload 4 4) (leAt f.payload 8 6)
    let s := s.put MGT_CFG_SW_STAT_STATUS st
    let s := if st = 0 then s.put64 MGT_CFG_KSW_LO k else s
    let pay := f.payload.take 2 ++ leBytes 1 1 ++ (f.payload.drop 3).take 5 ++ leBytes 6 k ++ leBytes 1 st ++ leBytes 1 0 ++
      leBytes 4 (s.rdN MGT_ADMIT_CODE)
    .next (s.answer (s.answerPort port f) f.src 0x23 pay)

/-- CFG_SWITCH_APPLY (R397): at S(k_sw) the target is installed and sealed, the part disarms, a sweep ends under the configuration that
ended it, every engine enters with cause 5; offsets learned with another table are discarded (R137), a Strait disabled goes down (R246); on the harbour another
period is asked for. -/
def execCfgSwitchApply (s : State) : Outcome :=
  match s.cfgSwitch with
  | none => .next s
  | some (i, k) =>
    let s := s.reachFt (s.sampleAt k)
    let old := s.tempTable
    let cyc := s.cyc
    let s := { s with cfgSwitch := none }.put MGT_CFG_SW_STAT_PEND 0
    match (s.sweepEnd 5).applyConfig (slotOff i) with
    | none => .next s
    | some t =>
      let s := (((t.admitTasks t.period).2.takeConfig i).bump MGT_CFG_SW_STAT_N 1).logSlot 2 i
      let s := ((((s.disarm).followSwb 0).followSwb 1).rebaseCopies cyc).showVaux
      let s := if s.tempTable = old then s else s.relearn
      let s := (List.range 4).foldl State.followEnable s
      let s := (List.range 16).foldl (fun (s : State) (e : Nat) => s.onEng e fun g => { g with nextCause := 5 }) s
      let p := s.get TMG_PERIOD_P_US
      .next (if s.isHarbour ∧ p ≠ s.period then s.askPeriod p else s)

/-! ## Probation and rejection -/

/-- The probation time in 1/16 ns (R398). -/
def State.probTime (s : State) : Nat := s.getIn MGT_PROB_CFG_MIN 1 1440 * 60 * sec

/-- PROBATION_PASSED (R398): MC programs PASSED once the slot has been in RUN for MIN minutes; while it is fenced it pauses (R209;
DEDUCED, log entry 241). -/
def execProbationPassed (slot : Fin 4) (s : State) : Outcome :=
  if s.bit MGT_PROB_STAT_SLOTS slot && s.mode == 2 && !s.engFenced 15 then
    let s := s.countProbation
    let s := (s.reach (s.now + (s.probTime - vget s.mgt.prob slot 0))).countProbation
    let s := s.flashPut (slotBase slot + 200) (List.replicate 4 0)
    let s := (s.put (MGT_SLOTs_HDR_PASSED slot) 1).putBit MGT_PROB_STAT_SLOTS slot false
    .next ((s.put (if slot.val < 2 then MGT_CFG_STAT_PROB else MGT_FW_STAT_PROB) 0).logSlot 5 slot)
  else .next s

/-- A write of MGT_SLOT_CTRL that is performed: with its key it rejects committed slots (R388, R390). -/
def State.writeSlotCtrl (s : State) (i : Initiator) (v : Nat) : State :=
  s.ifPrivileged i MGT_SLOT_CTRL fun s =>
    if v / 65536 ≠ 0x7E3D then s
    else ((bitsOf 4 v).filter fun k => s.flag (MGT_SLOTs_HDR_COMMIT k)).foldl
      (fun (s : State) (k : Nat) => (s.rejectSlot k).logSlot 1 k) s

/-- SLOT_REJECT (R390). -/
def execSlotReject (i : Initiator) (v : Word) (s : State) : Outcome :=
  .next (s.writeRow i MGT_SLOT_CTRL fun s => s.writeSlotCtrl i v.toNat)

end Sys2Proof.Machine
end

