-- ==== Sys2Proof/Machine/Calibration.lean ====
section
/-! DEFINITION. Commands and events of calibration (chapter 14): the request for a TRIM run, its points and their terms, its
commit or abort, STORE, the short TRIM of start-up. -/

namespace Sys2Proof.Machine

/-! ## Runs -/

/-- A channel of `CalRun` is in use (R372). -/
def State.calUsed (s : State) (ch : Nat) : Bool :=
  if ch < 2 then ch == 0 || !s.flag CSI_CTRL_NO_CS1
  else if ch < 34 then decide (ch - 2 < s.cellsN)
  else [1, 2].contains (s.get (AUX_INi_CFG_MODE (ch - 34)))

/-- A channel is selected in MGT_CAL_CELLSEL or MGT_CAL_OTHSEL (R372). -/
def State.calSelected (s : State) (ch : Nat) : Bool :=
  if ch < 2 then bitOf (s.rdN MGT_CAL_OTHSEL) (16 + ch)
  else if ch < 34 then bitOf (s.rdN MGT_CAL_CELLSEL) (ch - 2)
  else bitOf (s.rdN MGT_CAL_OTHSEL) (ch - 34)

/-- The procedures that PROC selects for a channel, in the order of Table 14.1. -/
def calProcs (proc ch : Nat) : List Nat :=
  if ch < 2 then (if bitOf proc 3 then [1] else []) ++ (if bitOf proc 2 then [2] else [])
  else if ch < 34 then (if bitOf proc 1 then [3] else if bitOf proc 0 then [4] else [])
  else if bitOf proc 4 then [5] else []

/-- The bit of PROC of a procedure (Table 14.1). -/
def procBit (proc : Nat) : Nat :=
  if proc = 1 then 3 else if proc = 2 then 2 else if proc = 3 then 1 else if proc = 4 then 0 else 4

/-- What a run has to do: channels in the order of R374, each with its procedures. -/
def State.calTodo (s : State) : List (Nat × Nat) :=
  (((List.range 50).filter fun ch => s.calUsed ch && s.calSelected ch).map fun ch =>
    (calProcs (s.get MGT_CAL_CTRL_PROC) ch).map fun p => (ch, p)).flatten

/-- MGT_CAL_STAT shows the procedure, channel and point of a run (Table 14.7). -/
def State.showRun (s : State) : State :=
  match s.cal.run with
  | some r =>
    let (ch, p) := r.todo.head?.getD (0, 0)
    let n := if ch < 2 then ch else if ch < 34 then ch - 2 else ch - 34
    ((s.put MGT_CAL_STAT_PROC p).put MGT_CAL_STAT_CHAN n).put MGT_CAL_STAT_POINT r.points.length
  | none => s

/-- The procedures that the reference check precedes (R371, Table 14.1) (DEDUCED, log entry 142). -/
def needsRef (proc : Nat) : Bool := proc == 1 || proc == 3 || proc == 5

/-- The reference check holds: the ratio lies within 500 ppm (R371) (DEDUCED, log entry 142). -/
def refGood (refDev : Int) : Bool := decide (-500 ≤ refDev) && decide (refDev ≤ 500)

/-- MGT_CAL_REFCHK after a reference check. -/
def State.showRefCheck (s : State) (refDev : Int) : State :=
  (s.putI MGT_CAL_REFCHK_DEV (satI 16 refDev)).putB MGT_CAL_REFCHK_OK (refGood refDev)

/-- A TRIM request is checked (R371, R373): the reason of Table 14.3 that refuses it, 0 when none does. `refDev` is the deviation of
the reference check at acceptance in ppm (DEDUCED, log entry 142). -/
def State.trimCheck (s : State) (refDev : Int) : Nat × State :=
  let todo := s.calTodo
  let refs := todo.any fun t => needsRef t.2
  let ok := refGood refDev
  let s := if refs then s.showRefCheck refDev else s
  if todo.isEmpty then (0x0D, s)
  else
    match s.calFails todo s.aux.ts false with
    | some r => (r, s)
    | none => (if refs && !ok then 6 else 0, s)

/-- The run begins at the tick boundary at which TRIM is entered (R372, Table 13.4); one with nothing to do aborts at once. -/
def State.calBegin (s : State) : State :=
  let todo := s.calTodo
  let r : CalRun := { todo := todo, points := [], ts0 := s.aux.ts, ferryChecked := false, refChecked := false, terms := [], procs := 0,
                      src := [], cover := (todo.head?.map (·.1)).toList, seen := 0 }
  let s := { s.put MGT_CAL_STAT_STATE 1 with cal := { s.cal with run := some r, newTerms := [], staleEnds := false } }
  if todo.isEmpty then (s.bump MGT_CAL_CNT_ABT 1).calEnd 0x0D else s.showRun

/-- A run whose procedures are done commits its slot (R377): the new trims take effect at the next tick boundary. During a thermal
shutdown no commit starts (Table 7.5) (DEDUCED, log entry 143). -/
def State.calFinish (s : State) (r : CalRun) (stored : Bool) : State :=
  let s := s.put MGT_CAL_STAT_STATE 2
  let stored := stored && s.aux.shutAt.isNone
  let bits (ch : Nat) : Nat := s.srcBits ch ||| ((r.src.filter fun e => e.1 == ch).map (·.2)).foldl (· ||| ·) 0
  let s := (s.reach (s.now + ms)).calCommit 0 r.procs r.ts0 r.terms bits stored
  if stored then
    let s := (r.src.map (·.1)).foldl (fun (s : State) (ch : Nat) => s.setSrc ch (bits ch)) s
    let s := { s with cal := { s.cal with newTerms := r.terms } }
    (s.bump MGT_CAL_CNT_DONE 1).calEnd 0
  else s.calAbort 0x0B

/-- The results of a point are in: the procedure goes on, or its terms are computed and checked (R375, R376)
(DEDUCED, log entry 133). -/
def State.pointDone (s : State) (r : CalRun) (ch proc : Nat) (sum : Int) (stored : Bool) : State :=
  let pts := r.points ++ [sum]
  if pts.length < procPoints proc then
    { s with cal := { s.cal with run := some { r with points := pts, seen := 0 } } }.showRun
  else
    match s.procTerms r.terms ch proc (s.getIn MGT_CAL_CFG_AVG 4 255) pts with
    | none => s.calAbort 7
    | some l =>
      if l.all fun t => termOk ch t.1 t.2 then
        let new := l.filterMap fun t => ((trimRegs ch)[t.1]?).map fun e => (e.1, t.2)
        let old := r.terms.filter fun t => !(new.any fun u => u.1 == t.1)
        let r := { r with todo := r.todo.drop 1, points := [], terms := old ++ new, procs := setBitN r.procs (procBit proc),
                          src := (ch, termSrc l) :: r.src, cover := [((r.todo.drop 1).head?.map (·.1)).getD ch], seen := 0 }
        let s := { s with cal := { s.cal with run := some r } }
        if r.todo.isEmpty then { s with cal := { s.cal with run := some { r with todo := [(ch, proc)] } } }.calFinish r stored
        else s.showRun
      else s.calAbort 7

/-- The reference check of a run, made before its first procedure that needs it (R371): a failed one aborts the run
(DEDUCED, log entry 142). -/
def State.runRefCheck (s : State) (r : CalRun) (proc : Nat) (refDev : Int) : CalRun × State :=
  if needsRef proc && !r.refChecked then
    let r := { r with refChecked := true }
    let s := { s with cal := { s.cal with run := some r } }.showRefCheck refDev
    (r, if refGood refDev then s else s.calAbort 6)
  else (r, s)

/-- CAL_POINT_COMPLETE (R372): `stored` says that the lifetime store takes the slot of a run that ends here (DEDUCED, log entry 134). -/
def execCalPointComplete (point : CalPoint) (stored : Bool) (s : State) : Outcome :=
  match s.cal.run with
  | some r =>
    match r.todo.head? with
    | some (ch, proc) =>
      if s.mode == 3 && decide (s.getIn MGT_CAL_CFG_SETTLE 2 15 + s.getIn MGT_CAL_CFG_AVG 4 255 ≤ r.seen) then
        let (r, s) := s.runRefCheck r proc point.refDev
        .next (if s.calRuns then s.pointDone r ch proc point.sum stored else s)
      else .next s
    | none => .next s
  | none => .next s

/-! ## MGT_CAL_CTRL -/

/-- A write of MGT_CAL_CTRL that is performed (Table 14.6, R385). -/
def State.writeCalCtrl (s : State) (i : Initiator) (v : Nat) (stored : Bool) : State :=
  let s := if s.calRuns then s else s.plainWrite i MGT_CAL_CTRL v
  let s := if bitOf v 8 ∧ s.mode = 3 then s.calAbort 1 else s
  if bitOf v 9 ∧ (s.mode = 3 ∨ s.mode = 4) ∧ ¬ s.calRuns then s.calCommit 2 0 s.aux.ts [] s.srcBits stored else s

/-- CAL_ABORT (R378). -/
def execCalAbort (i : Initiator) (v : Word) (s : State) : Outcome :=
  .next (s.writeRow i MGT_CAL_CTRL fun s => s.writeCalCtrl i (setBitN v.toNat 8) true)

/-- CAL_STORE (R379). -/
def execCalStore (i : Initiator) (v : Word) (stored : Bool) (s : State) : Outcome :=
  .next (s.writeRow i MGT_CAL_CTRL fun s => s.writeCalCtrl i (setBitN v.toNat 9) stored)

/-! ## Short TRIM -/

/-- The offset that the short TRIM determines for a channel (R375, R380): the sum of its `n` results, which no command carries, is a
free value (DESIGN CHOICE, log entry 132); the gain and q are held. -/
def State.shortTerm (s : State) (ch : Nat) : List (Nat × Int) × State :=
  let (x, s) := s.fresh 32
  if ch < 2 then ((s.procTerms [] ch 2 256 [x.toInt]).getD [], s)
  else if ch < 34 then ((s.procTerms [] ch 4 256 [x.toInt]).getD [], s)
  else
    let g := s.trimVal (AUX_INi_TRIM_GAIN (ch - 34)) 24
    ([(0, rdivI (-(x.toInt * (100000000 + g))) (100000000 * 2))], s)

/-- The terms of a procedure of the short TRIM, none when one fails R376. -/
def State.shortTerms (s : State) : List Nat → Option (List (Nat × Int)) × State
  | [] => (some [], s)
  | ch :: chs =>
    let (l, s) := s.shortTerm ch
    let (rest, s) := s.shortTerms chs
    let a := ((trimRegs ch).head?.map (·.1)).getD 0
    ((if l.all fun t => termOk ch t.1 t.2 then rest else none).map fun r => l.map (fun t => (a, t.2)) ++ r, s)

/-- One procedure of the short TRIM (R380): its reason of Table 14.3 and its terms. `pre` is the reason of the precondition that fails, 0
for none. Whether t_s moved by more than DTMAX or a channel carried MOD or RANGE meanwhile is a free value (DESIGN CHOICE, log entry
132) (DESIGN CHOICE, log entry 132). -/
def State.shortProc (s : State) (on : Bool) (chs : List Nat) (pre : Nat) : (Nat × List (Nat × Int)) × State :=
  if !on then ((0, []), s)
  else if chs.isEmpty then ((0x0D, []), s)
  else if pre ≠ 0 then ((pre, []), s)
  else
    let (moved, s) := s.fresh 1
    let (bad, s) := s.fresh 1
    let (terms, s) := s.shortTerms chs
    if moved = 1 then ((5, []), s)
    else if bad = 1 then ((8, []), s)
    else match terms with
      | some l => ((0, l), s)
      | none => ((7, []), s)

/-- The channels of a procedure of MGT_CAL_CFG.SU: 0 cell, 1 current, 2 auxiliary offset. -/
def State.shortChans (s : State) (k : Nat) : List Nat :=
  (if k = 0 then (List.range 32).map (· + 2) else if k = 1 then [0, 1] else (List.range 16).map (· + 34)).filter s.calUsed

/-- The reason of the precondition of a procedure of the short TRIM that fails, 0 for none (R373, R380, Table 14.1). -/
def State.shortPre (s : State) (k : Nat) : Nat :=
  if s.vstk < 1000 ∨ 16500 < s.vstk then 0x0C
  else if k = 0 ∧ (s.get BAL_STAT_RUN ≠ 0 ∨ s.get BAL_STAT_FB ≠ 0) then 2
  else if k = 1 ∧ ((List.range 3).any fun o => s.flag (PSF_OUTo_STAT_FB o)) then 3
  else if k = 1 ∧ ¬ s.flag CSI_STAT_ZW then 4
  else 0

/-- The terms of the short TRIM are committed in one slot and wait for the first tick boundary of step 8 (R380, R383)
(DESIGN CHOICE, log entry 132). -/
def State.shortCommit (s : State) (procs : Nat) (done : List Nat) (terms : List (Nat × Int)) : State :=
  let bits (ch : Nat) : Nat := if done.contains ch then setBitN (s.srcBits ch) 0 else s.srcBits ch
  let s := s.calCommit 1 procs s.aux.ts terms bits true
  let s := done.foldl (fun (s : State) (ch : Nat) => s.setSrc ch (bits ch)) s
  let r : CalRun := { todo := [], points := [], ts0 := s.aux.ts, ferryChecked := true, refChecked := true, terms := [],
                      procs := procs, src := [], cover := done, seen := 0 }
  { s with cal := { s.cal with run := some r, newTerms := terms, staleEnds := true } }

/-- Step 7 of start-up (R380): each procedure succeeds or aborts on its own, and MGT_CAL_SURES holds its reason; the terms of those that
succeed are committed in one slot and take effect at the next tick boundary, STALE until then. Whether the lifetime store takes the
slot is a free value; where it does not, those procedures end with reason 0x0B (DESIGN CHOICE, log entry 132). -/
def State.shortTrim (s : State) : State :=
  let s := s.put MGT_CAL_STAT_STATE 3
  let su (k : Nat) : Bool := bitOf (s.get MGT_CAL_CFG_SU) k
  let chs (k : Nat) : List Nat := s.shortChans k
  let pre (k : Nat) : Nat := s.shortPre k
  let (a, s) := s.shortProc (su 0) (chs 0) (pre 0)
  let (b, s) := s.shortProc (su 1) (chs 1) (pre 1)
  let (c, s) := s.shortProc (su 2) (chs 2) (pre 2)
  let (x, s) := s.fresh 1
  let ok (k reason : Nat) : Bool := su k && reason == 0
  let any := ok 0 a.1 || ok 1 b.1 || ok 2 c.1
  let lost := any && x == 1
  let code (k reason : Nat) : Nat := if ok k reason && lost then 0x0B else reason
  let s := s.wrN MGT_CAL_SURES (code 0 a.1 + 256 * code 1 b.1 + 65536 * code 2 c.1)
  let done (k reason : Nat) : List Nat := if ok k reason then chs k else []
  let procs := b2n (ok 0 a.1) + 4 * b2n (ok 1 b.1) + 16 * b2n (ok 2 c.1)
  let s :=
    if lost then s.calCommit 1 procs s.aux.ts [] s.srcBits false
    else if any then s.shortCommit procs (done 0 a.1 ++ done 1 b.1 ++ done 2 c.1) (a.2 ++ b.2 ++ c.2)
    else s
  s.put MGT_CAL_STAT_STATE 0

end Sys2Proof.Machine
end

