-- ==== Sys2Proof/Machine/Boot.lean ====
section
/-! DEFINITION. Reset and start-up (chapter 13): what a warm reset keeps (R356, R361), the steps of Table 13.8, step 8 and the modes
it enters (R361 to R364), the Straits and the tick that come up with RUN. -/

namespace Sys2Proof.Machine

/-! ## Conditions that PD0 sees -/

/-- A condition that PD0 and the supply and clock monitors see. While the collector is off it is held until it runs (R321). -/
def State.monitor (s : State) (src code inst : Nat) : State :=
  if s.collectorOn then s.fault src code inst
  else if s.mgt.held.contains (src, code, inst) then s
  else { s with mgt := { s.mgt with held := s.mgt.held ++ [(src, code, inst)] } }

/-- Such a condition ends. -/
def State.monitorEnd (s : State) (src code inst : Nat) : State :=
  { s with mgt := { s.mgt with held := s.mgt.held.filter (· != (src, code, inst)) } }.endCond src code inst

/-! ## Reset of the logic die -/

/-- What a register keeps when the logic die is reset or loses its supply: PSF and the PD0 registers of MGT and AUX (R361), the
address and JEDEC ID that the board fixes, the supplies measured last (DEDUCED, log entry 153). The zero window and the state of the
short-circuit comparator are PD0's. -/
def keptWord (a : Nat) (w : Word) : Word :=
  if 0x60000 ≤ a ∧ a < 0x70000 then w
  else if [MGT_WAKE_STAT, MGT_RST_CAUSE, MGT_RST_CNT, MGT_SHIP_CNT, MGT_PD0_FATAL, AUX_SHDN, MGT_SUPPLY].contains a then w
  else if a = CSI_STAT then w &&& 3
  else if a = MGT_TW_STAT then w &&& 0xFFF
  else if a = MGT_FL_STAT then w &&& 0xFFFFFF
  else if a = MGT_PWR_STAT then w &&& 0x10000000
  else if (List.range 6).any fun d => a == AUX_TDd_FLAG d then w &&& 4
  else resetWord a

/-- A condition of `fcr` that the monitors or PD0 still see after a reset of the logic die. -/
def Standing.outlives (f : Standing) : Bool :=
  f.held && (f.src == 11 || f.src == 12 || f.src == 0 && (f.code == 0x15 || f.code == 0x16))

/-- The PSF core after a reset of the logic die (R361): the counts that the logic die feeds begin afresh. -/
def PsfSt.afterReset (p : PsfSt) : PsfSt :=
  { p with runs := Vector.replicate 9 0, newSrc := 0, htx := false, onLater := 0, cycle := 0, peers := [] }

/-- The management state that PD0 and the flash keep. -/
def MgtSt.afterReset (m : MgtSt) (held : List (Nat × Nat × Nat)) : MgtSt :=
  { MgtSt.reset with por := false, rstLow := m.rstLow, rstIgnored := m.rstIgnored, wakeStuck := m.wakeStuck, held := held,
                     shipAt := m.shipAt, vaux := m.vaux, flashOp := m.flashOp, vio := m.vio, shipWake := m.shipWake,
                     supplyMs := m.supplyMs }

/-- What a Strait keeps: its tone detector, in PD0 (Table 13.1). -/
def PortSt.afterReset (p : PortSt) : PortSt := { PortSt.reset with toneSince := p.toneSince, toneIgnored := p.toneIgnored }

/-- The memories after a reset: the data memories are cleared (R191), the Lagoon is kept while its domain is
(DEDUCED, log entry 127). -/
def resetMem (m : List Host.Cell) (lagoonKept : Bool) : List Host.Cell :=
  let m := sparseDrop 0x100000000 0x100010000 (sparseDrop 0xE00000 0xE88000 (sparseDrop 0x400000 0x600000 m))
  if lagoonKept then m else sparseDrop lagoon 0x13000000 m

/-- SHIP is left, by whatever reset: the seconds spent there (R101, R367); what the zero window then shows is open, as it is off in SHIP
(Table 4.3) (DESIGN CHOICE, log entry 264). -/
def State.endShip (s : State) : State :=
  if s.mode ≠ 0 then s
  else
    let secs := (s.now - s.mgt.shipAt) / sec
    let (x, s) := s.fresh 1
    let s := (s.put CSI_STAT_ZW x.toNat).put MGT_SHIP_CNT_SECS (min 65535 secs)
    { s with mgt := { s.mgt with shipWake := some secs } }

/-- The logic die is reset, or has lost its supply (R356, R361): everything but PD0 and the non-volatile memories
(DESIGN CHOICE, log entry 138). -/
def State.resetLogic (s : State) (lagoonKept : Bool) : State :=
  let s := s.endShip
  let one (e : Nat × Word) : Option (Nat × Word) :=
    let w := keptWord e.1 e.2
    if w = resetWord e.1 then none else some (e.1, w)
  let more := (s.fcr.standing.filter Standing.outlives).map fun f => (f.src, f.code, f.inst)
  let held := s.mgt.held ++ more.filter fun x => !s.mgt.held.contains x
  let t : State :=
    { State.reset with
      pending := s.pending, now := s.now, ftOfs := s.ftOfs, free := s.free, sent := s.sent, flash := s.flash,
      mem := resetMem s.mem lagoonKept, regs := s.regs.filterMap one, psf := s.psf.afterReset, port := s.port.map PortSt.afterReset,
      life := { LifeSt.reset with archive := s.life.archive, trends := s.life.trends },
      aux := { AuxSt.reset with shutAt := s.aux.shutAt }, mgt := s.mgt.afterReset held }
  let t := t.put MGT_PWR_STAT_ON (if lagoonKept then 3 else 1)
  ((t.disarm).allOff).showVaux

/-! ## Steps 1 to 7 -/

/-- Step `n` of Table 13.8 has completed, at its time after `t0` (DESIGN CHOICE, log entry 139). -/
def State.bootStep (s : State) (n t0 at_ : Nat) : State := (s.reach (t0 + at_ * ms)).put MGT_STARTUP_STEP n

/-- Step 2: the logic die leaves reset; fabric time begins at 0 (R33); the factory mirrors are in place
(DEDUCED, log entry 54). -/
def State.logicUp (s : State) : State :=
  let s := { s with ftOfs := -(s.now : Int), tick := { s.tick with slew := 0, slewAt := s.now },
                    mgt := { s.mgt with scrubbed := 0, scrubAt := s.now } }
  let s := (s.put MGT_PWR_STAT_ON 0x39F).put64 FAB_UID_LO (s.memLE otpBase 8)
  let asym (s : State) (n : Nat) : State := s.wrN (TMG_PORTn_ASYM n) (ofI 32 (Config.factoryTrim (TMG_PORTn_ASYM n)))
  let die (s : State) (d : Nat) : State := s.put (AUX_TDd_TRIM_V d) (ofI 16 (Config.factoryTrim (AUX_TDd_TRIM d)))
  (List.range 6).foldl die ((List.range 4).foldl asym s)

/-- Step 3 (R437, R438): the flash is reset and its JEDEC ID held against an absent one; the slots are read. How long that takes is
bounded only (Table 13.8) (DESIGN CHOICE, log entry 162). -/
def State.readSlots (s : State) : State :=
  let s := ((s.emit (.flashCmd 0x66)).emit (.flashCmd 0x99)).emit (.flashCmd 0x9F)
  let s : State := { (s.put MGT_FL_STAT_BUSY 0).put MGT_FL_STAT_SUSP 0 with mgt := { s.mgt with flashOp := none } }
  let id := s.get MGT_FL_STAT_JEDEC
  if id = 0 ∨ id = 0xFFFFFF then
    (List.range 4).foldl (fun (s : State) (i : Nat) => s.memPut (lagoon + slotOff i) (List.replicate 256 0xFF))
      ((s.bump MGT_FL_ERR_ID 1).fault 0 0x10 0)
  else
    let s := (List.range 4).foldl (fun (s : State) (i : Nat) => (s.flashRead (slotBase i)).readSlot i) s
    let size (i : Nat) : Nat := 256 + if s.headGood (slotOff i) (slotKind i) then s.imgLE (slotOff i) 12 4 else 0
    let (x, s) := s.fresh 7
    let s := (s.put MGT_FL_LOAD_KB ((size 0 + size 1 + size 2 + size 3) / 1024)).put MGT_FL_LOAD_MS (x.toNat % 101)
    (s.put MGT_FL_LASTOP_CMD 0x6B).put MGT_FL_LASTOP_ADDR (slotBase 3 + if size 3 = 256 then 0 else 256)

/-- Engine memories are loaded from the images in force (step 5); the first tick of each engine carries cause 1
(DEDUCED, log entry 146). -/
def State.loadEngine (s : State) (e : Nat) : State :=
  let img := (s.engine e).image
  let s := (s.clearEngine img e).loadCode img e
  let s := (s.put (ENG_n_LMEM_LEN e) ((s.imageCode img e).length / 4)).put (ENG_n_LMEM_CRCOK e) 1
  let s := if s.bit ENG_FENCED_PERM e then s else s.setEng e (if s.flag (ENG_n_CTRL_EN e) then 0 else 3)
  s.onEng e fun g => { g with nextCause := 1 }

/-- Step 5: engine memories, admission, seal (R50, R55, R391). -/
def State.configure (s : State) : State :=
  let s := (List.range 16).foldl State.loadEngine s
  let s := State.adoptConfig true 3 true s
  (s.setPeriod (s.getIn TMG_PERIOD_P_US 100 1000000)).showVaux

/-- Start-up stops at step 4: no firmware slot verifies (R364, R404). The boot ROM trains the Straits. -/
def State.recovery (s : State) : State :=
  let s := (s.put MGT_STARTUP_STOP 1).put MGT_FW_STAT_RECOVERY 1
  (List.range 4).foldl State.followEnable (s.put MGT_PWR_STAT_ON 0x3DF)

/-- VIO is on while the 5 V rail is in regulation, outside SHIP (R346). -/
def State.followVio (s : State) : State :=
  { s with mgt := { s.mgt with vio := s.domOn 1 && s.mode != 0 && !s.mgt.held.contains (11, 0x13, 0) && (s.standing? 11 0x13 0).all (!·.held) } }

/-- Step 1, where start-up begins with it: the supplies are up, and VIO (R346). -/
def State.bootSupplies (s : State) (t0 : Nat) : State := (s.put MGT_PWR_STAT_ON 3).showVaux.followVio.bootStep 1 t0 3

/-- Steps 2 and 3 and the check of the firmware slots; `o` ms less than from step 1 (DEDUCED, log entry 54). -/
def State.bootLogic (s : State) (t0 o : Nat) : State :=
  let s := ((s.reach (t0 + (4 - o) * ms)).logicUp).put MGT_STARTUP_STEP 2
  let s := (s.reach (t0 + (104 - o) * ms)).readSlots.put MGT_STARTUP_STEP 3
  ((s.reach (t0 + (114 - o) * ms)).checkSlot 2).checkSlot 3

/-- Steps 4 to 7. -/
def State.bootConfig (s : State) (t0 o : Nat) : State :=
  let s := (s.put MGT_STARTUP_STEP 4).reach (t0 + (119 - o) * ms)
  let s := s.configure.put MGT_STARTUP_STEP 5
  let s := ((s.reach (t0 + (121 - o) * ms)).loadTrims.loadLife).put MGT_STARTUP_STEP 6
  let s := (s.reach (t0 + (141 - o) * ms)).shortTrim.put MGT_STARTUP_STEP 7
  { s with mgt := { s.mgt with booting := true } }

/-- Start-up up to step 7 (Table 13.8), from step 1 or from step 2 (R362) (DEDUCED, log entry 160). -/
def State.boot (s : State) (first : Bool) : State :=
  let t0 := s.now
  let o := if first then 0 else 3
  let s := { s with mgt := { s.mgt with booting := false, bootAt := t0, bootFor := 150 - o } }.wrN MGT_STARTUP 0
  let r := ((if first then s.bootSupplies t0 else s).bootLogic t0 o).adoptFirmware
  let s := (r.2.checkSlot 0).checkSlot 1
  if r.1 then s.bootConfig t0 o else s.recovery

/-! ## Modes entered -/

/-- The tick stops: ticks are not processed in WATCH and SHIP. -/
def State.stopTicks (s : State) : State :=
  let s := if s.isHarbour then s else s.acquire
  { s with tick := { s.tick with running := false, open_ := false, accepted := false },
           aux := { s.aux with scan := none }, meas := { s.meas with burst := none, burstScan := false } }.regather

/-- What PD7 in retention loses of engine `e` (Table 13.1): data memory below the retained region and all of its state, of which the
part's own records of restarts, updates, images and counters are no register of it. MC, in PD9, keeps its state (DEDUCED, log entry
150). -/
def State.loseEngine (s : State) (e : Nat) : State :=
  let s := s.setEng e (if s.engFenced e then s.get (ENG_n_STAT_STATE e) else 0)
  let s := s.memDrop (dataByte e 0) (dataByte e 0xF000)
  (s.onEng e fun g => { EngSt.reset with restarts := g.restarts, nextCause := g.nextCause, restartAt := g.restartAt, update := g.update,
                                         image := g.image, cycAt := g.cycAt, cycTick := g.cycTick, used := g.used, ovrRun := g.ovrRun,
                                         ovrDump := g.ovrDump, map := g.map, linkEv := g.linkEv }).showMail e

/-- The domains return to what WATCH keeps between bursts (Table 13.2); the clocks of PD7 and PD9 stop (R340). -/
def State.watchDomains (s : State) : State :=
  let s := s.fenceStreams
  let s := (List.range 15).foldl State.loseEngine s
  let s := s.setEng 15 (if s.engFenced 15 then s.get (ENG_n_STAT_STATE 15) else 0)
  let ret := s.get MEM_RETAIN_RETAIN
  let s := (s.put MGT_PWR_STAT_ON (modeOn 1)).put MGT_PWR_STAT_RET (0x280 + 0x100 * ret)
  let s := { s with meas := { s.meas with burst := none, burstScan := false }, mgt := { s.mgt with retAt := some s.now } }
  if ret = 0 then s.memDrop lagoon 0x13000000 else s

/-- WATCH is entered (R342, R348, R351): the cycle counters stand and the lifetime record is flushed, the Straits go down with cause
11, the tick stops, the Lagoon is lost unless it is retained, and the first burst is due after INT_S. The interval of the first burst
counts from here (DESIGN CHOICE, log entry 231). -/
def State.enterWatch (s : State) : State :=
  let s := (((s.lifeFlush true).syncAll).enterMode 1).stopTicks
  let s := ((List.range 4).foldl (fun (s : State) (n : Nat) => s.linkDown n 11) s).watchDomains
  { s with mgt := { s.mgt with burstDue := s.now + s.getIn MGT_WATCH_CFG_INT_S 1 60 * sec }, meas := { s.meas with burstAt := s.now } }

/-! ## Step 8 -/

/-- The recorded fatal fault is latched again (R361). The record holds no instance: that of the table where it has one only, the
sensor of AUX_SHDN for thermal shutdown, otherwise a free value. A fault that no monitor sees any more has ended (R332)
(DEDUCED, log entry 145). -/
def State.relatchFatal (s : State) : State :=
  if ¬ s.flag MGT_PD0_FATAL_VALID then s
  else
    let src := s.get MGT_PD0_FATAL_SRC
    let code := s.get MGT_PD0_FATAL_CODE
    if s.fcr.standing.any fun f => f.src == src && f.code == code && f.cls == 3 then s
    else
      let (x, s) := s.fresh 8
      let inst := if src = 14 then s.get AUX_SHDN_LAST else if src = 8 ∨ (src = 13 ∧ code = 0x11) then x.toNat else 0
      (s.fault src code inst).endCond src code inst

/-- The faults that PD0 held are latched (R321, R358): those whose cause is over end at once (DEDUCED, log entry 145). -/
def State.latchHeld (s : State) : State :=
  let l := s.mgt.held
  let s := { s with mgt := { s.mgt with held := [] } }
  l.foldl
    (fun (s : State) (f : Nat × Nat × Nat) =>
      let s := s.fault f.1 f.2.1 f.2.2
      if (f.1 = 0 ∧ f.2.1 = 0x15 ∧ ¬ s.mgt.rstIgnored) ∨ (f.1 = 0 ∧ f.2.1 = 0x16 ∧ ¬ s.mgt.wakeStuck) then s.endCond f.1 f.2.1 f.2.2
      else s) s

/-- The faults of the safety inputs that stand in PSF are reported to the collector again (DEDUCED, log entry 145). -/
def State.relatchInputs (s : State) : State :=
  (List.range 2).foldl (fun (s : State) (k : Nat) => if s.ownFault k then s.faultU 6 0x12 k 0 (s.rdN (PSF_SIi_STAT k)) else s) s

/-- HOLD survives a reset (R361): it is entered again with the recorded fault, and its shadow window opens (R333). -/
def State.holdAgain (s : State) : State :=
  let s := (((s.enterActive 5).lockoutEnter 3 3).raiseSrc 21 0).relatchFatal
  match s.fcr.standing.find? fun f => f.cls == 3 with
  | some f => s.openShadow 0xA7BF f.slot (f.src, f.code, f.inst)
  | none => s.openShadow 0xA7BF none (s.get MGT_PD0_FATAL_SRC, s.get MGT_PD0_FATAL_CODE, 0)

/-- Step 8 (R361, R363): the mode is entered; TIME is what start-up took
(DEDUCED, log entries 137, 146, 152; DESIGN CHOICE, log entry 139). -/
def State.finishBoot (s : State) : State :=
  let s := ((s.put MGT_STARTUP_STEP 8).put MGT_STARTUP_DONE 1).put MGT_STARTUP_TIME (min 65535 ((s.now - s.mgt.bootAt) / ms))
  let gap := s.mgt.shipWake
  let ship := s.mgt.shipStart
  let s := { s with mgt := { s.mgt with booting := false, shipWake := none, shipStart := false } }
  let s := match gap with
    | some secs => (s.put CSI_QSTAT_QGAP 1).bump ⟨CSI_QGAP, 0, 32⟩ secs |>.onLife fun f => { f with ships := f.ships + secs }
    | none => s
  let s := if s.flag PSF_STAT_HOLD then s.holdAgain
    else if ship || s.get MGT_PWR_CFG_START == 0 then s.enterActive 2
    else s.enterWatch
  s.latchHeld.relatchInputs

end Sys2Proof.Machine
end

