-- ==== Sys2Proof/Machine/Power.lean ====
section
/-! DEFINITION. Commands and events of power, modes and reset (chapter 13) and of thermal shutdown (R181 to R183): power-on reset,
RST_N, software reset, mode requests and transitions, WATCH bursts, wake requests, the supply and clock monitors. -/

namespace Sys2Proof.Machine

/-! ## Power-on reset -/

/-- The bytes of the OTP window that exist (Table 15.1). -/
def otpListed (o : Nat) : Bool :=
  decide (o < 0xC) || (decide (0x100 ≤ o) && decide (o < 0x720)) || (decide (0x800 ≤ o) && decide (o < 0x840))

/-- One byte of the flash, which holds 16 MB of 3-byte addresses. -/
def flashCell (m : List Host.Cell) (e : Nat × Byte) : List Host.Cell :=
  if e.1 < 2 ^ 24 then sparseSet flashDefault m e.1 e.2 else m

/-- One byte of the OTP window. -/
def otpCell (m : List Host.Cell) (e : Nat × Byte) : List Host.Cell :=
  if otpListed e.1 then sparseSet memDefault m (otpBase + e.1) e.2 else m

/-- The contents of the flash that the board brings, in place of those held when given (DESIGN CHOICE, log entry 9). -/
def State.adoptFlash (s : State) (b : Board) : State :=
  match b.flash with
  | some l => { s with flash := l.foldl flashCell [] }
  | none => s

/-- The contents of the OTP window that the board brings, in place of those held when given (DESIGN CHOICE, log entry 9). -/
def State.adoptOtp (s : State) (b : Board) : State :=
  match b.otp with
  | some l => { s with mem := l.foldl otpCell (sparseDrop otpBase (otpBase + 0x1000) s.mem) }
  | none => s

/-- The mirror of the eight OTP words in PSF (R285). -/
def State.mirrorOtp (s : State) : State :=
  (List.range 8).foldl (fun (s : State) (k : Nat) => s.wrN (PSF_OTPk k) (s.memLE (otpBase + 0x800 + 4 * k) 4)) s

/-- POWER_ON_RESET_RELEASE (R341, R356, R416): VSTK has risen through 9.0 V (DESIGN CHOICE, log entry 9). -/
def execPowerOnResetRelease (b : Board) (s : State) : Outcome :=
  if ¬ s.mgt.por then .next s
  else
    let s := { s with mgt := { s.mgt with por := false } }
    let s := (s.adoptFlash b).adoptOtp b
    let k := 3 * b.twa1.val + b.twa0.val
    let s := (s.put MGT_TW_STAT_ADDR (0x60 + k)).put MGT_TW_STAT_K k
    let s := (s.put MGT_FL_STAT_JEDEC b.jedec.toNat).mirrorOtp
    let (v, s) := s.fresh 32
    .next ((((s.wr MGT_SUPPLY v).putB CSI_STAT_ZW b.zw).clipComparators).boot true)

/-- POWER_ON_RESET (R341): everything is reset, PD0 included; only the non-volatile memories keep their contents. -/
def execPowerOnReset (s : State) : Outcome :=
  let keep (e : Host.Cell) : Bool := (decide (lifeBase ≤ e.1) && decide (e.1 < 0x21000000)) || (decide (otpBase ≤ e.1) && decide (e.1 < otpBase + 0x1000))
  .next { State.reset with
    pending := s.pending, free := s.free, sent := s.sent, flash := s.flash, mem := s.mem.filter keep,
    life := { LifeSt.reset with archive := s.life.archive, trends := s.life.trends } }

/-- START_UP_COMPLETE (R362, R363). -/
def execStartUpComplete (s : State) : Outcome :=
  if s.mgt.booting then .next (s.reach (s.mgt.bootAt + s.mgt.bootFor * ms)).finishBoot else .next s

/-! ## Warm reset -/

/-- A warm reset is recorded: `c` its bit of MGT_RST_CAUSE. -/
def State.recordReset (s : State) (c : Nat) : State :=
  let s := (s.wrN MGT_RST_CAUSE (setBitN (s.rdN MGT_RST_CAUSE) c)).bump MGT_RST_CNT_WARM 1
  if s.flag PSF_STAT_HOLD then s.put MGT_RST_CAUSE_HOLDC 1 else s

/-- Warm resets take effect together (R356, R361): `cs` their bits of MGT_RST_CAUSE. While RST_N is low the part stays in reset, and
during a thermal shutdown until that ends (R183) (DEDUCED, log entries 127, 161) (DEDUCED, log entry 160). -/
def State.warmReset (s : State) (cs : List Nat) : State :=
  let rail := s.domOn 1
  let s := cs.foldl State.recordReset (s.resetLogic rail)
  if s.mgt.rstLow.isSome || s.aux.shutAt.isSome then s else s.boot (!rail)

/-- Program-suspend or erase-suspend is issued to a flash that is writing (R439). What LASTOP shows as the address of a command
without one is not stated (DESIGN CHOICE, log entry 162; DEDUCED, log entry 163). -/
def State.suspendFlash (s : State) : State :=
  let (x, s) := s.fresh 24
  let s := (((s.emit (.flashCmd 0x75)).put MGT_FL_LASTOP_CMD 0x75).put MGT_FL_LASTOP_ADDR x.toNat).bump MGT_FL_SUSP_N 1
  { s.put MGT_FL_STAT_SUSP 1 with mgt := { s.mgt with flashOp := s.mgt.flashOp.map fun o => { o with suspended := true } } }

/-- A warm reset waits for the flash (DEDUCED, log entry 160). -/
def State.queueReset (s : State) (c : Nat) : State := { s with mgt := { s.mgt with resetDue := s.mgt.resetDue ++ [c] } }

/-- A warm reset falls due (R360): a flash program or erase is suspended first, and one that falls due while another, or a thermal
shutdown, waits for that waits with it. In a thermal shutdown the part is in reset already (R183) (DEDUCED, log entry 160)
(DEDUCED, log entry 152). -/
def State.dueReset (s : State) (c : Nat) : State :=
  if s.aux.shutAt.isSome && !s.logicOn then s.recordReset c
  else if s.flashWrites then s.suspendFlash.queueReset c
  else if s.aux.shutAt.isSome || !s.mgt.resetDue.isEmpty then s.queueReset c
  else s.warmReset [c]

/-- Step 6 of thermal shutdown (Table 7.5): every domain but PD0 goes off, and VIO; resets that waited are recorded (DEDUCED, log entry
152). -/
def State.shutOff (s : State) : State :=
  let cs := s.mgt.resetDue
  let s := s.resetLogic false
  cs.foldl State.recordReset { s with aux := { s.aux with shutAt := some s.now }, mgt := { s.mgt with vio := false } }

/-- What waited for the flash to suspend takes effect (R360, Table 7.5 step 5). -/
def State.afterSuspend (s : State) : State :=
  if s.aux.shutAt.isSome && s.logicOn then s.shutOff
  else if s.mgt.resetDue.isEmpty then s
  else s.warmReset s.mgt.resetDue

/-- FLASH_SUSPEND_COMPLETE (R360, Table 7.5 step 5). -/
def execFlashSuspendComplete (s : State) : Outcome := .next s.afterSuspend

/-- RST_N_LOW (R357): low for 20 µs. -/
def execRstNLow (s : State) : Outcome :=
  if s.mgt.por || s.mgt.rstIgnored || s.mgt.rstLow.isSome then .next s
  else
    let s := { s with mgt := { s.mgt with rstLow := some s.now } }
    .next ((s.reach (s.now + 20 * us)).dueReset 1)

/-- RST_N_RELEASE (R357): reset ends at the rising edge, but not during a thermal shutdown, which only R183 ends
(DEDUCED, log entry 160) (DEDUCED, log entry 152). -/
def execRstNRelease (s : State) : Outcome :=
  if s.mgt.rstLow.isNone then .next s
  else
    let s := { s with mgt := { s.mgt with rstLow := none } }
    .next (if !s.mgt.resetDue.isEmpty || s.aux.shutAt.isSome then s else s.boot (!s.domOn 1))

/-- RST_N is ignored from now on; the part leaves reset (R358). -/
def State.ignoreRstN (s : State) : State :=
  let s := { s with mgt := { s.mgt with rstLow := none, rstIgnored := true, held := s.mgt.held ++ [(0, 0x15, 0)] } }
  (s.put MGT_RST_CAUSE_RSTN_FC 1).bump MGT_RST_CNT_FC 1

/-- RST_N_FAILED_CLOSED (R358): still low 2 s after it fell. During a thermal shutdown the part stays off (R183). -/
def execRstNFailedClosed (s : State) : Outcome :=
  match s.mgt.rstLow with
  | none => .next s
  | some t =>
    let s := (s.reach (t + 2 * sec)).ignoreRstN
    .next (if s.aux.shutAt.isSome then s
      else if s.mgt.resetDue.isEmpty then s.boot (!s.domOn 1)
      else s.warmReset s.mgt.resetDue)

/-- RST_N_HIGH_SEEN (R358): high for 10 ms. -/
def execRstNHighSeen (s : State) : Outcome :=
  if s.mgt.rstIgnored then
    let s := { s with mgt := { s.mgt with rstIgnored := false } }
    .next ((s.reach (s.now + 10 * ms)).endCond 0 0x15 0)
  else .next s

/-- A write of MGT_SWRST that is performed (R359): the second word of the sequence resets the part 10 µs later. -/
def State.writeSwrst (s : State) (i : Initiator) (v : Nat) : State :=
  s.ifPrivileged i MGT_SWRST fun s =>
    let k := v % 65536
    let ok : Bool := match s.mgt.swKey with
      | some t => k == 0xD4A3 && decide (s.now ≤ t + sec)
      | none => false
    let s := { s with mgt := { s.mgt with swKey := if k = 0x2B5C then some s.now else none } }
    if ok then (s.reach (s.now + 10 * us)).dueReset 3 else s

/-- SOFTWARE_RESET (R359). -/
def execSoftwareReset (i : Initiator) (v : Word) (s : State) : Outcome :=
  .next (s.writeRow i MGT_SWRST fun s => s.writeSwrst i v.toNat)

/-! ## Thermal shutdown -/

/-- The trip comparator of die sensor `d` acts (R181, Table 7.6): those of TD0 and TD1 in every mode, the others in WATCH and while the
logic die runs. -/
def State.tripActs (s : State) (d : Fin 6) : Bool := !s.mgt.por && (decide (d.val < 2) || s.logicOn || (s.mode == 1 && s.aux.shutAt.isNone))

/-- The trip of die sensor `d` is recorded: its flag, the sensor of the last trip. -/
def State.tripSeen (s : State) (d : Fin 6) : State := ((s.put (AUX_TDd_FLAG_TRIP d) 1).put AUX_SHDN_LAST d).put AUX_SHDN_TRIP 1

/-- THERMAL_SHUTDOWN (R181, Table 7.5): the trip of sensor `d` has lasted 20 µs. During a shutdown it is only recorded. A flash that a
pending reset has already told to suspend is waited for too. The fatal fault is held by PD0 and latched at the next start (R321). -/
def execThermalShutdown (d : Fin 6) (s : State) : Outcome :=
  if !s.tripActs d then .next s
  else if s.aux.shutAt.isSome then .next ((s.reach (s.now + 20 * us)).tripSeen d)
  else
    let s := ((s.reach (s.now + 20 * us)).tripSeen d).bump AUX_SHDN_CNT 1
    let s := { s with aux := { s.aux with shutAt := some s.now } }
    let s := (s.raiseSrc 12 0).stopFerry
    let s := ((s.put MGT_PD0_FATAL_VALID 1).put MGT_PD0_FATAL_SRC 14).put MGT_PD0_FATAL_CODE 0x10
    let s := { (s.put MGT_MODE_STAT_PEND 0).put PSF_STAT_HOLD 1 with wakeHeld := none }
    .next (if s.flashWrites then s.suspendFlash else if s.mgt.resetDue.isEmpty then s.shutOff else s)

/-- THERMAL_SHUTDOWN_RELEASE (R183): both release comparators read below 140 °C, 5 s or more after the domains went off
(DEDUCED, log entry 152). -/
def execThermalShutdownRelease (s : State) : Outcome :=
  match s.aux.shutAt with
  | none => .next s
  | some t =>
    if s.logicOn then .next s
    else
      let s := s.reach (t + 5 * sec)
      let s := { s with aux := { s.aux with shutAt := none }, psf := { s.psf with cause := clrBitN s.psf.cause 12 } }.put AUX_SHDN_TRIP 0
      let s := ((List.range 6).foldl (fun (s : State) (d : Nat) => s.put (AUX_TDd_FLAG_TRIP d) 0) s).withdraw 12
      let s := ((s.put MGT_RST_CAUSE_THERM 1).put MGT_RST_CAUSE_HOLDC 1).bump MGT_RST_CNT_WARM 1
      .next (if s.mgt.rstLow.isSome then s else s.boot true)

/-! ## Mode requests -/

/-- The key sequence of a mode has been completed within the last second (R354). -/
def State.keyed (s : State) (m : Nat) : Bool := match s.mgt.modeKey with
  | some (k, t, done) => k == m && done && decide (s.now ≤ t + sec)
  | none => false

/-- A transition that a request can ask for (Table 13.4). -/
def requestable (cur m : Nat) : Bool :=
  [(2, 1), (2, 0), (1, 0), (2, 3), (2, 4), (4, 2), (5, 2), (3, 2)].contains (cur, m)

/-- The code of Table 13.5 for a request for mode `m`, before the TRIM preconditions. A request for RUN in TRIM meets a run in
progress, or a transition already pending. -/
def State.modeCode (s : State) (i : Initiator) (m : Nat) : Nat :=
  if ¬ s.privileged i then 1
  else if s.flag MGT_MODE_STAT_PEND then 5
  else if ¬ requestable s.mode m then 2
  else if (m = 0 ∨ m = 4) ∧ ¬ s.keyed m then 3
  else if (m = 0 ∨ m = 1) ∧ s.get PSF_OUT_CMD_ON ≠ 0 then 4
  else if s.mode = 5 ∧ (s.flag FCR_STATUS_FATAL ∨ s.flag PSF_STAT_LOCKOUT ∨ s.fatalStands) then 6
  else if m = 1 ∧ s.calRuns then 7
  else if s.mode = 3 then (if s.calRuns then 7 else 5)
  else 0

/-- A request is accepted (R347, R349): entry to WATCH or SHIP disarms at once. -/
def State.acceptMode (s : State) (m : Nat) : State :=
  let s := { (s.put MGT_MODE_STAT_PEND 1).put MGT_MODE_STAT_TGT m with mgt := { s.mgt with reqAt := s.now } }
  if m ≤ 1 then s.disarm else s

/-- A write of MGT_MODE_REQ that is performed (R347, R348): `refDev` is the deviation of the TRIM reference check
(DEDUCED, log entries 140, 141, 155, 156). -/
def State.writeModeReq (s : State) (i : Initiator) (v : Nat) (refDev : Int) : State :=
  let m := v % 8
  let c := s.modeCode i m
  let s := if c = 1 then s.refuseRight 0 i MGT_MODE_REQ else s
  if c ≠ 0 then s.put MGT_MODE_STAT_CODE c
  else if m = 3 then
    let (r, s) := s.trimCheck refDev
    if r ≠ 0 then (s.put MGT_CAL_STAT_REASON r).put MGT_MODE_STAT_CODE 8 else (s.put MGT_MODE_STAT_CODE 0).acceptMode 3
  else (s.put MGT_MODE_STAT_CODE 0).acceptMode m

/-- The word of a request for mode `m`: the other bits as written. -/
def modeWord (v : Word) (m : Nat) : Nat := withField v.toNat 0 3 m

/-- MODE_REQ_SHIP (R348, R354). -/
def execModeReqShip (i : Initiator) (v : Word) (s : State) : Outcome :=
  .next (s.writeRow i MGT_MODE_REQ fun s => s.writeModeReq i (modeWord v 0) 0)

/-- MODE_REQ_WATCH (R348). -/
def execModeReqWatch (i : Initiator) (v : Word) (s : State) : Outcome :=
  .next (s.writeRow i MGT_MODE_REQ fun s => s.writeModeReq i (modeWord v 1) 0)

/-- MODE_REQ_RUN (R348, R355). -/
def execModeReqRun (i : Initiator) (v : Word) (s : State) : Outcome :=
  .next (s.writeRow i MGT_MODE_REQ fun s => s.writeModeReq i (modeWord v 2) 0)

/-- MODE_REQ_TRIM (R348, R371). -/
def execModeReqTrim (i : Initiator) (v : Word) (refDev : Int) (s : State) : Outcome :=
  .next (s.writeRow i MGT_MODE_REQ fun s => s.writeModeReq i (modeWord v 3) refDev)

/-- MODE_REQ_SERVICE (R348, R354). -/
def execModeReqService (i : Initiator) (v : Word) (s : State) : Outcome :=
  .next (s.writeRow i MGT_MODE_REQ fun s => s.writeModeReq i (modeWord v 4) 0)

/-- A write of MGT_MODE_KEY that is performed (R354) (DEDUCED, log entry 141). -/
def State.writeModeKey (s : State) (i : Initiator) (v : Nat) : State :=
  s.ifPrivileged i MGT_MODE_KEY fun s =>
    let k := v % 65536
    let next : Option (Nat × Nat × Bool) :=
      if k = 0x51A9 then some (0, s.now, false)
      else if k = 0x5E12 then some (4, s.now, false)
      else match s.mgt.modeKey with
        | some (m, t, false) => if k = (if m = 0 then 0x0E57 else 0xC3A9) then some (m, t, true) else none
        | _ => none
    { s with mgt := { s.mgt with modeKey := next } }

/-- MODE_KEY (R354). -/
def execModeKey (i : Initiator) (v : Word) (s : State) : Outcome :=
  .next (s.writeRow i MGT_MODE_KEY fun s => s.writeModeKey i v.toNat)

/-- SERVICE_TIMEOUT (R354): no privileged write for TMO_S; the part returns to RUN at the next tick boundary. -/
def execServiceTimeout (s : State) : Outcome :=
  let t := min 3600 (s.get MGT_SVC_CFG_TMO_S)
  if s.mode == 4 && t != 0 && !s.flag MGT_MODE_STAT_PEND then
    let s := s.reach (s.privAt + t * sec)
    .next { (s.put MGT_MODE_STAT_PEND 1).put MGT_MODE_STAT_TGT 2 with mgt := { s.mgt with reqAt := s.now } }
  else .next s

/-! ## Transitions -/

/-- The first tick boundary after the request was accepted; at once where no tick runs (DEDUCED, log entry 157). -/
def State.toBoundary (s : State) : State :=
  if s.tick.running then
    let cur := s.sampleAt s.tickNo
    if ((s.mgt.reqAt : Int) + s.ftOfs) < cur then s else s.reachFt (s.sampleAt (s.tickNo + 1))
  else s

/-- A wake request that was held takes effect as soon as the mode is reached (R349). -/
def State.wakeAgain (s : State) (tgt : Nat) : State :=
  if s.wakeHeld.isSome then
    { (s.put MGT_MODE_STAT_PEND 1).put MGT_MODE_STAT_TGT tgt with mgt := { s.mgt with reqAt := s.now } }
  else s

/-- The wake that takes effect is recorded (R352). -/
def State.recordWake (s : State) : State := match s.wakeHeld with
  | some b => { (s.put MGT_WAKE_STAT_LAST (2 ^ b)).bump MGT_WAKE_STAT_N 1 with wakeHeld := none }
  | none => s

/-- WATCH is reached from RUN (Table 13.4) (DEDUCED, log entry 144). -/
def State.toWatch (s : State) : State :=
  let s := s.toBoundary
  ((s.reach (s.now + 20 * ms)).sweepEnd 3).disarm.enterWatch.wakeAgain 2

/-- SHIP is reached (Table 13.4, R350): PD0 only; VIO goes off, but waits for the flash's last command (R346) (DEDUCED, log entry
144). -/
def State.toShip (s : State) : State :=
  let s := (((s.reach (s.mgt.reqAt + 50 * ms)).sweepEnd 3).lifeFlush true).syncAll.disarm
  let s := (List.range 4).foldl (fun (s : State) (n : Nat) => s.linkDown n 11) (s.enterMode 0).stopTicks
  let s := ((s.bump MGT_SHIP_CNT_N 1).put CSI_STAT_ZW 0).showVaux
  let at_ := s.mgt.retAt.getD s.now
  let s := { s.memDrop lagoon 0x13000000 with mgt := { s.mgt with shipAt := s.now, vio := s.flashWrites, retAt := some at_ } }
  s.wakeAgain 6

/-- The part leaves SHIP (R353, R363): start-up from step 1, with the time in SHIP recorded. A match of the
two-wire address stays shown (R425). -/
def State.fromShip (s : State) : State :=
  let s := s.recordWake
  let tw := s.get MGT_TW_STAT_ERR
  let s := (s.resetLogic false).put MGT_RST_CAUSE_SHIPW 1
  let s := if tw = 8 then (s.put MGT_TW_STAT_ERR 8).put MGT_TW_CNT1_WAKE 1 else s
  { s with mgt := { s.mgt with shipStart := true } }.boot true

/-- The Lagoon as start-up fills it, after WATCH has lost it: the slots and the configuration data (DEDUCED, log entry 265). -/
def State.refillLagoon (s : State) : State :=
  let s := (List.range 4).foldl State.readSlot s
  match s.cfgRecords (slotOff (s.get MGT_CFG_STAT_SLOT)) with
  | some l =>
    if s.flag MGT_CFG_STAT_BASE then s
    else l.foldl (fun (s : State) (r : CfgRec) => match r with
      | .data o b => s.memPut (lagoon + dataOff + o) b
      | _ => s) s
  | none => s

/-- A Lagoon that WATCH lost is filled again as start-up fills it (DEDUCED, log entry 265). -/
def State.refillLost (s : State) : State :=
  if s.mgt.refill then { s.refillLagoon with mgt := { s.refillLagoon.mgt with refill := false } } else s

/-- RUN is reached from WATCH (Table 13.4, R348). -/
def State.fromWatch (s : State) : State :=
  let s := (s.recordWake).reach (s.mgt.reqAt + (if s.flag MEM_RETAIN_RETAIN then 10 else 110) * ms)
  let s := s.leaveWatch.put MGT_PWR_STAT_ON 0x3FF
  s.refillLost.enterActive 2

/-- HOLD is left for RUN (R355): its record in PD0 is cleared, source 21 releases. -/
def State.leaveHold (s : State) : State :=
  let s := (s.put PSF_STAT_HOLD 0).wrN MGT_PD0_FATAL 0
  let s := { s with psf := { s.psf with holdLock := false } }.enterMode 2
  (s.releaseSrc 21).promoteAll 0xFFFF fun f => ((faultRow f.1 f.2.1 f.2.2).getD (2, false)).1 == 3

/-- Steps 5 to 7 at the end of HOLD (R355): the resident slots, the trims; the tick goes on at its period. Answers the period that
the configuration gives (DEDUCED, log entries 131, 154). -/
def State.reconfigure (s : State) : Nat × State :=
  let old := s.tempTable
  let s := State.adoptConfig false 3 true ((List.range 16).foldl State.loadEngine s)
  let s := (List.range 4).foldl State.followEnable (if s.tempTable = old then s else s.relearn)
  (s.get TMG_PERIOD_P_US, (s.showVaux.loadTrims).shortTrim)

/-- RUN is reached from HOLD (R355): a fatal fault in steps 5 to 8 returns the part to HOLD (DEDUCED, log entry 131). -/
def State.fromHold (s : State) : State :=
  let r := (s.reach (s.mgt.reqAt + 40 * ms)).refillLost.reconfigure
  if r.2.flag FCR_STATUS_FATAL || !r.2.flag MGT_MODE_STAT_PEND then r.2
  else if r.2.isHarbour && r.1 != r.2.period then r.2.leaveHold.askPeriod r.1
  else r.2.leaveHold

/-- A return from SERVICE to RUN clears what is writable in SERVICE only (R354). FAB_RTd keeps its entries until the next commit
(R284) (DEDUCED, log entry 159). -/
def State.clearService (s : State) : State :=
  let s := (s.wrN CMF_TEST 0).put CSI_CTRL_TEST0 0 |>.put CSI_CTRL_TEST1 0
  let s := { s with meas := { s.meas with chan := s.meas.chan.map (fun c => { c with forced := 0, forceNext := false }), ow := { s.meas.ow with force := [] } },
                    mgt := { s.mgt with otpKey := none } }
  let phase (s : State) (p : Nat) : State :=
    let s := s.wrN (BAL_PHp_TEST p) 0
    if (s.phase p).testBleed.isSome then ((s.deselect p).onPhase p fun h => { h with testBleed := none }).applyPhase p else s
  let eng (s : State) (e : Nat) : State :=
    let s := (s.wrN (ENG_n_DBG e) 0).wrN (ENG_n_BKPT e) 0
    if s.get (ENG_n_STAT_STATE e) = 5 then (s.setEng e 0).phasesBack e else s
  let s := (List.range 8).foldl phase s
  let s := (List.range 16).foldl eng s
  let s := (List.range 4).foldl (fun (s : State) (n : Nat) => (if s.flag (FAB_PORTn_TEST_PRBS n) then s.endPrbs n else s).wrN (FAB_PORTn_TEST n) 0) s
  (List.range 8).foldl (fun (s : State) (k : Nat) => s.wrN (MGT_OTP_DATAk k) 0) s

/-- MODE_TRANSITION_COMPLETE (R348, Table 13.4) (DEDUCED, log entry 157). -/
def execModeTransitionComplete (s : State) : Outcome :=
  if ¬ s.flag MGT_MODE_STAT_PEND then .next s
  else
    let t := s.get MGT_MODE_STAT_TGT
    let m := s.mode
    .next (
      if t = 1 then s.toWatch
      else if t = 0 then s.toShip
      else if t = 6 then s.fromShip
      else if t = 3 then ((s.toBoundary.sweepEnd 3).enterMode 3).calBegin
      else if t = 4 then (let s := s.toBoundary.enterMode 4; { s with privAt := s.now })
      else if m = 1 then s.fromWatch
      else if m = 5 then s.fromHold
      else if m = 4 then (s.toBoundary.clearService).enterMode 2
      else s.toBoundary.enterMode 2)

/-! ## WATCH bursts -/

/-- The start of the latest burst. -/
def State.burstFrom (s : State) : Nat := s.mgt.burstDue - s.getIn MGT_WATCH_CFG_INT_S 1 60 * sec

/-- The domains of a burst that has had its bank switch return 8 ms after its start (R351) (DEDUCED, log entry 147). -/
def State.burstOver (s : State) : State :=
  if s.meas.burst = some 65 then ((s.reach (s.burstFrom + 8 * ms)).syncAll).watchDomains else s

/-- WATCH_BURST (R351, R467): the interval has expired; the domains of the burst before have returned (DEDUCED, log entry 147). -/
def execWatchBurst (s : State) : Outcome :=
  if s.mode == 1 && (s.meas.burst.isNone || s.meas.burst == some 65) then
    let s := s.burstOver
    let t := max s.mgt.burstDue s.now
    let s := (s.reach t).clocksOn.put MGT_PWR_STAT_ON 0x29F
    let s := s.put MGT_PWR_STAT_RET (0x100 * s.get MEM_RETAIN_RETAIN)
    let s := s.reach (t + ms / 2)
    let s := { s with mgt := { s.mgt with burstDue := t + s.getIn MGT_WATCH_CFG_INT_S 1 60 * sec }, aux := { s.aux with scan := if s.flag AUX_CTRL_EN then some s.now else none },
                      meas := { s.meas with burst := some 0, burstScan := !s.flag AUX_CTRL_EN } }
    .next s.regather
  else .next s

/-- The windows of a burst (R467): its 32 kept samples, by the plain mean. -/
def State.burstWindow (s : State) : State :=
  let m := s.meas
  { s with trimOld := [], meas := { m with
    bursts := m.bursts + 1, fmode := 0, histS := m.hist, chan := m.chan.map ChanSt.atInstant, ferryPrev := m.ferryWin,
    ferryWin := m.ferryNow, ferryNow := 0, enAt := s.flag CMF_CTRL_EN, posted := 0, staged := [], burstAt := s.now } }

/-- The snapshot of a burst goes to the retained Lagoon (R84) (DESIGN CHOICE, log entry 130; DEDUCED, log entry 147). -/
def State.burstSnapshot (s : State) : State :=
  let mid := s.snapMid
  let e := s.estFields s.tickNo
  let f := e.2.fresh 64
  let s := f.2
  let cells := ((List.range 32).map fun c => leBytes 3 (ofI 24 (s.cellV c))).flatten
  s.snapRing (leBytes 6 s.tickNo ++ leBytes 2 (s.sflags false false false false) ++ cells ++ mid ++ e.1) f.1.toNat

/-- The bank switch of a burst (R84, R101, R467): results of the 32 kept samples, comparisons, triggers
(DESIGN CHOICE, log entry 231). -/
def State.burstSwitch (s : State) : State :=
  let s := s.calBoundary
  let mode := s.meas.fmode
  let dt := (s.now - s.meas.burstAt) / 16
  let s := s.burstWindow
  let s := (s.bankAux.bankCells 0).bankCurrent s.meas.bursts dt true
  let s := (s.compareCells.compareCurrent).tempLimits.rateEval
  let s := s.lifeAdvance (s.getIn MGT_WATCH_CFG_INT_S 1 60 * 1000000)
  let s := if s.flag MEM_RETAIN_RETAIN then s.burstSnapshot else s
  { s with meas := { s.meas with fmode := mode } }

/-- WATCH_BURST_END (R351, R467): the bank switch and the triggered engines, which have until the domains return
(DEDUCED, log entry 147). -/
def execWatchBurstEnd (s : State) : Outcome :=
  if s.meas.burst == some 64 && s.meas.burstScan && s.mode == 1 then
    let s := ((s.burstSwitch).triggerAll 0).triggerAll 1
    .next { s with meas := { s.meas with burst := some 65, burstScan := false } }
  else .next s

/-! ## Wake requests -/

/-- WAKE_PIN (R352): high for 1 ms after 10 ms low. -/
def execWakePin (s : State) : Outcome := if s.mgt.wakeStuck || s.mgt.por then .next s else .next (s.wakeRequest 0)

/-- WAKE_PIN_STUCK (R352): high for 60 s. In SHIP the fault is held for the next start (R321) (DEDUCED, log entry 153). -/
def execWakePinStuck (s : State) : Outcome :=
  if s.mgt.por || s.mgt.wakeStuck then .next s
  else
    let s := { s with mgt := { s.mgt with wakeStuck := true } }
    .next ((if s.mode = 0 then s.put MGT_WAKE_STAT_WSTUCK 1 else s).monitor 0 0x16 0)

/-- WAKE_PIN_RELEASE (R352): low for 10 ms. -/
def execWakePinRelease (s : State) : Outcome :=
  if s.mgt.wakeStuck then .next ({ s with mgt := { s.mgt with wakeStuck := false } }.endCond 0 0x16 0) else .next s

/-! ## Supply and clock monitors -/

/-- A supply is measured: MGT_SUPPLY holds it from now on, in RUN until the next millisecond (R367)
(DESIGN CHOICE, log entry 138). -/
def State.takeSupply (s : State) (f : Fld) (level : Nat) : State :=
  { (s.wr MGT_SUPPLY s.supplyNow).put f level with mgt := { s.mgt with supplyMs := s.now / ms } }

/-- VSTK_OUT_OF_RANGE (R343): outside 10 V to 165 V for 1 ms; `level` in 10 mV (DESIGN CHOICE, log entry 138). -/
def execVstkOutOfRange (level : BitVec 16) (s : State) : Outcome :=
  if s.mgt.por || (decide (1000 ≤ level.toNat) && decide (level.toNat ≤ 16500)) then .next s
  else .next ((s.takeSupply MGT_SUPPLY_VSTK level.toNat).monitor 11 0x10 0)

/-- VSTK_IN_RANGE (R343) (DESIGN CHOICE, log entry 138). -/
def execVstkInRange (level : BitVec 16) (s : State) : Outcome :=
  if s.mgt.por || decide (level.toNat < 1000) || decide (16500 < level.toNat) then .next s
  else .next ((s.takeSupply MGT_SUPPLY_VSTK level.toNat).monitorEnd 11 0x10 0)

/-- RAIL_OUT_OF_TOLERANCE (R344): the 5 V rail is outside ±5 % for 10 µs. -/
def execRailOutOfTolerance (s : State) : Outcome := if s.domOn 1 then .next (s.monitor 11 0x13 0).followVio else .next s

/-- RAIL_IN_TOLERANCE (R344). VIO is on again (R346). -/
def execRailInTolerance (s : State) : Outcome := .next (s.monitorEnd 11 0x13 0).followVio

/-- VAUX_LOSS (R345): VAUX has left 9 V to 32 V for 50 µs; `level` in 10 mV. -/
def execVauxLoss (level : BitVec 16) (s : State) : Outcome :=
  if s.mgt.por || !s.mgt.vaux || (decide (900 ≤ level.toNat) && decide (level.toNat ≤ 3200)) then .next s
  else
    let used := s.flag MGT_PWR_STAT_VAUXACT
    let s := s.takeSupply MGT_SUPPLY_VAUX level.toNat
    let s := { s with mgt := { s.mgt with vaux := false } }.showVaux
    .next (if used then s.monitor 11 0x11 0 else s)

/-- VAUX_RETURN (R345): within its window for 100 ms. -/
def execVauxReturn (level : BitVec 16) (s : State) : Outcome :=
  if s.mgt.por || decide (level.toNat < 900) || decide (3200 < level.toNat) then .next s
  else
    let s := s.takeSupply MGT_SUPPLY_VAUX level.toNat
    .next (({ s with mgt := { s.mgt with vaux := true } }.showVaux).monitorEnd 11 0x11 0)

/-- VIO_OVERLOAD (R346): more than 50 mA for 1 ms. -/
def execVioOverload (s : State) : Outcome := if s.mgt.vio then .next (s.monitor 11 0x12 0) else .next s

/-- VIO_LOAD_NORMAL (R346). -/
def execVioLoadNormal (s : State) : Outcome := .next (s.monitorEnd 11 0x12 0)

/-- OSCILLATOR_DEVIATION (R319, Table 12.1): the oscillators differ by more than 2 % for 1 ms. -/
def execOscillatorDeviation (s : State) : Outcome := if s.logicOn then .next (s.monitor 12 0x10 0) else .next s

/-- OSCILLATOR_AGREEMENT (R319). -/
def execOscillatorAgreement (s : State) : Outcome := .next (s.monitorEnd 12 0x10 0)

/-- PD0_OSCILLATOR_STOPPED (R319). -/
def execPd0OscillatorStopped (s : State) : Outcome := if s.logicOn then .next (s.monitor 12 0x11 0) else .next s

/-- PD0_OSCILLATOR_RUNNING (R319). -/
def execPd0OscillatorRunning (s : State) : Outcome := .next (s.monitorEnd 12 0x11 0)

/-- HEARTBEAT_RESTORED (R16, R290): the loss is raised as a fatal fault once the logic die returns. -/
def execHeartbeatRestored (s : State) : Outcome :=
  if s.flag PSF_HB_STAT_LOST then
    let s := { s.put PSF_HB_STAT_LOST 0 with psf := { s.psf with cause := clrBitN s.psf.cause 17 } }.releaseSrc 17
    .next (s.faultU 6 0x14 0 0 (s.rdN PSF_HB_STAT))
  else .next s

end Sys2Proof.Machine
end

