-- ==== Sys2Proof/Machine/Management.lean ====
section
/-! DEFINITION. Commands and events of management (chapter 15): update sessions and recovery (R400 to R404), OTP programming
(R405, R406), the log (R407, R408), flush and clear of the lifetime record (R411, R413). -/

namespace Sys2Proof.Machine

/-! ## Update sessions -/

/-- The recovery session is served by the boot ROM (R404). -/
def State.recovering (s : State) : Bool := s.flag MGT_FW_STAT_RECOVERY

/-- What a recovery session reaches: the update registers and the staging area (R404). -/
def inRecovery (a : Nat) : Bool :=
  decide (0x68 ≤ a ∧ a < 0x78) || decide (lagoon + stagingOff ≤ a ∧ a < lagoon + stagingOff + stagingSize)

/-- The session, in the state that MGT_UPD_STAT shows, with the staged bytes received. -/
def State.setUpd (s : State) (u : Option UpdSt) (st : Nat) : State :=
  let n := match u with
    | some x => rangeSum x.got
    | none => 0
  let p := if st < 2 then none else s.mgt.probStaged
  { (s.put MGT_UPD_STAT_STATE st).put MGT_UPD_RCVD_V n with mgt := { s.mgt with upd := u, probStaged := p } }

/-- The staging area is cleared. -/
def State.clearStaging (s : State) : State :=
  s.memDrop (lagoon + stagingOff) (lagoon + stagingOff + stagingSize)

/-- How many bytes from image offset `o` on lie inside LEN (R400). -/
def State.stageRoom (s : State) (o : Nat) : Nat := match s.mgt.upd with
  | some u => u.len - o
  | none => 0

/-- Image bytes at offset `o` reach the open session (R400); bytes outside LEN do not (DEDUCED, log entry 203). -/
def State.stage (s : State) (o : Nat) (l : List Byte) : Option State :=
  match s.mgt.upd with
  | some u =>
    if s.get MGT_UPD_STAT_STATE = 1 ∧ l ≠ [] ∧ o + l.length ≤ min u.len stagingSize then
      some ((s.memPut (lagoon + stagingOff + o) l).setUpd (some { u with got := addRange o (o + l.length) u.got }) 1)
    else none
  | none => none

/-- IMAGE_FRAME (R400, Table 15.6, R404): from SRC 0x00, in recovery also from a neighbour (DEDUCED, log entry 167). -/
def execImageFrame (_port : Fin 4) (f : Frame) (s : State) : Outcome :=
  let s := s.takeInbox f
  if f.typ ≠ 0x33 then .next s
  else
    let src := f.src == 0 || (s.recovering && f.dst == 0xFE)
    let ok : Bool := match s.mgt.upd with
      | some u => u.tag == leAt f.payload 0 2 && u.kind == byteAt f.payload 2
      | none => false
    match (if src && ok then s.stage (leAt f.payload 4 4) (f.payload.drop 8) else none) with
    | some t => .next t
    | none => .next (s.bump MGT_UPD_STAT_DISC 1)

/-- A session is opened (R400). While a slot is being written none is; the boot ROM accepts no configuration (R404). -/
def State.updOpen (s : State) : State :=
  let kind := s.get MGT_UPD_CTRL_KIND
  if s.get MGT_UPD_STAT_STATE = 4 ∨ (s.recovering ∧ kind = 0) then s
  else s.clearStaging.setUpd (some { kind := kind, tag := s.get MGT_UPD_CTRL_TAG, len := s.get MGT_UPD_LEN_V, got := [], spoiled := false }) 1

/-- The session ends and the staged image is discarded, except while it is being written. -/
def State.updClose (s : State) : State :=
  if s.get MGT_UPD_STAT_STATE = 4 then s else s.clearStaging.setUpd none 0

/-- The alternate slot of a kind (R402); in recovery FW_A, or FW_B if FW_A holds a committed, verifying set (R404). While the base
duty set runs no configuration is in force: CFG_A, unless it verifies (DEDUCED, log entry 168). -/
def State.alternate (s : State) (kind : Nat) : Nat :=
  if kind = 0 then
    (if s.flag MGT_CFG_STAT_BASE then (if s.slotGood 0 then 1 else 0) else 1 - s.get MGT_CFG_STAT_SLOT)
  else if s.recovering then (if s.slotGood 2 then 3 else 2)
  else 3 - s.get MGT_FW_STAT_SLOT

/-- VERIFY (R401). A failure sets its code, raises fault 0/0x18, whose instance is stated for engines only, and discards the
image (DESIGN CHOICE, log entry 166). -/
def State.updVerify (s : State) : State :=
  match s.mgt.upd with
  | some u =>
    if s.get MGT_UPD_STAT_STATE ≠ 1 then s
    else
      let code := if rangeSum u.got < u.len then 1 else s.verifyCode stagingOff u.kind false
      let s := s.put MGT_UPD_STAT_CODE code
      if code = 0 then (s.setUpd (some { u with spoiled := false }) 3).logHw 0x20 0x203 (s.alternate u.kind) (s.imgVersion stagingOff) 0
      else
        let (x, s) := s.fresh 8
        (s.fault 0 0x18 x.toNat).clearStaging.setUpd none 0
  | none => s

/-- WRITE begins (R402): the sectors needed are erased, and with them COMMIT: the slot no longer verifies (R388). What an interrupted or failed write leaves of the header beside COMMIT is
open (DESIGN CHOICE, log entry 164). -/
def State.updWrite (s : State) : State :=
  match s.mgt.upd with
  | some u =>
    if s.get MGT_UPD_STAT_STATE ≠ 3 ∨ s.mgt.flashOp.isSome then s
    else
      let i := s.alternate u.kind
      let n := cdivN (256 + s.imgLE stagingOff 12 4) 0x10000
      let (x, s) := s.fresh 1536
      let s := (s.flashErase (slotBase i) (slotBase i + n * 0x10000)).flashPut (slotBase i) (leBytes 192 x.toNat)
      let s := ((s.setUpd (some u) 4).put (MGT_SLOTs_HDR_BUSY i) 1).put MGT_FL_STAT_BUSY 1
      let s := ((s.put (MGT_SLOTs_HDR_COMMIT i) 0).put (MGT_SLOTs_HDR_VERIFIED i) 0).put ⟨MGT_SLOTs_HDR i, 8, 8⟩ 1
      let s := ((s.bump MGT_FL_CNT_ERASE n).emit (.flashCmd 0x06)).emit (.flashCmd 0xD8)
      let s := (s.put MGT_FL_LASTOP_CMD 0xD8).put MGT_FL_LASTOP_ADDR (slotBase i)
      { s with mgt := { s.mgt with flashOp := some { slot := i, suspended := false } } }
  | none => s

/-- A write of MGT_UPD_CTRL that is performed (Table 15.16) (DEDUCED, log entry 165). -/
def State.writeUpdCtrl (s : State) (i : Initiator) (v : Nat) : State :=
  s.ifPrivileged i MGT_UPD_CTRL fun s =>
    let s := s.plainWrite i MGT_UPD_CTRL v
    let s := if bitOf v 0 then s.updOpen else s
    let s := if bitOf v 1 then s.updVerify else s
    let s := if bitOf v 2 then s.updWrite else s
    if bitOf v 3 then s.updClose else s

/-- UPDATE_OPEN (R400). -/
def execUpdateOpen (i : Initiator) (v : Word) (s : State) : Outcome :=
  .next (s.writeRow i MGT_UPD_CTRL fun s => s.writeUpdCtrl i (setBitN v.toNat 0))

/-- UPDATE_VERIFY (R401). -/
def execUpdateVerify (i : Initiator) (v : Word) (s : State) : Outcome :=
  .next (s.writeRow i MGT_UPD_CTRL fun s => s.writeUpdCtrl i (setBitN v.toNat 1))

/-- UPDATE_WRITE (R402). -/
def execUpdateWrite (i : Initiator) (v : Word) (s : State) : Outcome :=
  .next (s.writeRow i MGT_UPD_CTRL fun s => s.writeUpdCtrl i (setBitN v.toNat 2))

/-- UPDATE_CLOSE (R400). -/
def execUpdateClose (i : Initiator) (v : Word) (s : State) : Outcome :=
  .next (s.writeRow i MGT_UPD_CTRL fun s => s.writeUpdCtrl i (setBitN v.toNat 3))

/-- The staged image stands in slot `i` of the flash, COMMIT last, and its resident copy is replaced (R402, R388). -/
def State.slotWritten (s : State) (i : Nat) : State :=
  let ver := s.imgVersion stagingOff
  let body := s.imgBody stagingOff (slotKind i)
  let head := s.memBytes (lagoon + stagingOff) 192
  let s := ((s.flashPut (slotBase i + 256) body).flashPut (slotBase i) head).flashPut (slotBase i + 192) (leBytes 4 (ver ^^^ 0x5A5AA5A5))
  let s := (((s.emit (.flashCmd 0x06)).emit (.flashCmd 0x02)).put MGT_FL_LASTOP_CMD 0x02).put MGT_FL_LASTOP_ADDR (slotBase i + 192)
  let s := s.readSlot i
  (s.showSlot i (s.verifyCode (slotOff i) (slotKind i) true)).logSlot 4 i

/-- A staged firmware set that runs an engine stands in slot `i` now: its probation goes on there (R398; DEDUCED, log entry 270). -/
def State.probeWritten (s : State) (i : Nat) : State :=
  match s.countProbation.mgt.probStaged with
  | some t =>
    let s := s.countProbation
    let s := { s with mgt := { s.mgt with probStaged := none } }
    if (List.range 16).any fun e => (s.engine e).image == stagingOff then
      { s.putBit MGT_PROB_STAT_SLOTS i true with mgt := { s.mgt with prob := vset s.mgt.prob i t } }
    else s
  | none => s

/-- UPDATE_WRITE_COMPLETE (R402, R404): the flash has done what it did. A failure leaves the image staged. In
SHIP it is the last command that VIO waited for (R346)
(DEDUCED, log entries 135, 161, 169). -/
def execUpdateWriteComplete (r : FlashOutcome) (s : State) : Outcome :=
  match s.mgt.flashOp with
  | none => .next s
  | some o =>
    if o.suspended then .next s
    else if s.mode = 0 then .next { s with mgt := { s.mgt with flashOp := none, vio := false } }
    else if !s.logicOn then .next s
    else
      let s := { (s.put (MGT_SLOTs_HDR_BUSY o.slot) 0).put MGT_FL_STAT_BUSY 0 with mgt := { s.mgt with flashOp := none } }
      match r with
      | .good =>
        let s := ((s.slotWritten o.slot).setUpd s.mgt.upd 5).probeWritten o.slot
        .next (if s.recovering then s.warmReset [3] else s)
      | .writeFailed => .next (((s.put MGT_UPD_STAT_CODE 6).bump MGT_FL_CNT_FAIL 1).setUpd s.mgt.upd 3)
      | .readbackFailed => .next (((s.put MGT_UPD_STAT_CODE 7).bump MGT_FL_CNT_FAIL 1).setUpd s.mgt.upd 3)

/-! ## OTP -/

/-- A write of MGT_OTP_KEY that is performed (R406) (DEDUCED, log entry 171). -/
def State.writeOtpKey (s : State) (i : Initiator) (v : Nat) : State :=
  s.ifPrivileged i MGT_OTP_KEY fun s =>
    let k := v % 65536
    let next : Option (Nat × Bool) :=
      if k = 0x0F7A then some (s.now, false)
      else match s.mgt.otpKey with
        | some (t, false) => if k = 0x9B3C ∧ s.now ≤ t + sec then some (s.now, true) else none
        | _ => none
    { s with mgt := { s.mgt with otpKey := next } }

/-- OTP_KEY (R406). -/
def execOtpKey (i : Initiator) (v : Word) (s : State) : Outcome :=
  .next (s.writeRow i MGT_OTP_KEY fun s => s.writeOtpKey i v.toNat)

/-- The DATA words, or what a failed programming leaves in the cells: 32 bytes. -/
def State.otpBytes (s : State) (good : Bool) : List Byte × State :=
  if good then (((List.range 8).map fun k => leBytes 4 (s.rdN (MGT_OTP_DATAk k))).flatten, s)
  else let (x, s) := s.fresh 256; (leBytes 32 x.toNat, s)

/-- The words of a target are programmed and read back within 50 ms, and the mirrors follow (R406, R285): CFGKEY is a cell of its
own, programmed with the key hash only (DESIGN CHOICE, log entry 170). -/
def State.otpProgram (s : State) (tgt : Nat) (good : Bool) : State :=
  let s := s.reach (s.now + 50 * ms)
  let key := bitOf (s.rdN (PSF_OTPk 7)) 1
  let (l, s) := s.otpBytes good
  let s :=
    if tgt = 0 then
      let a := otpBase + 0x800
      let s := s.memPut a l
      s.memPut (a + 28) (leBytes 4 (putBitN (s.memLE (a + 28) 4) 1 key))
    else
      let (x, s) := s.fresh 1
      let s := s.memPut (otpBase + 0x820) l
      s.memPut (otpBase + 0x81C) (leBytes 4 (putBitN (s.memLE (otpBase + 0x81C) 4) 1 (good || x == 1)))
  (s.mirrorOtp.clipAll).put MGT_OTP_STAT_CODE (if good then 0 else 4)

/-- A write of MGT_OTP_CTRL that is performed (R406): `fb` are the output feedbacks, `good` says that the readback holds. DATA7
without PROG programs nothing, and the outcome is not stated (DESIGN CHOICE, log entry 170; DEDUCED, log entry 171). -/
def State.writeOtpCtrl (s : State) (i : Initiator) (v : Nat) (fb : BitVec 3) (good : Bool) : State :=
  s.ifPrivileged i MGT_OTP_CTRL fun s =>
    let tgt := v % 2
    let keyed : Bool := match s.mgt.otpKey with
      | some (t, done) => done && decide (s.now ≤ t + sec)
      | none => false
    if ¬ bitOf v 31 then s
    else if bitOf (s.rdN (PSF_OTPk 7)) tgt then s.put MGT_OTP_STAT_CODE 1
    else if ¬ keyed then s.put MGT_OTP_STAT_CODE 2
    else if fb ≠ 0 ∨ s.vstk < 2000 then s.put MGT_OTP_STAT_CODE 3
    else if tgt = 0 ∧ ¬ bitOf (s.rdN (MGT_OTP_DATAk 7)) 0 then
      let (x, s) := s.fresh 8
      s.put MGT_OTP_STAT_CODE x.toNat
    else s.otpProgram tgt good

/-- OTP_PROGRAM (R406). -/
def execOtpProgram (i : Initiator) (v : Word) (fb : BitVec 3) (readback : Bool) (s : State) : Outcome :=
  .next (s.writeRow i MGT_OTP_CTRL fun s => (s.takeFeedback fb).writeOtpCtrl i (setBitN v.toNat 31) fb readback)

/-! ## Log -/

/-- A write of MGT_LOG_WRk that is performed: held for each initiator (R408). -/
def State.writeLogWr (s : State) (i : Initiator) (k : Nat) (v : Word) : State :=
  let key := i.code * 4 + k
  { s with log := { s.log with staging := (key, v) :: s.log.staging.filter fun e => e.1 != key } }

/-- A write of MGT_LOG_POST that is performed: the entry staged by the initiator (R408, Table 15.9). SRC is stated for engines
only (DESIGN CHOICE, log entry 173). -/
def State.writeLogPost (s : State) (i : Initiator) : State :=
  let w := (s.stagedLog i 0).toNat
  let d (k : Nat) : Nat := (s.stagedLog i k).toNat
  let (src, s) : Nat × State := match i with
    | .engine n => (n.val, s)
    | _ => ((s.fresh 8).1.toNat, (s.fresh 8).2)
  s.logEntry src (w % 256) (w / 65536) (d 1) (d 2) (d 3)

/-- LOG_POST (R408). -/
def execLogPost (i : Initiator) (_v : Word) (s : State) : Outcome :=
  .next (s.writeRow i MGT_LOG_POST fun s => s.writeLogPost i)

/-! ## Lifetime record -/

/-- LIFETIME_FLUSH (R411): every 10 s of the real-time counter, while MC runs; it pauses while MC is fenced (R209)
(DEDUCED, log entry 241). -/
def execLifetimeFlush (stored : Bool) (s : State) : Outcome :=
  if s.logicOn && s.started && !s.engFenced 15 then .next ((s.reach (s.life.flushAt + 10 * sec)).lifeFlush stored) else .next s

/-- A write of MEM_LT_CTRL that is performed (R413): FLUSH; CLEAR in SERVICE with its key, which it uses up
(DEDUCED, log entry 172). -/
def State.writeLtCtrl (s : State) (i : Initiator) (v : Nat) (stored : Bool) : State :=
  s.ifPrivileged i MEM_LT_CTRL fun s =>
    let s := if bitOf v 0 then s.lifeFlush stored else s
    let keyed : Bool := match s.mgt.lifeKey with
      | some (_, done) => done
      | none => false
    if bitOf v 1 && keyed && s.mode == 4 then { s with mgt := { s.mgt with lifeKey := none } }.lifeClear else s

/-- LIFETIME_FLUSH_NOW (Table 15.17). -/
def execLifetimeFlushNow (i : Initiator) (v : Word) (stored : Bool) (s : State) : Outcome :=
  .next (s.writeRow i MEM_LT_CTRL fun s => s.writeLtCtrl i (setBitN v.toNat 0) stored)

/-- A write of MEM_LT_KEY that is performed: it acts in SERVICE only (R413) (DEDUCED, log entry 172). -/
def State.writeLtKey (s : State) (i : Initiator) (v : Nat) : State :=
  s.ifPrivileged i MEM_LT_KEY fun s =>
    let k := v % 65536
    let next : Option (Nat × Bool) :=
      if s.mode ≠ 4 then none
      else if k = 0x6C1E then some (s.now, false)
      else match s.mgt.lifeKey with
        | some (t, false) => if k = 0xE1C6 then some (t, true) else none
        | _ => none
    { s with mgt := { s.mgt with lifeKey := next } }

/-- LIFETIME_KEY (R413). -/
def execLifetimeKey (i : Initiator) (v : Word) (s : State) : Outcome :=
  .next (s.writeRow i MEM_LT_KEY fun s => s.writeLtKey i v.toNat)

/-- LIFETIME_CLEAR (R413). -/
def execLifetimeClear (i : Initiator) (v : Word) (s : State) : Outcome :=
  .next (s.writeRow i MEM_LT_CTRL fun s => s.writeLtCtrl i (setBitN v.toNat 1) true)

end Sys2Proof.Machine
end

