-- ==== Sys2Proof/Machine/Interfaces.lean ====
section
/-! DEFINITION. Host Notify (R426 to R429), single-wire sensor buses (R430 to R436), the flash port's time limit (R439) and the
check-value units (R440, R441). -/

namespace Sys2Proof.Machine

/-! ## Host Notify -/

/-- A write of MGT_NOTIFY_SEND that is performed (Table 16.3). -/
def State.writeNotifySend (s : State) (i : Initiator) (v : Nat) : State :=
  s.ifPrivileged i MGT_NOTIFY_SEND fun s => s.notifyQueue (0x10 + v % 16) (v / 256 % 256)

/-- NOTIFY_SEND (R427). -/
def execNotifySend (i : Initiator) (v : Word) (s : State) : Outcome :=
  .next (s.writeRow i MGT_NOTIFY_SEND fun s => s.writeNotifySend i v.toNat)

/-- The oldest event leaves the queue. -/
def State.notifyPop (s : State) : State :=
  let n := s.get MGT_NOTIFY_STAT_QCNT
  let shift (s : State) (e : Nat) : State :=
    (s.wr (MGT_NOTIFY_Qe_WORD e) (s.rd (MGT_NOTIFY_Qe_WORD (e + 1)))).wr (MGT_NOTIFY_Qe_T e) (s.rd (MGT_NOTIFY_Qe_T (e + 1)))
  let s := (List.range 7).foldl shift s
  let s := ((s.wrN (MGT_NOTIFY_Qe_WORD 7) 0).wrN (MGT_NOTIFY_Qe_T 7) 0).put MGT_NOTIFY_STAT_QCNT (n - 1)
  s.put MGT_NOTIFY_STAT_RETRY 0

/-- An event whose eighth retry has failed (R429) (DEDUCED, log entry 175). -/
def State.notifyGiveUp (s : State) (evt info : Nat) : State :=
  let s := s.notifyPop.notifyPend evt
  if s.flag FCR_CTRL_NTF then s.originate 0 0x22 (s.notifyBytes 4 0 0 evt false info 0 0 0) else s

/-- One bit time of MGT_NOTIFY_CFG.FSCL in 1/16 ns (R426). -/
def State.sclBit (s : State) : Nat :=
  let f := s.get MGT_NOTIFY_CFG_FSCL
  if f = 0 then 10 * us else if f = 1 then 5 * us / 2 else us

/-- HOST_NOTIFY_ATTEMPT (R426 to R429): in RUN, TRIM, SERVICE, HOLD and WATCH bursts the oldest event is sent, no earlier than the
bus and the wait after a failed attempt allow (DEDUCED, log entry 174). -/
def execHostNotifyAttempt (r : NotifyResult) (s : State) : Outcome :=
  if s.get MGT_NOTIFY_STAT_QCNT = 0 ∨ ¬ s.logicOn ∨ s.mode = 0 ∨ s.mode = 6 then .next s
  else
    let evt := s.get (MGT_NOTIFY_Qe_WORD_EVT 0)
    let info := s.get (MGT_NOTIFY_Qe_WORD_INFO 0)
    let own := s.get MGT_TW_STAT_ADDR
    let s := s.reach s.mgt.notifyAt
    let s := s.emit (.hostNotify (leBytes 1 0x10 ++ leBytes 1 (2 * own) ++ leBytes 1 evt ++ leBytes 1 info))
    match r with
    | .delivered =>
      let s := (s.reach (s.now + 36 * s.sclBit)).bump MGT_NOTIFY_CNT_DELIV 1
      .next { s.notifyPop with mgt := { s.mgt with notifyAt := s.now + 50 * us } }
    | _ =>
      let s := match r with
        | .arbitrationLost => s.bump MGT_NOTIFY_CNT_ARB 1
        | .nacked => s.bump MGT_NOTIFY_CNT_NACK 1
        | _ => s
      let s := { s with mgt := { s.mgt with notifyAt := s.now + (50 + 25 * (1 + s.get MGT_TW_STAT_K)) * us } }
      .next (if 8 ≤ s.get MGT_NOTIFY_STAT_RETRY then s.notifyGiveUp evt info else s.bump MGT_NOTIFY_STAT_RETRY 1)

/-! ## Single-wire buses -/

/-- Bus `n`. -/
def State.swb (s : State) (n : Nat) : SwbSt := vget s.mgt.swb n .reset

/-- The trigger pulse of a kind in µs (Table 16.5). -/
def swbPulse (kind : Nat) : Nat := 8 * 2 ^ kind

/-- Payload bytes of a kind (Table 16.5). -/
def swbBytes (kind : Nat) : Nat := if kind = 0 then 8 else if kind = 3 then 4 else 2

/-- When a periodic reading is due next: its period after it was due, or after now when that has passed
(DEDUCED, log entry 178). -/
def swbNext (due now period : Nat) : Nat := if due + period ≤ now then now + period else due + period

/-- A trigger of a kind is sent (R431, R434). -/
def State.swbSend (s : State) (n kind : Nat) : State :=
  let per := s.getIn (MGT_SWBn_PER_PRI_MS n) 10 10000 * ms
  let sec' := s.get (MGT_SWBn_PER_SEC_MS n) * ms
  let t := s.now
  let s := (((s.put (MGT_SWBn_STAT_STATE n) 3).emit (.swb n kind)).bump (MGT_SWBn_CNT0_TRIG n) 1).reach (t + swbPulse kind * us)
  (s.put (MGT_SWBn_STAT_STATE n) 4).onSwb n fun b =>
    { b with trig := some (kind, s.now), idDue := b.idDue && kind != 0,
             priAt := if kind ≠ 1 then b.priAt else if s.mode = 1 then s.mgt.burstDue else swbNext b.priAt t per,
             secAt := if kind = 2 then swbNext b.secAt t sec' else b.secAt,
             diagAt := if kind = 3 then swbNext b.diagAt t (60 * sec) else b.diagAt }

/-- The bus may send a trigger: powered and idle, and in WATCH only in a burst. -/
def State.swbIdle (s : State) (n : Nat) : Bool :=
  s.get (MGT_SWBn_STAT_STATE n) == 2 && s.logicOn && (s.mode != 1 || s.meas.burst.isSome)

/-- The readings of the schedule with their due times, in the order in which they are taken together (R434, R436)
(DEDUCED, log entry 178). -/
def State.swbDue (s : State) (n : Nat) : List (Nat × Nat) :=
  let b := s.swb n
  if s.mode = 1 then
    (match b.manual with | some k => [(k, 0)] | none => []) ++ (if b.priAt = s.mgt.burstDue then [] else [(1, s.now)])
  else
    (match b.manual with | some k => [(k, 0)] | none => []) ++ (if b.idDue then [(0, 0)] else []) ++ [(1, b.priAt)] ++
      (if s.flag (MGT_SWBn_CFG_SEC n) && s.get (MGT_SWBn_PER_SEC_MS n) != 0 then [(2, b.secAt)] else []) ++
      (if s.flag (MGT_SWBn_CFG_DIAG n) then [(3, b.diagAt)] else [])

/-- SWB_TRIGGER (R434): the next reading that falls due is taken, no earlier than the bus is free. -/
def execSwbTrigger (n : Fin 2) (s : State) : Outcome :=
  if ¬ s.swbIdle n then .next s
  else
    match s.swbDue n with
    | [] => .next s
    | d :: l =>
      let t := max (max s.now (s.swb n).freeAt) (l.foldl (fun (m : Nat) (e : Nat × Nat) => min m e.2) d.2)
      let s := s.reach t
      let k := (((d :: l).find? fun e => decide (e.2 ≤ t)).map (·.1)).getD d.1
      let s := if (s.swb n).manual = some k then s.onSwb n fun b => { b with manual := none } else s
      .next (s.swbSend n k)

/-- A write of MGT_SWBn_CTRL that is performed: a trigger taken at the next free slot (R434). -/
def State.writeSwbCtrl (s : State) (n v : Nat) : State :=
  if ¬ bitOf v 7 ∨ s.get (MGT_SWBn_STAT_STATE n) = 0 then s
  else if s.swbIdle n && decide ((s.swb n).freeAt ≤ s.now) then s.swbSend n (v % 4)
  else s.onSwb n fun b => { b with manual := some (v % 4) }

/-- SWB_MANUAL_TRIGGER (R434). -/
def execSwbManualTrigger (n : Fin 2) (i : Initiator) (v : Word) (s : State) : Outcome :=
  .next (s.writeRow i (MGT_SWBn_CTRL n) fun s => s.writeSwbCtrl n (setBitN v.toNat 7))

/-- The bus is free for the next trigger 200 µs from now (R434). -/
def State.swbFree (s : State) (n : Nat) : State :=
  (s.put (MGT_SWBn_STAT_STATE n) 2).onSwb n fun b => { b with trig := none, freeAt := s.now + 200 * us }

/-- A trigger of a kind has yielded no valid response (R435): its cause, the reading held, fault 0/0x17 at the eighth in
succession (DEDUCED, log entry 181). -/
def State.swbFail (s : State) (n kind code : Nat) : State :=
  let s := (s.put (MGT_SWBn_STAT_LASTERR n) code).bump (MGT_SWBn_STAT_ERRS n) 1
  let s := if code ≤ 4 then s.bump ⟨MGT_SWBn_CNT1 n, 8 * (code - 1), 8⟩ 1 else s
  let s := if kind = 1 then s.put (MGT_SWBn_PRI_HELD n) 1 else if kind = 2 then s.put (MGT_SWBn_SEC_HELD n) 1 else s
  let s := s.onSwb n fun b => { b with bad := b.bad + 1 }
  if 8 ≤ (s.swb n).bad ∧ ¬ (s.swb n).reported then
    ((s.onSwb n fun b => { b with reported := true }).put (MGT_SWBn_STAT_FAULT n) 1).fault 0 0x17 n
  else s

/-- The stored value of a primary or secondary reading: payload byte 0 first (Table 16.7). -/
def swbValue (pay : List Byte) : Nat := byteAt pay 0 * 256 + byteAt pay 1

/-- A valid response is stored (R431, R432, R434). What the log entry of an identity change holds is not stated
(DEDUCED, log entry 181). -/
def State.swbStore (s : State) (n kind : Nat) (serr : Bool) (pay : List Byte) : State :=
  if kind = 0 then
    let lo := leAt pay 0 4
    let hi := leAt pay 4 4
    let changed := (s.swb n).known && (lo != s.rdN (MGT_SWBn_ID_LO n) || hi != s.rdN (MGT_SWBn_ID_HI n))
    let s := ((s.wrN (MGT_SWBn_ID_LO n) lo).wrN (MGT_SWBn_ID_HI n) hi).onSwb n fun b => { b with known := true }
    if changed then
      let (x, s) := s.fresh 112
      ((s.put (MGT_SWBn_STAT_IDCHG n) 1).bump (MGT_SWBn_CNT2_ID n) 1).logHw 0x20 (x.toNat / 4 % 65536)
        (x.toNat / 2 ^ 18 % 2 ^ 32) (x.toNat / 2 ^ 50 % 2 ^ 32) (x.toNat / 2 ^ 82)
    else s
  else if kind = 1 then
    let i := if s.flag (MGT_SWBn_PRI_VALID n) then (s.get (MGT_SWBn_HWPTR_IDX n) + 1) % 64 else 0
    let s := (s.wrN (MGT_SWBn_PRI n) (swbValue pay + 65536 + 262144 * b2n serr)).put64 (MGT_SWBn_PRI_TLO n) s.ftNs
    ((s.put (MGT_SWBn_HWPTR_IDX n) i).put (MGT_SWBn_HISTm_VALUE n i) (swbValue pay)).put (MGT_SWBn_HISTm_K n i) (s.tickNo % 65536)
  else if kind = 2 then s.wrN (MGT_SWBn_SEC n) (swbValue pay + 65536 + 262144 * b2n serr)
  else s.wrN (MGT_SWBn_DIAG n) (ofLE (pay.take 4).reverse)

/-- A valid response ends a run of failures, and fault 0/0x17 (R435). -/
def State.swbGood (s : State) (n : Nat) (serr : Bool) : State :=
  let s := (s.bump (MGT_SWBn_CNT0_OK n) 1).put (MGT_SWBn_STAT_ERRS n) 0
  let s := if serr then s.bump (MGT_SWBn_CNT2_SERR n) 1 else s
  let was := (s.swb n).reported
  let s := (s.onSwb n fun b => { b with bad := 0, reported := false }).put (MGT_SWBn_STAT_FAULT n) 0
  if was then s.endCond 0 0x17 n else s

/-- The CRC of a single-wire response (R432): J1850. -/
def swbCrc (l : List Byte) : Nat := crcMsb 8 0x1D 0xFF l ^^^ 0xFF

/-- An interval between edges that R433 accepts, in 10 ns. -/
def swbInterval (x : Nat) : Bool := (decide (375 ≤ x) && decide (x ≤ 625)) || (decide (750 ≤ x) && decide (x ≤ 1250))

/-- The cause for which a response to a trigger of a kind is discarded, 0 when it is valid (R432, R433, R435). A response of
another length than its kind is a framing error (DEDUCED, log entry 177). -/
def swbJudge (kind : Nat) (r : SwbReply) : Nat :=
  let n := swbBytes kind
  if ¬ r.intervals.all swbInterval ∨ r.bytes.length ≠ n + 2 then 2
  else if swbCrc (r.bytes.take (n + 1)) ≠ byteAt r.bytes (n + 1) then 3
  else if byteAt r.bytes 0 % 4 ≠ kind then 4
  else 0

/-- SWB_RESPONSE (R432 to R435): one that has not begun 500 µs after the release comes after its time-out
(DEDUCED, log entries 176, 179). -/
def execSwbResponse (n : Fin 2) (r : SwbReply) (s : State) : Outcome :=
  match (s.swb n).trig with
  | none => .next s
  | some (kind, t) =>
    if 500 < r.delay then .next (((s.reach (t + 500 * us)).swbFail n kind 1).swbFree n)
    else
      let s := s.reach (t + (r.delay + 30 + 80 * r.bytes.length) * us)
      let raw (s : State) (j : Nat) : State := s.wrN (MGT_SWBn_RAWj n j) (leAt r.bytes (4 * j) 4)
      let s := ((List.range 3).foldl raw s).put (MGT_SWBn_TIM_DELAY n) r.delay
      let total := r.intervals.foldl (· + ·) 0
      let s := if r.bytes = [] then s else s.put (MGT_SWBn_TIM_BIT n) (min 255 (rdivN total (80 * r.bytes.length)))
      let serr := bitOf (byteAt r.bytes 0) 2
      let c := swbJudge kind r
      .next ((if c = 0 then (s.swbStore n kind serr (r.bytes.drop 1)).swbGood n serr else s.swbFail n kind c).swbFree n)

/-- SWB_RESPONSE_TIMEOUT (R432, R435). -/
def execSwbResponseTimeout (n : Fin 2) (s : State) : Outcome :=
  match (s.swb n).trig with
  | none => .next s
  | some (kind, t) => .next (((s.reach (t + 500 * us)).swbFail n kind 1).swbFree n)

/-- SWB_POWER_ERROR (R430, R435): SWPn goes off for 1 s; a trigger in flight fails (DEDUCED, log entry 180). -/
def execSwbPowerError (n : Fin 2) (s : State) : Outcome :=
  if ¬ s.flag (MGT_SWBn_STAT_PWR n) then .next s
  else
    let s := s.bump (MGT_SWBn_CNT2_PWR n) 1
    let s := match (s.swb n).trig with
      | some (kind, _) => s.swbFail n kind 5
      | none => s.put (MGT_SWBn_STAT_LASTERR n) 5
    .next ((s.onSwb n fun b => { b with offAt := some s.now }).followSwb n)

/-- SWP_POWER_RETRY (R430): 1 s after a power error. -/
def execSwpPowerRetry (n : Fin 2) (s : State) : Outcome :=
  match (s.swb n).offAt with
  | none => .next s
  | some t => .next (((s.reach (t + sec)).onSwb n fun b => { b with offAt := none }).followSwb n)

/-- SWB_POWER_UP (R430, R434): PWRUP_MS after SWPn came on the identity is read, and the schedule begins. -/
def execSwbPowerUp (n : Fin 2) (s : State) : Outcome :=
  if s.get (MGT_SWBn_STAT_STATE n) = 1 then
    let s := s.reach ((s.swb n).pwrAt + s.getIn (MGT_SWBn_CFG_PWRUP_MS n) 1 255 * ms)
    let s := s.onSwb n fun b => { b with priAt := s.now, secAt := s.now, diagAt := s.now, freeAt := s.now }
    .next (if s.mode = 1 then s.put (MGT_SWBn_STAT_STATE n) 2 else s.swbSend n 0)
  else .next s

/-- A write of MGT_SWBn_CFG that is performed. -/
def State.writeSwbCfg (s : State) (i : Initiator) (n v : Nat) : State := (s.plainWrite i (MGT_SWBn_CFG n) v).followSwb n

/-! ## Flash port -/

/-- FLASH_TIMEOUT (R439): a write that exceeds its bound has failed; one that has not suspended within 5 ms holds nothing up any
longer (DEDUCED, log entries 135, 184). -/
def execFlashTimeout (s : State) : Outcome :=
  match s.mgt.flashOp with
  | none => .next s
  | some o =>
    let s := (s.bump MGT_FL_ERR_TMO 1).fault 0 0x10 o.slot
    if o.suspended then
      .next s.afterSuspend
    else
      let s := { (s.put (MGT_SLOTs_HDR_BUSY o.slot) 0).put MGT_FL_STAT_BUSY 0 with mgt := { s.mgt with flashOp := none } }
      .next (((s.put MGT_UPD_STAT_CODE 6).bump MGT_FL_CNT_FAIL 1).setUpd s.mgt.upd 3)

/-! ## Check-value units -/

/-- Width in bits, polynomial, initial value and final XOR of POLY (R440); its value 3 acts as 2 (DESIGN CHOICE, log entry 10). -/
def crcParam (poly : Nat) : Nat × Nat × Nat × Nat :=
  if poly = 0 then (32, 0x82F63B78, 0xFFFFFFFF, 0xFFFFFFFF)
  else if poly = 1 then (32, 0xEDB88320, 0xFFFFFFFF, 0xFFFFFFFF)
  else (8, 0x1D, 0xFF, 0xFF)

/-- The parameters of unit `u`. -/
def State.crcOf (s : State) (u : Nat) : Nat × Nat × Nat × Nat := crcParam (s.get (MGT_CRCu_CTRL_POLY u))

/-- The internal state of unit `u` becomes `x`; RESULT follows with the final XOR. -/
def State.crcState (s : State) (u x : Nat) : State :=
  let p := s.crcOf u
  (s.wrN (MGT_CRCu_STATE u) x).wrN (MGT_CRCu_RESULT u) ((x ^^^ p.2.2.2) % 2 ^ p.1)

/-- One byte enters the computation. -/
def State.crcByte (s : State) (u : Nat) (b : Byte) : State :=
  let p := s.crcOf u
  let x := s.rdN (MGT_CRCu_STATE u)
  let y := if p.1 = 32 then crcRefl p.2.1 x [b] else crcMsb 8 p.2.1 (x % 256) [b]
  (s.crcState u y).wrN (MGT_CRCu_LEN u) (s.rdN (MGT_CRCu_LEN u) + 1)

/-- The bytes that unit `u` holds back. -/
def State.crcHeld (s : State) (u : Nat) : List Nat := (vget s.mgt.crc u { held := [] }).held

/-- The bytes held back become `l`; RXCHK shows them (DEDUCED, log entry 182). -/
def State.crcHold (s : State) (u : Nat) (l : List Nat) : State :=
  { s.wrN (MGT_CRCu_RXCHK u) (ofLE (l.map (BitVec.ofNat 8))) with mgt := { s.mgt with crc := vset s.mgt.crc u { held := l } } }

/-- One byte written to unit `u`: in receive mode the last 4 bytes, or the last one for CRC-8, are held back (R440). -/
def State.crcFeed (s : State) (u b : Nat) : State :=
  if ¬ s.flag (MGT_CRCu_CTRL_DIR u) then s.crcByte u (BitVec.ofNat 8 b)
  else
    let l := s.crcHeld u ++ [b]
    if (s.crcOf u).1 / 8 < l.length then (s.crcByte u (BitVec.ofNat 8 (l.headD 0))).crcHold u (l.drop 1)
    else s.crcHold u l

/-- An initiator may use unit `u`: its owner; the configuration loader and the update path unit 0, the single-wire decoders and the log
writer unit 1 (R441) (DESIGN CHOICE, log entry 183). -/
def State.ownsCrc (s : State) (i : Initiator) (u : Nat) : Bool :=
  if u = 0 then i.code == 21 || i.code == 22
  else if u = 1 then i.code == 20 || i.code == 24
  else s.get (MGT_CRCu_STAT_OWNER u) == i.code + 1

/-- A write to unit `u` that its owner makes; any other is ignored and recorded (R441). -/
def State.byOwner (s : State) (i : Initiator) (u a : Nat) (act : State → State) : State :=
  if s.ownsCrc i u then act s else s.refuseRight 0 i a

/-- START (R440): the initial value (DEDUCED, log entry 182). -/
def State.crcStart (s : State) (u : Nat) : State :=
  let s := (s.crcState u (s.crcOf u).2.2.1).wrN (MGT_CRCu_LEN u) 0
  (((s.put (MGT_CRCu_STAT_BUSY u) 1).put (MGT_CRCu_STAT_DONE u) 0).put (MGT_CRCu_STAT_OK u) 0).crcHold u []

/-- END (R440): in receive mode the received check value is compared (DEDUCED, log entry 182). -/
def State.crcEnd (s : State) (u : Nat) : State :=
  let s := ((s.put (MGT_CRCu_STAT_BUSY u) 0).put (MGT_CRCu_STAT_DONE u) 1).bump (MGT_CRCu_CNT_N u) 1
  if ¬ s.flag (MGT_CRCu_CTRL_DIR u) then s
  else
    let ok := (s.crcHeld u).length == (s.crcOf u).1 / 8 && s.rdN (MGT_CRCu_RXCHK u) == s.rdN (MGT_CRCu_RESULT u)
    let s := s.putB (MGT_CRCu_STAT_OK u) ok
    if ok then s else s.bump (MGT_CRCu_CNT_MIS u) 1

/-- A write of MGT_CRCu_CTRL that is performed: CLAIM takes a free unit, REL frees it (R441). -/
def State.writeCrcCtrl (s : State) (u : Nat) (i : Initiator) (v : Nat) : State :=
  let free := decide (2 ≤ u) && s.get (MGT_CRCu_STAT_OWNER u) == 0
  let s := if bitOf v 8 && free then s.put (MGT_CRCu_STAT_OWNER u) (i.code + 1) else s
  s.byOwner i u (MGT_CRCu_CTRL u) fun s =>
    let s := s.plainWrite i (MGT_CRCu_CTRL u) v
    let s := if bitOf v 3 then s.crcStart u else s
    let s := if bitOf v 4 then s.crcEnd u else s
    if bitOf v 9 ∧ 2 ≤ u then s.put (MGT_CRCu_STAT_OWNER u) 0 else s

/-- A write of `n` bytes to MGT_CRCu_DATA that is performed. -/
def State.writeCrcData (s : State) (u : Nat) (i : Initiator) (v n : Nat) : State :=
  s.byOwner i u (MGT_CRCu_DATA u) fun s => (leBytes n v).foldl (fun (s : State) (b : Byte) => s.crcFeed u b.toNat) s

/-- A write of MGT_CRCu_STATE that is performed. -/
def State.writeCrcState (s : State) (u : Nat) (i : Initiator) (v : Nat) : State :=
  s.byOwner i u (MGT_CRCu_STATE u) fun s => s.crcState u v

/-- CRC_START (R440). -/
def execCrcStart (u : Fin 4) (i : Initiator) (v : Word) (s : State) : Outcome :=
  .next (s.writeRow i (MGT_CRCu_CTRL u) fun s => s.writeCrcCtrl u i (setBitN v.toNat 3))

/-- CRC_DATA (R440): an access of 1, 2 or 4 bytes. -/
def execCrcData (u : Fin 4) (i : Initiator) (v : Word) (size : Fin 3) (s : State) : Outcome :=
  .next (s.writeRow i (MGT_CRCu_DATA u) fun s => s.writeCrcData u i v.toNat (2 ^ size.val))

/-- CRC_END (R440). -/
def execCrcEnd (u : Fin 4) (i : Initiator) (v : Word) (s : State) : Outcome :=
  .next (s.writeRow i (MGT_CRCu_CTRL u) fun s => s.writeCrcCtrl u i (setBitN v.toNat 4))

/-- CRC_CLAIM (R441). -/
def execCrcClaim (u : Fin 4) (i : Initiator) (v : Word) (s : State) : Outcome :=
  .next (s.writeRow i (MGT_CRCu_CTRL u) fun s => s.writeCrcCtrl u i (setBitN v.toNat 8))

/-- CRC_RELEASE (R441). -/
def execCrcRelease (u : Fin 4) (i : Initiator) (v : Word) (s : State) : Outcome :=
  .next (s.writeRow i (MGT_CRCu_CTRL u) fun s => s.writeCrcCtrl u i (setBitN v.toNat 9))

/-- CRC_STATE_WRITE (R440). -/
def execCrcStateWrite (u : Fin 4) (i : Initiator) (v : Word) (s : State) : Outcome :=
  .next (s.writeRow i (MGT_CRCu_STATE u) fun s => s.writeCrcState u i v.toNat)

end Sys2Proof.Machine
end

