-- ==== Sys2Proof/Machine/FaultForce.lean ====
section
/-! DEFINITION. Forcing faults (R337). -/

namespace Sys2Proof.Machine

/-- D0[31:8] and D1 of a forced fault (R324): the unit's fault and status registers for BAL and PSF codes; for measurement codes and
an engine trap no reading qualified the fault, and the manual states none; 0 for the others (DESIGN CHOICE, log entry 187). -/
def State.forcedDetail (s : State) (src code inst : Nat) : (Nat × Nat) × State :=
  if src = 5 then ((s.rdN (BAL_PHp_FAULT inst) % 2 ^ 24, s.rdN (BAL_PHp_STAT inst)), s)
  else if src = 6 then
    ((if code = 0x13 then (s.rdN (PSF_OUTo_FLT (inst % 4)) % 2 ^ 24, s.rdN (PSF_OUTo_STAT (inst % 4)))
      else if code = 0x12 then (0, s.rdN (PSF_SIi_STAT (inst % 2)))
      else if code = 0x11 then (0, s.rdN PSF_SCST_STAT)
      else if code = 0x10 then (0, s.rdN (PSF_DCn_STAT (inst % 32)))
      else (0, 0)), s)
  else if 2 ≤ src ∧ src ≤ 4 then ((0, (s.fresh 32).1.toNat), (s.fresh 32).2)
  else if src = 8 ∧ code = 0x10 then
    let (x, s) := s.fresh 24
    let (y, s) := s.fresh 32
    ((x.toNat, y.toNat), s)
  else ((0, 0), s)

/-- The capture of a forced fault with code 0x01 or 0x02 (R326): the type and the address of an access that was not made are not
stated (DESIGN CHOICE, log entry 187). -/
def State.forcedAccess (s : State) (code inst : Nat) : Option Access × State :=
  if code = 1 ∨ code = 2 then
    let (x, s) := s.fresh 34
    (some { typ := x.toNat / 2 ^ 32 % 3, init := inst % 32, addr := x.toNat % 2 ^ 32 }, s)
  else (none, s)

/-- Engine `e` is fenced for a forced fault whose entry is in slot `slot`, in state `st` of Table 8.13. -/
def State.forceFence (s : State) (src code e st : Nat) (slot : Option Nat) : State :=
  ((s.stopEngine e st).openShadow (engShadow e) slot (src, code, e)).stopPhases e

/-- The reaction of a forced engine fault (Table 12.1, R337): a trap, a failed image copy and a restart limit keep the engine fenced
until the fault recovers, or is acknowledged; an overrun abandons the work (DEDUCED, log entry 194). -/
def State.forceEngine (s : State) (src code e : Nat) (slot : Option Nat) : State :=
  if 16 ≤ e ∨ s.engFenced e then s
  else if src = 8 ∧ code = 0x10 then s.forceFence 8 0x10 e 3 slot
  else if src = 8 ∧ code = 0x11 then (s.forceFence 8 0x11 e 6 slot).putBit ENG_FENCED_PERM e true
  else if src = 9 ∧ code = 0x11 then s.forceFence 9 0x11 e 3 slot
  else if src = 1 ∧ code = 0x11 ∧ s.running e then
    { s.abandon e with tick := { s.tick with lateNext := true } }
  else s

/-- The reaction of a forced PSF or current fault: the demand source that Table 12.1 names, and lockout (R307, R337). No cause
stands behind it (DEDUCED, log entry 188). -/
def State.forceDemand (s : State) (src code inst : Nat) : State :=
  let asEvent (b : Nat) (s : State) : State := { s with psf := { s.psf with cause := clrBitN s.psf.cause b } }
  if src = 3 ∧ code = 0x10 then asEvent 7 (s.raiseSrc 7 0)
  else if src = 6 ∧ code = 0x12 then asEvent 15 (s.raiseSrc 15 0)
  else if src = 6 ∧ code = 0x13 then (s.raiseSrc 20 (inst % 4)).lockoutEnter 4 (inst % 4)
  else if src = 6 ∧ code = 0x14 then asEvent 17 (s.raiseSrc 17 0)
  else s

/-- The fallback of a configuration rejected in probation: a switch to the other configuration slot, under R396. -/
def State.forceFallback (s : State) (inst : Nat) : State :=
  if inst ≤ 1 ∧ ¬ s.flag MGT_CFG_STAT_BASE ∧ s.get MGT_CFG_STAT_SLOT = inst then
    let ((st, k), t) := s.askSwitch (1 - inst) 0 0
    if st = 0 then t.put64 MGT_CFG_KSW_LO k else t
  else s

/-- An entry of the history queue is invalidated (Table 12.1, 10/0x10). -/
def State.invalidate (s : State) (i : Nat) : State :=
  let drop (f : Standing) : Standing := if f.slot = some i then { f with slot := none } else f
  { s.put (FCR_HQi_INFO_VALID i) 0 with fcr := { s.fcr with standing := s.fcr.standing.map drop } }

/-- The reaction of a forced tick fault: LATE at the next publication, INCOH until LOCKED (Table 12.1)
(DEDUCED, log entry 193). -/
def State.forceTick (s : State) (code : Nat) : State :=
  if code = 0x10 then { s.put TMG_STAT_LATE 1 with tick := { s.tick with lateNext := true } }
  else if code = 0x12 ∧ ¬ s.isHarbour ∧ s.get TMG_STAT_STATE ≠ 2 then
    { s with tick := { s.tick with exceeded := true } }.put TMG_STAT_INCOH 1
  else s

/-- The reaction of R178 to a forced failure of die sensor `d` (DEDUCED, log entry 193). -/
def State.forceSensor (s : State) (d : Nat) : State :=
  if (1 ≤ s.throttle ∨ s.aux.grace.isSome) ∧ s.aux.hot = d then s.sensorFailed d else s

/-- The reaction of a forced fault (Table 12.1, R337). The flags and substituted readings of a measurement are state of its
detector and are not set; selectors are held off as Table 6.4 says, for gate readback, whose drive a forced fault does not name, as a
free value has it; a discard or an error response needs a frame or an access
(DESIGN CHOICE, log entry 187; DEDUCED, log entries 188, 189, 190, 191, 192, 193, 194). -/
def State.forceReact (s : State) (src code inst : Nat) (slot : Option Nat) : State :=
  if src = 5 ∧ 0x10 ≤ code then
    (if inst < 8 then
      (let (x, s) := s.fresh 1
       let hold := decide (code < 0x13) || (code == 0x13 && x.toNat == 1)
       (s.fencePhase inst (code - 0x10) hold).openShadow 0x28 slot (5, code, inst))
    else s)
  else if src = 0 ∧ code = 0x12 then s.forceFallback inst
  else if src = 0 ∧ code = 0x13 then s.factoryTrims
  else if src = 1 ∧ code ≠ 0x11 then s.forceTick code
  else if src = 4 ∧ code = 0x12 then s.forceSensor inst
  else if src = 11 ∧ code = 0x11 then { s with mgt := { s.mgt with vaux := false } }.showVaux
  else if src = 0 ∧ code = 0x18 then s.updClose
  else if src = 7 ∧ code = 0x10 then (if s.isHarbour ∧ ¬ s.net.rnd.running then s.holdOff else s)
  else if src = 7 ∧ code = 0x11 then (if s.isHarbour then s.leaveHarbour else s)
  else if src = 10 ∧ code = 0x10 then (if inst < 32 then s.invalidate inst else s)
  else if src = 15 ∧ code = 0x10 then (if inst < 4 then (s.openShadow 0x8082 slot (15, 0x10, inst)).linkDown inst 6 else s)
  else (s.forceEngine src code inst slot).forceDemand src code inst

/-- The forced fault of one source (R337): an undefined code is raised as 0xFF, with no reaction beyond capture. -/
def State.forceOne (s : State) (src : Nat) : State :=
  let code := s.get FCR_FORCE_CODE_CODE
  let inst := s.get FCR_FORCE_CODE_INST
  let ((d0, d1), s) := s.forcedDetail src code inst
  let (acc, s) := s.forcedAccess code inst
  let ((react, slot), s) := s.collect src code inst d0 d1 true acc
  if react && (faultRow src code inst).isSome then s.forceReact src code inst slot else s

/-- A write of FCR_FORCE (R337): in SERVICE, or in RUN while FORCE_EN.EN is 1, by privileged initiators; any other is recorded
(DESIGN CHOICE, log entry 187). -/
def State.writeForce (s : State) (i : Initiator) (v : Nat) : State :=
  if s.privileged i && (s.mode == 4 || (s.mode == 2 && s.flag FCR_FORCE_EN_EN)) then (bitsOf 16 v).foldl State.forceOne s
  else if s.privileged i then s.refuseAccess 10 i 1 FCR_FORCE
  else s.refuseRight 10 i FCR_FORCE

/-- FAULT_FORCE (R337). -/
def execFaultForce (i : Initiator) (v : Word) (s : State) : Outcome :=
  .next (s.writeRow i FCR_FORCE fun s => s.writeForce i v.toNat)

end Sys2Proof.Machine
end

