-- ==== Sys2Proof/Machine/Bus.lean ====
section
/-! DEFINITION. Any access to any address (R8 to R12, R443 to R449): a write reaches the behaviour of the register it names, or the
memory. -/

namespace Sys2Proof.Machine

/-! ## What a performed write does -/

/-- The index of the register of an array that an address names. -/
def idxOf (n : Nat) (f : Nat → Nat) (a : Nat) : Option Nat := (List.range n).find? fun k => f k == a

/-- A write of a check-value unit's register. -/
def State.actCrc (s : State) (i : Initiator) (a : Nat) (v : Word) : State :=
  match idxOf 4 MGT_CRCu_CTRL a, idxOf 4 MGT_CRCu_DATA a, idxOf 4 MGT_CRCu_STATE a with
  | some u, _, _ => s.writeCrcCtrl u i v.toNat
  | none, some u, _ => s.writeCrcData u i v.toNat 4
  | none, none, some u => s.writeCrcState u i v.toNat
  | none, none, none => s.plainWrite i a v.toNat

/-- A write of a single-wire or log staging register, or of any other without behaviour of its own. -/
def State.actLocal (s : State) (i : Initiator) (a : Nat) (v : Word) : State :=
  match idxOf 2 MGT_SWBn_CTRL a, idxOf 2 MGT_SWBn_CFG a, idxOf 4 MGT_LOG_WRk a with
  | some n, _, _ => s.writeSwbCtrl n v.toNat
  | none, some n, _ => s.writeSwbCfg i n v.toNat
  | none, none, some k => s.writeLogWr i k v
  | none, none, none => s.actCrc i a v

/-- A write of a register of MGT. What only the rows of single registers carry as operands (the reference check, the readback of
the OTP cells, whether the lifetime store takes the records) is free here (DESIGN CHOICE, log entry 202). -/
def State.actMgt (s : State) (i : Initiator) (a : Nat) (v : Word) : State :=
  let w := v.toNat
  if a = MGT_MODE_REQ then (let (x, s) := s.fresh 32; s.writeModeReq i w x.toInt)
  else if a = MGT_MODE_KEY then s.writeModeKey i w
  else if a = MGT_SWRST then s.writeSwrst i w
  else if a = MGT_CAL_CTRL then (let (x, s) := s.fresh 1; s.writeCalCtrl i w (x == 1))
  else if a = MGT_CFG_SWITCH then s.writeCfgSwitch i w
  else if a = MGT_SLOT_CTRL then s.writeSlotCtrl i w
  else if a = MGT_UPD_CTRL then s.writeUpdCtrl i w
  else if a = MGT_UPD_LEN then s.ifPrivileged i a fun s => s.plainWrite i a w
  else if a = MGT_OTP_KEY then s.writeOtpKey i w
  else if a = MGT_OTP_CTRL then
    (let (x, s) := s.fresh 4; s.writeOtpCtrl i w (x.setWidth 3) (bitOf x.toNat 3))
  else if (idxOf 8 MGT_OTP_DATAk a).isSome then s.ifPrivileged i a fun s => s.plainWrite i a w
  else if a = MGT_LOG_POST then s.writeLogPost i
  else if a = MGT_NOTIFY_SEND then s.writeNotifySend i w
  else s.actLocal i a v

/-- A write of a register of CMF or CSI. -/
def State.actCell (s : State) (i : Initiator) (a : Nat) (v : Word) : State :=
  let w := v.toNat
  if a = CMF_TEST then s.writeCmfTest i w
  else if a = CSI_QCTRL then s.writeQctrl w
  else if a = CSI_IMP_CTRL then s.writeImpCtrl i w
  else if a = CSI_IMP_PLAN then s.writeImpPlan i w
  else if a = CSI_IMP_STAT then s.writeImpStat i w
  else s.plainWrite i a w

/-- A write of a register of BAL; the commands of a fenced phase end before they are performed (R163). -/
def State.actBal (s : State) (i : Initiator) (a : Nat) (v : Word) : State :=
  let w := v.toNat
  if a = BAL_CTRL then (s.plainWrite i a w).ferryRefresh
  else match idxOf 8 BAL_PHp_TEST a, idxOf 32 BAL_CELLc_TGT a with
    | some p, _ => s.writePhaseTest p i w
    | none, some c => s.writeTarget c i w
    | none, none => s.plainWrite i a w

/-- A write of a register of PSF. The output feedbacks at an arming request are free here (DESIGN CHOICE, log entry 202). -/
def State.actPsf (s : State) (i : Initiator) (a : Nat) (v : Word) : State :=
  let w := v.toNat
  if a = PSF_SC_STAT then (if bitOf w 0 then s.ifPrivileged i a State.clearTrip else s)
  else if a = PSF_DEM_CLR then s.ifPrivileged i a fun s => s.clearDemands w
  else if a = PSF_OFFREQ then s.writeOffreq i w
  else if a = PSF_ARM then (let (x, s) := s.fresh 3; s.writeArm i w x)
  else if a = PSF_OUT_CMD then s.writeOutCmd i w
  else if a = PSF_LOCKOUT_KEY then s.writeKey i w
  else if a = PSF_CWAY_CFG then (let old := s.cyc; (s.plainWrite i a w).countCway.rebaseCopies old)
  else s.plainWrite i a w

/-- A write of a register of FAB. -/
def State.actFab (s : State) (i : Initiator) (a : Nat) (v : Word) : State :=
  if a = FAB_CTRL then s.writeFabCtrl i v
  else if a = FAB_NET_CTRL then s.writeNetCtrl i v
  else match idxOf 4 FAB_PORTn_CFG a, idxOf 4 FAB_PORTn_CTRL a, idxOf 4 FAB_PORTn_TEST a, idxOf 16 FAB_RASs_CTRL a with
    | some n, _, _, _ => s.writePortCfg i n v
    | none, some n, _, _ => s.writePortCtrl n v
    | none, none, some n, _ => s.writePortTest i n v
    | none, none, none, some k => s.writeRasCtrl i k v
    | none, none, none, none => s.plainWrite i a v.toNat

/-- A write of a register of one engine `e`; its counters are up to date when it acts. -/
def State.actEngine (s : State) (i : Initiator) (e a : Nat) (v : Word) : State :=
  let w := v.toNat
  if a = ENG_n_CTRL e then s.writeEngCtrl e i w
  else if a = ENG_n_DBG e then s.writeEngDbg e i w
  else if a = ENG_n_MBX_TXHDR e then s.writeTxHdr e i w
  else if a = ENG_n_MBX_TXPAY e then s.writeTxPay e i v
  else if a = ENG_n_MBX_RXPOP e then s.popMail e w
  else (s.syncEng e).plainWrite i a w

/-- A write of a register of ENG. -/
def State.actEng (s : State) (i : Initiator) (a : Nat) (v : Word) : State :=
  if a = ENG_RESTART then s.writeEngRestart v.toNat
  else if a = ENG_UPD_CTRL then s.writeEngUpd i v.toNat
  else match idxOf 32 ENG_SEMk a, idxOf 16 (fun e => ENG_n_CTRL e / 512) (a / 512) with
    | some k, _ => s.writeSem k i v.toNat
    | none, some e => s.actEngine i e a v
    | none, none => s.plainWrite i a v.toNat

/-- A write of a register of FCR. -/
def State.actFcr (s : State) (i : Initiator) (a : Nat) (v : Word) : State :=
  if a = FCR_ACK then s.writeAck i v.toNat
  else if a = FCR_FORCE then s.writeForce i v.toNat
  else if a = FCR_FB_INFO then s.writeFbInfo i v.toNat
  else s.plainWrite i a v.toNat

/-- What a performed write of register `a` does: the behaviour of its own, or its fields (DESIGN CHOICE, log entry 202). -/
def State.act (s : State) (i : Initiator) (a : Nat) (v : Word) : State :=
  let b := a / 0x10000
  if b = 0 then s.actMgt i a v
  else if b = 1 then (if a = TMG_CTRL then s.writeTmgCtrl i v.toNat else s.plainWrite i a v.toNat)
  else if b = 2 ∨ b = 3 then s.actCell i a v
  else if b = 4 then (if a = AUX_THR_CTRL then s.writeThrCtrl i v.toNat else s.plainWrite i a v.toNat)
  else if b = 5 then s.actBal i a v
  else if b = 6 then s.actPsf i a v
  else if b = 7 then s.actFab i a v
  else if b = 8 then s.actEng i a v
  else if b = 9 then
    (if a = MEM_LT_CTRL then (let (x, s) := s.fresh 1; s.writeLtCtrl i v.toNat (x == 1))
     else if a = MEM_LT_KEY then s.writeLtKey i v.toNat
     else s.plainWrite i a v.toNat)
  else s.actFcr i a v

/-! ## Writes of any address -/

/-- A word written to a memory (Table 17.1): a staging word by a privileged initiator counts as image bytes while a session is open
(R400) (DEDUCED, log entry 203). -/
def State.memWrite (s : State) (i : Initiator) (pa : Nat) (v : Word) : State :=
  let o := pa - lagoon
  if pa < lagoon ∨ 0x13000000 ≤ pa then
    (let s := s.memPutWord pa v; if lifeBase ≤ pa ∧ pa < lifeBase + 60 then s.sealIdentity else s)
  else match (if stagingOff ≤ o ∧ s.privileged i then s.stage (o - stagingOff) ((leBytes 4 v.toNat).take (s.stageRoom (o - stagingOff))) else none) with
    | some t => t
    | none => (s.memPutWord pa v).unverify o 4

/-- A write by another initiator ends the reservation that MC holds there (R186; PRESUMED, log entry 219). -/
def State.dropResv (s : State) (i : Initiator) (pa : Nat) : State :=
  if isMC i ∨ (s.engine 15).resv ≠ some pa then s else s.onEng 15 fun g => { g with resv := none }

/-- A write of one word: how it ended, and the state after it. An engine's write of a staged register is held (R198)
(DEDUCED, log entry 204). -/
def State.busWrite (s : State) (i : Initiator) (a : Nat) (v : Word) : Ended × State :=
  match locate i a with
  | some (.reg, _) =>
    match i, stagedBy i.code a, idxOf 8 BAL_PHp_CMD a with
    | .engine n, true, _ =>
      let c := s.accessCode i a true
      if c ≠ 0 then (c, s.refused i a true c) else (0, s.stageWrite n a v)
    | _, _, some p => s.writePhaseCmd p i v.toNat
    | _, _, none => s.guarded i a fun s => s.act i a v
  | some (_, pa) =>
    let s := s.countAccess i a true
    let c := s.accessCode i a true
    if c ≠ 0 then (c, s.refused i a true c) else (0, (s.dropResv i pa).memWrite i pa v)
  | none => (4, (s.countAccess i a true).refused i a true 4)

end Sys2Proof.Machine
end

