-- ==== Sys2Proof/Machine/Hart.lean ====
section
/-! DEFINITION. One instruction of a halted engine (R216): its fetch, the extension instructions (R193), the instructions of RV32IMC
and of the A extension of MC (R186). This manual does not define the latter: they follow the RISC-V specifications
(PRESUMED, log entry 28). -/

namespace Sys2Proof.Machine

/-! ## Instruction words -/

/-- The fields rd, funct3, rs1, rs2 and funct7 of an instruction word. -/
def rdOf (w : Nat) : Nat := fieldOf w 7 5
@[inherit_doc rdOf]
def f3Of (w : Nat) : Nat := fieldOf w 12 3
@[inherit_doc rdOf]
def rs1Of (w : Nat) : Nat := fieldOf w 15 5
@[inherit_doc rdOf]
def rs2Of (w : Nat) : Nat := fieldOf w 20 5
@[inherit_doc rdOf]
def f7Of (w : Nat) : Nat := fieldOf w 25 7

/-- The immediates of the I, S, B and J formats, sign-extended. -/
def immI (w : Nat) : Int := toI 12 (fieldOf w 20 12)
@[inherit_doc immI]
def immS (w : Nat) : Int := toI 12 (f7Of w * 32 + rdOf w)
@[inherit_doc immI]
def immB (w : Nat) : Int :=
  toI 13 (fieldOf w 31 1 * 4096 + fieldOf w 7 1 * 2048 + fieldOf w 25 6 * 32 + fieldOf w 8 4 * 2)
@[inherit_doc immI]
def immJ (w : Nat) : Int :=
  toI 21 (fieldOf w 31 1 * 2 ^ 20 + fieldOf w 12 8 * 4096 + fieldOf w 20 1 * 2048 + fieldOf w 21 10 * 2)

/-- Words of the R, I, S, B, U and J formats; an immediate is taken modulo its width. -/
def encR (op rd f3 rs1 rs2 f7 : Nat) : Nat :=
  op + rd * 2 ^ 7 + f3 * 2 ^ 12 + rs1 * 2 ^ 15 + rs2 * 2 ^ 20 + f7 * 2 ^ 25
@[inherit_doc encR]
def encI (op rd f3 rs1 : Nat) (imm : Int) : Nat := op + rd * 2 ^ 7 + f3 * 2 ^ 12 + rs1 * 2 ^ 15 + ofI 12 imm * 2 ^ 20
@[inherit_doc encR]
def encS (f3 rs1 rs2 imm : Nat) : Nat := encR 0x23 (imm % 32) f3 rs1 rs2 (imm / 32 % 128)
@[inherit_doc encR]
def encB (f3 rs1 rs2 : Nat) (imm : Int) : Nat :=
  let i := ofI 13 imm
  encR 0x63 (fieldOf i 1 4 * 2 + fieldOf i 11 1) f3 rs1 rs2 (fieldOf i 12 1 * 64 + fieldOf i 5 6)
@[inherit_doc encR]
def encU (op rd : Nat) (imm : Int) : Nat := op + rd * 2 ^ 7 + ofI 20 imm * 2 ^ 12
@[inherit_doc encR]
def encJ (rd : Nat) (imm : Int) : Nat :=
  let i := ofI 21 imm
  0x6F + rd * 2 ^ 7 + fieldOf i 12 8 * 2 ^ 12 + fieldOf i 11 1 * 2 ^ 20 + fieldOf i 1 10 * 2 ^ 21 + fieldOf i 20 1 * 2 ^ 31

/-- The 6-bit immediate of the CI format. -/
def immCI (h : Nat) : Int := toI 6 (fieldOf h 12 1 * 32 + fieldOf h 2 5)

/-- The offset of C.J and C.JAL. -/
def immCJ (h : Nat) : Int :=
  toI 12 (fieldOf h 12 1 * 2048 + fieldOf h 8 1 * 1024 + fieldOf h 9 2 * 256 + fieldOf h 6 1 * 128 + fieldOf h 7 1 * 64 +
    fieldOf h 2 1 * 32 + fieldOf h 11 1 * 16 + fieldOf h 3 3 * 2)

/-- The offset of C.BEQZ and C.BNEZ. -/
def immCB (h : Nat) : Int :=
  toI 9 (fieldOf h 12 1 * 256 + fieldOf h 5 2 * 64 + fieldOf h 2 1 * 32 + fieldOf h 10 2 * 8 + fieldOf h 3 2 * 2)

/-- The word that a 16-bit instruction of quadrant 0 stands for. -/
def rvc0 (h : Nat) : Option Nat :=
  let ra := 8 + fieldOf h 7 3
  let rb := 8 + fieldOf h 2 3
  let ls := fieldOf h 5 1 * 64 + fieldOf h 10 3 * 8 + fieldOf h 6 1 * 4
  let sp := fieldOf h 7 4 * 64 + fieldOf h 11 2 * 16 + fieldOf h 5 1 * 8 + fieldOf h 6 1 * 4
  match fieldOf h 13 3 with
  | 0 => if sp = 0 then none else some (encI 0x13 rb 0 2 sp)
  | 2 => some (encI 0x03 rb 2 ra ls)
  | 6 => some (encS 2 ra rb ls)
  | _ => none

/-- The word that a 16-bit instruction of quadrant 1 stands for. -/
def rvc1 (h : Nat) : Option Nat :=
  let rd := fieldOf h 7 5
  let rc := 8 + fieldOf h 7 3
  let rb := 8 + fieldOf h 2 3
  let i := immCI h
  let sp : Int := toI 10 (fieldOf h 12 1 * 512 + fieldOf h 3 2 * 128 + fieldOf h 5 1 * 64 + fieldOf h 2 1 * 32 + fieldOf h 6 1 * 16)
  match fieldOf h 13 3 with
  | 0 => some (encI 0x13 rd 0 rd i)
  | 1 => some (encJ 1 (immCJ h))
  | 2 => some (encI 0x13 rd 0 0 i)
  | 3 => if i = 0 then none else if rd = 2 then some (encI 0x13 2 0 2 sp) else some (encU 0x37 rd i)
  | 4 =>
    match fieldOf h 10 2 with
    | 0 => if bitOf h 12 then none else some (encR 0x13 rc 5 rc (fieldOf h 2 5) 0)
    | 1 => if bitOf h 12 then none else some (encR 0x13 rc 5 rc (fieldOf h 2 5) 32)
    | 2 => some (encI 0x13 rc 7 rc i)
    | _ =>
      if bitOf h 12 then none
      else match fieldOf h 5 2 with
        | 0 => some (encR 0x33 rc 0 rc rb 32)
        | 1 => some (encR 0x33 rc 4 rc rb 0)
        | 2 => some (encR 0x33 rc 6 rc rb 0)
        | _ => some (encR 0x33 rc 7 rc rb 0)
  | 5 => some (encJ 0 (immCJ h))
  | 6 => some (encB 0 rc 0 (immCB h))
  | _ => some (encB 1 rc 0 (immCB h))

/-- The word that a 16-bit instruction of quadrant 2 stands for. -/
def rvc2 (h : Nat) : Option Nat :=
  let rd := fieldOf h 7 5
  let rs := fieldOf h 2 5
  match fieldOf h 13 3 with
  | 0 => if bitOf h 12 then none else some (encR 0x13 rd 1 rd rs 0)
  | 2 => if rd = 0 then none else some (encI 0x03 rd 2 2 (fieldOf h 2 2 * 64 + fieldOf h 12 1 * 32 + fieldOf h 4 3 * 4 : Nat))
  | 4 =>
    if ¬ bitOf h 12 then (if rs ≠ 0 then some (encR 0x33 rd 0 0 rs 0) else if rd = 0 then none else some (encI 0x67 0 0 rd 0))
    else if rs ≠ 0 then some (encR 0x33 rd 0 rd rs 0)
    else if rd = 0 then some 0x100073 else some (encI 0x67 1 0 rd 0)
  | 6 => some (encS 2 2 rs (fieldOf h 7 2 * 64 + fieldOf h 9 4 * 4))
  | _ => none

/-- The 32-bit word that a 16-bit instruction stands for; none where it is illegal. -/
def expand (h : Nat) : Option Nat :=
  match h % 4 with
  | 0 => rvc0 h
  | 1 => rvc1 h
  | 2 => rvc2 h
  | _ => none

/-! ## Arithmetic -/

/-- The integer operations by funct3; `alt` chooses subtraction and the arithmetic shift. -/
def aluOp (f3 : Nat) (alt : Bool) (x y : Word) : Word :=
  match f3 with
  | 0 => if alt then x - y else x + y
  | 1 => x <<< (y.toNat % 32)
  | 2 => if x.toInt < y.toInt then 1 else 0
  | 3 => if x.toNat < y.toNat then 1 else 0
  | 4 => x ^^^ y
  | 5 => if alt then x.sshiftRight (y.toNat % 32) else x >>> (y.toNat % 32)
  | 6 => x ||| y
  | _ => x &&& y

/-- The operations of the M extension by funct3. -/
def mulOp (f3 : Nat) (x y : Word) : Word :=
  match f3 with
  | 0 => x * y
  | 1 => BitVec.ofInt 32 (x.toInt * y.toInt / 2 ^ 32)
  | 2 => BitVec.ofInt 32 (x.toInt * (y.toNat : Int) / 2 ^ 32)
  | 3 => BitVec.ofNat 32 (x.toNat * y.toNat / 2 ^ 32)
  | 4 => if y = 0 then BitVec.allOnes 32 else BitVec.ofInt 32 (x.toInt.tdiv y.toInt)
  | 5 => if y = 0 then BitVec.allOnes 32 else BitVec.ofNat 32 (x.toNat / y.toNat)
  | 6 => if y = 0 then x else BitVec.ofInt 32 (x.toInt.tmod y.toInt)
  | _ => if y = 0 then x else BitVec.ofNat 32 (x.toNat % y.toNat)

/-- The branch conditions by funct3; none for a reserved one. -/
def branchOp (f3 : Nat) (x y : Word) : Option Bool :=
  match f3 with
  | 0 => some (x == y)
  | 1 => some (x != y)
  | 4 => some (decide (x.toInt < y.toInt))
  | 5 => some (decide (y.toInt ≤ x.toInt))
  | 6 => some (decide (x.toNat < y.toNat))
  | 7 => some (decide (y.toNat ≤ x.toNat))
  | _ => none

/-- What an atomic operation stores, by funct5; none for a reserved one. -/
def amoOp (f5 : Nat) (x y : Word) : Option Word :=
  match f5 with
  | 0 => some (x + y)
  | 1 => some y
  | 4 => some (x ^^^ y)
  | 8 => some (x ||| y)
  | 12 => some (x &&& y)
  | 16 => some (if x.toInt < y.toInt then x else y)
  | 20 => some (if x.toInt < y.toInt then y else x)
  | 24 => some (if x.toNat < y.toNat then x else y)
  | 28 => some (if x.toNat < y.toNat then y else x)
  | _ => none

/-! ## The instructions -/

/-- The instruction at the program counter has been executed: the next one follows `n` bytes on, or at `pc`. -/
def State.done (s : State) (e n : Nat) : State :=
  if s.running e then (s.onEng e fun g => { g with pc := g.pc + BitVec.ofNat 32 n }).pmc e 0x02 1 else s

@[inherit_doc State.done]
def State.doneAt (s : State) (e : Nat) (pc : Word) : State := (s.onEng e fun g => { g with pc := pc }).pmc e 0x02 1

/-- A word that is no legal instruction stops the engine on a fault (R188, R193). -/
def State.illegalWord (s : State) (e : Nat) : State := s.illegal e

/-- What the word `w` of the custom-0 major opcode does on engine `e` (R193, Table 8.3) (PRESUMED, log entry 28). -/
def extWord (e : Fin 16) (w : Nat) (s : State) : Outcome :=
  let rd := Fin.ofNat 32 (w / 2 ^ 7)
  let rs1 := Fin.ofNat 32 (w / 2 ^ 15)
  let rs2 := Fin.ofNat 32 (w / 2 ^ 20)
  match w / 2 ^ 12 % 8, w / 2 ^ 25 with
  | 0, 0 => execYdMac2 e rd rs1 rs2 s
  | 0, 1 => execYdMsu2 e rd rs1 rs2 s
  | 0, 2 => execYdMcr e rd rs1 rs2 s
  | 0, 3 => execYdMci e rd rs1 rs2 s
  | 0, 4 => execYdMac1 e rd rs1 rs2 s
  | 1, 0 => execYdDft e rd rs1 rs2 s
  | 1, 1 => execYdDfta e rd rs1 rs2 s
  | 2, 0 => execYdAccw e rd rs1 rs2 s
  | 2, 1 => execYdAccz e rd rs1 rs2 s
  | 2, 2 => execYdAccrl e rd rs1 rs2 s
  | 2, 3 => execYdAccrh e rd rs1 rs2 s
  | 2, 4 => execYdAccrs e rd rs1 rs2 s
  | 3, 0 => execYdPks e rd rs1 rs2 s
  | 3, 1 => execYdUpkl e rd rs1 rs2 s
  | 3, 2 => execYdUpkh e rd rs1 rs2 s
  | 4, _ => execYdSat e rd rs1 (BitVec.ofNat 12 (w / 2 ^ 20)) s
  | 7, 0 => if w = 0x700B then execYtPost e s else .next (s.illegalWord e)
  | 7, 1 => if w = 0x200700B then execYtWft e s else .next (s.illegalWord e)
  | 7, 2 => execYtTask e rs1 s
  | _, _ => .next (s.illegalWord e)

/-- A load of `n` bytes: none where it has trapped, with its address in ENG_n_TVAL (R188). A FENCED answer carries no data: the word is free
(DESIGN CHOICE, log entry 66). -/
def State.hartLoad (s : State) (e : Fin 16) (a n : Nat) : Option Nat × State :=
  if a % n ≠ 0 then (none, s.takeTrap e 4 (s.engine e).pc.toNat a)
  else
    let r := s.busRead (.engine e) (a / 4 * 4)
    if r.1.1 = 0 then (some (r.1.2.toNat / 2 ^ (8 * (a % 4)) % 2 ^ (8 * n)), r.2)
    else if r.1.1 = 1 then (let (w, s) := r.2.fresh 32; (some (w.toNat % 2 ^ (8 * n)), s))
    else (none, r.2.wrN (ENG_n_TVAL e) a)

/-- The word that holds the `n` bytes to be stored at `a`, with the other bytes as they stand. -/
def State.merged (s : State) (e : Fin 16) (a n : Nat) (v : Word) : Word :=
  if n = 4 then v
  else
    let old := match locate (.engine e) (a / 4 * 4) with
      | some (.reg, b) => s.rdN b
      | some (_, b) => s.memLE b 4
      | none => 0
    BitVec.ofNat 32 (withField old (8 * (a % 4)) (8 * n) v.toNat)

/-- A store of `n` bytes (R188); one that has trapped leaves the engine fenced. -/
def State.hartStore (s : State) (e : Fin 16) (a n : Nat) (v : Word) : State :=
  if a % n ≠ 0 then s.takeTrap e 6 (s.engine e).pc.toNat a
  else
    let r := s.busWrite (.engine e) (a / 4 * 4) (s.merged e a n v)
    if 2 ≤ r.1 ∧ r.2.engFenced e then r.2.wrN (ENG_n_TVAL e) a else r.2

/-- A CSR instruction of `len` bytes (R214). -/
def State.hartCsr (s : State) (e : Fin 16) (w : Nat) : State :=
  let a := w / 2 ^ 20
  let k := f3Of w % 4
  let write := k == 1 || rs1Of w != 0
  let v : Word := if 4 ≤ f3Of w then BitVec.ofNat 32 (rs1Of w) else s.xreg e (rs1Of w)
  if k = 0 ∨ ¬ s.csrLegal e a write then s.illegalWord e
  else
    let (old, s) := if k = 1 ∧ rdOf w = 0 then ((0 : Word), s) else s.readCsr e a
    let new := if k = 1 then v else if k = 2 then old ||| v else old &&& ~~~v
    let s := if write then s.writeCsr e a new else s
    (s.setX e (rdOf w) old).done e 4

/-- An instruction of the SYSTEM opcode: ECALL, EBREAK, MRET, WFI, the CSR instructions (R188). -/
def State.hartSystem (s : State) (e : Fin 16) (w len : Nat) : State :=
  let g := s.engine e
  if f3Of w ≠ 0 then s.hartCsr e w
  else if w = 0x00000073 then s.takeTrap e (if g.user then 8 else 11) g.pc.toNat 0
  else if w = 0x00100073 then (let (v, s) := s.fresh 32; s.takeTrap e 3 g.pc.toNat v.toNat)
  else if w = 0x30200073 ∧ ¬ g.user then (s.leaveHandler e).pmc e 0x02 1
  else if w = 0x10500073 then s.done e len
  else s.illegalWord e

/-- An atomic instruction, which only MC has (R186). -/
def State.hartAtomic (s : State) (e : Fin 16) (w : Nat) : State :=
  let a := (s.xreg e (rs1Of w)).toNat
  let v := s.xreg e (rs2Of w)
  let f5 := w / 2 ^ 27
  let c := s.accessCode (.engine e) a true
  if e ≠ 15 ∨ f3Of w ≠ 2 ∨ (f5 ≠ 2 ∧ f5 ≠ 3 ∧ (amoOp f5 0 0).isNone) then s.illegalWord e
  else if f5 = 2 then
    (if rs2Of w ≠ 0 then s.illegalWord e
    else
      match s.hartLoad e a 4 with
      | (some x, s) => ((s.setX e (rdOf w) (BitVec.ofNat 32 x)).onEng e fun g => { g with resv := (locate (.engine e) a).map (·.2) }).done e 4
      | (none, s) => s)
  else if f5 = 3 then
    (let ok := (s.engine e).resv.isSome && (s.engine e).resv == (locate (.engine e) a).map (·.2)
    let s := s.onEng e fun g => { g with resv := none }
    if a % 4 ≠ 0 then s.takeTrap e 6 (s.engine e).pc.toNat a
    else
      let s := if ok then s.hartStore e a 4 v else s
      if s.running e then (s.setX e (rdOf w) (if ok then 0 else 1)).done e 4 else s)
  else if a % 4 ≠ 0 then s.takeTrap e 6 (s.engine e).pc.toNat a
  else if 2 ≤ c then s.refused (.engine e) a true c
  else
    match s.hartLoad e a 4 with
    | (some x, s) =>
      match amoOp f5 (BitVec.ofNat 32 x) v with
      | some y => ((s.hartStore e a 4 y).setX e (rdOf w) (BitVec.ofNat 32 x)).done e 4
      | none => s.illegalWord e
    | (none, s) => s

/-- A load instruction. -/
def State.hartLoads (s : State) (e : Fin 16) (w len : Nat) : State :=
  let a := (s.xreg e (rs1Of w) + BitVec.ofInt 32 (immI w)).toNat
  let put (n : Nat) (sign : Bool) : State := match s.hartLoad e a n with
    | (some x, s) => (s.setX e (rdOf w) (if sign then BitVec.ofInt 32 (toI (8 * n) x) else BitVec.ofNat 32 x)).done e len
    | (none, s) => s
  match f3Of w with
  | 0 => put 1 true
  | 1 => put 2 true
  | 2 => put 4 false
  | 4 => put 1 false
  | 5 => put 2 false
  | _ => s.illegalWord e

/-- The instruction word `w`, `len` bytes long in memory (PRESUMED, log entry 28). -/
def State.hartExec (s : State) (e : Fin 16) (w len : Nat) : State :=
  let g := s.engine e
  let x := s.xreg e (rs1Of w)
  let y := s.xreg e (rs2Of w)
  let rd := rdOf w
  let f3 := f3Of w
  let next := g.pc + BitVec.ofNat 32 len
  match w % 128 with
  | 0x37 => (s.setX e rd (BitVec.ofNat 32 (w / 4096 * 4096))).done e len
  | 0x17 => (s.setX e rd (g.pc + BitVec.ofNat 32 (w / 4096 * 4096))).done e len
  | 0x6F => (s.setX e rd next).doneAt e (g.pc + BitVec.ofInt 32 (immJ w))
  | 0x67 =>
    if f3 = 0 then (s.setX e rd next).doneAt e ((x + BitVec.ofInt 32 (immI w)) &&& 0xFFFFFFFE) else s.illegalWord e
  | 0x63 =>
    match branchOp f3 x y with
    | some true => (s.pmc e 0x05 1).doneAt e (g.pc + BitVec.ofInt 32 (immB w))
    | some false => s.done e len
    | none => s.illegalWord e
  | 0x03 => s.hartLoads e w len
  | 0x23 =>
    if f3 < 3 then (s.hartStore e (x + BitVec.ofInt 32 (immS w)).toNat (2 ^ f3) y).done e len else s.illegalWord e
  | 0x13 =>
    let f7 := f7Of w
    if (f3 = 1 ∧ f7 ≠ 0) ∨ (f3 = 5 ∧ f7 ≠ 0 ∧ f7 ≠ 32) then s.illegalWord e
    else
      let z := if f3 = 1 ∨ f3 = 5 then BitVec.ofNat 32 (rs2Of w) else BitVec.ofInt 32 (immI w)
      (s.setX e rd (aluOp f3 (f3 == 5 && f7 == 32) x z)).done e len
  | 0x33 =>
    let f7 := f7Of w
    if f7 = 1 then (s.setX e rd (mulOp f3 x y)).done e len
    else if f7 = 0 ∨ (f7 = 32 ∧ (f3 = 0 ∨ f3 = 5)) then (s.setX e rd (aluOp f3 (f7 == 32) x y)).done e len
    else s.illegalWord e
  | 0x0F => if f3 < 2 then s.done e len else s.illegalWord e
  | 0x73 => s.hartSystem e w len
  | 0x2F => s.hartAtomic e w
  | 0x0B =>
    match extWord e w s with
    | .next t => t
    | _ => s
  | _ => s.illegalWord e

/-- Sixteen bits of code at `pc`: an engine executes from its own instruction memory and from where its map grants it; none where
it may not (R186, R394). The content of the boot ROM is not given (DESIGN CHOICE, log entry 66). -/
def State.codeHalf (s : State) (e : Fin 16) (pc : Nat) : Option Nat × State :=
  match locate (.engine e) (pc / 4 * 4) with
  | some (.reg, _) => (none, s)
  | some (.sample, _) => (none, s)
  | some (.otp, _) => (none, s)
  | some (.boot, _) => let (w, s) := s.fresh 16; (some w.toNat, s)
  | some (r, pa) =>
    if (e ≠ 15 ∨ ¬ s.pmpDenies pc 2) ∧ s.pathCode (.engine e) (pc / 4 * 4) false = 0 ∧ (r = .code e ∨ s.mapGrants e pa 2) then (some (s.memLE (pa + pc % 4) 2), s)
    else (none, s)
  | none => (none, s)

/-- The instruction at the program counter of engine `e` is executed; a fetch that fails is an access fault (R188)
(PRESUMED, log entry 28). -/
def State.hartStep (s : State) (e : Fin 16) : State :=
  let pc := (s.engine e).pc.toNat
  match s.codeHalf e pc with
  | (none, s) => s.takeTrap e 1 pc pc
  | (some h, s) =>
    if h % 4 ≠ 3 then
      match expand h with
      | some w => s.hartExec e w 2
      | none => s.illegalWord e
    else
      match s.codeHalf e (pc + 2) with
      | (none, s) => s.takeTrap e 1 pc (pc + 2)
      | (some k, s) => s.hartExec e (h + k * 65536) 4

/-! ## Steps of halted engines -/

/-- One instruction of a halted engine, which halts again after it (Table 8.10) (PRESUMED, log entry 28). -/
def State.stepEngine (s : State) (e : Nat) : State :=
  let t := (s.setEng e 1).hartStep (Fin.ofNat 16 e)
  if t.get (ENG_n_STAT_STATE e) ≤ 2 then t.setEng e 5 else t

/-- The instruction that a write of ENG_n_DBG asked of engine `e`. -/
def State.runStep (s : State) (e : Nat) : State :=
  if (s.engine e).stepReq then
    let s := s.onEng e fun g => { g with stepReq := false }
    if s.get (ENG_n_STAT_STATE e) = 5 then s.stepEngine e else s
  else s

/-- The instructions asked for are executed, with those that they ask of other engines in turn. -/
def State.stepsGo (s : State) : Nat → State
  | 0 => s
  | n + 1 =>
    if (List.range 16).any fun e => (s.engine e).stepReq then State.stepsGo ((List.range 16).foldl State.runStep s) n else s

@[inherit_doc State.stepsGo]
def State.runSteps (s : State) : State := s.stepsGo 16

end Sys2Proof.Machine
end

