-- ==== Sys2Proof/Machine/Agent.lean ====
section
/-! DEFINITION. The rows of plain register accesses and of the debug register (R10, R12, R216); the remote access agent (R278,
R279). Where a write asks a halted engine for one instruction, it is executed. -/

namespace Sys2Proof.Machine

/-- A write of a row of the table: performed, and its end is shown. -/
def State.writeAny (s : State) (i : Initiator) (a : Nat) (v : Word) : State :=
  let r := s.busWrite i a v
  r.2.emit (.ended r.1)

/-! ## Debug -/

/-- ENGINE_HALT (R216). -/
def execEngineHalt (e : Fin 16) (i : Initiator) (v : Word) (s : State) : Outcome :=
  .next (s.writeRow i (ENG_n_DBG e) fun s => s.writeEngDbg e i (setBitN v.toNat 0)).runSteps

/-- ENGINE_STEP (R216) (PRESUMED, log entry 28). -/
def execEngineStep (e : Fin 16) (i : Initiator) (v : Word) (s : State) : Outcome :=
  .next (s.writeRow i (ENG_n_DBG e) fun s => s.writeEngDbg e i (setBitN v.toNat 1)).runSteps

/-! ## Plain accesses -/

/-- REGISTER_WRITE (R10, R12). -/
def execRegisterWrite (i : Initiator) (a : Nat) (v : Word) (s : State) : Outcome := .next (s.writeAny i (a % 2 ^ 32) v).runSteps

/-- STAGED_WRITE (R198, R199): held until the engine commits; a register that is not staged is written at once. -/
def execStagedWrite (e : Fin 16) (a : Nat) (v : Word) (s : State) : Outcome := .next (s.writeAny (.engine e) (a % 2 ^ 32) v).runSteps

/-- LOW_WORD_READ (R9): the high word is latched for the same initiator. -/
def execLowWordRead (i : Initiator) (a : Nat) (s : State) : Outcome := .next (s.readRow i (a % 2 ^ 32))

/-- READ_CLEAR_REGISTER (R10). -/
def execReadClearRegister (i : Initiator) (a : Nat) (s : State) : Outcome := .next (s.readRow i (a % 2 ^ 32))

/-- EXTREME_REGISTER_READ (R469). -/
def execExtremeRegisterRead (i : Initiator) (a : Nat) (s : State) : Outcome := .next (s.readRow i (a % 2 ^ 32))

/-! ## The remote access agent -/

/-- As whom the agent serves a frame that arrived on Strait `p` (R254, R278, R404) (DEDUCED, log entry 205). -/
def State.serveAs (s : State) (p : Fin 4) (f : Frame) : Initiator :=
  if s.role p = 2 ∧ ¬ s.recovering then .remoteService
  else if f.src = 0 ∨ s.recovering then .remoteHost
  else .remoteOther

/-- A word that a request on Strait `p` writes at `a`: FAB_NET_CTRL.TAKEOVER is accepted from a host-endpoint Strait only (R276,
R284) (DEDUCED, log entry 205). -/
def State.wireWord (s : State) (p : Fin 4) (a w : Nat) : Word :=
  BitVec.ofNat 32 (if a = FAB_NET_CTRL ∧ s.role p ≠ 1 then clrBitN w 1 else w)

/-- In recovery the boot ROM accepts requests with DST 0xFE whose every word lies in the update registers or the staging area (R404). -/
def State.recoveryAllows (s : State) (f : Frame) (a n : Nat) : Bool :=
  !s.recovering || (f.dst == 0xFE && (List.range (max n 1)).all fun k => inRecovery (a + 4 * k))

/-- Words read one after the other (R278): the status, the words performed, the bytes read. -/
def State.serveReads (s : State) (i : Initiator) : Nat → Nat → List Byte → (Ended × Nat × List Byte) × State
  | 0, _, l => ((0, l.length / 4, l), s)
  | n + 1, a, l =>
    let r := s.busRead i a
    if r.1.1 = 0 then State.serveReads r.2 i n (a + 4) (l ++ leBytes 4 r.1.2.toNat) else ((r.1.1, l.length / 4, []), r.2)

/-- Words written one after the other (R278): the status and the words performed. -/
def State.serveWrites (s : State) (i : Initiator) : List Word → Nat → Nat → (Ended × Nat) × State
  | [], _, k => ((0, k), s)
  | v :: l, a, k =>
    let r := s.busWrite i a v
    if r.1 = 0 then State.serveWrites r.2 i l (a + 4) (k + 1) else ((r.1, k), r.2)

/-- The words of a request performed: STATUS, words performed, the bytes read (Table 10.3). OP 0 reads and 1 writes; another value
is refused (DEDUCED, log entries 116, 206). -/
def State.perform (s : State) (p : Fin 4) (i : Initiator) (f : Frame) : (Ended × Nat × List Byte) × State :=
  let op := byteAt f.payload 2
  let n := byteAt f.payload 3
  let a := leAt f.payload 4 4
  let l := (List.range n).map fun k => s.wireWord p (a + 4 * k) (leAt f.payload (8 + 4 * k) 4)
  if ¬ s.recoveryAllows f a n ∨ 2 ≤ op then ((2, 0, []), s)
  else if op = 0 then s.serveReads i n a []
  else
    let ((st, k), s) := s.serveWrites i l a 0
    ((st, k, []), s)

/-- The record of a requester (R279). -/
def State.servedFor (s : State) (src : Nat) (host : Bool) : Served :=
  (s.net.served.find? fun x => x.src == src && x.host == host).getD { src := src, host := host, high := 0, highAt := 0, rsp := [] }

/-- A SEQ is not newer than the highest one served for its requester within the last second (R279) (DEDUCED, log entry 115). -/
def State.isRepeat (s : State) (src : Nat) (host : Bool) (seq : Nat) : Bool :=
  s.net.served.any fun x => x.src == src && x.host == host && decide (s.now ≤ x.highAt + sec) && !newerRound x.high seq

/-- The agent keeps the response of a request it has performed: the last four, for 1 s (R279) (DEDUCED, log entry 115). -/
def State.keepAnswer (s : State) (src : Nat) (host : Bool) (seq : Nat) (rsp : List Byte) : State :=
  let x := s.servedFor src host
  let y : Served := { x with high := seq, highAt := s.now, rsp := ((seq, rsp, s.now) :: x.rsp).take 4 }
  { s with net := { s.net with served := y :: s.net.served.filter fun z => !(z.src == src && z.host == host) } }

/-- A new request is performed, counted and answered (R278, R279). The response repeats the request's TAG, which is taken to be its
sequence number (R25, Table 10.3; DEDUCED, log entry 118). -/
def State.serveNew (s : State) (p : Fin 4) (f : Frame) : State :=
  let ((st, n, data), s) := s.perform p (s.serveAs p f) f
  let rsp := f.payload.take 2 ++ leBytes 1 st ++ leBytes 1 n ++ (f.payload.drop 4).take 4 ++ data
  let s := s.bump FAB_RA_CNT0_SERVED 1
  let s := if st = 1 then s.bump FAB_RA_CNT0_FENCED 1 else if st = 2 then s.bump FAB_RA_CNT2_REF 1 else s
  (s.keepAnswer f.src (bitOf (frameTag f) 15) f.seq rsp).answer (s.answerPort p f) f.src 0x21 rsp

/-- A duplicate is answered from the store, or with status 5 once its response has expired (R279) (DEDUCED, log entry 115). -/
def State.serveAgain (s : State) (p : Fin 4) (f : Frame) : State :=
  let x := s.servedFor f.src (bitOf (frameTag f) 15)
  match x.rsp.find? fun r => r.1 == f.seq && decide (s.now ≤ r.2.2 + sec) with
  | some r => (s.bump FAB_RA_CNT2_DUP 1).answer (s.answerPort p f) f.src 0x21 r.2.1
  | none => s.answer (s.answerPort p f) f.src 0x21 (f.payload.take 2 ++ leBytes 1 5 ++ leBytes 1 0 ++ (f.payload.drop 4).take 4)

/-- RA_REQUEST (R278, R279). -/
def execRaRequest (p : Fin 4) (f : Frame) (s : State) : Outcome :=
  let s := s.takeInbox f
  if f.typ ≠ 0x20 then .next s
  else .next (if s.isRepeat f.src (bitOf (frameTag f) 15) f.seq then s.serveAgain p f else s.serveNew p f).runSteps

end Sys2Proof.Machine
end

