-- ==== Sys2Proof/Machine/TwoWire.lean ====
section
/-! DEFINITION. The two-wire target (R416 to R425). -/

namespace Sys2Proof.Machine

/-! ## Accesses -/

/-- The domain of what an address reaches (Table 13.1): the registers lie in the register file of the logic die, but those of the Ferry
controllers and of the check-value units, which lie with them (R445). -/
def domainOf (a : Nat) : Nat :=
  match locate .twoWire a with
  | some (.reg, _) => if a / 0x10000 = 5 then 5 else if MGT_CRCu_CTRL 0 ≤ a ∧ a < MGT_CRCu_CTRL 4 then 7 else 9
  | some (.code _, _) => 7
  | some (.data e, _) => if e = 15 then 9 else 7
  | some (.lagoon, _) => 8
  | _ => 9

/-- A word lies in a domain that is still off while a wake from WATCH proceeds (R425) (DEDUCED, log entry 213). PD9 runs by then. -/
def State.twOff (s : State) (a : Nat) : Bool := s.mode == 1 && domainOf a != 9 && !s.domOn (domainOf a)

/-- How an access of the target ends before it is tried: with a bus error in a domain that is off (R425), refused in a recovery session
that does not reach the address (R404; DEDUCED, log entry 271). -/
def State.twBar (s : State) (a : Nat) : Ended := if s.twOff a then 3 else if s.recovering && !inRecovery a then 2 else 0

/-- The code of MGT_TW_STAT.ERR for an access that ended with `c` (R421). -/
def twErr (c : Ended) (a : Nat) : Nat :=
  if c = 1 then 6 else if c = 2 then 4 else if c = 3 ∧ lagoon ≤ a ∧ a < 0x13000000 then 4 else 5

/-- A failed access is recorded (R421). `first` keeps the code of an earlier failure of the transaction (R420)
(DEDUCED, log entry 211). -/
def State.twFail (s : State) (c : Ended) (a : Nat) (keep : Bool) : State :=
  let s := s.bump MGT_TW_CNT1_ACC 1
  if keep then s else (s.put MGT_TW_STAT_ERR (if s.twOff a then 5 else twErr c a)).wrN MGT_TW_ERRCAP a

/-- The pointer advances unless FIX is set (R418). -/
def State.twStep (s : State) (fix : Bool) : State := if fix then s else s.wrN MGT_TW_PTR (s.rdN MGT_TW_PTR + 4)

/-- One word written at the pointer: whether it was performed. -/
def State.twPut (s : State) (v : Word) (fix keep : Bool) : Bool × State :=
  let a := s.rdN MGT_TW_PTR
  let r := if s.twBar a ≠ 0 then (s.twBar a, s) else s.busWrite .twoWire a v
  if r.1 = 0 then (true, r.2.twStep fix) else (false, (r.2.twFail r.1 a keep).twStep fix)

/-- One word read at the pointer; one that fails is sent as all ones (R421) (DEDUCED, log entry 211). -/
def State.twGet (s : State) (fix : Bool) : Word × State :=
  let a := s.rdN MGT_TW_PTR
  let r := if s.twBar a ≠ 0 then ((s.twBar a, 0), s) else s.busRead .twoWire a
  if r.1.1 = 0 then (r.1.2, r.2.twStep fix) else (0xFFFFFFFF, (r.2.twFail r.1.1 a false).twStep fix)

/-- The words of a write without PEC (R419): whether every byte was acknowledged. A failed word NACKs the next byte, if there is
one, and the rest is not taken (DEDUCED, log entry 209). -/
def State.twPlain (s : State) (fix : Bool) : List Byte → Bool × State
  | b0 :: b1 :: b2 :: b3 :: l =>
    let (ok, s) := s.twPut (BitVec.ofNat 32 (ofLE [b0, b1, b2, b3])) fix false
    if ok then State.twPlain s fix l else (l.isEmpty, s)
  | [] => (true, s)
  | _ => (true, s.put MGT_TW_STAT_ERR 3)

/-- The words of a buffered write performed in order; the first failure is reported (R420) (DEDUCED, log entries 210, 211). -/
def State.twBuffered (s : State) (fix failed : Bool) : List Byte → State
  | b0 :: b1 :: b2 :: b3 :: l =>
    let (ok, s) := s.twPut (BitVec.ofNat 32 (ofLE [b0, b1, b2, b3])) fix failed
    State.twBuffered s fix (failed || !ok) l
  | [] => s
  | _ => if failed then s else s.put MGT_TW_STAT_ERR 3

/-- Words read one after the other. -/
def State.twWords (s : State) (fix : Bool) : Nat → List Byte → List Byte × State
  | 0, l => (l, s)
  | n + 1, l =>
    let (w, s) := s.twGet fix
    State.twWords s fix n (l ++ leBytes 4 w.toNat)

/-- The address byte with its direction bit (R416). -/
def State.twAddr (s : State) (read : Bool) : Byte := BitVec.ofNat 8 (s.get MGT_TW_STAT_ADDR * 2 + b2n read)

/-- The PEC over the bytes of a transaction (R420). -/
def pecOf (l : List Byte) : Byte := BitVec.ofNat 8 (crcMsb 8 0x07 0 l)

/-- NACKs sent are counted, and a code recorded (DEDUCED, log entry 209). -/
def State.twNack (s : State) (n err : Nat) : State := (s.bump MGT_TW_CNT0_NACK n).put MGT_TW_STAT_ERR err

/-! ## Wake by address -/

/-- The address matcher of PD0 recognises the address (R425): a wake request; in WATCH the target in PD9 then runs, in SHIP error 8
is set. The bus is held for at most 180 µs (DEDUCED, log entries 32, 185). -/
def State.twMatch (s : State) : State :=
  let s := (s.wakeRequest 2).bump MGT_TW_CNT1_WAKE 1
  let s := s.reach (s.now + 180 * us)
  if s.mode = 0 then s.put MGT_TW_STAT_ERR 8
  else (s.putBit MGT_PWR_STAT_ON 9 true).putBit MGT_PWR_STAT_RET 9 false

/-- How the bus is answered (R425): 0 the address is NACKed, 1 served, 2 matched in SHIP, with the rest refused. In WATCH the
transaction is served after the match (DEDUCED, log entry 149). -/
def State.twReach (s : State) : Nat × State :=
  if s.mode = 0 ∨ (s.mode = 1 ∧ ¬ (s.logicOn ∧ s.flag MGT_MODE_STAT_PEND)) then
    (if s.mgt.por ∨ ¬ s.flag MGT_WAKE_CFG_TW then (0, s) else (if s.mode = 0 then 2 else 1, s.twMatch))
  else (b2n s.logicOn, s)

/-! ## Transactions -/

/-- A write that is served (R418 to R420) (DEDUCED, log entries 207, 208, 210). -/
def State.twServeWrite (s : State) (t : TwWrite) : State :=
  let s := s.bump MGT_TW_CNT0_TRANS 1
  let c := t.cmd.toNat
  let pec := bitOf c 0
  let fix := bitOf c 1
  let n := t.data.length + b2n t.pec.isSome
  if c / 16 ≠ 0xA ∨ (¬ pec ∧ s.flag MGT_TW_CFG_PECREQ) then (s.twNack (5 + n) 1).emit (.tw [] false)
  else
    let s := s.wr MGT_TW_PTR t.addr
    if ¬ pec then
      let (ack, s) := s.twPlain fix t.data
      (if ack then s else s.bump MGT_TW_CNT0_NACK 1).emit (.tw [] ack)
    else
      let own := pecOf (s.twAddr false :: t.cmd :: (leBytes 4 t.addr.toNat ++ t.data))
      match t.pec with
      | some p =>
        if p = own ∧ t.data.length ≤ 64 then (s.twBuffered fix false t.data).emit (.tw [] true)
        else ((s.twNack 1 2).bump MGT_TW_CNT1_PEC 1).emit (.tw [] false)
      | none =>
        if t.data.length ≤ 64 then s.emit (.tw [] true)
        else ((s.twNack 1 2).bump MGT_TW_CNT1_PEC 1).emit (.tw [] false)

/-- A read that is served (R418 to R421); NW outside 1 to 16 acts as the nearest value of that range (DESIGN CHOICE, log entry 10)
(DEDUCED, log entries 207, 212). -/
def State.twServeRead (s : State) (t : TwRead) : State :=
  let s := s.bump MGT_TW_CNT0_TRANS 1
  let c := t.cmd.toNat
  let pec := bitOf c 0
  if c / 16 ≠ 0xA then (s.twNack (5 + b2n pec) 1).emit (.tw [] false)
  else
    let n := if pec then clampN 1 16 t.words else t.words
    let (l, s) := (s.wr MGT_TW_PTR t.addr).twWords (bitOf c 1) n []
    let head := s.twAddr false :: t.cmd :: (leBytes 4 t.addr.toNat ++ leBytes 1 n ++ [s.twAddr true])
    s.emit (.tw (if pec then l ++ [pecOf (head ++ l)] else l) true)

/-- A transaction refused: the address is not acknowledged, or the rest is not while the part wakes from SHIP. -/
def State.twRefuse (s : State) (k words : Nat) (read : Bool) : State :=
  if k = 2 ∧ read then s.emit (.tw (List.replicate (4 * words) 0xFF) true) else s.emit (.tw [] false)

/-- TW_WRITE (R419). -/
def execTwWrite (t : TwWrite) (s : State) : Outcome :=
  let (k, s) := s.twReach
  .next (if k = 1 then s.twServeWrite t else s.twRefuse k 0 false).runSteps

/-- TW_READ (R418). -/
def execTwRead (t : TwRead) (s : State) : Outcome :=
  let (k, s) := s.twReach
  .next (if k = 1 then s.twServeRead t else s.twRefuse k t.words true)

/-- TW_CURRENT_READ (R418): from the pointer, without PEC. -/
def execTwCurrentRead (words : Nat) (s : State) : Outcome :=
  let (k, s) := s.twReach
  if k = 1 then
    let (l, s) := (s.bump MGT_TW_CNT0_TRANS 1).twWords false words []
    .next (s.emit (.tw l true))
  else .next (s.twRefuse k words true)

/-- TW_TIMEOUT (R424): the bus has been static for TW_TIMEOUT; the pointer is kept (DEDUCED, log entry 214). -/
def execTwTimeout (sclLow : Bool) (s : State) : Outcome :=
  if s.logicOn then
    let s := s.reach (s.now + s.getIn MGT_TW_CFG_TMO_MS 2 35 * ms)
    .next (((s.put MGT_TW_STAT_ERR 7).bump MGT_TW_CNT1_TMO 1).fault 0 0x14 (if sclLow then 0 else 1))
  else .next s

/-- TW_WAKE_MATCH (R425): in SHIP and WATCH the address is acknowledged, or NACKed while MGT_WAKE_CFG.TW is 0. -/
def execTwWakeMatch (s : State) : Outcome :=
  if s.mode = 0 ∨ (s.mode = 1 ∧ ¬ (s.logicOn ∧ s.flag MGT_MODE_STAT_PEND)) then
    (if s.mgt.por ∨ ¬ s.flag MGT_WAKE_CFG_TW then .next (s.emit (.tw [] false)) else .next (s.twMatch.emit (.tw [] true)))
  else .next s

end Sys2Proof.Machine
end

