-- ==== Sys2Proof/Machine/Dispatch.lean ====
section
/-! DEFINITION. The meaning of each command: one arm per constructor, one direct call each. -/

namespace Sys2Proof.Machine

def exec (i : Instr) (s : State) : Host.Outcome State Fault Refusal :=
  match i with
  | .sampleInstant => Sys2Proof.Machine.execSampleInstant s
  | .tickOriginate => Sys2Proof.Machine.execTickOriginate s
  | .tickAccept port stamp => Sys2Proof.Machine.execTickAccept port stamp s
  | .tickMissing => Sys2Proof.Machine.execTickMissing s
  | .holdoverExceeded => Sys2Proof.Machine.execHoldoverExceeded s
  | .timexRequestSend port => Sys2Proof.Machine.execTimexRequestSend port s
  | .timexRequest port seq nseq turn => Sys2Proof.Machine.execTimexRequest port seq nseq turn s
  | .timexReply port l t4 => Sys2Proof.Machine.execTimexReply port l t4 s
  | .timexReplyTimeout port => Sys2Proof.Machine.execTimexReplyTimeout port s
  | .bankSwitch => Sys2Proof.Machine.execBankSwitch s
  | .bankSwitchDeadline => Sys2Proof.Machine.execBankSwitchDeadline s
  | .engineOverrun e => Sys2Proof.Machine.execEngineOverrun e s
  | .overrunLimit e => Sys2Proof.Machine.execOverrunLimit e s
  | .tmgEnable ini v => Sys2Proof.Machine.execTmgEnable ini v s
  | .forceAcq ini v => Sys2Proof.Machine.execForceAcq ini v s
  | .periodSwitch => Sys2Proof.Machine.execPeriodSwitch s
  | .unusedChannelNotShorted c => Sys2Proof.Machine.execUnusedChannelNotShorted c s
  | .modulatorFault ch => Sys2Proof.Machine.execModulatorFault ch s
  | .forceMod ini v => Sys2Proof.Machine.execForceMod ini v s
  | .forceOw ini v => Sys2Proof.Machine.execForceOw ini v s
  | .cmfEnable ini v => Sys2Proof.Machine.execCmfEnable ini v s
  | .openWireStep => Sys2Proof.Machine.execOpenWireStep s
  | .openWireDwellEnd => Sys2Proof.Machine.execOpenWireDwellEnd s
  | .dcQualify c ov => Sys2Proof.Machine.execDcQualify c ov s
  | .dcRelease c ov => Sys2Proof.Machine.execDcRelease c ov s
  | .pathDisagreement c => Sys2Proof.Machine.execPathDisagreement c s
  | .dcSelfTest c ovTrips uvTrips => Sys2Proof.Machine.execDcSelfTest c ovTrips uvTrips s
  | .noValidCurrent => Sys2Proof.Machine.execNoValidCurrent s
  | .qaccLoad ini v => Sys2Proof.Machine.execQaccLoad ini v s
  | .qaccClr1 ini v => Sys2Proof.Machine.execQaccClr1 ini v s
  | .currentPathDisagreement => Sys2Proof.Machine.execCurrentPathDisagreement s
  | .diversityBiasBlock => Sys2Proof.Machine.execDiversityBiasBlock s
  | .zeroWindowChange inside => Sys2Proof.Machine.execZeroWindowChange inside s
  | .shortCircuit negative => Sys2Proof.Machine.execShortCircuit negative s
  | .scTripClear ini v => Sys2Proof.Machine.execScTripClear ini v s
  | .scSelfTest trips => Sys2Proof.Machine.execScSelfTest trips s
  | .fullSweepDue => Sys2Proof.Machine.execFullSweepDue s
  | .tempPassDue => Sys2Proof.Machine.execTempPassDue s
  | .impStart ini v => Sys2Proof.Machine.execImpStart ini v s
  | .impTstart ini v => Sys2Proof.Machine.execImpTstart ini v s
  | .impStop ini v => Sys2Proof.Machine.execImpStop ini v s
  | .impTrelrn ini v => Sys2Proof.Machine.execImpTrelrn ini v s
  | .sweepWindowStart => Sys2Proof.Machine.execSweepWindowStart s
  | .sweepWindowEnd => Sys2Proof.Machine.execSweepWindowEnd s
  | .excitationRemoval p => Sys2Proof.Machine.execExcitationRemoval p s
  | .slotEnd p => Sys2Proof.Machine.execSlotEnd p s
  | .selectorBreakEnd p busLow busHigh => Sys2Proof.Machine.execSelectorBreakEnd p busLow busHigh s
  | .groupBusNotDischarged p => Sys2Proof.Machine.execGroupBusNotDischarged p s
  | .selectorScan p bus => Sys2Proof.Machine.execSelectorScan p bus s
  | .phaseTestScan p ini v => Sys2Proof.Machine.execPhaseTestScan p ini v s
  | .phaseTestBleed p ini v => Sys2Proof.Machine.execPhaseTestBleed p ini v s
  | .gateReadback p drive => Sys2Proof.Machine.execGateReadback p drive s
  | .fallbackStop => Sys2Proof.Machine.execFallbackStop s
  | .balTargetWrite c ini v => Sys2Proof.Machine.execBalTargetWrite c ini v s
  | .targetDone c => Sys2Proof.Machine.execTargetDone c s
  | .phaseCommandWrite p ini v => Sys2Proof.Machine.execPhaseCommandWrite p ini v s
  | .commandExpiry p => Sys2Proof.Machine.execCommandExpiry p s
  | .balEnable ini v => Sys2Proof.Machine.execBalEnable ini v s
  | .primaryOvercurrent p => Sys2Proof.Machine.execPrimaryOvercurrent p s
  | .noSecondaryConduction p => Sys2Proof.Machine.execNoSecondaryConduction p s
  | .commandTransfer p => Sys2Proof.Machine.execCommandTransfer p s
  | .auxScanStart => Sys2Proof.Machine.execAuxScanStart s
  | .auxScanComplete r => Sys2Proof.Machine.execAuxScanComplete r s
  | .throttleEvaluation td => Sys2Proof.Machine.execThrottleEvaluation td s
  | .throttleGraceExpiry => Sys2Proof.Machine.execThrottleGraceExpiry s
  | .throttleStepDown => Sys2Proof.Machine.execThrottleStepDown s
  | .throttleEnforce ini v => Sys2Proof.Machine.execThrottleEnforce ini v s
  | .throttleFloor ini v => Sys2Proof.Machine.execThrottleFloor ini v s
  | .thermalShutdown d => Sys2Proof.Machine.execThermalShutdown d s
  | .thermalShutdownRelease => Sys2Proof.Machine.execThermalShutdownRelease s
  | .extremeRegisterRead ini a => Sys2Proof.Machine.execExtremeRegisterRead ini a s
  | .ydMac2 e rd rs1 rs2 => Sys2Proof.Machine.execYdMac2 e rd rs1 rs2 s
  | .ydMsu2 e rd rs1 rs2 => Sys2Proof.Machine.execYdMsu2 e rd rs1 rs2 s
  | .ydMcr e rd rs1 rs2 => Sys2Proof.Machine.execYdMcr e rd rs1 rs2 s
  | .ydMci e rd rs1 rs2 => Sys2Proof.Machine.execYdMci e rd rs1 rs2 s
  | .ydMac1 e rd rs1 rs2 => Sys2Proof.Machine.execYdMac1 e rd rs1 rs2 s
  | .ydDft e rd rs1 rs2 => Sys2Proof.Machine.execYdDft e rd rs1 rs2 s
  | .ydDfta e rd rs1 rs2 => Sys2Proof.Machine.execYdDfta e rd rs1 rs2 s
  | .ydAccw e rd rs1 rs2 => Sys2Proof.Machine.execYdAccw e rd rs1 rs2 s
  | .ydAccz e rd rs1 rs2 => Sys2Proof.Machine.execYdAccz e rd rs1 rs2 s
  | .ydAccrl e rd rs1 rs2 => Sys2Proof.Machine.execYdAccrl e rd rs1 rs2 s
  | .ydAccrh e rd rs1 rs2 => Sys2Proof.Machine.execYdAccrh e rd rs1 rs2 s
  | .ydAccrs e rd rs1 rs2 => Sys2Proof.Machine.execYdAccrs e rd rs1 rs2 s
  | .ydPks e rd rs1 rs2 => Sys2Proof.Machine.execYdPks e rd rs1 rs2 s
  | .ydUpkl e rd rs1 rs2 => Sys2Proof.Machine.execYdUpkl e rd rs1 rs2 s
  | .ydUpkh e rd rs1 rs2 => Sys2Proof.Machine.execYdUpkh e rd rs1 rs2 s
  | .ydSat e rd rs1 imm => Sys2Proof.Machine.execYdSat e rd rs1 imm s
  | .ytPost e => Sys2Proof.Machine.execYtPost e s
  | .ytWft e => Sys2Proof.Machine.execYtWft e s
  | .ytTask e rs1 => Sys2Proof.Machine.execYtTask e rs1 s
  | .stagedWrite e a v => Sys2Proof.Machine.execStagedWrite e a v s
  | .engineEventEntry e cause => Sys2Proof.Machine.execEngineEventEntry e cause s
  | .samplePortOverflow e => Sys2Proof.Machine.execSamplePortOverflow e s
  | .engineTrap e mcause mepc mtval => Sys2Proof.Machine.execEngineTrap e mcause mepc mtval s
  | .engineRestartRelease e => Sys2Proof.Machine.execEngineRestartRelease e s
  | .engRestart ini v => Sys2Proof.Machine.execEngRestart ini v s
  | .engineEnable e ini v => Sys2Proof.Machine.execEngineEnable e ini v s
  | .engineUpdateGo ini v => Sys2Proof.Machine.execEngineUpdateGo ini v s
  | .engineHalt e ini v => Sys2Proof.Machine.execEngineHalt e ini v s
  | .engineStep e ini v => Sys2Proof.Machine.execEngineStep e ini v s
  | .engineBreakpoint e pc => Sys2Proof.Machine.execEngineBreakpoint e pc s
  | .mailboxSend e ini v => Sys2Proof.Machine.execMailboxSend e ini v s
  | .mailboxDelivery e => Sys2Proof.Machine.execMailboxDelivery e s
  | .mailboxPop e ini v => Sys2Proof.Machine.execMailboxPop e ini v s
  | .mailboxTimeout e tag => Sys2Proof.Machine.execMailboxTimeout e tag s
  | .semaphoreAcquire k ini v => Sys2Proof.Machine.execSemaphoreAcquire k ini v s
  | .semaphoreRelease k ini v => Sys2Proof.Machine.execSemaphoreRelease k ini v s
  | .pmcSelectWrite e k ini v => Sys2Proof.Machine.execPmcSelectWrite e k ini v s
  | .perfDump => Sys2Proof.Machine.execPerfDump s
  | .frameReceive port w => Sys2Proof.Machine.execFrameReceive port w s
  | .storeAndForward port => Sys2Proof.Machine.execStoreAndForward port s
  | .frameTransmit port => Sys2Proof.Machine.execFrameTransmit port s
  | .creditReceive port q c => Sys2Proof.Machine.execCreditReceive port q c s
  | .creditRefresh port => Sys2Proof.Machine.execCreditRefresh port s
  | .creditStall port => Sys2Proof.Machine.execCreditStall port s
  | .hazardReceive src => Sys2Proof.Machine.execHazardReceive src s
  | .hazardHoldExpiry => Sys2Proof.Machine.execHazardHoldExpiry s
  | .linkTraining port => Sys2Proof.Machine.execLinkTraining port s
  | .trainReceive port l => Sys2Proof.Machine.execTrainReceive port l s
  | .trainingTimeout port => Sys2Proof.Machine.execTrainingTimeout port s
  | .trainingRetry port => Sys2Proof.Machine.execTrainingRetry port s
  | .linkDown port cause => Sys2Proof.Machine.execLinkDown port cause s
  | .portRetrain port ini v => Sys2Proof.Machine.execPortRetrain port ini v s
  | .portWake port ini v => Sys2Proof.Machine.execPortWake port ini v s
  | .portLoopback port ini v => Sys2Proof.Machine.execPortLoopback port ini v s
  | .portPrbs port ini v => Sys2Proof.Machine.execPortPrbs port ini v s
  | .wakeToneDetect port => Sys2Proof.Machine.execWakeToneDetect port s
  | .wakeToneHeld port => Sys2Proof.Machine.execWakeToneHeld port s
  | .netSound ini v => Sys2Proof.Machine.execNetSound ini v s
  | .soundFlood port f => Sys2Proof.Machine.execSoundFlood port f s
  | .soundReport port f => Sys2Proof.Machine.execSoundReport port f s
  | .collectionClose => Sys2Proof.Machine.execCollectionClose s
  | .soundAssign port f => Sys2Proof.Machine.execSoundAssign port f s
  | .soundAck port f => Sys2Proof.Machine.execSoundAck port f s
  | .assignTimeout addr => Sys2Proof.Machine.execAssignTimeout addr s
  | .soundCommit port f => Sys2Proof.Machine.execSoundCommit port f s
  | .tableInstall => Sys2Proof.Machine.execTableInstall s
  | .soundLinkev port f => Sys2Proof.Machine.execSoundLinkev port f s
  | .soundRestart port f => Sys2Proof.Machine.execSoundRestart port f s
  | .soundingHoldoffEnd => Sys2Proof.Machine.execSoundingHoldoffEnd s
  | .addressHoldExpiry addr => Sys2Proof.Machine.execAddressHoldExpiry addr s
  | .addressTableClear ini v => Sys2Proof.Machine.execAddressTableClear ini v s
  | .harbourListenEnd => Sys2Proof.Machine.execHarbourListenEnd s
  | .netTakeover ini v => Sys2Proof.Machine.execNetTakeover ini v s
  | .harbourLoss => Sys2Proof.Machine.execHarbourLoss s
  | .raRequest port f => Sys2Proof.Machine.execRaRequest port f s
  | .raResponse port f => Sys2Proof.Machine.execRaResponse port f s
  | .raTimeout k => Sys2Proof.Machine.execRaTimeout k s
  | .raSlotGo k ini v => Sys2Proof.Machine.execRaSlotGo k ini v s
  | .memReadRequest port f => Sys2Proof.Machine.execMemReadRequest port f s
  | .memReadData port f => Sys2Proof.Machine.execMemReadData port f s
  | .demandClear ini v => Sys2Proof.Machine.execDemandClear ini v s
  | .offreqSet ini v => Sys2Proof.Machine.execOffreqSet ini v s
  | .offreqClr ini v => Sys2Proof.Machine.execOffreqClr ini v s
  | .safetyInputChange k closed => Sys2Proof.Machine.execSafetyInputChange k closed s
  | .darkPulse => Sys2Proof.Machine.execDarkPulse s
  | .darkPulseEnd closed => Sys2Proof.Machine.execDarkPulseEnd closed s
  | .ilkReadback src ret => Sys2Proof.Machine.execIlkReadback src ret s
  | .armRequest ini v fb => Sys2Proof.Machine.execArmRequest ini v fb s
  | .ilkSelfCycleEnd fb => Sys2Proof.Machine.execIlkSelfCycleEnd fb s
  | .armDisable ini v => Sys2Proof.Machine.execArmDisable ini v s
  | .outputOnWrite ini v => Sys2Proof.Machine.execOutputOnWrite ini v s
  | .outputOffWrite ini v => Sys2Proof.Machine.execOutputOffWrite ini v s
  | .outputFault o above level => Sys2Proof.Machine.execOutputFault o above level s
  | .offPulse o => Sys2Proof.Machine.execOffPulse o s
  | .offPulseEnd above level => Sys2Proof.Machine.execOffPulseEnd above level s
  | .lockoutKey ini v => Sys2Proof.Machine.execLockoutKey ini v s
  | .lockoutExit fb => Sys2Proof.Machine.execLockoutExit fb s
  | .causewayReceive port f => Sys2Proof.Machine.execCausewayReceive port f s
  | .causewayDecision => Sys2Proof.Machine.execCausewayDecision s
  | .heartbeatLost => Sys2Proof.Machine.execHeartbeatLost s
  | .configIntegrityCheck upsets => Sys2Proof.Machine.execConfigIntegrityCheck upsets s
  | .otpMirrorCheck reread => Sys2Proof.Machine.execOtpMirrorCheck reread s
  | .faultAck ini v => Sys2Proof.Machine.execFaultAck ini v s
  | .fatalAck ini v => Sys2Proof.Machine.execFatalAck ini v s
  | .faultRecovery src code inst bus => Sys2Proof.Machine.execFaultRecovery src code inst bus s
  | .shadowWindowClose => Sys2Proof.Machine.execShadowWindowClose s
  | .faultForce ini v => Sys2Proof.Machine.execFaultForce ini v s
  | .powerOnResetRelease b => Sys2Proof.Machine.execPowerOnResetRelease b s
  | .powerOnReset => Sys2Proof.Machine.execPowerOnReset s
  | .startUpComplete => Sys2Proof.Machine.execStartUpComplete s
  | .modeReqShip ini v => Sys2Proof.Machine.execModeReqShip ini v s
  | .modeReqWatch ini v => Sys2Proof.Machine.execModeReqWatch ini v s
  | .modeReqRun ini v => Sys2Proof.Machine.execModeReqRun ini v s
  | .modeReqTrim ini v refDev => Sys2Proof.Machine.execModeReqTrim ini v refDev s
  | .modeReqService ini v => Sys2Proof.Machine.execModeReqService ini v s
  | .modeKey ini v => Sys2Proof.Machine.execModeKey ini v s
  | .modeTransitionComplete => Sys2Proof.Machine.execModeTransitionComplete s
  | .serviceTimeout => Sys2Proof.Machine.execServiceTimeout s
  | .watchBurst => Sys2Proof.Machine.execWatchBurst s
  | .watchBurstEnd => Sys2Proof.Machine.execWatchBurstEnd s
  | .wakePin => Sys2Proof.Machine.execWakePin s
  | .wakePinStuck => Sys2Proof.Machine.execWakePinStuck s
  | .rstNLow => Sys2Proof.Machine.execRstNLow s
  | .rstNRelease => Sys2Proof.Machine.execRstNRelease s
  | .rstNFailedClosed => Sys2Proof.Machine.execRstNFailedClosed s
  | .rstNHighSeen => Sys2Proof.Machine.execRstNHighSeen s
  | .softwareReset ini v => Sys2Proof.Machine.execSoftwareReset ini v s
  | .vstkOutOfRange level => Sys2Proof.Machine.execVstkOutOfRange level s
  | .railOutOfTolerance => Sys2Proof.Machine.execRailOutOfTolerance s
  | .vauxLoss level => Sys2Proof.Machine.execVauxLoss level s
  | .vauxReturn level => Sys2Proof.Machine.execVauxReturn level s
  | .vioOverload => Sys2Proof.Machine.execVioOverload s
  | .oscillatorDeviation => Sys2Proof.Machine.execOscillatorDeviation s
  | .pd0OscillatorStopped => Sys2Proof.Machine.execPd0OscillatorStopped s
  | .calPointComplete point stored => Sys2Proof.Machine.execCalPointComplete point stored s
  | .calAbort ini v => Sys2Proof.Machine.execCalAbort ini v s
  | .calStore ini v stored => Sys2Proof.Machine.execCalStore ini v stored s
  | .cfgSwitchRequest ini v => Sys2Proof.Machine.execCfgSwitchRequest ini v s
  | .cfgSwitchFrame port f => Sys2Proof.Machine.execCfgSwitchFrame port f s
  | .cfgSwitchApply => Sys2Proof.Machine.execCfgSwitchApply s
  | .probationPassed slot => Sys2Proof.Machine.execProbationPassed slot s
  | .slotReject ini v => Sys2Proof.Machine.execSlotReject ini v s
  | .updateOpen ini v => Sys2Proof.Machine.execUpdateOpen ini v s
  | .imageFrame port f => Sys2Proof.Machine.execImageFrame port f s
  | .updateVerify ini v => Sys2Proof.Machine.execUpdateVerify ini v s
  | .updateWrite ini v => Sys2Proof.Machine.execUpdateWrite ini v s
  | .updateWriteComplete r => Sys2Proof.Machine.execUpdateWriteComplete r s
  | .updateClose ini v => Sys2Proof.Machine.execUpdateClose ini v s
  | .otpKey ini v => Sys2Proof.Machine.execOtpKey ini v s
  | .otpProgram ini v fb readback => Sys2Proof.Machine.execOtpProgram ini v fb readback s
  | .logPost ini v => Sys2Proof.Machine.execLogPost ini v s
  | .lifetimeFlush stored => Sys2Proof.Machine.execLifetimeFlush stored s
  | .lifetimeFlushNow ini v stored => Sys2Proof.Machine.execLifetimeFlushNow ini v stored s
  | .lifetimeKey ini v => Sys2Proof.Machine.execLifetimeKey ini v s
  | .lifetimeClear ini v => Sys2Proof.Machine.execLifetimeClear ini v s
  | .twWrite t => Sys2Proof.Machine.execTwWrite t s
  | .twRead t => Sys2Proof.Machine.execTwRead t s
  | .twCurrentRead words => Sys2Proof.Machine.execTwCurrentRead words s
  | .twTimeout sclLow => Sys2Proof.Machine.execTwTimeout sclLow s
  | .twWakeMatch => Sys2Proof.Machine.execTwWakeMatch s
  | .hostNotifyAttempt r => Sys2Proof.Machine.execHostNotifyAttempt r s
  | .notifySend ini v => Sys2Proof.Machine.execNotifySend ini v s
  | .swbTrigger n => Sys2Proof.Machine.execSwbTrigger n s
  | .swbManualTrigger n ini v => Sys2Proof.Machine.execSwbManualTrigger n ini v s
  | .swbResponse n r => Sys2Proof.Machine.execSwbResponse n r s
  | .swbResponseTimeout n => Sys2Proof.Machine.execSwbResponseTimeout n s
  | .swbPowerError n => Sys2Proof.Machine.execSwbPowerError n s
  | .swbPowerUp n => Sys2Proof.Machine.execSwbPowerUp n s
  | .flashTimeout => Sys2Proof.Machine.execFlashTimeout s
  | .crcStart u ini v => Sys2Proof.Machine.execCrcStart u ini v s
  | .crcData u ini v size => Sys2Proof.Machine.execCrcData u ini v size s
  | .crcEnd u ini v => Sys2Proof.Machine.execCrcEnd u ini v s
  | .crcClaim u ini v => Sys2Proof.Machine.execCrcClaim u ini v s
  | .crcRelease u ini v => Sys2Proof.Machine.execCrcRelease u ini v s
  | .crcStateWrite u ini v => Sys2Proof.Machine.execCrcStateWrite u ini v s
  | .lowWordRead ini a => Sys2Proof.Machine.execLowWordRead ini a s
  | .registerWrite ini a v => Sys2Proof.Machine.execRegisterWrite ini a v s
  | .scQuiet => Sys2Proof.Machine.execScQuiet s
  | .heartbeatRestored => Sys2Proof.Machine.execHeartbeatRestored s
  | .vstkInRange level => Sys2Proof.Machine.execVstkInRange level s
  | .railInTolerance => Sys2Proof.Machine.execRailInTolerance s
  | .vioLoadNormal => Sys2Proof.Machine.execVioLoadNormal s
  | .oscillatorAgreement => Sys2Proof.Machine.execOscillatorAgreement s
  | .pd0OscillatorRunning => Sys2Proof.Machine.execPd0OscillatorRunning s
  | .readbackAgreement src ret => Sys2Proof.Machine.execReadbackAgreement src ret s
  | .chatterQuiet k => Sys2Proof.Machine.execChatterQuiet k s
  | .wakePinRelease => Sys2Proof.Machine.execWakePinRelease s
  | .commaAlignment port => Sys2Proof.Machine.execCommaAlignment port s
  | .wakeToneAbsent port => Sys2Proof.Machine.execWakeToneAbsent port s
  | .swpPowerRetry n => Sys2Proof.Machine.execSwpPowerRetry n s
  | .baseRateStrobe x => Sys2Proof.Machine.execBaseRateStrobe x s
  | .flashSuspendComplete => Sys2Proof.Machine.execFlashSuspendComplete s
  | .readClearRegister ini a => Sys2Proof.Machine.execReadClearRegister ini a s
  | .extensionCsrWrite e csr v => Sys2Proof.Machine.execExtensionCsrWrite e csr v s

end Sys2Proof.Machine
end

