-- ==== Sys2Proof/Machine/Step.lean ====
section
/-! DEFINITION. One step of the machine: the command at the front of the queue is executed; on an empty queue a microsecond
passes. -/

namespace Sys2Proof.Machine

/-- One step: the front command, executed on the state with the queue's rest. With nothing waiting the part idles while one
microsecond passes (DESIGN CHOICE, log entry 23). -/
def step (s : State) : Host.Outcome State Fault Refusal :=
  match s.pending with
  | c :: rest => exec c { s with pending := rest }
  | [] => .next (s.reach (s.now + us))

/-- The command that a word spells put at the front of the queue; no word spells one. -/
def State.withFetchWord (s : State) (nbits w : Nat) : State :=
  match decodeTableWord nbits w with
  | some c => { s with pending := c :: s.pending }
  | none => s

end Sys2Proof.Machine
end

