-- ==== Sys2Proof/Safety.lean ====
section
/-! DEFINITION. What the claims speak of: the canonical form of the sparse stores, what a step may do to the queue, to the stores
and to the record of outputs. -/

namespace Sys2Proof.Machine

/-- The register file, the addressed memories and the flash are in their canonical form: addresses strictly rising, no entry
equal to what an unlisted address reads as. -/
abbrev State.Canon (s : State) : Prop :=
  sparseWf resetWord s.regs = true ∧ Memory.wf s.mem ∧ sparseWf flashDefault s.flash = true

/-- What every step that goes on keeps between the state after the command has been taken off the queue and the state it
answers: the queue, the canonical form, the order of the free values, and what the part has already put out. -/
structure Kept (s t : State) : Prop where
  queue : t.pending = s.pending
  canon : s.Canon → t.Canon
  free : s.free ≤ t.free
  sent : s.sent <:+ t.sent

/-- An outcome that goes on. -/
def goesOn (o : Outcome) : Prop := ∃ t, o = .next t

end Sys2Proof.Machine
end

