-- ==== Sys2Proof/WellFormed.lean ====
section
/-! DEFINITION. Which commands are well formed: the operands that a type holds only as a number or a list lie within what the
manual's encodings can carry. The meanings are total; a command that is not well formed is one that nothing can send. -/

namespace Sys2Proof

/-- An address of the 32-bit address space (R443). -/
def addressOk (a : Nat) : Bool := decide (a < 2 ^ 32)

/-- A frame fits the header of Table 9.3: one-byte DST, SRC and TYPE, a class but the invalid one, one VC bit, HOPS[5:0],
SEQ[15:0], at most 512 payload bytes (R224). -/
def Frame.ok (f : Frame) : Bool :=
  decide (f.dst < 256) && decide (f.src < 256) && decide (f.typ < 256) && decide (f.cls < 3) && decide (f.vc < 2) &&
    decide (f.hops < 64) && decide (f.seq < 65536) && decide (f.payload.length ≤ 512)

/-- A time stamp of the 64-bit fabric time in 62.5 ps (R33). -/
def stampOk (t : Nat) : Bool := decide (t < 2 ^ 68)

/-- The board's flash has 3-byte addresses (R437), its OTP window 4 KB (Table 17.1). -/
def Board.ok (b : Board) : Bool :=
  (b.flash.getD []).all (fun e => decide (e.1 < 2 ^ 24)) && (b.otp.getD []).all fun e => decide (e.1 < 4096)

/-- Words read again stand at addresses. -/
def rereadOk (l : List (Nat × Word)) : Bool := l.all fun e => addressOk e.1

/-- The checks of a command's operands. -/
def Instr.wellFormed : Instr → Bool
  | .tickAccept _ stamp => stampOk stamp
  | .timexReply _ l t4 => decide (l.length ≤ 64) && stampOk t4
  | .trainReceive _ l => decide (l.length ≤ 22)
  | .extremeRegisterRead _ a => addressOk a
  | .stagedWrite _ a _ => addressOk a
  | .lowWordRead _ a => addressOk a
  | .registerWrite _ a _ => addressOk a
  | .readClearRegister _ a => addressOk a
  | .soundFlood _ f => f.ok
  | .soundReport _ f => f.ok
  | .soundAssign _ f => f.ok
  | .soundAck _ f => f.ok
  | .soundCommit _ f => f.ok
  | .soundLinkev _ f => f.ok
  | .soundRestart _ f => f.ok
  | .raRequest _ f => f.ok
  | .raResponse _ f => f.ok
  | .memReadRequest _ f => f.ok
  | .memReadData _ f => f.ok
  | .causewayReceive _ f => f.ok
  | .cfgSwitchFrame _ f => f.ok
  | .imageFrame _ f => f.ok
  | .configIntegrityCheck l => rereadOk l
  | .otpMirrorCheck l => rereadOk l
  | .powerOnResetRelease b => b.ok
  | _ => true

end Sys2Proof
end

