-- ==== Sys2Proof/Certificates/Slice0/Obligations.lean ====
section
/-! DEFINITION. The statements for the provers, each a proposition about the machine. -/

namespace Sys2Proof

open Sys2Proof.Machine

/-- Command `c` at state `s` goes on to a next state of which `P` holds. -/
def answers (c : Instr) (s : State) (P : State → Prop) : Prop := ∃ t, exec c s = .next t ∧ P t

/-- A write of register `a` by initiator `i` is let through: path, privilege of the path and mode (R12, R444, R446). -/
abbrev Granted (s : State) (i : Initiator) (a : Nat) : Prop := s.accessCode i a true = 0 ∧ s.modeAllows i a = true

/-- The configuration has not closed a field to later writes (R392, R447). -/
abbrev Unsealed (s : State) (f : Fld) : Prop := s.sealed = false ∨ s.loaderBits f.addr f.lo f.width = false

/-- The fault with a source, code and instance stands (R328). -/
abbrev Stands (t : State) (src code inst : Nat) : Prop := (t.standing? src code inst).isSome = true

/-- The value of a counter field advanced by one, at its end if it is there. -/
def oneMore (s : State) (f : Fld) : Nat := min (s.get f + 1) (2 ^ f.width - 1)

/-- The end of the latest access shown is `c`. -/
abbrev endedWith (t : State) (c : Nat) : Prop := t.sent.head? = some (.ended c)

/-- The slot of phase `p` is over at a tick boundary and its timer runs (R147, R161). -/
abbrev slotOver (s : State) (p : Nat) : Prop :=
  (s.phase p).slotAt + s.getIn BAL_SLOT_SLOT_MS 10 1000 * ms ≤ s.now ∧ s.tick.open_ = true ∧ (s.phase p).frozenAt = none

/-- Engine `e` has gone on to its next instruction with its registers, the memories and the other accumulators as they were:
accumulator `a` holds `z` saturated to 40 bits, and its sticky flag is set when that changed `z` (R195). -/
abbrev AccNow (s t : State) (e a : Nat) (z : Int) : Prop :=
  (t.engine e).acc = vset (s.engine e).acc a (BitVec.ofInt 40 (satI 40 z)) ∧ (t.engine e).x = (s.engine e).x ∧
    (t.engine e).pc = (s.engine e).pc + 4 ∧ t.mem = s.mem ∧
    (t.engine e).yst = if satI 40 z = z then (s.engine e).yst else BitVec.ofNat 4 (setBitN (s.engine e).yst.toNat a)

/-- Engine `e` has gone on to its next instruction with its accumulators, the memories and its other registers as they were:
x`rd` holds `w`, but for x0, which discards it. -/
abbrev RegNow (s t : State) (e rd : Nat) (w : Word) : Prop :=
  t.xreg e rd = (if rd = 0 then 0 else w) ∧ (t.engine e).x = (if rd = 0 then (s.engine e).x else vset (s.engine e).x rd w) ∧
    (t.engine e).acc = (s.engine e).acc ∧ (t.engine e).yst = (s.engine e).yst ∧ (t.engine e).pc = (s.engine e).pc + 4 ∧
    t.mem = s.mem

/-- No engine has been asked for an instruction. -/
abbrev NoSteps (s : State) : Prop := ∀ n : Fin 16, (s.engine n).stepReq = false

/-- Engine `e` is halted, and no engine has been asked for an instruction (Table 8.10). -/
abbrev Halted (s : State) (e : Nat) : Prop :=
  s.flag (ENG_n_DBG_HALT e) = true ∧ s.get (ENG_n_STAT_STATE e) = 5 ∧ NoSteps s

/-- The program counter of engine `e` is at the word of its instruction memory that has the address `pa`. -/
abbrev CodeAt (s : State) (e : Fin 16) (pa : Nat) : Prop :=
  (s.engine e).pc.toNat % 4 = 0 ∧ locate (.engine e) (s.engine e).pc.toNat = some (.code e, pa) ∧
    s.accessCode (.engine e) (s.engine e).pc.toNat false = 0

/-- The message that engine `e` has staged, with the payload `v` (R200, Table 8.12). -/
abbrev outMsg (s : State) (e : Nat) (v : Word) : Msg :=
  { src := e, dst := s.get (ENG_n_MBX_TXHDR_DST e), tag := s.get (ENG_n_MBX_TXHDR_TAG e),
    rreq := s.flag (ENG_n_MBX_TXHDR_RREQ e), reply := s.flag (ENG_n_MBX_TXHDR_REPLY e),
    status := s.get (ENG_n_MBX_TXHDR_STATUS e), pay := v }

/-- A SOUND frame of the harbour that is followed, of no older round than the current one (R258). -/
abbrev Followed (s : State) (f : Frame) (typ : Nat) : Prop :=
  f.typ = typ ∧ isSound typ = true ∧ 12 ≤ f.payload.length ∧ leAt f.payload 2 2 = s.get FAB_TERM_TERM ∧
    leAt f.payload 4 8 = s.get64 FAB_HUID_LO ∧ newerRound (leAt f.payload 0 2) s.net.curRound = false

/-- A frame with this type and payload waits in the Control queue of Strait `n`. -/
abbrev Queues (t : State) (n typ : Nat) (pay : List Byte) : Prop :=
  ((vget (t.strait n).txq 2 []).any fun x => x.frame.typ == typ && x.frame.payload == pay) = true

/-- The state that a read of register `a` sees: the counters of the engines are up to date when they are read (R188). -/
abbrev Machine.State.seenAt (s : State) (a : Nat) : State := if 0x80000 ≤ a ∧ a < 0x90000 then s.syncAll else s

end Sys2Proof

open Sys2Proof Sys2Proof.Machine

/-- A step takes the command at the front of the queue and runs it with the queue's rest -/
def Obligations.StepRunsFrontCommand : Prop :=
  ∀ (s : State) (c : Instr) (rest : List Instr), s.pending = c :: rest →
    step s = exec c { s with pending := rest }

/-- With nothing waiting a step lets one microsecond pass; TICKs whose slot has come leave, nothing else changes (log entry 23) -/
def Obligations.IdleStepPassesTime : Prop :=
  ∀ s : State, s.pending = [] → ∃ t, step s = .next t ∧ t.now = s.now + us ∧ t.pending = [] ∧ t.regs = s.regs ∧
    t.mem = s.mem ∧ t.flash = s.flash ∧ t.eng = s.eng ∧ t.net = s.net ∧ t.psf = s.psf ∧ s.sent <:+ t.sent ∧
    ((∀ n : Fin 4, (s.strait n).tickOut = none) → t.sent = s.sent ∧ t.port = s.port) ∧
    (∀ (n : Fin 4) (d : Nat), (s.strait n).tickOut = some d → d ≤ s.now + us →
      .tick n ∈ t.sent ∧ (t.strait n).tickOut = none)

/-- After PD0 power-on reset every register reads its reset value, no memory is listed and nothing waits -/
def Obligations.ResetRegisters : Prop :=
  (∀ a : Nat, State.reset.rd a = resetWord a) ∧ State.reset.mem = [] ∧ State.reset.flash = [] ∧ State.reset.pending = [] ∧
    State.reset.get TMG_PERIOD_ACT_P = 1000 ∧ State.reset.get TMG_LEAD_LEAD_US = 10 ∧ State.reset.get TMG_OVR_CFG_MAX = 3 ∧
    State.reset.get MGT_MODE_STAT_MODE = 6 ∧ State.reset.get FAB_NET_STAT_ADDR = 0xFE

/-- The state after reset is in canonical form -/
def Obligations.ResetCanonical : Prop :=
  State.reset.Canon

/-- Every step keeps the register file, the memories and the flash in canonical form -/
def Obligations.StepKeepsCanonicalForm : Prop :=
  ∀ s t : State, s.Canon → step s = .next t → t.Canon

/-- No command puts a command into the queue or takes one out: each step takes exactly the front one -/
def Obligations.StepTakesOneCommand : Prop :=
  ∀ s t : State, step s = .next t → t.pending = s.pending.tail

/-- What the part has put out stays on record, and no free value is used twice -/
def Obligations.OutputsAreNeverTakenBack : Prop :=
  ∀ s t : State, step s = .next t → s.sent <:+ t.sent ∧ s.free ≤ t.free

/-- Every command of the table goes on to a next state in every state: none ends in a fault or a refusal -/
def Obligations.EveryCommandGoesOn : Prop :=
  ∀ (c : Instr) (s : State), ∃ t, exec c s = .next t

/-- TICK leaves the harbour on every Strait that is up, is forwarded 48 ns later from the upstream Strait on every other one, and is ignored elsewhere -/
def Obligations.TickSentAndCarried : Prop :=
  (∀ (s : State) (n : Fin 4), s.isHarbour = true → s.tick.running = true → s.tick.accepted = false →
    s.ft ≤ s.sampleAt (s.tickNo + 1) - s.lead → s.up n = true → (s.strait n).hazTill ≤ s.now →
    answers .tickOriginate s fun t => .tick n ∈ t.sent ∧ t.tick.accepted = true) ∧
  (∀ (s : State) (p n : Fin 4) (stamp : Nat), s.Canon → s.up p = true → s.isHarbour = false →
    s.flag FAB_POS_UPV = true → s.get TMG_STAT_UPSTREAM = p → n ≠ p → s.up n = true → (s.strait n).hazTill ≤ s.now →
    answers (.tickAccept p stamp) s fun t => (t.strait n).tickOut = some (t.now + 768) ∧ t.net.heardAt = t.now) ∧
  (∀ (s : State) (n : Fin 4) (d x : Nat), (s.strait n).tickOut = some d → d ≤ x → s.now < x →
    .tick n ∈ (s.reach x).sent ∧ ((s.reach x).strait n).tickOut = none ∧ (s.reach x).now = x) ∧
  (∀ (s : State) (p : Fin 4) (stamp : Nat), s.Canon → s.up p = true →
    (s.isHarbour = true ∨ s.flag FAB_POS_UPV = false ∨ s.get TMG_STAT_UPSTREAM ≠ p) →
    answers (.tickAccept p stamp) s fun t =>
    (∀ n : Fin 4, (t.strait n).tickOut = none ∨ (t.strait n).tickOut = (s.strait n).tickOut) ∧
    (∀ n : Fin 4, (s.strait n).tickOut = none → .tick n ∈ t.sent → .tick n ∈ s.sent) ∧
    t.rdN (FAB_PORTn_CNTm p 15) = min (s.rdN (FAB_PORTn_CNTm p 15) + 1) (2 ^ 32 - 1))

/-- A TICK missing while LOCKED or in HOLDOVER leads to HOLDOVER and counts the held tick; at HOLD_MAX the fault is raised -/
def Obligations.TickHeldOver : Prop :=
  (∀ (s : State), s.Canon → s.tick.running = true → s.isHarbour = false → s.tick.accepted = false →
    (s.get TMG_STAT_STATE = 2 ∨ s.get TMG_STAT_STATE = 3) → s.sampling = true →
    answers .tickMissing s fun t => t.get TMG_STAT_STATE = 3 ∧ t.get TMG_HOLD_CNT_RUN = oneMore s TMG_HOLD_CNT_RUN ∧
    t.get TMG_HOLD_CNT_TOTAL = oneMore s TMG_HOLD_CNT_TOTAL ∧ t.tick.accepted = true) ∧
  (∀ (s : State), s.Canon → s.collectorOn = true → s.get TMG_STAT_STATE = 3 → s.tick.exceeded = false →
    max 1 (s.get TMG_SERVO_HOLD_MAX) ≤ s.get TMG_HOLD_CNT_RUN →
    answers .holdoverExceeded s fun t => Stands t 1 0x12 (s.get TMG_STAT_UPSTREAM) ∧ t.tick.exceeded = true ∧
    t.get TMG_STAT_INCOH = 1)

/-- A time exchange: one request outstanding per Strait, a stamped reply, the delay of the four stamps, and exchanges that fail -/
def Obligations.TimeExchange : Prop :=
  (∀ (s : State) (p : Fin 4), s.up p = true → (s.strait p).out = none → (s.isHarbour = false ∨ s.role p = 0) →
    answers (.timexRequestSend p) s fun t =>
    t.sent.head? = some (.timexReq p (timexRequestBytes ((s.strait p).txSeq % 256))) ∧
    (t.strait p).out = some ((s.strait p).txSeq % 256, t.ft)) ∧
  (∀ (s : State) (p : Fin 4) (seq : Byte) (turn : Fin 32001), s.Canon → s.up p = true →
    answers (.timexRequest p seq (~~~seq) turn) s fun t =>
    ∃ r : TimexReply, t.sent.head? = some (.timexReply p (timexReplyBytes r)) ∧ r.seq = seq ∧ r.t2 = s.ft ∧
    r.t3 = t.ft ∧ r.tick = s.tickNo ∧ r.period = s.period ∧ r.harbour = s.isHarbour) ∧
  (∀ (s : State) (p : Fin 4) (seq nseq : Byte) (turn : Fin 32001), s.up p = true → nseq ≠ ~~~seq →
    answers (.timexRequest p seq nseq turn) s fun t => t.sent = s.sent ∧ t.now = s.now) ∧
  (∀ (s : State) (p : Fin 4) (l : List Byte) (t1 t4 : Nat), s.Canon → s.up p = true →
    (s.strait p).out = some ((parseReply l).seq.toNat, t1) → (parseReply l).crcOk = true → t4 ≤ t1 + 10 * us →
    (s.strait p).exchanges < 63 → s.isHarbour = false → s.net.listenTill = none → s.flag FAB_POS_UPV = false →
    answers (.timexReply p l t4) s fun t => (t.strait p).out = none ∧
    (t.strait p).exchanges = (s.strait p).exchanges + 1 ∧
    (t.strait p).dlys = (rdivI (((t4 : Int) - t1) - (((parseReply l).t3 : Int) - (parseReply l).t2)) 2 - toI 32 (s.rdN (TMG_PORTn_ASYM p))) :: (s.strait p).dlys) ∧
  (∀ (s : State) (p : Fin 4) (l : List Byte) (n t1 t4 : Nat), s.Canon → s.up p = true →
    (s.strait p).out = some (n, t1) →
    ((parseReply l).crcOk = false ∨ (parseReply l).seq.toNat ≠ n ∨ t1 + 10 * us < t4) →
    answers (.timexReply p l t4) s fun t => (t.strait p).out = none ∧
    t.get (TMG_PORTn_XCNT_DISC p) = oneMore s (TMG_PORTn_XCNT_DISC p) ∧ (t.strait p).dlys = (s.strait p).dlys ∧
    t.get (TMG_PORTn_DLY_D p) = s.get (TMG_PORTn_DLY_D p)) ∧
  (∀ (s : State) (p : Fin 4) (l : List Byte) (t1 t4 : Nat), s.Canon → s.up p = true →
    (s.strait p).out = some ((parseReply l).seq.toNat, t1) → (parseReply l).crcOk = true → t4 ≤ t1 + 10 * us →
    64 ≤ (s.strait p).exchanges →
    32 < (rdivI (((t4 : Int) - t1) - (((parseReply l).t3 : Int) - (parseReply l).t2)) 2 - toI 32 (s.rdN (TMG_PORTn_ASYM p)) - meanDelay ((s.strait p).dlys.take 16)).natAbs →
    answers (.timexReply p l t4) s fun t => (t.strait p).out = none ∧
    t.get (TMG_PORTn_XCNT_DISC p) = oneMore s (TMG_PORTn_XCNT_DISC p) ∧ (t.strait p).dlys = (s.strait p).dlys ∧
    t.get (TMG_PORTn_DLY_D p) = s.get (TMG_PORTn_DLY_D p)) ∧
  (∀ (s : State) (p : Fin 4) (n t1 : Nat), s.Canon → (s.strait p).out = some (n, t1) →
    answers (.timexReplyTimeout p) s fun t => (t.strait p).out = none ∧
    t.get (TMG_PORTn_XCNT_DISC p) = oneMore s (TMG_PORTn_XCNT_DISC p))

/-- A sample instant begins tick k + 1 at S(k + 1) and triggers its engines; the bank switch publishes the results when all have posted, or at its deadline -/
def Obligations.SampleInstantAndBankSwitch : Prop :=
  (∀ (s : State) (x : StrobeSample) (n i : Fin 8), s.Canon → s.meas.burst = none → s.sampling = true →
    (s.tick.running = true → s.gathered < s.nb) →
    answers (.baseRateStrobe x) s fun t => t.meas.hist.head?.map (·.1) = some x ∧
    (t.engine n).yspw = (s.engine n).yspw + 1 ∧
    t.memLE (samplePort n + 4 * (64 * i + ((s.engine n).yspw + 1).toNat % 64)) 4 = (BitVec.ofInt 32 (portWord x n i)).toNat ∧
    s.now ≤ t.now) ∧
  (∀ (s : State) (x : StrobeSample) (n i : Fin 8) (k : Nat), s.Canon → s.meas.burst = some k → k < 64 →
    answers (.baseRateStrobe x) s fun t => t.meas.hist.head?.map (·.1) = some x ∧
    (t.engine n).yspw = (s.engine n).yspw + 1 ∧
    t.memLE (samplePort n + 4 * (64 * i + ((s.engine n).yspw + 1).toNat % 64)) 4 = (BitVec.ofInt 32 (portWord x n i)).toNat ∧
    t.meas.burst = some (k + 1) ∧ t.now = s.now + 125 * us / 4) ∧
  (∀ (s : State), s.Canon → s.tick.running = true → s.sampling = true →
    answers .sampleInstant s fun t => t.tickNo = (s.tickNo + 1) % 2 ^ 64 ∧ t.tick.open_ = true ∧
    t.tick.accepted = false ∧ t.tick.trig = s.flag TMG_CTRL_EN ∧
    (s.tick.slew = 0 → s.mgt.retAt = none → t.ft = max s.ft (s.sampleAt (s.tickNo + 1)))) ∧
  (∀ (s : State) (e : Fin 16), s.Canon → s.tick.running = true → s.sampling = true → s.flag TMG_CTRL_EN = true →
    s.active = true → s.get (ENG_n_CTRL_TRIG e) = 0 → s.get (ENG_n_STAT_STATE e) = 0 → (s.engine e).update = none →
    answers .sampleInstant s fun t => t.get (ENG_n_STAT_STATE e) = 1 ∧ (t.engine e).pc = s.rd (ENG_n_ENTRY e) ∧
    t.rdN (ENG_n_TICKSEQ e) = (s.tickNo + 1) % 2 ^ 32) ∧
  (∀ (s : State) (c : Fin 32), s.Canon → s.tick.open_ = true → s.unposted = 0 → s.sampling = true →
    answers .bankSwitch s fun t => t.tick.open_ = false ∧ t.tick.lateNext = false ∧
    t.rdN CMF_BANK_TAG = (s.rdN CMF_BANK_TAG + 1) % 2 ^ 32 ∧
    t.rd (CMF_CELLn_V c) = (s.bankAux.publishCell false c).rd (CMF_CELLn_V c)) ∧
  (∀ (s : State) (e : Fin 16), s.Canon → s.tick.open_ = true → s.unposted = 0 → s.sampling = true →
    s.tick.trig = true → s.active = true → s.get (ENG_n_CTRL_TRIG e) = 1 → s.get (ENG_n_STAT_STATE e) = 0 →
    answers .bankSwitch s fun t => t.get (ENG_n_STAT_STATE e) = 1 ∧ (t.engine e).pc = s.rd (ENG_n_ENTRY e)) ∧
  (∀ (s : State) (c : Fin 32), s.Canon → s.tick.open_ = true → s.unposted ≠ 0 → s.sampling = true →
    answers .bankSwitchDeadline s fun t => t.tick.open_ = false ∧
    t.rdN CMF_BANK_TAG = (s.rdN CMF_BANK_TAG + 1) % 2 ^ 32 ∧
    (bitOf s.unposted (c / 4) = true → t.rd (CMF_CELLn_V c) = s.rd (CMF_CELLn_V c) ∧ t.flag (CMF_CELLn_FLAG_LATE c) = true ∧ t.flag (CMF_CELLn_FLAG_VALID c) = false) ∧
    (s.tick.slew = 0 → s.mgt.retAt = none → t.ft = max s.ft (s.sampleAt s.tickNo + s.getIn TMG_BANK_DL_DL 1 6 * s.periodT / 8))) ∧
  (∀ (s : State), s.Canon → s.tick.open_ = true → s.unposted ≠ 0 → s.sampling = true → s.tick.trig = true →
    s.collectorOn = true →
    answers .bankSwitchDeadline s fun t => t.get TMG_STAT_LATE = 1 ∧
    Stands t 1 0x10 (((bitsOf 8 s.unposted).head?).getD 0))

/-- An overrun is counted, reported and its work abandoned, at the limit the engine restarts; a period switch takes the new period; tick events complete -/
def Obligations.OverrunsAndPeriodSwitch : Prop :=
  (∀ (s : State) (e : Fin 16), s.Canon → s.collectorOn = true → (s.engine e).overrunDue = true →
    s.engFenced e = false → s.tick.trig = true →
    answers (.engineOverrun e) s fun t => t.get (TMG_ENGn_OVR_N e) = oneMore s (TMG_ENGn_OVR_N e) ∧
    t.get (ENG_n_STAT_OVR e) = 1 ∧ t.get TMG_STAT_LATE = 1 ∧ Stands t 1 0x11 e ∧ (t.engine e).overrunDue = false ∧
    (s.shadowOver 1 = none → (t.engine e).ovrRun = (s.engine e).ovrRun + 1 ∧ t.get (TMG_ENGn_OVR_RUN e) = min ((s.engine e).ovrRun + 1) 15)) ∧
  (∀ (s : State) (e : Fin 16), s.Canon → (s.engine e).overrunDue = true → s.running e = true →
    (s.engine e).ytk.toNat ≠ s.tickNo →
    answers (.engineOverrun e) s fun t => (t.engine e).staged = [] ∧ (t.engine e).task = none ∧
    (t.engine e).overrunDue = false ∧
    (s.triggered e = true → s.get (ENG_n_CTRL_TRIG e) = 0 → t.get (ENG_n_STAT_STATE e) = 1 ∧ (t.engine e).pc = s.rd (ENG_n_ENTRY e)) ∧
    (s.triggered e = false ∨ s.get (ENG_n_CTRL_TRIG e) ≠ 0 → t.get (ENG_n_STAT_STATE e) = 0)) ∧
  (∀ (s : State) (e : Fin 16), s.Canon → (s.engine e).overrunDue = true → s.engFenced e = false →
    s.tick.trig = false →
    answers (.engineOverrun e) s fun t => (t.engine e).overrunDue = false ∧
    (t.engine e).ovrRun = (s.engine e).ovrRun ∧ t.get (TMG_ENGn_OVR_N e) = s.get (TMG_ENGn_OVR_N e)) ∧
  (∀ (s : State) (e : Fin 16), s.Canon → s.getIn TMG_OVR_CFG_MAX 1 15 ≤ (s.engine e).ovrRun → s.engFenced e = false →
    (s.engine e).restarts = [] →
    answers (.overrunLimit e) s fun t => t.engFenced e = true ∧
    (t.get (ENG_n_STAT_STATE e) = 4 ∨ t.get (ENG_n_STAT_STATE e) = 3 ∧ t.get (ENG_n_LMEM_CRCOK e) = 0) ∧
    (t.engine e).restartAt = some s.now ∧ (t.engine e).ovrRun = 0 ∧ t.get (TMG_ENGn_OVR_RUN e) = 0 ∧
    t.get (ENG_n_RSTCNT_N e) = oneMore s (ENG_n_RSTCNT_N e) ∧ t.get (ENG_n_RSTCNT_CAUSE e) = 1) ∧
  (∀ (s : State) (i : Initiator) (v : Word), s.Canon → Granted s i TMG_CTRL → Unsealed s TMG_CTRL_EN →
    v.getLsbD 1 = false →
    answers (.tmgEnable i v) s fun t => t.get TMG_CTRL_EN = v.toNat % 2 ∧ endedWith t 0) ∧
  (∀ (s : State) (i : Initiator) (v : Word), s.Canon → Granted s i TMG_CTRL → s.isHarbour = false →
    answers (.forceAcq i v) s fun t => t.get TMG_STAT_STATE = 1 ∧ t.tick.running = false ∧ endedWith t 0) ∧
  (∀ (s : State) (k p : Nat), s.Canon → s.tick.pchg = some (k, p) → p < 2 ^ 20 → s.imp.run = none →
    s.calRuns = false →
    answers .periodSwitch s fun t => t.tick.pchg = none ∧ t.period = p ∧
    t.get TMG_STAT_NB = nbOf p % 2 ^ TMG_STAT_NB.width ∧ t.get TMG_STAT_PCHG_PEND = 0) ∧
  (∀ (s : State), s.Canon → s.tick.running = true → s.sampling = true →
    answers .sampleInstant s fun t => t.tickNo = (s.tickNo + 1) % 2 ^ 64) ∧
  (∀ (s : State), s.Canon → s.tick.open_ = true → s.unposted = 0 → s.sampling = true →
    answers .bankSwitch s fun t => t.tick.open_ = false ∧ t.rdN CMF_BANK_TAG = (s.rdN CMF_BANK_TAG + 1) % 2 ^ 32) ∧
  (∀ (s : State), s.Canon → s.tick.open_ = true → s.unposted ≠ 0 → s.sampling = true →
    answers .bankSwitchDeadline s fun t => t.tick.open_ = false ∧
    t.rdN CMF_BANK_TAG = (s.rdN CMF_BANK_TAG + 1) % 2 ^ 32) ∧
  (∀ (s : State) (x : StrobeSample), s.Canon → s.meas.burst = none → s.sampling = true → s.tick.running = false →
    answers (.baseRateStrobe x) s fun t => t.meas.hist.head?.map (·.1) = some x)

/-- VALID of a published cell result is 1 exactly when it is a fresh measurement and none of eight flags is set -/
def Obligations.CellResultValidExactlyWhenFreshAndUnflagged : Prop :=
  ∀ (s : State) (late : Bool) (c : Fin 32), s.Canon →
    let t := s.publishCell late c
    (t.flag (CMF_CELLn_FLAG_VALID c) = true ↔ (s.filtered c).isSome = true ∧
      ∀ j ∈ [1, 2, 3, 4, 5, 6, 7, 15], bitOf (t.rdN (CMF_CELLn_FLAG c)) j = false)

/-- Unused-channel, modulator and path-disagreement faults of the cell front end stand and set their flags -/
def Obligations.CellPathFaults : Prop :=
  (∀ (s : State) (c : Fin 32), s.Canon → s.collectorOn = true → s.cellsN ≤ c → 8 ≤ vget s.meas.unBad c 0 →
    bitOf s.meas.unused c = false →
    answers (.unusedChannelNotShorted c) s fun t => Stands t 2 0x13 c ∧ bitOf t.meas.unused c = true ∧
    t.get (CMF_CELLn_FLAG_RANGE c) = 1) ∧
  (∀ (s : State) (c : Fin 34), s.collectorOn = true → (s.chan c).modHold = true →
    answers (.modulatorFault c) s fun t => Stands t (modFault c).1 (modFault c).2.1 (modFault c).2.2) ∧
  (∀ (s : State) (c : Fin 32), s.Canon → s.collectorOn = true → 8 ≤ vget s.meas.disBad c 0 →
    bitOf s.meas.dis c = false →
    answers (.pathDisagreement c) s fun t => Stands t 2 0x12 c ∧ bitOf t.meas.dis c = true ∧
    t.get (CMF_CELLn_FLAG_DISAGREE c) = 1)

/-- CMF_CTRL.EN is taken, but cleared only in SERVICE; forced conditions act on channel SEL; coulomb presets are pending until the next bank switch -/
def Obligations.MeasurementControlWrites : Prop :=
  (∀ (s : State) (i : Initiator) (v : Word), s.Canon → Granted s i CMF_CTRL → Unsealed s CMF_CTRL_EN →
    answers (.cmfEnable i v) s fun t => (v.getLsbD 0 = true ∨ s.mode = 4 ∨ s.get CMF_CTRL_EN = 0 → endedWith t 0) ∧
    t.get CMF_CTRL_EN = (if v.getLsbD 0 = true ∨ s.mode = 4 then v.toNat % 2 else s.get CMF_CTRL_EN)) ∧
  (∀ (s : State) (i : Initiator) (v : Word), Granted s i CMF_TEST →
    answers (.forceMod i v) s fun t => endedWith t 0 ∧ ∀ x : Int, ((t.chan (v.toNat % 32)).take x false).forced = 32) ∧
  (∀ (c : ChanSt) (x : Int), 0 < c.forced → c.forceNext = false →
    (c.take x false).modNow = true ∧ (c.take x false).run = c.run + 1 ∧ (c.take x false).forced = c.forced - 1) ∧
  (∀ (s : State) (i : Initiator) (v : Word), Granted s i CMF_TEST →
    answers (.forceOw i v) s fun t => endedWith t 0 ∧ t.meas.ow.force.contains (v.toNat % 32) = true) ∧
  (∀ (s : State) (i : Initiator) (v : Word), s.Canon → Granted s i CSI_QCTRL →
    answers (.qaccLoad i v) s fun t => t.meas.cur.load = true ∧ t.get CSI_QSTAT_LOAD_PEND = 1 ∧ endedWith t 0) ∧
  (∀ (s : State) (i : Initiator) (v : Word), s.Canon → Granted s i CSI_QCTRL →
    answers (.qaccClr1 i v) s fun t => t.meas.cur.clr1 = true ∧ t.get CSI_QSTAT_LOAD_PEND = 1 ∧ endedWith t 0)

/-- An open-wire step tests every used tap t with t mod 4 = j and names the next step; its end judges and counts the step -/
def Obligations.OpenWireRotation : Prop :=
  (∀ (s : State), s.Canon → s.owMode = true → s.flag CMF_CTRL_EN = true → s.flag CMF_CTRL_OW_EN = true →
    s.tick.open_ = true → s.meas.ow.on = false → s.meas.ow.due.getD s.now ≤ s.now → s.meas.ow.next < 4 →
    answers .openWireStep s fun t => t.meas.ow.on = true ∧ t.meas.ow.a = s.tickNo ∧ t.meas.ow.step = s.meas.ow.next ∧
    t.meas.ow.next = (s.meas.ow.next + 1) % 4 ∧ t.get CMF_STAT_OW_STEP = s.meas.ow.next ∧
    (∀ k ∈ t.meas.ow.taps, k ≤ s.cellsN ∧ k % 4 = s.meas.ow.next)) ∧
  (∀ (s : State), s.Canon → s.meas.ow.on = true → s.meas.ow.ended = false →
    s.meas.ow.a + s.meas.ow.dwell ≤ s.tickNo → s.owMode = true → s.meas.ow.step < 4 →
    answers .openWireDwellEnd s fun t => t.meas.ow.ended = true ∧ t.get CMF_OW_STAT_STEP = s.meas.ow.step) ∧
  (∀ (s : State) (k : Fin 33), s.meas.ow.on = true → s.meas.ow.ended = false →
    s.meas.ow.a + s.meas.ow.dwell ≤ s.tickNo → s.owMode = true → s.meas.ow.taps = [k.val] →
    (s.meas.ow.force.contains k.val = true ∨ (s.tapChannels k).any (fun c => decide (s.meas.ow.thr < (s.owDelta c).natAbs)) = true) →
    answers .openWireDwellEnd s fun t => vget t.meas.ow.fails k 0 = vget s.meas.ow.fails k 0 + 1 ∧
    vget t.meas.ow.passes k 0 = 0) ∧
  (∀ (s : State) (k : Fin 33), s.meas.ow.on = true → s.meas.ow.ended = false →
    s.meas.ow.a + s.meas.ow.dwell ≤ s.tickNo → s.owMode = true → s.meas.ow.taps = [k.val] →
    s.meas.ow.force.contains k.val = false →
    ((s.tapChannels k).all (fun c => decide ((s.owDelta c).natAbs ≤ s.meas.ow.thr)) = true) →
    answers .openWireDwellEnd s fun t => vget t.meas.ow.passes k 0 = vget s.meas.ow.passes k 0 + 1 ∧
    vget t.meas.ow.fails k 0 = 0) ∧
  (∀ (s : State) (k : Fin 33), s.Canon → s.collectorOn = true → s.meas.ow.on = true → s.meas.ow.ended = false →
    s.meas.ow.a + s.meas.ow.dwell ≤ s.tickNo → s.owMode = true → s.meas.ow.taps = [k.val] →
    s.meas.ow.force.contains k.val = true → s.getIn CMF_OW_CFG_CONF 1 15 ≤ vget s.meas.ow.fails k 0 + 1 →
    s.tapOpen k = false →
    answers .openWireDwellEnd s fun t => t.tapOpen k = true ∧ Stands t 2 0x11 k)

/-- A comparator that qualifies raises off-demand source 0 or 1, the last one that releases withdraws it; a failed self-test is a PSF fault -/
def Obligations.DiverseComparators : Prop :=
  (∀ (s : State) (c : Fin 32) (ov : Bool), s.Canon → s.pairOn c = true → s.flag (dcQ ov c) = false →
    s.dcTesting c = false →
    answers (.dcQualify c ov) s fun t => t.flag (dcQ ov c) = true ∧ t.demand (if ov then 0 else 1) = true) ∧
  (∀ (s : State) (c : Fin 32) (ov : Bool), s.Canon → s.flag (dcQ ov c) = true → s.dcTesting c = false →
    answers (.dcRelease c ov) s fun t => t.flag (dcQ ov c) = false) ∧
  (∀ (s : State) (c : Fin 32) (ov : Bool), s.Canon → s.flag (dcQ ov c) = true → s.dcTesting c = false →
    (∀ d : Fin 32, d ≠ c → s.flag (dcQ ov d) = false) →
    answers (.dcRelease c ov) s fun t => t.demand (if ov then 0 else 1) = false) ∧
  (∀ (s : State) (c : Fin 32) (ov uv : Bool), s.Canon → s.collectorOn = true → s.flag PSF_CTRL_DCST_EN = true →
    c < s.cellsN → s.mode ≠ 0 →
    answers (.dcSelfTest c ov uv) s fun t => t.get PSF_DCST_STAT_CH = c ∧ t.dcTesting c = true ∧
    t.now = max s.now (s.dcstDue c) ∧ t.get (PSF_DCn_STAT_STFAIL c) = b2n (!(ov && uv)) ∧
    ((ov && uv) = false → Stands t 6 0x10 c))

/-- No valid current raises a fault and source 7; disagreement and a bias block are judged; the zero window follows its comparator -/
def Obligations.CurrentPathFaults : Prop :=
  (∀ (s : State), s.Canon → s.collectorOn = true → 8 ≤ s.meas.cur.noValid → s.meas.cur.noValidOn = false →
    answers .noValidCurrent s fun t => Stands t 3 0x10 0 ∧ (s.shadowOver 3 = none → t.demand 7 = true) ∧
    t.meas.cur.noValidOn = true) ∧
  (∀ (s : State), s.Canon → s.collectorOn = true → s.getIn CSI_DIV_CFG_CNT 1 15 ≤ s.meas.cur.disRun →
    s.meas.cur.dis = false → s.flag CSI_CTRL_NO_CS1 = false →
    answers .currentPathDisagreement s fun t => Stands t 3 0x11 0 ∧ t.meas.cur.dis = true ∧
    t.flag (CSI_CSn_FLAG_DISAGREE 0) = true ∧ t.flag (CSI_CSn_FLAG_DISAGREE 1) = true) ∧
  (∀ (s : State), s.Canon → s.collectorOn = true → 1024 ≤ s.meas.cur.blockN → s.flag CSI_CTRL_NO_CS1 = false →
    answers .diversityBiasBlock s fun t => t.meas.cur.blockN = 0 ∧ t.meas.cur.blockSum = 0 ∧
    (t.meas.cur.bias = true ↔ (s.get CSI_DIV_CFG_ABS : Int) * 25 * 10 ^ 9 * s.meas.cur.blockN < s.meas.cur.blockSum.natAbs) ∧
    t.getI CSI_DIV_STAT_MEAN = satI 24 (rdivI (rdivI s.meas.cur.blockSum s.meas.cur.blockN) 100000000) ∧
    (t.meas.cur.bias = true → Stands t 3 0x11 0 ∧ t.get CSI_DIV_STAT_BIAS = 1)) ∧
  (∀ (s : State) (inside : Bool), s.Canon → s.mode ≠ 0 →
    answers (.zeroWindowChange inside) s fun t => t.get CSI_STAT_ZW = b2n inside)

/-- A short circuit latches its trip and raises source 6; the trip is cleared only once the comparator is quiet; a failed self-test is a fault -/
def Obligations.ShortCircuitComparator : Prop :=
  (∀ (s : State) (neg : Bool), s.Canon → s.mode ≠ 0 →
    answers (.shortCircuit neg) s fun t => t.get PSF_SC_STAT_TRIP = 1 ∧ t.get PSF_SC_STAT_QUIET = 0 ∧
    t.get CSI_STAT_SC_ACT = 1 ∧ t.get PSF_SC_STAT_POL = b2n neg ∧ t.demand 6 = true) ∧
  (∀ (s : State), s.Canon →
    answers .scQuiet s fun t => t.get PSF_SC_STAT_QUIET = 1 ∧ t.get CSI_STAT_SC_ACT = 0) ∧
  (∀ (s : State) (i : Initiator) (v : Word), s.Canon → Granted s i PSF_SC_STAT → s.privileged i = true →
    s.flag PSF_SC_STAT_TRIP = true → s.flag PSF_SC_STAT_QUIET = true →
    answers (.scTripClear i v) s fun t => t.get PSF_SC_STAT_TRIP = 0 ∧ t.demand 6 = false ∧ endedWith t 0) ∧
  (∀ (s : State) (i : Initiator) (v : Word), Granted s i PSF_SC_STAT → s.privileged i = true →
    s.flag PSF_SC_STAT_QUIET = false →
    answers (.scTripClear i v) s fun t => t.regs = s.regs ∧ endedWith t 0) ∧
  (∀ (s : State) (trips : Bool), s.Canon → s.collectorOn = true → s.flag PSF_CTRL_SCST_EN = true → s.mode ≠ 0 →
    answers (.scSelfTest trips) s fun t => t.get PSF_SCST_STAT_PASS = b2n trips ∧
    t.now = max s.now ((s.psf.scstAt.map (· + 60 * sec)).getD s.now) ∧
    (trips = false → Stands t 6 0x11 0 ∧ t.get PSF_SCST_STAT_FAIL = oneMore s PSF_SCST_STAT_FAIL))

/-- A sweep that is due or commanded starts with the next sequence number at the tick boundary, a barred one reports its code, STOP ends and records a sweep -/
def Obligations.SweepsStart : Prop :=
  (∀ (s : State), s.get CSI_IMP_SCHED_FULL_MIN ≠ 0 → s.flag CSI_IMP_CTRL_EN = true → s.sweepBar = none →
    s.imp.run = none →
    answers .fullSweepDue s fun t => t.imp.started = (s.imp.started + 1) % 2 ^ 32 ∧
    (s.tick.slew = 0 → s.mgt.retAt = none → t.ft = s.nextDue (s.get CSI_IMP_SCHED_FULL_MIN * 60 * sec))) ∧
  (∀ (s : State) (b : Fin 24), s.Canon → s.get CSI_IMP_SCHED_FULL_MIN ≠ 0 → s.flag CSI_IMP_CTRL_EN = true →
    s.sweepBar = none → s.imp.run = none → s.binOn b = true → (s.binSrc b = 1 ∨ s.binSrc b = 2) →
    answers .fullSweepDue s fun t =>
    t.imp.run.map (fun r => (r.kind, r.seq, r.inWindow)) = some (0, (s.imp.started + 1) % 2 ^ 32, false) ∧
    t.get CSI_IMP_STAT_BUSY = 1 ∧ t.get CSI_IMP_STAT_KIND = 0) ∧
  (∀ (s : State) (c : Nat), s.Canon → s.get CSI_IMP_SCHED_FULL_MIN ≠ 0 → s.flag CSI_IMP_CTRL_EN = true →
    s.sweepBar = some c →
    answers .fullSweepDue s fun t => t.get CSI_IMP_ABORT_CODE = c ∧ t.imp.started = s.imp.started ∧
    t.get CSI_IMP_ABORT_N = oneMore s CSI_IMP_ABORT_N) ∧
  (∀ (s : State) (b : Fin 24), s.Canon → s.get CSI_IMP_SCHED_TEMP_S ≠ 0 → s.flag CSI_IMP_CTRL_EN = true →
    s.tempBin = some b.val → s.sweepBar = none → s.imp.run = none →
    answers .tempPassDue s fun t => t.imp.started = (s.imp.started + 1) % 2 ^ 32 ∧
    (s.tick.slew = 0 → s.mgt.retAt = none → t.ft = s.nextDue (s.get CSI_IMP_SCHED_TEMP_S * sec)) ∧
    (s.binSrc b = 1 ∨ s.binSrc b = 2 → t.imp.run.map (fun r => (r.kind, r.bins, r.inWindow)) = some (1, [b.val], false) ∧ t.get CSI_IMP_STAT_BUSY = 1 ∧ t.get CSI_IMP_STAT_KIND = 1)) ∧
  (∀ (s : State) (b : Fin 24) (r : SweepRun), s.Canon → s.get CSI_IMP_SCHED_TEMP_S ≠ 0 →
    s.flag CSI_IMP_CTRL_EN = true → s.tempBin = some b.val → s.sweepBar = none → s.imp.run = some r → r.kind = 0 →
    (r.binInfo b).state ≠ 0 →
    answers .tempPassDue s fun t => t.get CSI_IMP_STAT_TPEND = 1 ∧ t.imp.run = s.imp.run) ∧
  (∀ (s : State) (c : Nat), s.Canon → s.get CSI_IMP_SCHED_TEMP_S ≠ 0 → s.flag CSI_IMP_CTRL_EN = true →
    s.tempBin.isSome = true → s.sweepBar = some c →
    answers .tempPassDue s fun t => t.get CSI_IMP_ABORT_CODE = c ∧ t.imp.started = s.imp.started) ∧
  (∀ (s : State) (i : Initiator) (v : Word), s.Canon → Granted s i CSI_IMP_CTRL → (s.mode = 2 ∨ s.mode = 4) →
    answers (.impStart i v) s fun t => t.imp.startReq = true ∧ endedWith t 0) ∧
  (∀ (s : State) (i : Initiator) (v : Word), s.Canon → Granted s i CSI_IMP_CTRL → (s.mode = 2 ∨ s.mode = 4) →
    answers (.impTstart i v) s fun t => t.imp.tstartReq = true ∧ endedWith t 0) ∧
  (∀ (s : State) (b : Fin 24), s.Canon → s.flag CSI_IMP_CTRL_EN = true → s.sweepBar = none → s.imp.run = none →
    s.binOn b = true → (s.binSrc b = 1 ∨ s.binSrc b = 2) → s.imp.startReq = true → s.imp.tstartReq = false →
    s.sweepRequests.imp.run.map (fun r => (r.kind, r.seq, r.kStart)) = some (0, (s.imp.started + 1) % 2 ^ 32, s.tickNo) ∧
    s.sweepRequests.imp.startReq = false) ∧
  (∀ (s : State) (b : Fin 24), s.Canon → s.flag CSI_IMP_CTRL_EN = true → s.sweepBar = none → s.imp.run = none →
    s.tempBin = some b.val → (s.binSrc b = 1 ∨ s.binSrc b = 2) → s.imp.startReq = false → s.imp.tstartReq = true →
    s.sweepRequests.imp.run.map (fun r => (r.kind, r.bins, r.kStart)) = some (1, [b.val], s.tickNo) ∧
    s.sweepRequests.imp.tstartReq = false) ∧
  (∀ (s : State) (i : Initiator) (v : Word), Granted s i CSI_IMP_CTRL →
    answers (.impStop i v) s fun t => t.imp.run = none ∧ endedWith t 0) ∧
  (∀ (s : State) (i : Initiator) (v : Word) (r : SweepRun), s.Canon → Granted s i CSI_IMP_CTRL → s.imp.run = some r →
    s.imp.outer = none → r.stage < 8 →
    answers (.impStop i v) s fun t => (t.get CSI_IMP_ABORT_CODE = 1 ∨ t.get CSI_IMP_ABORT_CODE = 6) ∧
    t.get CSI_IMP_ABORT_STAGE = r.stage ∧ t.get CSI_IMP_STAT_BUSY = 0 ∧
    t.get CSI_IMP_ABORT_N = oneMore s CSI_IMP_ABORT_N) ∧
  (∀ (s : State) (i : Initiator) (v : Word), s.Canon → Granted s i CSI_IMP_CTRL →
    answers (.impTrelrn i v) s fun t => t.imp.offset = Vector.replicate 32 0 ∧ t.imp.count = Vector.replicate 32 0 ∧
    t.rdN CSI_IMP_TLRN = 0 ∧ endedWith t 0)

/-- A sweep window starts at its tick with its bins and length, its end yields results and the next window or the record, and a limit removes excitation -/
def Obligations.SweepWindows : Prop :=
  (∀ (s : State) (r : SweepRun), s.imp.run = some r → r.inWindow = false → s.tick.open_ = true →
    (s.chan 0).acc.n = 0 → r.settleK + s.getIn CSI_IMP_CTRL_SETTLE 2 255 ≤ s.tickNo → s.windowWaits r = false →
    answers .sweepWindowStart s fun t =>
    t.imp.run.map (fun q => (q.inWindow, q.winK, q.nw, q.n)) = some (true, s.tickNo, s.stageLen r.bins, 0) ∧
    t.imp.run.map (fun q => q.acc.map fun a => (a.bin, a.count)) = some ((s.windowBins r).map fun b => (b, s.ownCount r b)) ∧
    t.imp.run.map (·.winAt) = some (s.sampleAt s.tickNo + s.periodT / s.nb)) ∧
  (∀ (s : State) (r : SweepRun), s.imp.run = some r → s.imp.outer = none → r.inWindow = true → r.nw ≤ r.n →
    (r.settleK < s.tickNo ∨ r.settleK = s.tickNo ∧ s.tick.open_ = false) →
    answers .sweepWindowEnd s fun t => (t.imp.run.map (·.inWindow)).getD false = false) ∧
  (∀ (s : State) (r : SweepRun) (a : BinAcc), s.Canon → s.imp.run = some r → s.imp.outer = none → r.inWindow = true →
    r.nw ≤ r.n → (r.settleK < s.tickNo ∨ r.settleK = s.tickNo ∧ s.tick.open_ = false) → r.passive = true →
    r.acc = [a] → r.bins = [a.bin] → a.bin < 24 → s.binSrc a.bin = 1 → (r.binInfo a.bin).complete = false →
    r.tries + 1 < s.getIn CSI_IMP_PASV_TRIES 1 15 →
    reaches (s.moduleSum a).1 (s.moduleSum a).2 r.nw (response a.count r.nw) (s.get CSI_IMP_PASV_THR) = false →
    answers .sweepWindowEnd s fun t =>
    t.imp.run.map (fun q => (q.inWindow, q.passive, q.win, q.tries, q.settleK)) = some (false, true, r.win + 1, r.tries + 1, r.settleK) ∧
    t.get CSI_IMP_PCNT_NACC = oneMore s CSI_IMP_PCNT_NACC ∧ t.get CSI_IMP_PCNT_ACC = s.get CSI_IMP_PCNT_ACC) ∧
  (∀ (s : State) (r : SweepRun) (a : BinAcc) (b : Fin 24) (c : Fin 32) (z : Int × Int), s.Canon →
    s.imp.run = some r → s.imp.outer = none → r.kind = 0 → r.inWindow = true → r.nw ≤ r.n →
    (r.settleK < s.tickNo ∨ r.settleK = s.tickNo ∧ s.tick.open_ = false) → r.passive = true → r.acc = [a] →
    r.bins = [a.bin] → a.bin < 24 → s.binSrc a.bin = 1 →
    reaches (s.moduleSum a).1 (s.moduleSum a).2 r.nw (response a.count r.nw) (s.get CSI_IMP_PASV_THR) = true →
    s.flag CSI_IMP_STAT_TPEND = false → s.binOn b = true → s.binSrc b = 1 →
    r.stage < s.get (CSI_IMP_BINb_CFG_STAGE b) → (r.binInfo b).complete = false → b.val ≠ a.bin → c.val < s.cellsN →
    r.quality c false &&& 0x3E = 0 → s.impedance a c true = some z →
    answers .sweepWindowEnd s fun t =>
    t.imp.run.map (fun q => (q.inWindow, q.win, decide (r.stage < q.stage))) = some (false, 0, true) ∧
    t.imp.run.map (fun q => resFor q.res c a.bin) = some { key := 24 * c + a.bin, re := satI 32 z.1, im := satI 32 z.2, q := r.quality c false + 1 } ∧
    t.get CSI_IMP_PCNT_ACC = oneMore s CSI_IMP_PCNT_ACC) ∧
  (∀ (s : State) (r : SweepRun) (a : BinAcc) (p : Fin 8) (z : Int × Int), s.Canon → s.imp.run = some r →
    s.imp.outer = none → r.inWindow = true → r.nw ≤ r.n →
    (r.settleK < s.tickNo ∨ r.settleK = s.tickNo ∧ s.tick.open_ = false) → r.passive = false → r.acc = [a] →
    a.bin < 24 → r.phases.contains p.val = true → r.pos < 4 → s.passiveBins r = [] → s.activeBins r ≠ [] →
    r.tries ≤ r.win → s.phaseGroup (s.activeBins r) ((r.win + 1 - r.tries) / 4) ≠ [] → 4 * p.val + r.pos < s.cellsN →
    reaches (s.cellSum a (4 * p + r.pos) false).1 (s.cellSum a (4 * p + r.pos) false).2 r.nw (response a.count r.nw) (s.get CSI_IMP_EXC_IMIN) = true →
    r.quality (4 * p + r.pos) false &&& 0x3E = 0 → s.impedance a (4 * p + r.pos) false = some z →
    answers .sweepWindowEnd s fun t =>
    t.imp.run.map (fun q => (q.inWindow, q.passive, q.win, q.phases, q.pos)) = some (false, false, r.win + 1, s.phaseGroup (s.activeBins r) ((r.win + 1 - r.tries) / 4), (r.win + 1 - r.tries) % 4) ∧
    t.imp.run.map (fun q => resFor q.res (4 * p + r.pos) a.bin) = some { key := 24 * (4 * p + r.pos) + a.bin, re := satI 32 z.1, im := satI 32 z.2, q := r.quality (4 * p + r.pos) false + 1 }) ∧
  (∀ (s : State) (r : SweepRun) (a : BinAcc), s.Canon → s.imp.run = some r → s.imp.outer = none → r.inWindow = true →
    r.nw ≤ r.n → (r.settleK < s.tickNo ∨ r.settleK = s.tickNo ∧ s.tick.open_ = false) → r.passive = true →
    r.acc = [a] → r.bins = [a.bin] → a.bin < 24 → s.binSrc a.bin = 1 →
    reaches (s.moduleSum a).1 (s.moduleSum a).2 r.nw (response a.count r.nw) (s.get CSI_IMP_PASV_THR) = true →
    s.flag CSI_IMP_STAT_TPEND = false → (∀ st : Fin 8, r.stage < st.val → s.runBins r.kind st = []) →
    answers .sweepWindowEnd s fun t => t.imp.run = none ∧ t.get CSI_IMP_STAT_BUSY = 0 ∧
    (t.get CSI_IMP_ABORT_CODE = 0 ∧ t.rdN CSI_IMP_SEQ = r.seq % 2 ^ 32 ∧ t.get CSI_IMP_RING_WPTR = (s.get CSI_IMP_RING_WPTR + 1) % 2 ^ min (s.get CSI_IMP_RING_DEPTH) 11 ∨ t.get CSI_IMP_ABORT_CODE = 6)) ∧
  (∀ (s : State) (r : SweepRun) (p : Fin 8), s.Canon → s.imp.run = some r → r.carries p = true → s.excited p = true →
    s.sumClips r.drive p ≠ 0 →
    answers (.excitationRemoval p) s fun t => bitOf ((t.imp.run.map (·.removed)).getD 0) p = true ∧
    bitOf ((t.imp.run.map (·.exc)).getD 0) (4 * p + r.pos) = true ∧
    t.get CSI_IMP_CLIP_REM = oneMore s CSI_IMP_CLIP_REM)

/-- A selector change ends with the new cell connected or with a fenced phase; scans, slots and the group bus are judged the same way -/
def Obligations.FerrySelectors : Prop :=
  (∀ (s : State) (p : Fin 8) (lo hi : BitVec 16) (j : Fin 4) (t0 : Nat), s.Canon →
    (s.phase p).change = some (j.val, t0) → lo.toNat < 300 →
    ((hi.toNat : Int) * 1000 - (s.cellBal (4 * p + j)).lastV).natAbs ≤ 150000 → s.ferryOn p = true →
    s.ratioOk p = true → s.flag (BAL_PHp_STAT_FENCED p) = false → (s.phase p).testBleed = none →
    answers (.selectorBreakEnd p lo hi) s fun t => (t.phase p).sel = some j.val ∧ (t.phase p).change = none ∧
    t.get (BAL_CELLc_STAT_SEL (4 * p + j)) = 1 ∧ t.get (BAL_PHp_STAT_POS p) = j ∧
    t.get (BAL_PHp_VGB_V p) = hi.toNat % 2 ^ (BAL_PHp_VGB_V p).width ∧
    (t.phase p).slotAt = (if (s.phase p).keepSlot then (s.phase p).slotAt else t0)) ∧
  (∀ (s : State) (p : Fin 8) (lo hi : BitVec 16) (j : Fin 4) (t0 : Nat), s.Canon →
    (s.phase p).change = some (j.val, t0) → lo.toNat < 300 →
    ((hi.toNat : Int) * 1000 - (s.cellBal (4 * p + j)).lastV).natAbs ≤ 150000 → s.ferryOn p = true →
    s.flag (BAL_PHp_STAT_FENCED p) = false → (s.phase p).testBleed.isSome = true →
    answers (.selectorBreakEnd p lo hi) s fun t => (t.phase p).sel = some j.val ∧ (t.phase p).change = none ∧
    t.get (BAL_CELLc_STAT_SEL (4 * p + j)) = 1 ∧ t.get (BAL_CELLc_STAT_BLEED (4 * p + j)) = 1) ∧
  (∀ (s : State) (p : Fin 8) (lo hi : BitVec 16) (j : Fin 4) (t0 : Nat), s.Canon → s.collectorOn = true →
    (s.phase p).change = some (j.val, t0) →
    (300 ≤ lo.toNat ∨ 150000 < ((hi.toNat : Int) * 1000 - (s.cellBal (4 * p + j)).lastV).natAbs) →
    answers (.selectorBreakEnd p lo hi) s fun t => Stands t 5 0x10 p ∧ t.flag (BAL_PHp_STAT_FENCED p) = true ∧
    bitOf (t.rdN (BAL_PHp_FAULT p)) 0 = true ∧ t.get (BAL_PHp_ACT_I_ACT p) = 0 ∧ (t.phase p).newCmd = none ∧
    t.get (BAL_PHp_STAT_STATE p) = 5 ∧ (t.phase p).sel = none ∧ (t.phase p).change = none) ∧
  (∀ (s : State) (p : Fin 8) (j t0 : Nat), s.Canon → s.collectorOn = true → (s.phase p).change = some (j, t0) →
    answers (.groupBusNotDischarged p) s fun t => Stands t 5 0x11 p ∧ t.flag (BAL_PHp_STAT_FENCED p) = true ∧
    bitOf (t.rdN (BAL_PHp_FAULT p)) 1 = true ∧ t.get (BAL_PHp_ACT_I_ACT p) = 0 ∧ (t.phase p).newCmd = none ∧
    t.get (BAL_PHp_STAT_STATE p) = 5 ∧ (t.phase p).sel = none ∧ (t.phase p).change = none ∧
    t.get (BAL_PHp_VGB_STEP p) = 3 ∧ t0 + 310 * us ≤ t.now) ∧
  (∀ (s : State) (p : Fin 8) (bus : Vector (BitVec 16) 8), s.Canon →
    ((s.phase p).scanReq = true ∨ s.scanDue p = true) → s.ferryOn p = true → s.flag (BAL_PHp_STAT_FENCED p) = false →
    ((bus.toList.all fun v => decide (v.toNat < 300)) = true) →
    answers (.selectorScan p bus) s fun t => (t.phase p).scanReq = false ∧ (t.phase p).lastScan = s.now ∧
    t.get (BAL_PHp_SELCNT_SCAN p) = oneMore s (BAL_PHp_SELCNT_SCAN p) ∧
    (∀ j : Fin 4, (s.phase p).change = none → (s.phase p).sel = some j.val → (t.phase p).change = some (j.val, s.now) ∧ (t.phase p).keepSlot = true)) ∧
  (∀ (s : State) (p : Fin 8) (bus : Vector (BitVec 16) 8), s.Canon → s.collectorOn = true →
    ((s.phase p).scanReq = true ∨ s.scanDue p = true) → s.ferryOn p = true → s.flag (BAL_PHp_STAT_FENCED p) = false →
    ((bus.toList.any fun v => decide (300 ≤ v.toNat)) = true) →
    answers (.selectorScan p bus) s fun t => Stands t 5 0x12 p ∧ t.flag (BAL_PHp_STAT_FENCED p) = true ∧
    bitOf (t.rdN (BAL_PHp_FAULT p)) 2 = true ∧ t.get (BAL_PHp_ACT_I_ACT p) = 0 ∧ (t.phase p).newCmd = none ∧
    t.get (BAL_PHp_STAT_STATE p) = 5 ∧ (t.phase p).sel = none ∧ (t.phase p).change = none) ∧
  (∀ (s : State) (p : Fin 8) (j k : Nat), slotOver s p → (s.phase p).testBleed = none →
    s.get (BAL_PHp_STAT_STATE p) ≠ 4 → (s.phase p).sel = some j → s.phMode p = 1 → s.ferryOn p = true →
    s.flag (BAL_PHp_STAT_FENCED p) = false →
    (nextPos (fun m => s.bit (BAL_PHp_CFG_RRMASK p) m && s.eligible (4 * p + m) (m == j)) j = some k) →
    answers (.slotEnd p) s fun t =>
    (if k = j then (t.phase p).sel = some j ∧ (t.phase p).slotAt = s.now else (t.phase p).sel = none ∧ (t.phase p).change = some (k, s.now) ∧ (t.phase p).keepSlot = false)) ∧
  (∀ (s : State) (p : Fin 8) (j : Nat), s.Canon → slotOver s p → (s.phase p).testBleed = none →
    s.get (BAL_PHp_STAT_STATE p) ≠ 4 → (s.phase p).sel = some j → s.phMode p = 1 → s.ferryOn p = true →
    s.flag (BAL_PHp_STAT_FENCED p) = false →
    (nextPos (fun m => s.bit (BAL_PHp_CFG_RRMASK p) m && s.eligible (4 * p + m) (m == j)) j = none) →
    answers (.slotEnd p) s fun t => (t.phase p).sel = none ∧ (t.phase p).change = none ∧
    t.get (BAL_PHp_STAT_STATE p) = 0) ∧
  (∀ (s : State) (p : Fin 8) (k : Fin 4), s.Canon → slotOver s p → (s.phase p).testBleed = none →
    s.get (BAL_PHp_STAT_STATE p) = 4 → s.fallbackOk p = true →
    (nextPos (fun j => s.bit (BAL_PHp_CFG_RRMASK p) j && s.bleedable (4 * p + j)) ((s.phase p).sel.getD 3) = some k.val) →
    answers (.slotEnd p) s fun t =>
    (if (s.phase p).sel = some k.val then (t.phase p).sel = some k.val else (t.phase p).sel = none ∧ (t.phase p).change = some (k.val, s.now)) ∧
    (t.phase p).slotAt = s.now) ∧
  (∀ (s : State) (p : Fin 8), slotOver s p → (s.phase p).testBleed.isSome = true →
    answers (.slotEnd p) s fun t => (t.phase p).testBleed = none ∧ (t.phase p).sel = none)

/-- Targets and phase commands wait for the tick boundary, an engine's are staged, a fenced phase answers FENCED; expiry and EN at 0 stop the current -/
def Obligations.FerryCommands : Prop :=
  (∀ (s : State) (c : Fin 32) (i : Initiator) (v : Word), (∀ n, i ≠ .engine n) → s.Canon →
    Granted s i (BAL_CELLc_TGT c) →
    answers (.balTargetWrite c i v) s fun t => (t.cellBal c).newTgt = some (toI 32 v.toNat) ∧
    t.rd (BAL_CELLc_TGT c) = v ∧ endedWith t 0) ∧
  (∀ (s : State) (c : Fin 32) (n : Fin 16) (v : Word), s.accessCode (.engine n) (BAL_CELLc_TGT c) true = 0 →
    (s.engine n).staged.length < 128 →
    answers (.balTargetWrite c (.engine n) v) s fun t =>
    (t.engine n).staged = (s.engine n).staged ++ [(BAL_CELLc_TGT c, v)] ∧ t.bal = s.bal) ∧
  (∀ (s : State) (c : Fin 32), (s.phase (c / 4)).sel = some (c.val % 4) →
    answers (.targetDone c) s fun t => (t.phase (c / 4)).sum = 0 ∧
    (t.cellBal c).rem = remAfter (s.cellBal c).rem (rdivI ((s.phase (c / 4)).sum * s.period) (s.nb * 10000))) ∧
  (∀ (s : State) (c : Fin 32), s.Canon → (s.phase (c / 4)).sel = some (c.val % 4) → (s.cellBal c).rem ≠ 0 →
    remAfter (s.cellBal c).rem (rdivI ((s.phase (c / 4)).sum * s.period) (s.nb * 10000)) = 0 →
    answers (.targetDone c) s fun t => t.get (BAL_CELLc_STAT_DONE c) = 1 ∧
    (s.bleeding (c / 4) = false → t.get (BAL_PHp_ACT_I_ACT (c.val / 4)) = 0)) ∧
  (∀ (s : State) (p : Fin 8) (n : Fin 16) (v : Word), s.accessCode (.engine n) (BAL_PHp_CMD p) true = 0 →
    (s.engine n).staged.length < 128 →
    answers (.phaseCommandWrite p (.engine n) v) s fun t =>
    (t.engine n).staged = (s.engine n).staged ++ [(BAL_PHp_CMD p, v)] ∧ t.bal = s.bal) ∧
  (∀ (s : State) (p : Fin 8) (i : Initiator) (v : Word), (∀ n, i ≠ .engine n) → s.Canon →
    Granted s i (BAL_PHp_CMD p) → s.mode = 4 → s.flag (BAL_PHp_STAT_FENCED p) = false →
    answers (.phaseCommandWrite p i v) s fun t =>
    (t.phase p).newCmd = some (v.toNat % 512, t.get (BAL_PHp_CMD_MODE p), t.get (BAL_PHp_CMD_CELL p)) ∧
    t.get (BAL_PHp_CMD_I_SET p) = min (v.toNat % 512) 300 ∧ endedWith t 0) ∧
  (∀ (s : State) (p : Fin 8) (i : Initiator) (v : Word), (∀ n, i ≠ .engine n) →
    s.accessCode i (BAL_PHp_CMD p) true = 0 → s.mode ≠ 4 →
    answers (.phaseCommandWrite p i v) s fun t => t.bal = s.bal) ∧
  (∀ (s : State) (p : Fin 8) (i : Initiator) (v : Word), (∀ n, i ≠ .engine n) →
    s.accessCode i (BAL_PHp_CMD p) true = 0 → s.flag (BAL_PHp_STAT_FENCED p) = true →
    answers (.phaseCommandWrite p i v) s fun t => t.bal = s.bal ∧ t.regs = s.regs ∧ endedWith t 1) ∧
  (∀ (s : State) (p : Fin 8), s.Canon → 2 ≤ (s.phase p).age → (s.phase p).testBleed = none →
    ((s.phase p).change = none ∨ s.ferryOn p = true) →
    answers (.commandExpiry p) s fun t => t.get (BAL_PHp_ACT_I_ACT p) = 0) ∧
  (∀ (s : State) (i : Initiator) (v : Word), s.Canon → Granted s i BAL_CTRL → Unsealed s BAL_CTRL_EN →
    answers (.balEnable i v) s fun t => t.get BAL_CTRL_EN = v.toNat % 2 ∧
    (v.toNat % 2 = 0 → ∀ p : Fin 8, (s.phase p).change = none → t.get (BAL_PHp_ACT_I_ACT p) = 0 ∧ (s.flag (BAL_PHp_STAT_FENCED p) = false → (t.phase p).sel = none ∧ t.get (BAL_PHp_STAT_STATE p) = 6)) ∧
    endedWith t 0) ∧
  (∀ (s : State) (p : Fin 8), s.Canon → s.bal.validAt + 100 * ms ≤ s.now → s.get (BAL_PHp_STAT_STATE p) = 4 →
    answers .fallbackStop s fun t => t.get (BAL_PHp_STAT_STATE p) = 5 ∧ (t.phase p).sel = none) ∧
  (∀ (s : State) (p : Fin 8) (i : Initiator) (v : Word), Granted s i (BAL_PHp_TEST p) →
    answers (.phaseTestScan p i v) s fun t => (t.phase p).testScan = some s.tickNo ∧ endedWith t 0) ∧
  (∀ (s : State) (p : Fin 8) (i : Initiator) (v : Word), s.Canon → Granted s i (BAL_PHp_TEST p) →
    answers (.phaseTestBleed p i v) s fun t =>
    (t.phase p).testBleed = (if s.get (BAL_PHp_STAT_STATE p) = 0 then some s.now else (s.phase p).testBleed) ∧
    (s.get (BAL_PHp_STAT_STATE p) = 0 → (t.phase p).change = some (t.get (BAL_PHp_TEST_POS p), s.now) ∧ (t.phase p).sel = none) ∧
    endedWith t 0)

/-- Each phase fault fences its phase and stands; overcurrent and failed command transfers only from the third tick on -/
def Obligations.FerryPhaseFaults : Prop :=
  (∀ (s : State) (p : Fin 8) (d : Fin 66), s.Canon → s.collectorOn = true → driveOf p d = true →
    answers (.gateReadback p d) s fun t => Stands t 5 0x13 p ∧ t.flag (BAL_PHp_STAT_FENCED p) = true ∧
    bitOf (t.rdN (BAL_PHp_FAULT p)) 3 = true ∧ t.get (BAL_PHp_ACT_I_ACT p) = 0 ∧ (t.phase p).newCmd = none ∧
    t.get (BAL_PHp_FAULT_DRIVE p) = d) ∧
  (∀ (s : State) (p : Fin 8), s.Canon → s.get (BAL_PHp_STAT_STATE p) = 2 → (s.phase p).overRun + 1 < 3 →
    (s.phase p).testBleed = none → ((s.phase p).change = none ∨ s.ferryOn p = true) →
    answers (.primaryOvercurrent p) s fun t => (t.phase p).overNow = true ∧
    (t.phase p).overRun = (s.phase p).overRun + 1 ∧ t.get (BAL_PHp_ACT_I_ACT p) = 0) ∧
  (∀ (s : State) (p : Fin 8), s.Canon → s.collectorOn = true → s.get (BAL_PHp_STAT_STATE p) = 2 →
    3 ≤ (s.phase p).overRun + 1 →
    answers (.primaryOvercurrent p) s fun t => Stands t 5 0x14 p ∧ t.flag (BAL_PHp_STAT_FENCED p) = true ∧
    bitOf (t.rdN (BAL_PHp_FAULT p)) 4 = true ∧ t.get (BAL_PHp_ACT_I_ACT p) = 0 ∧ (t.phase p).newCmd = none) ∧
  (∀ (s : State) (p : Fin 8), s.Canon → s.collectorOn = true → 8 ≤ (s.phase p).lowRun →
    answers (.noSecondaryConduction p) s fun t => Stands t 5 0x15 p ∧ t.flag (BAL_PHp_STAT_FENCED p) = true ∧
    bitOf (t.rdN (BAL_PHp_FAULT p)) 5 = true ∧ t.get (BAL_PHp_ACT_I_ACT p) = 0 ∧ (t.phase p).newCmd = none) ∧
  (∀ (s : State) (p : Fin 8), s.flag (BAL_PHp_STAT_FENCED p) = false → (s.phase p).xferNow = false →
    (s.phase p).xferRun + 1 < 3 →
    answers (.commandTransfer p) s fun t => (t.phase p).newCmd = none ∧ (t.phase p).xferNow = true ∧
    (t.phase p).xferRun = (s.phase p).xferRun + 1) ∧
  (∀ (s : State) (p : Fin 8), s.flag (BAL_PHp_STAT_FENCED p) = false → (s.phase p).xferNow = true →
    (s.phase p).xferRun < 3 →
    answers (.commandTransfer p) s fun t => (t.phase p).newCmd = none ∧ (t.phase p).xferRun = (s.phase p).xferRun) ∧
  (∀ (s : State) (p : Fin 8), s.Canon → s.collectorOn = true → s.flag (BAL_PHp_STAT_FENCED p) = false →
    (s.phase p).xferNow = false → 3 ≤ (s.phase p).xferRun + 1 →
    answers (.commandTransfer p) s fun t => Stands t 5 0x16 p ∧ t.flag (BAL_PHp_STAT_FENCED p) = true ∧
    bitOf (t.rdN (BAL_PHp_FAULT p)) 6 = true ∧ t.get (BAL_PHp_ACT_I_ACT p) = 0 ∧ (t.phase p).newCmd = none)

/-- A scan starts when it is due and runs 4 ms; its end takes the reference, and a reference out of range is a fault -/
def Obligations.AuxiliaryScans : Prop :=
  (∀ (s : State), s.auxRuns = true → s.aux.scan = none →
    answers .auxScanStart s fun t => t.now = max s.now s.aux.due ∧ t.aux.scan = some t.now ∧
    t.aux.due = t.now + s.getIn AUX_SCAN_PER_MS 4 1000 * ms) ∧
  (∀ (s : State) (r : ScanResult) (t0 : Nat), s.collectorOn = true → s.aux.scan = some t0 →
    answers (.auxScanComplete r) s fun t => t.aux.scan = none ∧ t.now = max s.now (t0 + 4 * ms) ∧
    t.aux.auxref = r.auxref.toNat ∧ (∀ i : Fin 16, (t.inp i).raw = (vget r.code i 0).toNat) ∧
    (r.auxref.toNat < 28500 ∨ 31500 < r.auxref.toNat → Stands t 4 0x10 0))

/-- The target level follows the hottest die against T1 to T3; grace expiry enforces it; the level steps down by one, and is raised at once by ENF and FLOOR -/
def Obligations.ThermalThrottle : Prop :=
  (∀ (s : State) (td : Vector DieReading 4), s.Canon → s.mode ≠ 0 → s.mode ≠ 6 →
    answers (.throttleEvaluation td) s fun t => t.now = max s.now (s.aux.evalAt + ms) ∧
    t.get AUX_THR_STAT_LT = (if t.thrT 3 ≤ t.hottest.1 then 3 else if t.thrT 2 ≤ t.hottest.1 then 2 else if t.thrT 1 ≤ t.hottest.1 then 1 else 0) ∧
    t.get AUX_THR_STAT_HOT = t.hottest.2) ∧
  (∀ (s : State) (td : Vector DieReading 4), s.Canon → s.mode ≠ 0 → s.mode ≠ 6 → s.aux.grace = none →
    s.throttle = 0 →
    answers (.throttleEvaluation td) s fun t => t.hottest.1 < 1550 ∧
    1 ≤ t.targetLevel → t.aux.grace = some (t.now + s.getIn AUX_THR_TIME_GRACE 1 100 * 100 * ms) ∧
    t.get AUX_THR_CNT_REQ = oneMore s AUX_THR_CNT_REQ) ∧
  (∀ (s : State) (td : Vector DieReading 4), s.Canon → s.mode ≠ 0 → s.mode ≠ 6 → s.aux.grace = none →
    s.throttle = 0 →
    answers (.throttleEvaluation td) s fun t =>
    ((List.range 6).any fun d => (t.die d).plaus && decide ((1550 : Int) ≤ (t.die d).val)) = true → t.throttle = 3 ∧
    t.aux.grace = none) ∧
  (∀ (s : State) (e : Nat), s.Canon → s.aux.grace = some e →
    answers .throttleGraceExpiry s fun t => t.aux.grace = none ∧ t.throttle = s.targetLevel ∧ t.now = max s.now e ∧
    t.get AUX_THR_STAT_GRACE_RUN = 0) ∧
  (∀ (s : State) (b : Nat), s.Canon → s.aux.below = some b → s.aux.sfail = [] →
    s.get AUX_THR_CTRL_FLOOR < s.throttle →
    answers .throttleStepDown s fun t => t.throttle = s.throttle - 1 ∧
    t.now = max s.now (b + s.getIn AUX_THR_TIME_REL 1 100 * 100 * ms)) ∧
  (∀ (s : State) (i : Initiator) (v : Word), s.Canon → Granted s i AUX_THR_CTRL →
    answers (.throttleEnforce i v) s fun t =>
    t.throttle = max (max s.throttle (t.get AUX_THR_CTRL_FLOOR)) s.targetLevel ∧ t.targetLevel = s.targetLevel ∧
    t.aux.grace = none ∧ endedWith t 0) ∧
  (∀ (s : State) (i : Initiator) (v : Word), s.Canon → Granted s i AUX_THR_CTRL → Unsealed s AUX_THR_CTRL_FLOOR →
    answers (.throttleFloor i v) s fun t => t.get AUX_THR_CTRL_FLOOR = v.toNat % 4 ∧
    (v.getLsbD 2 = false → t.throttle = max s.throttle (v.toNat % 4)) ∧ v.toNat % 4 ≤ t.throttle ∧ endedWith t 0)

/-- Thermal shutdown takes the off-demand, is recorded by PD0 and turns every domain but PD0 off; release starts the part again after 5 s -/
def Obligations.ThermalShutdown : Prop :=
  (∀ (s : State) (d : Fin 6), s.Canon → s.aux.shutAt = none → s.tripActs d = true →
    answers (.thermalShutdown d) s fun t => t.aux.shutAt = some (s.now + 20 * us) ∧ t.get AUX_SHDN_LAST = d ∧
    t.get AUX_SHDN_CNT = oneMore s AUX_SHDN_CNT ∧ t.demand 12 = true ∧ t.get MGT_PD0_FATAL_VALID = 1 ∧
    t.get MGT_PD0_FATAL_SRC = 14 ∧ t.get MGT_PD0_FATAL_CODE = 0x10 ∧ t.now = s.now + 20 * us) ∧
  (∀ (s : State) (d : Fin 6), s.Canon → s.aux.shutAt = none → s.tripActs d = true → s.flashWrites = false →
    s.mgt.resetDue = [] →
    answers (.thermalShutdown d) s fun t => t.get MGT_PWR_STAT_ON = 1 ∧ t.flash = s.flash) ∧
  (∀ (s : State) (d : Fin 6) (x : Nat), s.Canon → s.aux.shutAt = some x → s.tripActs d = true →
    answers (.thermalShutdown d) s fun t => t.aux.shutAt = some x ∧ t.get (AUX_TDd_FLAG_TRIP d) = 1 ∧
    t.get AUX_SHDN_LAST = d) ∧
  (∀ (s : State) (t0 : Nat), s.Canon → s.aux.shutAt = some t0 → s.logicOn = false → s.mgt.rstLow = none →
    answers .thermalShutdownRelease s fun t => t.aux.shutAt = none ∧ t.mgt.bootAt = max s.now (t0 + 5 * sec) ∧
    t.mgt.bootFor = 150 ∧ t.get MGT_RST_CAUSE_THERM = 1 ∧ t.demand 12 = false)

/-- The MAC and accumulator instructions of Table 8.3 give the named accumulator its exact sum, saturated to 40 bits, and change nothing else of the engine -/
def Obligations.MacInstructions : Prop :=
  (∀ (s : State) (e : Fin 16) (rd rs1 rs2 : Fin 32), s.running e = true → rd < 4 →
    answers (.ydMac2 e rd rs1 rs2) s fun t =>
    AccNow s t e rd (s.accOf e rd + (loH (s.xreg e rs1) * loH (s.xreg e rs2) + hiH (s.xreg e rs1) * hiH (s.xreg e rs2)))) ∧
  (∀ (s : State) (e : Fin 16) (rd rs1 rs2 : Fin 32), s.running e = true → rd < 4 →
    answers (.ydMsu2 e rd rs1 rs2) s fun t =>
    AccNow s t e rd (s.accOf e rd - (loH (s.xreg e rs1) * loH (s.xreg e rs2) + hiH (s.xreg e rs1) * hiH (s.xreg e rs2)))) ∧
  (∀ (s : State) (e : Fin 16) (rd rs1 rs2 : Fin 32), s.running e = true → rd < 4 →
    answers (.ydMcr e rd rs1 rs2) s fun t =>
    AccNow s t e rd (s.accOf e rd + (loH (s.xreg e rs1) * loH (s.xreg e rs2) - hiH (s.xreg e rs1) * hiH (s.xreg e rs2)))) ∧
  (∀ (s : State) (e : Fin 16) (rd rs1 rs2 : Fin 32), s.running e = true → rd < 4 →
    answers (.ydMci e rd rs1 rs2) s fun t =>
    AccNow s t e rd (s.accOf e rd + (loH (s.xreg e rs1) * hiH (s.xreg e rs2) + hiH (s.xreg e rs1) * loH (s.xreg e rs2)))) ∧
  (∀ (s : State) (e : Fin 16) (rd rs1 rs2 : Fin 32), s.running e = true → rd < 4 →
    answers (.ydMac1 e rd rs1 rs2) s fun t =>
    AccNow s t e rd (s.accOf e rd + toI 24 (s.xreg e rs1).toNat * toI 18 (s.xreg e rs2).toNat / 256)) ∧
  (∀ (s : State) (e : Fin 16) (rd rs1 rs2 : Fin 32), s.running e = true → rd < 4 →
    answers (.ydAccw e rd rs1 rs2) s fun t =>
    AccNow s t e rd (toI 8 (s.xreg e rs2).toNat * 2 ^ 32 + (s.xreg e rs1).toNat)) ∧
  (∀ (s : State) (e : Fin 16) (rd rs1 rs2 : Fin 32), s.running e = true → rd < 4 →
    answers (.ydAccz e rd rs1 rs2) s fun t => AccNow s t e rd (0))

/-- The instructions of Table 8.3 that write a register give rd its value, x0 discards it, and nothing else of the engine changes -/
def Obligations.AccumulatorReadsAndPacking : Prop :=
  (∀ (s : State) (e : Fin 16) (rd rs1 rs2 : Fin 32), s.running e = true → rs1 < 4 →
    answers (.ydAccrl e rd rs1 rs2) s fun t => RegNow s t e rd (BitVec.ofInt 32 (s.accOf e rs1))) ∧
  (∀ (s : State) (e : Fin 16) (rd rs1 rs2 : Fin 32), s.running e = true → rs1 < 4 →
    answers (.ydAccrh e rd rs1 rs2) s fun t => RegNow s t e rd (BitVec.ofInt 32 (s.accOf e rs1 / 2 ^ 32))) ∧
  (∀ (s : State) (e : Fin 16) (rd rs1 rs2 : Fin 32), s.running e = true → rs1 < 4 →
    answers (.ydAccrs e rd rs1 rs2) s fun t =>
    RegNow s t e rd (BitVec.ofInt 32 (satI 32 (roundAway (s.accOf e rs1) (2 ^ min ((s.xreg e rs2).toNat % 64) 39))))) ∧
  (∀ (s : State) (e : Fin 16) (rd rs1 rs2 : Fin 32), s.running e = true →
    answers (.ydPks e rd rs1 rs2) s fun t =>
    RegNow s t e rd (BitVec.ofNat 32 (ofI 16 (satI 16 (s.xreg e rs1).toInt) + ofI 16 (satI 16 (s.xreg e rs2).toInt) * 65536))) ∧
  (∀ (s : State) (e : Fin 16) (rd rs1 rs2 : Fin 32), s.running e = true →
    answers (.ydUpkl e rd rs1 rs2) s fun t => RegNow s t e rd (BitVec.ofInt 32 (loH (s.xreg e rs1)))) ∧
  (∀ (s : State) (e : Fin 16) (rd rs1 rs2 : Fin 32), s.running e = true →
    answers (.ydUpkh e rd rs1 rs2) s fun t => RegNow s t e rd (BitVec.ofInt 32 (hiH (s.xreg e rs1)))) ∧
  (∀ (s : State) (e : Fin 16) (rd rs1 : Fin 32) (imm : BitVec 12), s.running e = true → 1 ≤ imm.toNat →
    imm.toNat < 32 →
    answers (.ydSat e rd rs1 imm) s fun t =>
    RegNow s t e rd (BitVec.ofInt 32 (satI (imm.toNat + 1) (s.xreg e rs1).toInt)))

/-- A DFT step turns the pair of accumulators by its two twiddles, yd.dfta steps the phase, a write of an extension CSR takes the bits it has -/
def Obligations.DftStepsAndExtensionState : Prop :=
  (∀ (s : State) (e : Fin 16) (rd rs1 rs2 : Fin 32), s.running e = true → s.dftLegal e rd rs2 = true →
    answers (.ydDft e rd rs1 rs2) s fun t =>
    (t.engine e).acc = vset (vset (s.engine e).acc rd (BitVec.ofInt 40 (satI 40 (s.accOf e rd + roundAway (toI 24 (s.xreg e rs1).toNat * (twiddles (s.engine e).yr.toNat (s.engine e).yn.toNat).1) 32768)))) (rd + 1) (BitVec.ofInt 40 (satI 40 (s.accOf e (rd + 1) - roundAway (toI 24 (s.xreg e rs1).toNat * (twiddles (s.engine e).yr.toNat (s.engine e).yn.toNat).2) 32768))) ∧
    (t.engine e).x = (s.engine e).x ∧ (t.engine e).pc = (s.engine e).pc + 4 ∧ t.mem = s.mem ∧
    (t.engine e).yr = (s.engine e).yr) ∧
  (∀ (s : State) (e : Fin 16) (rd rs1 rs2 : Fin 32), s.running e = true → s.dftLegal e rd rs2 = true →
    answers (.ydDfta e rd rs1 rs2) s fun t =>
    (t.engine e).acc = vset (vset (s.engine e).acc rd (BitVec.ofInt 40 (satI 40 (s.accOf e rd + roundAway (toI 24 (s.xreg e rs1).toNat * (twiddles (s.engine e).yr.toNat (s.engine e).yn.toNat).1) 32768)))) (rd + 1) (BitVec.ofInt 40 (satI 40 (s.accOf e (rd + 1) - roundAway (toI 24 (s.xreg e rs1).toNat * (twiddles (s.engine e).yr.toNat (s.engine e).yn.toNat).2) 32768))) ∧
    (t.engine e).x = (s.engine e).x ∧ (t.engine e).pc = (s.engine e).pc + 4 ∧ t.mem = s.mem ∧
    (t.engine e).yr = BitVec.ofNat 24 (((s.engine e).yr.toNat + (s.engine e).ym.toNat) % (s.engine e).yn.toNat)) ∧
  (∀ (s : State) (e : Fin 16) (v : Word), s.running e = true →
    answers (.extensionCsrWrite e .yr v) s fun t => (t.engine e).yr = v.setWidth 24 ∧
    (t.engine e).pc = (s.engine e).pc + 4) ∧
  (∀ (s : State) (e : Fin 16) (v : Word), s.running e = true →
    answers (.extensionCsrWrite e .yn v) s fun t => (t.engine e).yn = v.setWidth 25 ∧
    (t.engine e).pc = (s.engine e).pc + 4) ∧
  (∀ (s : State) (e : Fin 16) (v : Word), s.running e = true →
    answers (.extensionCsrWrite e .ym v) s fun t => (t.engine e).ym = v.setWidth 24 ∧
    (t.engine e).pc = (s.engine e).pc + 4) ∧
  (∀ (s : State) (e : Fin 16) (v : Word), s.running e = true →
    answers (.extensionCsrWrite e .yst v) s fun t => (t.engine e).yst = (s.engine e).yst &&& v.setWidth 4 ∧
    (t.engine e).pc = (s.engine e).pc + 4) ∧
  (∀ (s : State) (e : Fin 16) (v : Word), s.running e = true →
    answers (.extensionCsrWrite e .ysp v) s fun t => (t.engine e).ysp = v ∧ (t.engine e).pc = (s.engine e).pc + 4)

/-- An accumulator field of 4 or more, yd.sat outside its range and a DFT step that is not legal trap: the engine is fenced and 8/0x10 stands -/
def Obligations.IllegalFieldsTrapTheEngine : Prop :=
  (∀ (s : State) (e : Fin 16) (rd rs1 rs2 : Fin 32), s.Canon → s.collectorOn = true → s.running e = true → 4 ≤ rd →
    ∀ c ∈ [.ydMac2 e rd rs1 rs2, .ydMsu2 e rd rs1 rs2, .ydMcr e rd rs1 rs2, .ydMci e rd rs1 rs2, .ydMac1 e rd rs1 rs2,
      .ydAccw e rd rs1 rs2, .ydAccz e rd rs1 rs2, .ydDft e rd rs1 rs2, .ydDfta e rd rs1 rs2,
      .ydAccrl e rs1 rd rs2, .ydAccrh e rs1 rd rs2, .ydAccrs e rs1 rd rs2],
    answers c s fun t => t.engFenced e = true ∧ Stands t 8 0x10 e) ∧
  (∀ (s : State) (e : Fin 16) (rd rs1 : Fin 32) (imm : BitVec 12), s.Canon → s.collectorOn = true → s.running e = true →
    (imm.toNat = 0 ∨ 32 ≤ imm.toNat) → answers (.ydSat e rd rs1 imm) s fun t => t.engFenced e = true ∧ Stands t 8 0x10 e) ∧
  (∀ (s : State) (e : Fin 16) (rd rs1 rs2 : Fin 32), s.Canon → s.collectorOn = true → s.running e = true →
    s.dftLegal e rd rs2 = false → ∀ c ∈ [Instr.ydDft e rd rs1 rs2, .ydDfta e rd rs1 rs2],
    answers c s fun t => t.engFenced e = true ∧ Stands t 8 0x10 e)

/-- An engine holds 128 staged writes; a further one is discarded and sets STOVF, and at commit all of the tick are discarded and it counts as an overrun -/
def Obligations.StagingOverflow : Prop :=
  (∀ (s : State) (e : Fin 16) (a : Nat) (v : Word), NoSteps s → a < 2 ^ 32 →
    (locate (.engine e) a).map (·.1) = some .reg → stagedBy e a = true → s.accessCode (.engine e) a true = 0 →
    (s.engine e).staged.length < 128 →
    answers (.stagedWrite e a v) s fun t => (t.engine e).staged = (s.engine e).staged ++ [(a, v)] ∧ endedWith t 0) ∧
  (∀ (s : State) (e : Fin 16) (a : Nat) (v : Word), s.Canon → NoSteps s → a < 2 ^ 32 →
    (locate (.engine e) a).map (·.1) = some .reg → stagedBy e a = true → s.accessCode (.engine e) a true = 0 →
    128 ≤ (s.engine e).staged.length →
    answers (.stagedWrite e a v) s fun t => (t.engine e).staged = (s.engine e).staged ∧
    t.get (ENG_n_STAT_STOVF e) = 1 ∧ (t.engine e).overStaged = true ∧ endedWith t 0) ∧
  (∀ (s : State) (e : Fin 16), (s.engine e).overStaged = true →
    ((s.commit e).engine e).staged = [] ∧ ((s.commit e).engine e).overrunDue = true ∧
    ((s.commit e).engine e).overStaged = true ∧ (s.commit e).regs = (s.put (ENG_n_STAGE_N e) 0).regs ∧
    (s.commit e).meas = s.meas ∧ (s.commit e).bal = s.bal)

/-- yt.post commits what is staged and posts the sample engine's results, yt.wft also lets the engine sleep, yt.task begins an invocation -/
def Obligations.PostingTasksAndSleep : Prop :=
  (∀ (s : State) (e : Fin 16) (c : Fin 32) (v : Word), s.running e = true → (s.engine e).overStaged = false →
    (s.engine e).staged = [(CMF_CELLn_V c, v)] →
    answers (.ytPost e) s fun t => (t.engine e).staged = [] ∧ (t.engine e).task = none ∧
    t.meas.staged.head? = some (CMF_CELLn_V c, v)) ∧
  (∀ (s : State) (e : Fin 16), s.Canon → e < 8 → s.running e = true → (s.engine e).staged = [] →
    (s.engine e).tickIn = some s.tickNo → s.tick.trig = true → s.flag (ENG_n_STAT_POSTED e) = false →
    answers (.ytPost e) s fun t => bitOf t.meas.posted e = true ∧ t.get (ENG_n_STAT_POSTED e) = 1) ∧
  (∀ (s : State) (e : Fin 16), s.Canon → s.running e = true → (s.engine e).staged = [] →
    (s.engine e).trigWait = false → (s.engine e).deferred = 0 →
    answers (.ytWft e) s fun t => t.get (ENG_n_STAT_STATE e) = 0 ∧ (t.engine e).task = none) ∧
  (∀ (s : State) (e : Fin 16), s.Canon → s.running e = true → (s.engine e).staged = [] →
    (s.engine e).trigWait = true →
    answers (.ytWft e) s fun t => t.get (ENG_n_STAT_STATE e) = 1 ∧ (t.engine e).pc = s.rd (ENG_n_ENTRY e)) ∧
  (∀ (s : State) (e : Fin 16) (rs1 : Fin 32), s.running e = true →
    answers (.ytTask e rs1) s fun t => (t.engine e).task.map (·.1) = some ((s.xreg e rs1).toNat % 16) ∧
    (t.engine e).pc = (s.engine e).pc + 4) ∧
  (∀ (s : State) (e t0 : Fin 16) (rs1 : Fin 32) (c0 : Nat), s.Canon → s.collectorOn = true → s.running e = true →
    (s.engine e).task = some (t0.val, c0) → s.get (ENG_n_TASKt_CFG_COST e t0) < s.cycNow e - c0 →
    answers (.ytTask e rs1) s fun t => t.get (ENG_n_TASKt_USED_EXC e t0) = 1 ∧ Stands t 8 0x12 e ∧
    min (s.cycNow e - c0) (2 ^ 20 - 1) ≤ t.get (ENG_n_TASKt_USED_MAX e t0))

/-- An event starts a sleeping engine within its quota or waits; overflow, traps, breakpoints, HALT, STEP, counter selection and dump act as chapter 8 says -/
def Obligations.EventsTrapsAndHalts : Prop :=
  (∀ (s : State) (e : Fin 16) (c : EngineEvent), s.Canon → s.eventReady e c = true → s.engFenced e = false →
    s.mode ≠ 0 → s.running e = false → (s.engine e).events < s.eventQuota e →
    answers (.engineEventEntry e c) s fun t => t.get (ENG_n_STAT_STATE e) = 2 ∧
    (t.engine e).pc = s.rd (ENG_n_EVENTRY e) ∧ (t.engine e).events = (s.engine e).events + 1) ∧
  (∀ (s : State) (e : Fin 16) (c : EngineEvent), s.eventReady e c = true → s.engFenced e = false → s.mode ≠ 0 →
    (s.running e = true ∨ s.eventQuota e ≤ (s.engine e).events) →
    answers (.engineEventEntry e c) s fun t => bitOf (t.engine e).deferred (eventBit c) = true) ∧
  (∀ (s : State) (e : Fin 8), s.Canon → s.engFenced e = false → 64 < ((s.engine e).yspw - (s.engine e).ysp).toNat →
    answers (.samplePortOverflow e) s fun t => t.get (ENG_n_STAT_SPOVR e) = 1 ∧ (t.engine e).overrunDue = true) ∧
  (∀ (s : State) (e : Fin 16) (mc pc tv : Word), s.Canon → s.collectorOn = true → s.engFenced e = false →
    mc.toNat < 2 ^ 31 →
    (mc.toNat < 8 ∨ 11 < mc.toNat ∨ (mc.toNat = 8 ∨ mc.toNat = 11) ∧ s.running e = true ∧ (s.engine e).handling = true) →
    (mc.toNat ≠ 3 ∨ s.mode ≠ 4 ∨ s.flag (ENG_n_DBG_BKEN e) = false) →
    answers (.engineTrap e mc pc tv) s fun t => t.rd (ENG_n_TRAP e) = mc ∧ t.rd (ENG_n_TPC e) = pc ∧
    t.rd (ENG_n_TVAL e) = tv ∧ t.engFenced e = true ∧ Stands t 8 0x10 e) ∧
  (∀ (s : State) (e : Fin 16) (mc pc tv : Word), s.engFenced e = false → (mc.toNat = 8 ∨ mc.toNat = 11) →
    s.running e = true → (s.engine e).handling = false →
    answers (.engineTrap e mc pc tv) s fun t => (t.engine e).pc = BitVec.ofNat 32 ((s.csr e mtvec).toNat / 4 * 4) ∧
    t.csr e mepcCsr = pc ∧ t.csr e mcauseCsr = mc ∧ (t.engine e).handling = true ∧ (t.engine e).user = false ∧
    t.running e = true) ∧
  (∀ (s : State) (e : Fin 16) (mc pc tv : Word), s.Canon → s.engFenced e = false → mc.toNat = 3 → s.mode = 4 →
    s.flag (ENG_n_DBG_BKEN e) = true →
    answers (.engineTrap e mc pc tv) s fun t => t.get (ENG_n_STAT_STATE e) = 5 ∧ t.get (ENG_n_DBG_HALT e) = 1) ∧
  (∀ (s : State) (e : Fin 16) (pc : Word), s.Canon → s.running e = true → s.flag (ENG_n_DBG_BKEN e) = true →
    pc = s.rd (ENG_n_BKPT e) →
    answers (.engineBreakpoint e pc) s fun t => t.get (ENG_n_STAT_STATE e) = 5 ∧ t.get (ENG_n_DBG_HALT e) = 1 ∧
    (t.engine e).pc = pc) ∧
  (∀ (s : State) (e : Fin 16) (i : Initiator) (v : Word), s.Canon → Granted s i (ENG_n_DBG e) →
    Unsealed s (ENG_n_DBG_HALT e) → s.flag (ENG_n_DBG_HALT e) = false → v.getLsbD 1 = false → NoSteps s →
    answers (.engineHalt e i v) s fun t => t.get (ENG_n_STAT_STATE e) = 5 ∧ t.get (ENG_n_DBG_HALT e) = 1 ∧
    endedWith t 0) ∧
  (∀ (s : State) (e : Fin 16) (i : Initiator) (v : Word) (pa : Nat), s.Canon → Halted s e →
    Granted s i (ENG_n_DBG e) → Unsealed s (ENG_n_DBG_HALT e) → v.getLsbD 0 = true → CodeAt s e pa →
    s.memLE pa 2 = 0x008B → s.memLE (pa + 2) 2 = 0x00B5 →
    answers (.engineStep e i v) s fun t => t.get (ENG_n_STAT_STATE e) = 5 ∧ (t.engine e).pc = (s.engine e).pc + 4 ∧
    t.accOf e 1 = satI 40 (s.accOf e 1 + loH (s.xreg e 10) * loH (s.xreg e 11) + hiH (s.xreg e 10) * hiH (s.xreg e 11)) ∧
    endedWith t 0) ∧
  (∀ (s : State) (e : Fin 16) (i : Initiator) (v : Word) (pa : Nat), s.Canon → Halted s e →
    Granted s i (ENG_n_DBG e) → Unsealed s (ENG_n_DBG_HALT e) → v.getLsbD 0 = true → CodeAt s e pa →
    s.memLE pa 2 = 0x8513 → s.memLE (pa + 2) 2 = 0xFFF5 →
    answers (.engineStep e i v) s fun t => t.get (ENG_n_STAT_STATE e) = 5 ∧ (t.engine e).pc = (s.engine e).pc + 4 ∧
    t.xreg e 10 = s.xreg e 11 - 1 ∧ endedWith t 0) ∧
  (∀ (s : State) (e : Fin 16) (i : Initiator) (v : Word) (pa : Nat), s.Canon → Halted s e →
    Granted s i (ENG_n_DBG e) → Unsealed s (ENG_n_DBG_HALT e) → v.getLsbD 0 = true → CodeAt s e pa →
    s.memLE pa 2 = 0x8533 → s.memLE (pa + 2) 2 = 0x02C5 →
    answers (.engineStep e i v) s fun t => t.get (ENG_n_STAT_STATE e) = 5 ∧ (t.engine e).pc = (s.engine e).pc + 4 ∧
    t.xreg e 10 = s.xreg e 11 * s.xreg e 12 ∧ endedWith t 0) ∧
  (∀ (s : State) (e : Fin 16) (i : Initiator) (v : Word) (pa : Nat), s.Canon → Halted s e →
    Granted s i (ENG_n_DBG e) → Unsealed s (ENG_n_DBG_HALT e) → v.getLsbD 0 = true → CodeAt s e pa →
    s.memLE pa 2 = 0x952E →
    answers (.engineStep e i v) s fun t => t.get (ENG_n_STAT_STATE e) = 5 ∧ (t.engine e).pc = (s.engine e).pc + 2 ∧
    t.xreg e 10 = s.xreg e 10 + s.xreg e 11 ∧ endedWith t 0) ∧
  (∀ (s : State) (e : Fin 16) (i : Initiator) (v : Word) (pa : Nat), s.Canon → Halted s e →
    Granted s i (ENG_n_DBG e) → Unsealed s (ENG_n_DBG_HALT e) → v.getLsbD 0 = true → CodeAt s e pa →
    s.memLE pa 2 = 0x0463 → s.memLE (pa + 2) 2 = 0x00B5 →
    answers (.engineStep e i v) s fun t => t.get (ENG_n_STAT_STATE e) = 5 ∧
    (t.engine e).pc = (s.engine e).pc + (if s.xreg e 10 = s.xreg e 11 then 8 else 4) ∧
    (t.engine e).x = (s.engine e).x ∧ endedWith t 0) ∧
  (∀ (s : State) (e : Fin 16) (i : Initiator) (v : Word) (pa : Nat), s.Canon → Halted s e →
    Granted s i (ENG_n_DBG e) → Unsealed s (ENG_n_DBG_HALT e) → v.getLsbD 0 = true → CodeAt s e pa →
    s.memLE pa 2 = 0x0073 → s.memLE (pa + 2) 2 = 0x0000 →
    answers (.engineStep e i v) s fun t =>
    ((s.engine e).handling = false → (t.engine e).pc = BitVec.ofNat 32 ((s.csr e mtvec).toNat / 4 * 4) ∧ t.csr e mepcCsr = (s.engine e).pc ∧ (t.engine e).handling = true ∧ t.get (ENG_n_STAT_STATE e) = 5) ∧
    endedWith t 0) ∧
  (∀ (s : State) (e : Fin 16) (k : Fin 6) (i : Initiator) (v : Word), s.Canon → Granted s i (ENG_n_PMCk_SEL e k) →
    Unsealed s (ENG_n_PMCk_SEL_EVT e k) →
    answers (.pmcSelectWrite e k i v) s fun t =>
    t.get (ENG_n_PMCk_SEL_EVT e k) = fieldOf v.toNat (ENG_n_PMCk_SEL_EVT e k).lo (ENG_n_PMCk_SEL_EVT e k).width ∧
    endedWith t 0) ∧
  (∀ (s : State), s.Canon → s.get ENG_PERF_DUMP_N ≠ 0 → s.tickNo % s.get ENG_PERF_DUMP_N = 0 → s.domOn 8 = true →
    s.get ENG_PERF_RING_BASE * 65536 + s.get ENG_PERF_RING_WPTR * 1024 + 1024 ≤ 48 * 2 ^ 20 →
    answers .perfDump s fun t => t.rdN ENG_PERF_SEQ = (s.rdN ENG_PERF_SEQ + 1) % 2 ^ 32 ∧
    t.get ENG_PERF_RING_WPTR = (s.get ENG_PERF_RING_WPTR + 1) % 2 ^ min (s.get ENG_PERF_RING_DEPTH) 11 ∧
    t.memLE (lagoon + s.get ENG_PERF_RING_BASE * 65536 + s.get ENG_PERF_RING_WPTR * 1024) 8 = s.sampleAt s.tickNo / 16 % 2 ^ 64) ∧
  (∀ (s : State), s.Canon → s.get ENG_PERF_DUMP_N ≠ 0 → s.tickNo % s.get ENG_PERF_DUMP_N = 0 → s.domOn 8 = false →
    s.bit MGT_PWR_STAT_RET 8 = false →
    answers .perfDump s fun t => t.get ENG_PERF_LOSS_N = oneMore s ENG_PERF_LOSS_N)

/-- An engine restarts on command and on enable, is fenced when disabled, is released by the first trigger after 50 µs; an update is admitted or refused -/
def Obligations.EngineRestarts : Prop :=
  (∀ (s : State) (i : Initiator) (v : Word), s.Canon → Granted s i ENG_RESTART →
    answers (.engRestart i v) s fun t => (∀ e : Fin 16, v.getLsbD e = true → t.engFenced e = true) ∧ endedWith t 0) ∧
  (∀ (s : State) (e : Fin 16) (i : Initiator) (v : Word), s.Canon → Granted s i (ENG_n_CTRL e) →
    Unsealed s (ENG_n_CTRL_EN e) → s.flag (ENG_n_CTRL_EN e) = false → v.getLsbD 0 = true →
    answers (.engineEnable e i v) s fun t => t.get (ENG_n_CTRL_EN e) = 1 ∧ t.engFenced e = true ∧
    ((s.engine e).restarts = [] → (t.engine e).restartAt = some s.now) ∧ endedWith t 0) ∧
  (∀ (s : State) (e : Fin 16) (i : Initiator) (v : Word), s.Canon → Granted s i (ENG_n_CTRL e) →
    Unsealed s (ENG_n_CTRL_EN e) → s.flag (ENG_n_CTRL_EN e) = true → v.getLsbD 0 = false → s.mode = 4 →
    answers (.engineEnable e i v) s fun t => t.get (ENG_n_CTRL_EN e) = 0 ∧ t.get (ENG_n_STAT_STATE e) = 3 ∧
    endedWith t 0) ∧
  (∀ (s : State) (e : Fin 16) (i : Initiator) (v : Word), s.Canon → Granted s i (ENG_n_CTRL e) →
    s.flag (ENG_n_CTRL_EN e) = true → v.getLsbD 0 = true →
    answers (.engineEnable e i v) s fun t => t.get (ENG_n_CTRL_EN e) = 1 ∧
    t.get (ENG_n_STAT_STATE e) = s.get (ENG_n_STAT_STATE e) ∧ endedWith t 0) ∧
  (∀ (s : State) (e : Fin 16) (t0 : Nat), s.Canon → (s.engine e).restartAt = some t0 →
    s.get (ENG_n_STAT_STATE e) = 4 → s.triggered e = true → s.atTrigger e = true → t0 + 50 * us ≤ s.now →
    (s.flag (ENG_n_LMEM_CRCOK e) = true ∨ (s.engine e).image = 0) →
    answers (.engineRestartRelease e) s fun t => t.get (ENG_n_STAT_STATE e) = 1 ∧ (t.engine e).restartAt = none ∧
    (t.engine e).pc = s.rd (ENG_n_ENTRY e) ∧ t.engFenced e = false ∧
    t.get (ENG_n_STAT_YEC e) % 16 = (s.engine e).nextCause % 16) ∧
  (∀ (s : State) (v : Word) (e : Fin 16) (k : Nat), s.Canon → Granted s (.engine 15) ENG_UPD_CTRL →
    Unsealed s ENG_UPD_CTRL_ENG → Unsealed s ENG_UPD_CTRL_IMG →
    fieldOf v.toNat ENG_UPD_CTRL_ENG.lo ENG_UPD_CTRL_ENG.width = e →
    fieldOf v.toNat ENG_UPD_CTRL_IMG.lo ENG_UPD_CTRL_IMG.width = k → s.get (ENG_n_STAT_STATE e) = 6 →
    answers (.engineUpdateGo (.engine 15) v) s fun t => t.get ENG_UPD_STAT_CODE = 4 ∧ t.get ENG_UPD_STAT_ENG = e ∧
    (t.engine e).update = (s.engine e).update ∧ endedWith t 0) ∧
  (∀ (s : State) (v : Word) (e : Fin 16) (k : Nat), s.Canon → Granted s (.engine 15) ENG_UPD_CTRL →
    Unsealed s ENG_UPD_CTRL_ENG → Unsealed s ENG_UPD_CTRL_IMG →
    fieldOf v.toNat ENG_UPD_CTRL_ENG.lo ENG_UPD_CTRL_ENG.width = e →
    fieldOf v.toNat ENG_UPD_CTRL_IMG.lo ENG_UPD_CTRL_IMG.width = k → s.get (ENG_n_STAT_STATE e) ≠ 6 →
    s.imageVerified ((imageNamed k).getD 0) = false →
    answers (.engineUpdateGo (.engine 15) v) s fun t => t.get ENG_UPD_STAT_CODE = 2 ∧ t.get ENG_UPD_STAT_ENG = e ∧
    (t.engine e).update = (s.engine e).update ∧ endedWith t 0) ∧
  (∀ (s : State) (v : Word) (e : Fin 16) (k : Nat) (img : Nat), s.Canon → Granted s (.engine 15) ENG_UPD_CTRL →
    Unsealed s ENG_UPD_CTRL_ENG → Unsealed s ENG_UPD_CTRL_IMG →
    fieldOf v.toNat ENG_UPD_CTRL_ENG.lo ENG_UPD_CTRL_ENG.width = e →
    fieldOf v.toNat ENG_UPD_CTRL_IMG.lo ENG_UPD_CTRL_IMG.width = k → imageNamed k = some img →
    s.get (ENG_n_STAT_STATE e) ≠ 6 → s.imageVerified img = true →
    answers (.engineUpdateGo (.engine 15) v) s fun t => t.get ENG_UPD_STAT_ENG = e ∧
    (t.get ENG_UPD_STAT_CODE = 1 ∧ (t.engine e).update = some img ∧ t.rdN MGT_ADMIT_CODE % 256 = 0 ∨ t.get ENG_UPD_STAT_CODE = 3 ∧ (t.engine e).update = (s.engine e).update ∧ t.rdN MGT_ADMIT_CODE % 256 ≠ 0) ∧
    endedWith t 0) ∧
  (∀ (s : State) (e : Fin 16) (img : Nat), s.Canon → (s.engine e).update = some img → s.imageVerified img = true →
    ((s.activate e).engine e).update = none ∧ (s.activate e).engFenced e = true ∧
    (s.activate e).get ENG_UPD_STAT_CODE = 0)

/-- A message reaches the mailbox of its destination, waits while that is full, and is refused while one waits; semaphores are held by one engine -/
def Obligations.MailboxesAndSemaphores : Prop :=
  (∀ (s : State) (e : Fin 16) (v : Word), s.Canon → Granted s (.engine e) (ENG_n_MBX_TXPAY e) →
    (s.engine e).waiting = none → (outMsg s e v).reply = false →
    ((outMsg s e v).rreq = true → ∀ o ∈ (s.engine e).tags, o.tag ≠ (outMsg s e v).tag) →
    s.engFenced (outMsg s e v).dst = false → (s.engine (outMsg s e v).dst).mbox.length < 16 →
    answers (.mailboxSend e (.engine e) v) s fun t =>
    (t.engine (outMsg s e v).dst).mbox = (s.engine (outMsg s e v).dst).mbox ++ [outMsg s e v] ∧ endedWith t 0) ∧
  (∀ (s : State) (e : Fin 16) (v : Word), s.Canon → Granted s (.engine e) (ENG_n_MBX_TXPAY e) →
    (s.engine e).waiting = none → (outMsg s e v).reply = true → (outMsg s e v).rreq = false →
    s.engFenced (outMsg s e v).dst = false → (s.engine (outMsg s e v).dst).mbox.length < 16 →
    answers (.mailboxSend e (.engine e) v) s fun t =>
    (if s.tagOpen (outMsg s e v).dst (outMsg s e v).tag e then (t.engine (outMsg s e v).dst).mbox = (s.engine (outMsg s e v).dst).mbox ++ [outMsg s e v] ∧ t.tagOpen (outMsg s e v).dst (outMsg s e v).tag e = false else (t.engine (outMsg s e v).dst).mbox = (s.engine (outMsg s e v).dst).mbox ∧ t.get (ENG_n_MBX_TXSTAT_REF e) = oneMore s (ENG_n_MBX_TXSTAT_REF e)) ∧
    endedWith t 0) ∧
  (∀ (s : State) (e : Fin 16) (v : Word), s.Canon → Granted s (.engine e) (ENG_n_MBX_TXPAY e) →
    (s.engine e).waiting = none → (outMsg s e v).rreq = false → s.engFenced (outMsg s e v).dst = true →
    answers (.mailboxSend e (.engine e) v) s fun t =>
    t.get (ENG_n_MBX_TXSTAT_FDROP e) = oneMore s (ENG_n_MBX_TXSTAT_FDROP e) ∧
    (∀ n : Fin 16, (t.engine n).mbox = (s.engine n).mbox) ∧ endedWith t 0) ∧
  (∀ (s : State) (e : Fin 16) (v : Word), s.Canon → Granted s (.engine e) (ENG_n_MBX_TXPAY e) →
    (s.engine e).waiting = none → (outMsg s e v).rreq = true → (∀ o ∈ (s.engine e).tags, o.tag ≠ (outMsg s e v).tag) →
    s.engFenced (outMsg s e v).dst = true →
    answers (.mailboxSend e (.engine e) v) s fun t =>
    (t.engine e).mbox = (s.engine e).mbox ++ [{ src := (outMsg s e v).dst, dst := e, tag := (outMsg s e v).tag, rreq := false, reply := true, status := 4, pay := Config.freeValue 32 s.free }] ∧
    (∀ o ∈ (t.engine e).tags, o.tag ≠ (outMsg s e v).tag) ∧ endedWith t 0) ∧
  (∀ (s : State) (e : Fin 16) (v : Word), s.Canon → Granted s (.engine e) (ENG_n_MBX_TXPAY e) →
    (s.engine e).waiting = none → ((outMsg s e v).rreq = true → ∀ o ∈ (s.engine e).tags, o.tag ≠ (outMsg s e v).tag) →
    s.engFenced (outMsg s e v).dst = false → 16 ≤ (s.engine (outMsg s e v).dst).mbox.length →
    answers (.mailboxSend e (.engine e) v) s fun t => (t.engine e).waiting = some (outMsg s e v) ∧
    (t.engine (outMsg s e v).dst).mbox = (s.engine (outMsg s e v).dst).mbox ∧ endedWith t 0) ∧
  (∀ (s : State) (e : Fin 16) (v : Word), s.Canon → Granted s (.engine e) (ENG_n_MBX_TXPAY e) →
    (s.engine e).waiting.isSome = true →
    answers (.mailboxSend e (.engine e) v) s fun t =>
    t.get (ENG_n_MBX_TXSTAT_REF e) = oneMore s (ENG_n_MBX_TXSTAT_REF e) ∧
    (t.engine e).waiting = (s.engine e).waiting ∧ t.eng = s.eng) ∧
  (∀ (s : State) (e : Fin 16) (m : Msg), s.Canon → (s.engine e).waiting = some m → m.dst < 16 → m.reply = false →
    s.engFenced m.dst = false → (s.engine m.dst).mbox.length < 16 →
    answers (.mailboxDelivery e) s fun t => (t.engine e).waiting = none ∧
    (t.engine m.dst).mbox = (s.engine m.dst).mbox ++ [m]) ∧
  (∀ (s : State) (e : Fin 16) (m : Msg), s.Canon → (s.engine e).waiting = some m → m.dst < 16 → m.reply = true →
    s.tagOpen m.dst m.tag m.src = true → s.engFenced m.dst = false → (s.engine m.dst).mbox.length < 16 →
    answers (.mailboxDelivery e) s fun t => (t.engine e).waiting = none ∧
    (t.engine m.dst).mbox = (s.engine m.dst).mbox ++ [m] ∧ t.tagOpen m.dst m.tag m.src = false) ∧
  (∀ (s : State) (e : Fin 16) (m : Msg), s.Canon → (s.engine e).waiting = some m → m.src = e → m.rreq = true →
    s.tagOpen e m.tag m.dst = true → s.engFenced m.dst = true →
    answers (.mailboxDelivery e) s fun t => (t.engine e).waiting = none ∧
    (t.engine e).mbox = (s.engine e).mbox ++ [{ src := m.dst, dst := e, tag := m.tag, rreq := false, reply := true, status := 4, pay := Config.freeValue 32 s.free }]) ∧
  (∀ (s : State) (e : Fin 16) (i : Initiator) (v : Word), Granted s i (ENG_n_MBX_RXPOP e) →
    answers (.mailboxPop e i v) s fun t => (t.engine e).mbox = (s.engine e).mbox.drop 1 ∧ endedWith t 0) ∧
  (∀ (s : State) (e : Fin 16) (tag : Fin 8) (o : OpenTag),
    (((s.engine e).tags.find? fun o => o.tag == tag.val) = some o) →
    o.tick + s.getIn ENG_MBX_TMO_TMO 1 255 ≤ s.tickNo →
    answers (.mailboxTimeout e tag) s fun t => (∀ x ∈ (t.engine e).tags, x.tag ≠ tag) ∧
    (t.engine e).mbox = (s.engine e).mbox ++ [{ src := o.dst, dst := e, tag := tag, rreq := false, reply := true, status := 5, pay := Config.freeValue 32 s.free }]) ∧
  (∀ (s : State) (k : Fin 32) (n : Fin 16) (v : Word), s.Canon → Granted s (.engine n) (ENG_SEMk k) →
    v.getLsbD 1 = false →
    answers (.semaphoreAcquire k (.engine n) v) s fun t =>
    t.get (ENG_SEMk_OWNER k) = (if s.get (ENG_SEMk_OWNER k) = 0 then n.val + 1 else s.get (ENG_SEMk_OWNER k)) ∧
    endedWith t 0) ∧
  (∀ (s : State) (k : Fin 32) (n : Fin 16) (v : Word), s.Canon → Granted s (.engine n) (ENG_SEMk k) →
    v.getLsbD 0 = false →
    answers (.semaphoreRelease k (.engine n) v) s fun t =>
    t.get (ENG_SEMk_OWNER k) = (if s.get (ENG_SEMk_OWNER k) = n.val + 1 then 0 else s.get (ENG_SEMk_OWNER k)) ∧
    endedWith t 0)

/-- A received frame is discarded with its reason, given to the island's agents or queued for its output; the frame next in order is sent -/
def Obligations.FramesOnAStrait : Prop :=
  (∀ (s : State) (p : Fin 4) (w : WireFrame) (h : HeardFrame) (c : Nat), s.Canon → s.up p = true → hear w = h →
    s.headerFault p h = some c →
    answers (.frameReceive p w) s fun t => t.get (FAB_PORTn_ERRCAP2_REASON p) = c) ∧
  (∀ (s : State) (p : Fin 4) (w : WireFrame) (h : HeardFrame), s.collectorOn = true → s.up p = true → hear w = h →
    s.headerFault p h = some 7 →
    answers (.frameReceive p w) s fun t => Stands t 15 0x11 p) ∧
  (∀ (s : State) (p : Fin 4) (w : WireFrame) (h : HeardFrame) (c : Nat), s.Canon → s.up p = true → hear w = h →
    s.headerFault p h = none → bodyFault h = some c →
    answers (.frameReceive p w) s fun t => t.get (FAB_PORTn_ERRCAP2_REASON p) = c) ∧
  (∀ (s : State) (p : Fin 4) (w : WireFrame) (h : HeardFrame) (g : Frame), s.Canon → s.up p = true → hear w = h →
    s.headerFault p h = none → bodyFault h = none → h.ecc ≠ .uncorrectable → s.way p (parseFrame h.bytes) = .own g →
    typeClass g.typ = some g.cls → s.destinations g = (true, none) →
    answers (.frameReceive p w) s fun t =>
    t.net.inbox = (if s.net.inbox.length < Config.localBuffer then s.net.inbox ++ [g] else s.net.inbox) ∧
    t.rdN (FAB_PORTn_CNTm p 0) = min (s.rdN (FAB_PORTn_CNTm p 0) + 1) (2 ^ 32 - 1)) ∧
  (∀ (s : State) (p : Fin 4) (w : WireFrame) (h : HeardFrame) (g : Frame), s.Canon → s.up p = true → hear w = h →
    s.headerFault p h = none → bodyFault h = none → s.way p (parseFrame h.bytes) = .own g →
    typeClass g.typ ≠ some g.cls →
    answers (.frameReceive p w) s fun t => t.get (FAB_PORTn_ERRCAP2_REASON p) = 5 ∧ t.net.inbox = s.net.inbox) ∧
  (∀ (s : State) (p : Fin 4) (w : WireFrame) (h : HeardFrame) (n : Fin 4) (g : Frame), s.Canon → s.up p = true →
    hear w = h → s.headerFault p h = none → bodyFault h = none → h.ecc ≠ .uncorrectable →
    s.way p (parseFrame h.bytes) = .broadcast g → (parseFrame h.bytes).hops ≠ 63 → s.bit FAB_BCAST_CHILD n = true →
    s.up n = true → n ≠ p → s.ringVc n g.vc < 2 → g.cls < 3 →
    answers (.frameReceive p w) s fun t =>
    ((vget (t.strait n).txq (2 * g.cls + s.ringVc n g.vc) []).any fun x => x.frame == { g with vc := s.ringVc n g.vc } && x.arrival == some p && !x.bad) = true) ∧
  (∀ (s : State) (p : Fin 4) (w : WireFrame) (h : HeardFrame) (n : Fin 4) (g : Frame), s.Canon → s.up p = true →
    s.up n = true → hear w = h → s.headerFault p h = none → bodyFault h = none →
    s.way p (parseFrame h.bytes) = .out n g → s.cutOk n g (wireUnits h.bytes) = false → frameQueue g < 6 →
    answers (.frameReceive p w) s fun t =>
    (vget (t.strait n).txq (frameQueue g) []) = vget (s.strait n).txq (frameQueue g) [] ++ [{ frame := g, arrival := some p, aq := frameQueue (parseFrame h.bytes), bad := h.ecc == .uncorrectable, since := s.now }]) ∧
  (∀ (s : State) (p : Fin 4) (w : WireFrame) (h : HeardFrame) (n : Fin 4) (g : Frame), s.up p = true → hear w = h →
    s.headerFault p h = none → s.way p (parseFrame h.bytes) = .out n g → s.cutOk n g (wireUnits h.bytes) = true →
    answers (.frameReceive p w) s fun t =>
    .frame n (cutBytes h g) ((bodyFault h).isNone && !(h.ecc == .uncorrectable)) ∈ t.sent) ∧
  (∀ (s : State) (p : Fin 4) (q : Nat) (it : TxItem) (rest : List TxItem), s.up p = true → s.pick p = some q →
    vget (s.strait p).txq q [] = it :: rest → it.arrival.isSome = true →
    answers (.storeAndForward p) s fun t => .frame p (wireBytes it.frame) (!it.bad) ∈ t.sent ∧
    (q < 2 ∨ s.timexAt p = none → t.now = max s.now (s.strait p).sendTill) ∧
    (2 ≤ q → ∀ x, s.timexAt p = some x → x ≤ (s.reach (s.strait p).sendTill).ft → .timexReq p (timexRequestBytes ((s.strait p).txSeq % 256)) ∈ t.sent) ∧
    (it.bad = false → (vget (t.strait p).txq q []).length = rest.length)) ∧
  (∀ (s : State) (p : Fin 4) (q : Nat) (it : TxItem) (rest : List TxItem), s.up p = true → s.pick p = some q →
    vget (s.strait p).txq q [] = it :: rest →
    answers (.frameTransmit p) s fun t => .frame p (wireBytes it.frame) (!it.bad) ∈ t.sent ∧
    (q < 2 ∨ s.timexAt p = none → t.now = max s.now (s.strait p).sendTill) ∧
    (2 ≤ q → ∀ x, s.timexAt p = some x → x ≤ (s.reach (s.strait p).sendTill).ft → .timexReq p (timexRequestBytes ((s.strait p).txSeq % 256)) ∈ t.sent) ∧
    (it.bad = false → (vget (t.strait p).txq q []).length = rest.length))

/-- Credits are taken when they hold and counted when not, a stalled link goes down with its fault, an accepted HAZARD raises source 16 -/
def Obligations.CreditsAndHazard : Prop :=
  (∀ (s : State) (p : Fin 4) (qb c : Byte), s.up p = true → qb.toNat % 8 < 6 →
    qb.toNat = creditByte (qb.toNat % 8) c.toNat →
    (c.toNat + 256 - vget (s.strait p).credC (qb.toNat % 8) 0) % 256 ≤ (vget (s.strait p).sentU (qb.toNat % 8) 0 + 256 - vget (s.strait p).credC (qb.toNat % 8) 0) % 256 →
    answers (.creditReceive p qb c) s fun t => vget (t.strait p).credC (qb.toNat % 8) 0 = c.toNat) ∧
  (∀ (s : State) (p : Fin 4) (qb c : Byte), s.Canon → s.up p = true →
    (qb.toNat % 8 ≥ 6 ∨ qb.toNat ≠ creditByte (qb.toNat % 8) c.toNat ∨ (vget (s.strait p).sentU (qb.toNat % 8) 0 + 256 - vget (s.strait p).credC (qb.toNat % 8) 0) % 256 < (c.toNat + 256 - vget (s.strait p).credC (qb.toNat % 8) 0) % 256) →
    answers (.creditReceive p qb c) s fun t => t.port = s.port ∧
    t.rdN (FAB_PORTn_CNTm p 13) = min (s.rdN (FAB_PORTn_CNTm p 13) + 1) (2 ^ 32 - 1)) ∧
  (∀ (s : State) (p : Fin 4) (q : Fin 6), s.up p = true →
    answers (.creditRefresh p) s fun t =>
    .credit p (creditByte q (vget (s.strait p).freed q 0)) (vget (s.strait p).freed q 0) ∈ t.sent ∧ t.regs = s.regs) ∧
  (∀ (s : State) (p : Fin 4) (t0 : Nat), s.Canon → s.collectorOn = true → s.up p = true →
    s.stalledSince p = some t0 →
    answers (.creditStall p) s fun t => Stands t 15 0x10 p ∧
    t0 + s.getIn (FAB_PORTn_CFG_STALL_MS p) 1 255 * ms ≤ t.now ∧
    (s.shadowOver 15 = none → t.up p = false ∧ t.get (FAB_PORTn_DOWNCAUSE_CODE p) = 6)) ∧
  (∀ (s : State) (p : Fin 4), s.Canon → s.up p = true → s.hazIn p = true →
    answers (.hazardReceive (.strait p true)) s fun t => t.demand 16 = true) ∧
  (∀ (s : State) (p n : Fin 4), s.Canon → s.up p = true → s.hazIn p = true → s.flag FAB_STAT_HOLDOFF = false →
    n ≠ p → s.up n = true → s.hazOut n = true →
    answers (.hazardReceive (.strait p true)) s fun t => .hazard n (s.getIn FAB_HAZ_CFG_REP 1 7) ∈ t.sent ∧
    t.flag FAB_STAT_HOLDOFF = true) ∧
  (∀ (s : State) (p : Fin 4), s.Canon → s.up p = true →
    answers (.hazardReceive (.strait p false)) s fun t => t.psf = s.psf ∧
    t.rdN (FAB_PORTn_CNTm p 8) = min (s.rdN (FAB_PORTn_CNTm p 8) + 1) (2 ^ 32 - 1)) ∧
  (∀ (s : State), s.Canon → s.domOn 6 = true →
    answers (.hazardReceive .tripLine) s fun t => t.demand 16 = true) ∧
  (∀ (s : State), s.Canon → s.flag FAB_STAT_HOLDOFF = true →
    answers .hazardHoldExpiry s fun t => t.flag FAB_STAT_HOLDOFF = false ∧
    t.now = max s.now (s.net.hazHoldAt + s.getIn FAB_HAZ_CFG_HOLD 10 4000 * us))

/-- Training of a Strait: its start, alignment, TRAIN sets, UP, the ways it fails and is tried again -/
def Obligations.TrainingOfAStrait : Prop :=
  (∀ (s : State) (p : Fin 4), s.Canon → s.mayTrain p = true → s.get (FAB_PORTn_STAT_STATE p) ≤ 2 →
    answers (.linkTraining p) s fun t => t.get (FAB_PORTn_STAT_STATE p) = 3 ∧ t.get (FAB_PORTn_TRAIN_STEP p) = 1 ∧
    (t.strait p).aligned = false) ∧
  (∀ (s : State) (p : Fin 4), s.Canon → s.get (FAB_PORTn_STAT_STATE p) = 3 → (s.strait p).aligned = false →
    answers (.commaAlignment p) s fun t => t.get (FAB_PORTn_TRAIN_STEP p) = 2 ∧ (t.strait p).aligned = true ∧
    t.sent = .train p (s.ownSet p false) :: s.sent) ∧
  (∀ (s : State) (p : Fin 4) (l : List Byte) (ts : TrainSet), s.Canon → s.get (FAB_PORTn_STAT_STATE p) = 3 →
    (s.strait p).aligned = true → parseTrain l = ts → ts.crcOk = true → ts.ver = 1 → ts.uid.toNat ≠ s.uid →
    answers (.trainReceive p l) s fun t => (t.strait p).lastTs = some ts) ∧
  (∀ (s : State) (p : Fin 4) (l : List Byte) (ts : TrainSet), s.Canon → s.get (FAB_PORTn_STAT_STATE p) = 3 →
    (s.strait p).aligned = true → parseTrain l = ts → ts.crcOk = true → ts.ver = 1 → ts.uid.toNat ≠ s.uid →
    (s.strait p).lastTs = some ts → 2 ≤ (s.strait p).sameRun → (s.strait p).ts2Sent = none → ts.ts2 = false →
    answers (.trainReceive p l) s fun t => .train p (s.ownSet p true) ∈ t.sent ∧ (t.strait p).ts2Sent = some s.now ∧
    t.get (FAB_PORTn_TRAIN_STEP p) = 3) ∧
  (∀ (s : State) (p : Fin 4) (l : List Byte) (ts : TrainSet) (a : Nat), s.Canon →
    s.get (FAB_PORTn_STAT_STATE p) = 3 → (s.strait p).aligned = true → parseTrain l = ts → ts.crcOk = true →
    ts.ver = 1 → ts.uid.toNat ≠ s.uid → ts.ts2 = true → 2 ≤ (s.strait p).ts2Run → (s.strait p).ts2Sent = some a →
    answers (.trainReceive p l) s fun t => t.up p = true ∧ t.get64 (FAB_PORTn_PEER_ID_LO p) = ts.uid.toNat) ∧
  (∀ (s : State) (p : Fin 4) (l : List Byte) (ts : TrainSet), s.Canon → s.get (FAB_PORTn_STAT_STATE p) = 3 →
    (s.strait p).aligned = true → parseTrain l = ts → ts.crcOk = true → ts.ver ≠ 1 →
    answers (.trainReceive p l) s fun t => t.get (FAB_PORTn_STAT_STATE p) = 5 ∧ t.get (FAB_PORTn_TRAIN_LASTFAIL p) = 9) ∧
  (∀ (s : State) (p : Fin 4) (l : List Byte) (ts : TrainSet), s.Canon → s.get (FAB_PORTn_STAT_STATE p) = 3 →
    (s.strait p).aligned = true → parseTrain l = ts → ts.crcOk = true → ts.ver = 1 → ts.uid.toNat = s.uid →
    answers (.trainReceive p l) s fun t => t.get (FAB_PORTn_STAT_STATE p) = 6 ∧
    t.get (FAB_PORTn_TRAIN_LASTFAIL p) = 10) ∧
  (∀ (s : State) (p : Fin 4) (l : List Byte) (ts : TrainSet), s.get (FAB_PORTn_STAT_STATE p) = 3 →
    (s.strait p).aligned = true → parseTrain l = ts → ts.crcOk = false →
    answers (.trainReceive p l) s fun t => (t.strait p).sameRun = 0 ∧ (t.strait p).ts2Run = 0 ∧ t.regs = s.regs) ∧
  (∀ (s : State) (p : Fin 4) (l : List Byte), s.Canon → s.up p = true →
    answers (.trainReceive p l) s fun t => t.up p = false ∧ t.get (FAB_PORTn_DOWNCAUSE_CODE p) = 12) ∧
  (∀ (s : State) (p : Fin 4), s.Canon → s.get (FAB_PORTn_STAT_STATE p) = 3 →
    answers (.trainingTimeout p) s fun t => t.get (FAB_PORTn_STAT_STATE p) = 5 ∧
    t.get (FAB_PORTn_TRAIN_LASTFAIL p) = 8 ∧ (t.strait p).fails = (s.strait p).fails + 1 ∧
    t.now = max s.now ((s.strait p).attemptAt + 5 * ms)) ∧
  (∀ (s : State) (p : Fin 4), s.Canon → s.mayTrain p = true → s.get (FAB_PORTn_STAT_STATE p) = 5 →
    answers (.trainingRetry p) s fun t => t.get (FAB_PORTn_STAT_STATE p) = 3 ∧ t.get (FAB_PORTn_TRAIN_STEP p) = 1)

/-- A cause takes an UP Strait down and is shown; retraining, waking and line tests take it down or send the tone; a tone seen is shown and, held, ignored -/
def Obligations.LinkDownAndWakeTones : Prop :=
  (∀ (s : State) (p : Fin 4) (c : Fin 13), s.Canon → s.up p = true → c ≠ 0 →
    answers (.linkDown p c) s fun t => t.up p = false ∧ t.get (FAB_PORTn_DOWNCAUSE_CODE p) = c ∧
    (t.strait p).dlys = [] ∧ (∀ q : Fin 6, vget (t.strait p).txq q [] = [])) ∧
  (∀ (s : State) (p : Fin 4) (i : Initiator) (v : Word), s.Canon → Granted s i (FAB_PORTn_CTRL p) → s.up p = true →
    answers (.portRetrain p i v) s fun t => t.up p = false ∧ t.get (FAB_PORTn_DOWNCAUSE_CODE p) = 7 ∧ endedWith t 0) ∧
  (∀ (s : State) (p : Fin 4) (i : Initiator) (v : Word), s.Canon → Granted s i (FAB_PORTn_CTRL p) → s.up p = false →
    s.mayTrain p = true →
    answers (.portWake p i v) s fun t => t.get (FAB_PORTn_STAT_STATE p) = 2 ∧
    .tone p (s.getIn FAB_WAKE_CFG_TONE_US 200 5000) ∈ t.sent ∧ endedWith t 0) ∧
  (∀ (s : State) (p : Fin 4) (i : Initiator) (v : Word), s.Canon → Granted s i (FAB_PORTn_CTRL p) → s.up p = true →
    answers (.portWake p i v) s fun t => t.up p = false ∧ endedWith t 0) ∧
  (∀ (s : State) (p : Fin 4) (i : Initiator) (v : Word), s.Canon → Granted s i (FAB_PORTn_TEST p) →
    Unsealed s ⟨FAB_PORTn_TEST p, 0, 1⟩ → s.up p = true →
    answers (.portLoopback p i v) s fun t => t.up p = false ∧ t.rdN (FAB_PORTn_TEST p) % 2 = 1 ∧ endedWith t 0) ∧
  (∀ (s : State) (p : Fin 4) (i : Initiator) (v : Word), s.Canon → Granted s i (FAB_PORTn_TEST p) →
    Unsealed s ⟨FAB_PORTn_TEST p, 1, 1⟩ → s.up p = true →
    answers (.portPrbs p i v) s fun t => t.up p = false ∧ t.rdN (FAB_PORTn_TEST p) / 2 % 2 = 1 ∧ endedWith t 0) ∧
  (∀ (s : State) (p : Fin 4), s.Canon → s.flag (FAB_PORTn_CFG_WAKEIN p) = true → s.up p = false →
    (s.strait p).toneIgnored = false → (s.strait p).toneTill ≤ s.now → s.get (FAB_PORTn_STAT_STATE p) ≠ 2 →
    answers (.wakeToneDetect p) s fun t => t.bit FAB_WAKE_STAT_TONE p = true ∧ (t.strait p).toneSince.isSome = true ∧
    (s.mayTrain p = true → t.get (FAB_PORTn_STAT_STATE p) = 3)) ∧
  (∀ (s : State) (p : Fin 4) (t0 : Nat), s.Canon → (s.strait p).toneSince = some t0 →
    answers (.wakeToneHeld p) s fun t => t.bit FAB_WAKE_STAT_HELD p = true ∧ (t.strait p).toneIgnored = true ∧
    t.now = max s.now (t0 + 60 * sec)) ∧
  (∀ (s : State) (p : Fin 4),
    answers (.wakeToneAbsent p) s fun t => (t.strait p).toneSince = none ∧ (t.strait p).toneIgnored = false)

/-- A round starts at the harbour, its FLOOD reaches the islands, their REPORTs make the map, and a closed consistent map is assigned; otherwise the round is rerun -/
def Obligations.SoundingRoundStarts : Prop :=
  (∀ (s : State) (i : Initiator) (v : Word), s.Canon → Granted s i FAB_NET_CTRL → s.soundable = true →
    s.isHarbour = true → s.flag FAB_NET_STAT_STANDBY = false → s.net.rnd.holdTill = none → s.net.rnd.running = false →
    s.net.commit = none →
    answers (.netSound i v) s fun t => t.net.rnd.running = true ∧ t.net.rnd.number = (s.net.curRound + 1) % 65536 ∧
    t.get FAB_SND_STAT_ROUND = (s.net.curRound + 1) % 65536 ∧ t.get FAB_NET_STAT_SND = 1 ∧
    t.net.rnd.reports.length = 1 ∧ endedWith t 0) ∧
  (∀ (s : State) (i : Initiator) (v : Word), Granted s i FAB_NET_CTRL →
    (s.isHarbour = false ∨ s.net.rnd.holdTill.isSome = true ∨ s.net.rnd.running = true) →
    s.flag FAB_NET_STAT_STANDBY = false → bitOf v.toNat 2 = false →
    answers (.netSound i v) s fun t => t.net = s.net ∧ t.regs = s.regs ∧ endedWith t 0) ∧
  (∀ (s : State) (p : Fin 4) (f : Frame), s.Canon → s.soundable = true → Followed s f 0x10 → s.isHarbour = false →
    s.net.listenTill = none → newerRound s.net.curRound (leAt f.payload 0 2) = true →
    answers (.soundFlood p f) s fun t => t.net.curRound = leAt f.payload 0 2 ∧ t.net.depth = byteAt f.payload 12 + 1 ∧
    t.flag (FAB_PORTn_SND_PARENT p) = true ∧ t.get FAB_NET_STAT_SND = 1 ∧ t.net.staged = none) ∧
  (∀ (s : State) (p : Fin 4) (f : Frame) (n : Fin 4), s.Canon → s.soundable = true → Followed s f 0x10 →
    s.isHarbour = false → s.net.listenTill = none → newerRound s.net.curRound (leAt f.payload 0 2) = true →
    byteAt f.payload 12 < 64 → n ≠ p → s.up n = true → s.role n = 0 →
    answers (.soundFlood p f) s fun t =>
    Queues t n 0x10 (s.soundHead (leAt f.payload 0 2) ++ leBytes 1 (byteAt f.payload 12 + 1))) ∧
  (∀ (s : State) (i : Initiator) (v : Word), Granted s i FAB_NET_CTRL → s.soundable = false → s.isHarbour = true →
    s.flag FAB_NET_STAT_STANDBY = false → s.net.rnd.holdTill = none → s.net.rnd.running = false →
    bitOf v.toNat 2 = false →
    answers (.netSound i v) s fun t => t.net.rnd = { s.net.rnd with wanted := true } ∧ t.regs = s.regs ∧ endedWith t 0) ∧
  (∀ (s : State) (p : Fin 4) (f : Frame), s.soundable = true → Followed s f 0x11 → s.isHarbour = true →
    s.net.rnd.running = true → leAt f.payload 0 2 = s.net.rnd.number →
    answers (.soundReport p f) s fun t => (parseReport f.payload ∈ t.net.rnd.reports) ∧ t.net.rnd.lastReport = s.now) ∧
  (∀ (s : State) (p : Fin 4) (f : Frame) (n : Nat), s.Canon → s.soundable = true → Followed s f 0x11 →
    s.isHarbour = false → s.parentPort = some n →
    answers (.soundReport p f) s fun t => Queues t n 0x11 f.payload ∧ t.net.rnd = s.net.rnd) ∧
  (∀ (s : State), s.Canon → s.soundable = true → s.isHarbour = true → s.net.rnd.running = true →
    s.net.rnd.assigns = [] → closedMap s.net.rnd.reports = true → unsettled s.net.rnd.reports = [] →
    s.flag FAB_NET_STAT_TCHG = false →
    answers .collectionClose s fun t => t.net.rnd.goodMap = some s.net.rnd.reports ∧
    t.net.staged = (computeRound s.net.rnd.reports s.net.table s.net.rnd.number []).assigns.find? (fun a => a.uid == s.uid) ∧
    t.net.rnd.assigns.map (·.a) = (computeRound s.net.rnd.reports s.net.table s.net.rnd.number []).assigns.filter (fun a => a.uid != s.uid) ∧
    t.now = max s.now s.closeAt.1) ∧
  (∀ (s : State), s.Canon → s.soundable = true → s.isHarbour = true → s.net.rnd.running = true →
    s.net.rnd.assigns = [] →
    (closedMap s.net.rnd.reports = false ∨ unsettled s.net.rnd.reports ≠ [] ∨ s.flag FAB_NET_STAT_TCHG = true) →
    s.get FAB_SND_STAT_RERUN < 4 →
    answers .collectionClose s fun t => t.net.rnd.running = true ∧ t.net.rnd.number = (s.net.curRound + 1) % 65536 ∧
    t.get FAB_SND_STAT_RERUN = s.get FAB_SND_STAT_RERUN + 1 ∧ t.net.commit = s.net.commit) ∧
  (∀ (s : State), s.Canon → s.collectorOn = true → s.soundable = true → s.isHarbour = true →
    s.net.rnd.running = true → s.net.rnd.assigns = [] → s.flag FAB_NET_STAT_TCHG = true →
    4 ≤ s.get FAB_SND_STAT_RERUN →
    answers .collectionClose s fun t => Stands t 7 0x10 0 ∧ t.net.rnd.holdTill.isSome = true ∧
    t.get FAB_SND_STAT_UNSET = 1)

/-- An ASSIGN is staged or relayed and acknowledged, COMMIT names the tick, and at it address and routing table are installed -/
def Obligations.AssignmentAndCommit : Prop :=
  (∀ (s : State) (p : Fin 4) (f : Frame) (n : Nat), s.Canon → s.soundable = true → Followed s f 0x12 →
    s.isHarbour = false → f.payload.length = 291 → byteAt f.payload 20 ≤ byteAt f.payload 21 →
    (parseAssign f.payload).uid = s.uid → s.parentPort = some n →
    answers (.soundAssign p f) s fun t => t.net.staged = some (parseAssign f.payload) ∧
    Queues t n 0x13 (s.soundHead s.net.curRound ++ leBytes 8 s.uid ++ leBytes 1 (parseAssign f.payload).addr ++ leBytes 4 (crc32c (parseAssign f.payload).rt) ++ leBytes 1 0)) ∧
  (∀ (s : State) (p : Fin 4) (f : Frame), s.Canon → s.soundable = true → Followed s f 0x12 → s.isHarbour = false →
    f.payload.length = 291 → byteAt f.payload 21 < byteAt f.payload 20 →
    s.up (fieldOf (leAt f.payload 22 16) (2 * byteAt f.payload 21) 2) = true →
    answers (.soundAssign p f) s fun t =>
    Queues t (fieldOf (leAt f.payload 22 16) (2 * byteAt f.payload 21) 2) 0x12 (f.payload.take 21 ++ leBytes 1 (byteAt f.payload 21 + 1) ++ f.payload.drop 22) ∧
    t.net.staged = s.net.staged) ∧
  (∀ (s : State) (p : Fin 4) (f : Frame), s.soundable = true → Followed s f 0x13 → s.isHarbour = true →
    s.net.rnd.running = true → leAt f.payload 0 2 = s.net.rnd.number → byteAt f.payload 25 = 0 →
    (s.net.rnd.assigns.any (fun x => !x.acked && !x.absent && x.a.uid != leAt f.payload 12 8) = true) →
    answers (.soundAck p f) s fun t =>
    t.net.rnd.assigns = s.net.rnd.assigns.map (fun x => if x.a.uid = leAt f.payload 12 8 ∧ crc32c x.a.rt = leAt f.payload 21 4 then { x with acked := true } else x) ∧
    t.net.commit = s.net.commit) ∧
  (∀ (s : State) (p : Fin 4) (f : Frame), s.Canon → s.soundable = true → Followed s f 0x13 → s.isHarbour = true →
    s.net.rnd.running = true → leAt f.payload 0 2 = s.net.rnd.number → byteAt f.payload 25 = 0 →
    (s.net.rnd.assigns.all (fun x => !x.absent && (x.acked || x.a.uid == leAt f.payload 12 8 && crc32c x.a.rt == leAt f.payload 21 4)) = true) →
    s.flag FAB_NET_STAT_TCHG = false →
    answers (.soundAck p f) s fun t => (t.net.commit.map fun c => decide (s.tickNo + 16 ≤ c.1)) = some true ∧
    t.get FAB_NET_STAT_SND = 2 ∧ t.net.rnd.running = false) ∧
  (∀ (s : State) (a : Fin 256) (x : Pending),
    (s.net.rnd.assigns.find? (fun q => q.a.addr == a.val && !q.acked && !q.absent) = some x) → x.tries < 3 →
    s.soundable = true →
    answers (.assignTimeout a) s fun t =>
    t.net.rnd.assigns = s.net.rnd.assigns.map (fun q => if q.a.uid = x.a.uid then { x with tries := x.tries + 1, sentAt := t.now } else q) ∧
    t.now = max s.now (x.sentAt + s.getIn FAB_SND_CFG_ACK_MS 5 255 * ms)) ∧
  (∀ (s : State) (a : Fin 256) (x : Pending), s.Canon →
    (s.net.rnd.assigns.find? (fun q => q.a.addr == a.val && !q.acked && !q.absent) = some x) → 3 ≤ x.tries →
    (s.net.rnd.assigns.any (fun q => !q.acked && !q.absent && q.a.uid != x.a.uid) = true) → s.soundable = true →
    answers (.assignTimeout a) s fun t =>
    t.net.rnd.assigns = s.net.rnd.assigns.map (fun q => if q.a.uid = x.a.uid then { x with absent := true } else q) ∧
    t.net.rnd.gone = x.a.uid :: s.net.rnd.gone ∧ t.flag FAB_NET_STAT_TCHG = true) ∧
  (∀ (s : State) (p : Fin 4) (f : Frame), s.Canon → s.soundable = true → Followed s f 0x14 → s.isHarbour = false →
    s.get FAB_NET_STAT_SND = 1 →
    answers (.soundCommit p f) s fun t =>
    t.net.commit = some (leAt f.payload 12 6, if s.sampleAt (leAt f.payload 12 6) ≤ s.ft then s.tickNo + 1 else leAt f.payload 12 6) ∧
    t.get FAB_NET_STAT_SND = 2) ∧
  (∀ (s : State) (k u : Nat) (a : Assign), s.Canon → s.isHarbour = false → s.net.commit = some (k, u) →
    s.net.staged = some a →
    answers .tableInstall s fun t => t.get FAB_NET_STAT_ADDR = a.addr % 256 ∧ t.flag FAB_NET_STAT_ASSIGNED = true ∧
    (∀ d : Fin 241, t.rdN (FAB_RTd d) = byteAt a.rt d &&& 0xF7) ∧ t.rdN FAB_COMMIT_TICK = k % 2 ^ 32 ∧
    t.get FAB_NET_STAT_SND = 0 ∧ t.net.commit = none ∧ t.net.staged = none) ∧
  (∀ (s : State) (k u : Nat) (a : Assign), s.Canon → s.isHarbour = true → a.addr = 0 → s.net.commit = some (k, u) →
    s.net.staged = some a →
    answers .tableInstall s fun t => t.get FAB_NET_STAT_ADDR = 0 ∧
    (∀ d : Fin 241, t.rdN (FAB_RTd d) = byteAt a.rt d &&& 0xF7) ∧ t.rdN FAB_COMMIT_TICK = k % 2 ^ 32 ∧
    t.net.commit = none ∧ t.net.staged = none) ∧
  (∀ (s : State) (k u : Nat), s.Canon → s.net.commit = some (k, u) → s.net.staged = none →
    answers .tableInstall s fun t => t.rdN FAB_COMMIT_TICK = k % 2 ^ 32 ∧ t.net.commit = none ∧
    (∀ d : Fin 241, t.rdN (FAB_RTd d) = s.rdN (FAB_RTd d))) ∧
  (∀ (s : State) (p : Fin 4) (f : Frame), s.Canon → s.soundable = true → Followed s f 0x15 → s.isHarbour = true →
    s.net.rnd.running = true → s.net.rnd.holdTill = none → s.net.commit = none →
    answers (.soundLinkev p f) s fun t => t.flag FAB_NET_STAT_TCHG = true ∧ t.net.rnd = s.net.rnd) ∧
  (∀ (s : State) (p : Fin 4) (f : Frame), s.Canon → s.soundable = true → Followed s f 0x15 → s.isHarbour = true →
    s.net.rnd.running = false → s.net.rnd.holdTill = none → s.net.commit = none →
    answers (.soundLinkev p f) s fun t => t.net.rnd.running = true ∧ t.net.rnd.number = (s.net.curRound + 1) % 65536) ∧
  (∀ (s : State) (p : Fin 4) (f : Frame) (n : Nat), s.Canon → s.soundable = true → Followed s f 0x15 →
    s.isHarbour = false → s.parentPort = some n →
    answers (.soundLinkev p f) s fun t => Queues t n 0x15 f.payload) ∧
  (∀ (s : State) (p : Fin 4) (f : Frame) (n : Fin 4), s.Canon → s.soundable = true → Followed s f 0x15 →
    s.isHarbour = false → s.parentPort = none → s.up n = true → s.role n = 0 →
    answers (.soundLinkev p f) s fun t => Queues t n 0x15 f.payload) ∧
  (∀ (s : State) (p : Fin 4) (f : Frame), s.Canon → s.soundable = true → Followed s f 0x16 → s.isHarbour = false →
    s.get FAB_NET_STAT_SND ≠ 0 →
    answers (.soundRestart p f) s fun t => t.get FAB_NET_STAT_SND = 0 ∧ t.net.staged = none ∧ t.net.commit = none) ∧
  (∀ (s : State) (u : Nat), s.net.rnd.holdTill = some u → s.net.rnd.wanted = false →
    answers .soundingHoldoffEnd s fun t => t.net.rnd = { s.net.rnd with holdTill := none } ∧ t.now = max s.now u) ∧
  (∀ (s : State) (u : Nat), s.Canon → s.soundable = true → s.isHarbour = true → s.net.rnd.holdTill = some u →
    s.net.rnd.wanted = true → s.net.rnd.running = false → s.net.commit = none →
    answers .soundingHoldoffEnd s fun t => t.net.rnd.running = true ∧ t.net.rnd.number = (s.net.curRound + 1) % 65536) ∧
  (∀ (s : State) (a : Fin 256) (e : AtEntry),
    (s.net.table.find? (fun e => e.addr == a.val && e.state == 2) = some e) →
    answers (.addressHoldExpiry a) s fun t => t.net.table = s.net.table.filter (fun x => x.addr != a.val) ∧
    t.now = max s.now e.holdEnd ∧ t.regs = s.regs) ∧
  (∀ (s : State) (i : Initiator) (v : Word), Granted s i FAB_NET_CTRL → s.mode = 4 → bitOf v.toNat 0 = false →
    bitOf v.toNat 1 = false →
    answers (.addressTableClear i v) s fun t => t.net.table = [] ∧ t.regs = s.regs ∧ endedWith t 0) ∧
  (∀ (s : State) (i : Initiator) (v : Word), Granted s i FAB_NET_CTRL → s.mode ≠ 4 → bitOf v.toNat 0 = false →
    bitOf v.toNat 1 = false →
    answers (.addressTableClear i v) s fun t => t.net = s.net ∧ t.regs = s.regs)

/-- After listening, on takeover by the host and on loss of the harbour the part becomes the active harbour with the next TERM, address 0x00 and a round -/
def Obligations.HarbourRole : Prop :=
  (∀ (s : State) (u : Nat), s.Canon → s.net.listenTill = some u →
    answers .harbourListenEnd s fun t => t.isHarbour = true ∧ t.get FAB_NET_STAT_ADDR = 0 ∧
    t.get FAB_TERM_TERM = max 1 ((max s.net.highTerm (s.get FAB_TERM_TERM) + 1) % 65536) ∧
    t.get64 FAB_HUID_LO = s.uid ∧ t.net.rnd.running = s.soundable ∧ t.now = max s.now u) ∧
  (∀ (s : State) (v : Word), s.Canon → Granted s .remoteHost FAB_NET_CTRL → s.isHarbour = false →
    s.flag FAB_NET_STAT_STANDBY = true →
    answers (.netTakeover .remoteHost v) s fun t => t.isHarbour = true ∧ t.get FAB_NET_STAT_ADDR = 0 ∧
    t.get FAB_TERM_TERM = max 1 ((max s.net.highTerm (s.get FAB_TERM_TERM) + 1) % 65536) ∧
    t.get64 FAB_HUID_LO = s.uid ∧ t.net.rnd.running = s.soundable ∧ endedWith t 0) ∧
  (∀ (s : State) (i : Initiator) (v : Word), Granted s i FAB_NET_CTRL → s.isHarbour = false →
    s.flag FAB_NET_STAT_STANDBY = false → bitOf v.toNat 2 = false →
    answers (.netTakeover i v) s fun t => t.net = s.net ∧ t.regs = s.regs) ∧
  (∀ (s : State), s.Canon → s.flag FAB_NET_STAT_STANDBY = true → s.flag FAB_NET_CFG_AUTO = true →
    answers .harbourLoss s fun t => t.isHarbour = true ∧ t.get FAB_NET_STAT_ADDR = 0 ∧
    t.get FAB_TERM_TERM = max 1 ((max s.net.highTerm (s.get FAB_TERM_TERM) + 1) % 65536) ∧
    t.get64 FAB_HUID_LO = s.uid ∧ t.net.rnd.running = s.soundable ∧
    s.net.heardAt + s.getIn FAB_HBR_CFG_LOSS_MS 2 1000 * ms ≤ t.now) ∧
  (∀ (s : State), (s.flag FAB_NET_STAT_STANDBY = false ∨ s.flag FAB_NET_CFG_AUTO = false) →
    answers .harbourLoss s fun t => t = s)

/-- A new remote request is performed and remembered, a repeated one is not performed again; slots complete with the status of the answer, 0x80 or 0x81 -/
def Obligations.RemoteAccess : Prop :=
  (∀ (s : State) (p : Fin 4) (f : Frame) (a : Nat), s.Canon → f.typ = 0x20 →
    s.isRepeat f.src (bitOf (frameTag f) 15) f.seq = false → s.recovering = false → NoSteps s → s.mgt.upd = none →
    byteAt f.payload 2 = 1 → byteAt f.payload 3 = 1 → a = leAt f.payload 4 4 → a % 4 = 0 → lagoon ≤ a →
    a < 0x13000000 → s.accessCode (s.serveAs p f) a true = 0 →
    answers (.raRequest p f) s fun t => t.memLE a 4 = leAt f.payload 8 4 ∧
    (t.net.served.head?.map fun x => (x.src, x.host, x.high)) = some (f.src, bitOf (frameTag f) 15, f.seq) ∧
    (t.net.served.head?.map fun x => x.rsp.head?.map fun y => y.2.1) = some (some (f.payload.take 2 ++ leBytes 1 0 ++ leBytes 1 1 ++ (f.payload.drop 4).take 4)) ∧
    t.psf = s.psf) ∧
  (∀ (s : State) (p : Fin 4) (f : Frame) (a b : Nat), s.Canon → f.typ = 0x20 →
    s.isRepeat f.src (bitOf (frameTag f) 15) f.seq = false → s.recovering = false → NoSteps s → s.mgt.upd = none →
    byteAt f.payload 2 = 1 → byteAt f.payload 3 = 1 → a = leAt f.payload 4 4 → a % 4 = 0 → lagoon ≤ a →
    a < 0x13000000 → s.accessCode (s.serveAs p f) a true = 0 → (b < a ∨ a + 4 ≤ b) →
    answers (.raRequest p f) s fun t => t.memLE b 1 = s.memLE b 1) ∧
  (∀ (s : State) (p : Fin 4) (f : Frame), s.Canon → f.typ = 0x20 →
    s.isRepeat f.src (bitOf (frameTag f) 15) f.seq = false → s.recovering = false → NoSteps s →
    byteAt f.payload 2 = 0 → byteAt f.payload 3 = 1 → s.accessCode (s.serveAs p f) (leAt f.payload 4 4) false = 0 →
    answers (.raRequest p f) s fun t => t.mem = s.mem ∧
    (t.net.served.head?.map fun x => (x.src, x.host, x.high)) = some (f.src, bitOf (frameTag f) 15, f.seq)) ∧
  (∀ (s : State) (p : Fin 4) (f : Frame), NoSteps s → f.typ = 0x20 →
    s.isRepeat f.src (bitOf (frameTag f) 15) f.seq = true →
    answers (.raRequest p f) s fun t => t.mem = s.mem ∧ t.net.served = s.net.served ∧ t.psf = s.psf) ∧
  (∀ (s : State) (p : Fin 4) (f : Frame) (k : Nat) (r : RaSlot), s.Canon → s.slotOf f 0x20 = some (k, r) →
    answers (.raResponse p f) s fun t => t.get (FAB_RASs_STAT_STATE k) = 2 ∧
    t.get (FAB_RASs_STAT_CODE k) = (if byteAt r.frame.payload 2 = 0 ∧ byteAt f.payload 2 = 0 ∧ byteAt r.frame.payload 3 ≠ 1 then s.storeCode (s.slotBuf k) ((f.payload.drop 8).take (4 * byteAt r.frame.payload 3)).length else byteAt f.payload 2) ∧
    t.slot k = none ∧
    (byteAt r.frame.payload 2 = 0 ∧ byteAt f.payload 2 = 0 ∧ byteAt r.frame.payload 3 = 1 → t.rdN (FAB_RASs_RDATA k) = leAt f.payload 8 4)) ∧
  (∀ (s : State) (k : Fin 16) (r : RaSlot), s.Canon → s.slot k = some r → r.sends ≠ 0 →
    r.sends ≤ s.getIn FAB_RA_CFG_TRIES 0 7 →
    answers (.raTimeout k) s fun t => t.slot k = some { r with sentAt := t.now, sends := r.sends + 1 } ∧
    t.now = max s.now (r.sentAt + s.getIn FAB_RA_CFG_TMO_MS 1 100 * ms) ∧
    t.get FAB_RA_CNT1_RETRY = oneMore s FAB_RA_CNT1_RETRY ∧
    t.get (FAB_RASs_STAT_STATE k) = s.get (FAB_RASs_STAT_STATE k)) ∧
  (∀ (s : State) (k : Fin 16) (r : RaSlot), s.Canon → s.slot k = some r → r.sends ≠ 0 →
    s.getIn FAB_RA_CFG_TRIES 0 7 < r.sends →
    answers (.raTimeout k) s fun t => t.slot k = none ∧ t.get FAB_RA_CNT1_TMO = oneMore s FAB_RA_CNT1_TMO ∧
    t.get (FAB_RASs_STAT_STATE k) = 2 ∧ t.get (FAB_RASs_STAT_CODE k) = 0x80) ∧
  (∀ (s : State) (k : Fin 16) (i : Initiator) (v : Word), s.Canon → s.sealed = false →
    Granted s i (FAB_RASs_CTRL k) → s.slot k = none → s.hasRoute (v.toNat % 256) = false →
    answers (.raSlotGo k i v) s fun t => t.slot k = none ∧ t.get (FAB_RASs_STAT_STATE k) = 2 ∧
    t.get (FAB_RASs_STAT_CODE k) = 0x81 ∧ endedWith t 0) ∧
  (∀ (s : State) (k : Fin 16) (i : Initiator) (v : Word), s.Canon → s.sealed = false →
    Granted s i (FAB_RASs_CTRL k) → s.slot k = none → s.hasRoute (v.toNat % 256) = true →
    answers (.raSlotGo k i v) s fun t => ((t.slot k).map fun r => r.frame.dst) = some (v.toNat % 256) ∧
    t.get (FAB_RASs_STAT_STATE k) = 1 ∧ t.bit FAB_RA_STAT_BUSY k = true ∧ endedWith t 0) ∧
  (∀ (s : State) (k : Fin 16) (i : Initiator) (v : Word), Granted s i (FAB_RASs_CTRL k) → (s.slot k).isSome = true →
    answers (.raSlotGo k i v) s fun t => t.net = s.net ∧
    t.get (FAB_RASs_STAT_STATE k) = s.get (FAB_RASs_STAT_STATE k) ∧ endedWith t 0) ∧
  (∀ (s : State) (p : Fin 4) (f : Frame), s.net.streams = [] →
    streamRange (leAt f.payload 4 4) (leAt f.payload 8 4) = true → s.domOn 8 = true →
    answers (.memReadRequest p f) s fun t =>
    t.net.streams = [{ dst := f.src, tag := frameTag f, addr := leAt f.payload 4 4, len := leAt f.payload 8 4, done := 0, port := s.answerPort p f }] ∧
    t.mem = s.mem) ∧
  (∀ (s : State) (p : Fin 4) (f : Frame), streamRange (leAt f.payload 4 4) (leAt f.payload 8 4) = false →
    answers (.memReadRequest p f) s fun t => t.net.streams = s.net.streams ∧ t.mem = s.mem) ∧
  (∀ (s : State) (p : Fin 4) (f : Frame) (k : Nat) (r : RaSlot), s.Canon → s.slotOf f 0x30 = some (k, r) →
    byteAt f.payload 2 = 0 → s.storeCode (s.slotBuf k + (r.base + leAt f.payload 4 4)) (f.payload.drop 8).length ≠ 0 →
    answers (.memReadData p f) s fun t => t.slot k = none ∧ t.get (FAB_RASs_STAT_STATE k) = 2 ∧
    t.get (FAB_RASs_STAT_CODE k) = s.storeCode (s.slotBuf k + (r.base + leAt f.payload 4 4)) (f.payload.drop 8).length) ∧
  (∀ (s : State) (p : Fin 4) (f : Frame) (k : Nat) (r : RaSlot), s.Canon → s.slotOf f 0x30 = some (k, r) →
    byteAt f.payload 2 ≠ 0 →
    answers (.memReadData p f) s fun t => t.slot k = none ∧ t.get (FAB_RASs_STAT_STATE k) = 2 ∧
    t.get (FAB_RASs_STAT_CODE k) = byteAt f.payload 2) ∧
  (∀ (s : State) (p : Fin 4) (f : Frame) (k : Nat) (r : RaSlot), s.Canon → s.slotOf f 0x30 = some (k, r) →
    byteAt f.payload 2 = 0 → byteAt f.payload 3 = 0 →
    s.storeCode (s.slotBuf k + (r.base + leAt f.payload 4 4)) (f.payload.drop 8).length = 0 →
    answers (.memReadData p f) s fun t =>
    t.slot k = some { r with got := addRange (r.base + leAt f.payload 4 4) (r.base + leAt f.payload 4 4 + (f.payload.drop 8).length) r.got, sentAt := s.now } ∧
    t.memBytes (lagoon + (s.slotBuf k + (r.base + leAt f.payload 4 4))) (f.payload.drop 8).length = f.payload.drop 8) ∧
  (∀ (s : State) (p : Fin 4) (f : Frame) (k : Nat) (r : RaSlot), s.Canon → s.slotOf f 0x30 = some (k, r) →
    byteAt f.payload 2 = 0 → byteAt f.payload 3 ≠ 0 →
    s.storeCode (s.slotBuf k + (r.base + leAt f.payload 4 4)) (f.payload.drop 8).length = 0 →
    firstGap r.len (addRange (r.base + leAt f.payload 4 4) (r.base + leAt f.payload 4 4 + (f.payload.drop 8).length) r.got) = none →
    answers (.memReadData p f) s fun t => t.slot k = none ∧ t.get (FAB_RASs_STAT_STATE k) = 2 ∧
    t.get (FAB_RASs_STAT_CODE k) = 0) ∧
  (∀ (s : State) (p : Fin 4) (f : Frame) (k : Nat) (r : RaSlot) (lo hi : Nat), s.Canon →
    s.slotOf f 0x30 = some (k, r) → byteAt f.payload 2 = 0 → byteAt f.payload 3 ≠ 0 →
    s.storeCode (s.slotBuf k + (r.base + leAt f.payload 4 4)) (f.payload.drop 8).length = 0 →
    firstGap r.len (addRange (r.base + leAt f.payload 4 4) (r.base + leAt f.payload 4 4 + (f.payload.drop 8).length) r.got) = some (lo, hi) →
    answers (.memReadData p f) s fun t =>
    (t.slot k).map (fun x => (x.base, x.sends, x.frame.payload)) = some (lo, 1, r.frame.payload.take 4 ++ leBytes 4 (r.addr + lo) ++ leBytes 4 (hi - lo)))

/-- Any initiator raises source 19 by SET; only a privileged one withdraws it by CLR; a write of both leaves it standing -/
def Obligations.OffRequestBySoftware : Prop :=
  (∀ (s : State) (i : Initiator) (v : Word), s.Canon → Granted s i PSF_OFFREQ →
    answers (.offreqSet i v) s fun t => t.demand 19 = true ∧
    (s.privileged i = true ∨ bitOf v.toNat 1 = false → endedWith t 0)) ∧
  (∀ (s : State) (i : Initiator) (v : Word), s.Canon → Granted s i PSF_OFFREQ → s.privileged i = true →
    bitOf v.toNat 0 = false →
    answers (.offreqClr i v) s fun t => t.demand 19 = false ∧ endedWith t 0) ∧
  (∀ (s : State) (i : Initiator) (v : Word), s.Canon → Granted s i PSF_OFFREQ → s.privileged i = false →
    bitOf v.toNat 0 = false → s.demand 19 = true →
    answers (.offreqClr i v) s fun t => t.demand 19 = true)

/-- A latched source is withdrawn by a privileged clear once its cause has released; the safety inputs follow their loops and raise and end their faults -/
def Obligations.DemandsAndSafetyInputs : Prop :=
  (∀ (s : State) (i : Initiator) (v : Word) (b : Nat), s.Canon → Granted s i PSF_DEM_CLR → s.privileged i = true →
    b ∈ [4, 5, 9, 13, 15, 16, 17, 18] → bitOf v.toNat b = true → bitOf s.psf.cause b = false →
    (b = 16 → s.hazardQuiet = true) →
    answers (.demandClear i v) s fun t => t.demand b = false ∧ endedWith t 0) ∧
  (∀ (s : State) (i : Initiator) (v : Word) (b : Nat), s.Canon → Granted s i PSF_DEM_CLR →
    b ∈ [4, 5, 9, 13, 15, 16, 17, 18] → bitOf s.psf.cause b = true →
    answers (.demandClear i v) s fun t => t.demand b = s.demand b) ∧
  (∀ (s : State) (i : Initiator) (v : Word) (b : Nat), s.Canon → s.collectorOn = true → Granted s i PSF_DEM_CLR →
    s.privileged i = false → s.demand b = true →
    answers (.demandClear i v) s fun t => t.demand b = true ∧ Stands t 6 1 i.code) ∧
  (∀ (s : State), s.Canon → s.flag PSF_HB_STAT_LOST = false →
    answers .heartbeatLost s fun t => t.demand 17 = true ∧ t.flag PSF_HB_STAT_LOST = true ∧
    t.get PSF_HB_STAT_N = oneMore s PSF_HB_STAT_N) ∧
  (∀ (s : State), s.Canon → s.collectorOn = true → s.flag PSF_HB_STAT_LOST = true →
    answers .heartbeatRestored s fun t => t.flag PSF_HB_STAT_LOST = false ∧ bitOf t.psf.cause 17 = false ∧
    t.demand 17 = s.demand 17 ∧ Stands t 6 0x14 0) ∧
  (∀ (s : State) (k : Fin 2), s.Canon → s.monitored k = true → (k = 1 → s.psf.selfCycle = none) →
    answers (.safetyInputChange k false) s fun t => t.flag (PSF_SIi_STAT_CLOSED k) = false ∧
    t.flag (PSF_SIi_STAT_DEMAND k) = true ∧ bitOf t.psf.cause (13 + k) = true ∧ t.demand (13 + k) = true ∧
    vget t.psf.closed k true = false) ∧
  (∀ (s : State), s.Canon → s.monitored 1 = true → s.psf.selfCycle = none → s.ownFault 1 = false →
    s.getIn PSF_CHATTER_MAX_MAX 2 255 ≥ (vget s.psf.trans 1 []).length + 1 →
    answers (.safetyInputChange 1 true) s fun t => t.flag (PSF_SIi_STAT_CLOSED 1) = true ∧ t.demand 14 = false) ∧
  (∀ (s : State) (k : Fin 2) (b : Bool), s.Canon → s.monitored k = true → (k = 1 → s.psf.selfCycle = none) →
    answers (.safetyInputChange k b) s fun t => vget t.psf.closed k (!b) = b ∧
    t.get (PSF_SIi_CNT_TRANS k) = (if vget s.psf.closed k false = b then s.get (PSF_SIi_CNT_TRANS k) else oneMore s (PSF_SIi_CNT_TRANS k)) ∧
    t.now = (if vget s.psf.closed k false = b then s.now else max s.now (vget s.psf.levelAt k 0 + s.debounce k))) ∧
  (∀ (s : State), s.Canon → s.monitored 1 = true → s.psf.selfCycle = none → s.psf.ilkOpen = true →
    answers (.safetyInputChange 1 true) s fun t => vget s.psf.closed 1 false = false → t.flag PSF_STAT_ILK_SEEN = true) ∧
  (∀ (s : State), s.Canon → s.monitored 1 = true → s.psf.selfCycle = none → s.psf.cycOpen = true →
    s.flag PSF_STAT_LOCKOUT = true → vget s.psf.closed 1 false = false →
    answers (.safetyInputChange 1 true) s fun t => t.flag PSF_LOCKOUT_STAT_ILKCYC = true) ∧
  (∀ (s : State) (k : Fin 2) (b : Bool), s.Canon → s.collectorOn = true → s.monitored k = true →
    (k = 1 → s.psf.selfCycle = none) → vget s.psf.closed k false ≠ b → s.flag (PSF_SIi_STAT_CHAT k) = false →
    (s.getIn PSF_CHATTER_MAX_MAX 2 255 ≤ ((vget s.psf.trans k []).filter fun u => decide (max s.now (vget s.psf.levelAt k 0 + s.debounce k) < u + s.getIn PSF_CHATTER_MAX_WIN 100 60000 * ms)).length) →
    answers (.safetyInputChange k b) s fun t => t.flag (PSF_SIi_STAT_CHAT k) = true ∧ t.demand 15 = true ∧
    t.demand (13 + k) = true ∧ Stands t 6 0x12 k ∧ t.get (PSF_SIi_CNT_FLT k) = oneMore s (PSF_SIi_CNT_FLT k)) ∧
  (∀ (s : State) (u : Nat) (b : Bool), s.Canon → s.monitored 1 = true → s.psf.selfCycle = some u →
    answers (.safetyInputChange 1 b) s fun t => vget t.psf.closed 1 (!b) = b ∧
    t.rdN PSF_DEM_STAT = s.rdN PSF_DEM_STAT ∧ (b = false → t.now ≤ u + s.selfTime → t.psf.selfOpen = true) ∧
    (b = true → s.psf.selfOpen = true → t.now ≤ u + 2 * s.selfTime → t.psf.selfClosed = true)) ∧
  (∀ (s : State), s.loopsFed = true → s.psf.darkAt = none →
    answers .darkPulse s fun t => t.psf = { s.psf with dark := some s.now, darkAt := some s.now } ∧ t.regs = s.regs ∧
    t.now = s.now) ∧
  (∀ (s : State) (u : Nat), s.loopsFed = true → s.psf.darkAt = some u →
    answers .darkPulse s fun t => t.now = max s.now (u + s.getIn (PSF_SIi_CFG_TP 0) 10 1000 * ms) ∧
    t.psf = { s.psf with dark := some t.now, darkAt := some t.now } ∧ t.regs = s.regs) ∧
  (∀ (s : State) (u : Nat), s.Canon → s.collectorOn = true → s.psf.dark = some u → s.ownFault 0 = false →
    answers (.darkPulseEnd true) s fun t => t.flag (PSF_SIi_STAT_XFEED 0) = true ∧ t.demand 15 = true ∧
    t.demand 13 = true ∧ Stands t 6 0x12 0 ∧ t.now = max s.now (u + 200 * us)) ∧
  (∀ (s : State) (u : Nat), s.Canon → s.psf.dark = some u →
    answers (.darkPulseEnd false) s fun t => t.flag (PSF_SIi_STAT_XFEED 0) = false ∧ t.psf.dark = none ∧
    t.demand 15 = s.demand 15) ∧
  (∀ (s : State) (a b : BitVec 16), s.Canon → s.collectorOn = true → s.loopsFed = true →
    200 < max a.toNat b.toNat - min a.toNat b.toNat → s.ownFault 1 = false → s.flag (PSF_SIi_STAT_RBERR 1) = false →
    answers (.ilkReadback a b) s fun t => t.flag (PSF_SIi_STAT_RBERR 1) = true ∧ t.demand 15 = true ∧
    t.demand 14 = true ∧ Stands t 6 0x12 1 ∧ t.get (PSF_SIi_RB_SRC 1) = a.toNat ∧ t.get (PSF_SIi_RB_RET 1) = b.toNat ∧
    t.now = max s.now (s.psf.rbAt + s.debounce 1)) ∧
  (∀ (s : State) (a b : BitVec 16), s.Canon → s.loopsFed = true → max a.toNat b.toNat - min a.toNat b.toNat ≤ 200 →
    answers (.ilkReadback a b) s fun t => t.flag (PSF_SIi_STAT_RBERR 1) = s.flag (PSF_SIi_STAT_RBERR 1) ∧
    t.rdN PSF_DEM_STAT = s.rdN PSF_DEM_STAT ∧ t.get (PSF_SIi_RB_SRC 1) = a.toNat ∧ t.get (PSF_SIi_RB_RET 1) = b.toNat) ∧
  (∀ (s : State) (a b : BitVec 16), s.Canon → s.loopsFed = true → max a.toNat b.toNat - min a.toNat b.toNat ≤ 200 →
    answers (.readbackAgreement a b) s fun t => t.flag (PSF_SIi_STAT_RBERR 1) = false ∧
    t.get (PSF_SIi_RB_SRC 1) = a.toNat ∧ t.get (PSF_SIi_RB_RET 1) = b.toNat ∧
    (s.flag (PSF_SIi_STAT_RBERR 1) = true → s.ownFault 0 = false → s.flag (PSF_SIi_STAT_CHAT 1) = false → bitOf t.psf.cause 15 = false)) ∧
  (∀ (s : State) (k : Fin 2), s.Canon → s.flag (PSF_SIi_STAT_CHAT k) = true → vget s.psf.closed k false = true →
    answers (.chatterQuiet k) s fun t => t.flag (PSF_SIi_STAT_CHAT k) = false ∧
    t.now = max s.now ((vget s.psf.trans k []).head?.getD 0 + s.getIn PSF_CHATTER_MAX_WIN 100 60000 * ms))

/-- MC arms when every check of Table 11.5 holds and is refused with the code otherwise; outputs come on by MC only, go off by anyone and are tested -/
def Obligations.ArmingAndOutputs : Prop :=
  (∀ (s : State) (v : Word) (fb : BitVec 3) (c : Nat), s.Canon → Granted s (.engine 15) PSF_ARM →
    s.flag PSF_ARM_STAT_PEND = false → bitOf v.toNat 1 = false → s.armFirst = some c →
    answers (.armRequest (.engine 15) v fb) s fun t => t.get PSF_ARM_STAT_CODE = c ∧
    t.flag PSF_STAT_ARMED = s.flag PSF_STAT_ARMED ∧ t.get PSF_ARM_STAT_REF = oneMore s PSF_ARM_STAT_REF) ∧
  (∀ (s : State) (v : Word) (fb : BitVec 3), s.Canon → Granted s (.engine 15) PSF_ARM →
    s.flag PSF_ARM_STAT_PEND = false → bitOf v.toNat 1 = false → s.armFirst = none → s.flag PSF_STAT_ILK_SEEN = true →
    s.rdN PSF_DEM_STAT = 0 → s.fbAny fb = false →
    answers (.armRequest (.engine 15) v fb) s fun t => t.flag PSF_STAT_ARMED = true ∧ t.get PSF_ARM_STAT_CODE = 0 ∧
    t.flag PSF_ARM_STAT_PEND = false ∧ endedWith t 0) ∧
  (∀ (s : State) (v : Word) (fb : BitVec 3), s.Canon → Granted s (.engine 15) PSF_ARM →
    s.flag PSF_ARM_STAT_PEND = false → bitOf v.toNat 1 = false → s.armFirst = none →
    s.flag PSF_STAT_ILK_SEEN = false → s.flag PSF_ILK_SELFTEST_EN = false →
    answers (.armRequest (.engine 15) v fb) s fun t => t.get PSF_ARM_STAT_CODE = 5 ∧
    t.flag PSF_STAT_ARMED = s.flag PSF_STAT_ARMED ∧ t.get PSF_ARM_STAT_REF = oneMore s PSF_ARM_STAT_REF) ∧
  (∀ (s : State) (v : Word) (fb : BitVec 3), s.Canon → Granted s (.engine 15) PSF_ARM →
    s.flag PSF_ARM_STAT_PEND = true → bitOf v.toNat 1 = false →
    answers (.armRequest (.engine 15) v fb) s fun t => t.regs = s.regs ∧ t.psf = s.psf ∧ endedWith t 0) ∧
  (∀ (s : State) (i : Initiator) (v : Word) (fb : BitVec 3), s.Canon → Granted s i PSF_ARM → s.privileged i = true →
    bitOf v.toNat 1 = true →
    answers (.armRequest i v fb) s fun t => t.flag PSF_STAT_ARMED = false) ∧
  (∀ (s : State) (v : Word) (fb : BitVec 3), s.Canon → Granted s (.engine 15) PSF_ARM →
    s.flag PSF_ARM_STAT_PEND = false → bitOf v.toNat 1 = false → s.armFirst = none → s.flag PSF_STAT_ILK_SEEN = true →
    (s.rdN PSF_DEM_STAT ≠ 0 ∨ s.fbAny fb = true) →
    answers (.armRequest (.engine 15) v fb) s fun t =>
    t.get PSF_ARM_STAT_CODE = (if s.rdN PSF_DEM_STAT ≠ 0 then 6 else 7) ∧
    t.flag PSF_STAT_ARMED = s.flag PSF_STAT_ARMED ∧
    (∀ o : Fin 3, t.flag (PSF_OUTo_STAT_FB o) = s.fbReads o (bitOf fb.toNat o))) ∧
  (∀ (s : State) (v : Word) (fb : BitVec 3), s.Canon → Granted s (.engine 15) PSF_ARM →
    s.flag PSF_ARM_STAT_PEND = false → bitOf v.toNat 1 = false → s.armFirst = none →
    s.flag PSF_STAT_ILK_SEEN = false → s.flag PSF_ILK_SELFTEST_EN = true →
    answers (.armRequest (.engine 15) v fb) s fun t => t.flag PSF_ARM_STAT_PEND = true ∧
    t.psf.selfCycle = some s.now ∧ t.demand 14 = true) ∧
  (∀ (s : State) (i : Initiator) (v : Word) (fb : BitVec 3), s.Canon → s.collectorOn = true → Granted s i PSF_ARM →
    isMC i = false → bitOf v.toNat 1 = false →
    answers (.armRequest i v fb) s fun t => Stands t 6 1 i.code ∧ t.flag PSF_STAT_ARMED = s.flag PSF_STAT_ARMED) ∧
  (∀ (s : State) (fb : BitVec 3) (u : Nat), s.Canon → s.psf.selfCycle = some u → s.psf.selfClosed = true →
    answers (.ilkSelfCycleEnd fb) s fun t => t.flag PSF_STAT_ILK_SEEN = true ∧ t.flag PSF_STAT_ILK_SELF = true ∧
    t.psf.selfCycle = none ∧ t.flag PSF_ARM_STAT_PEND = false) ∧
  (∀ (s : State) (fb : BitVec 3) (u : Nat), s.Canon → s.psf.selfCycle = some u → s.psf.selfClosed = true →
    vget s.psf.closed 1 false = true → s.ownFault 1 = false → s.armFirst = none →
    (∀ b : Fin 32, s.demand b = true → b = 14) → s.fbAny fb = false →
    answers (.ilkSelfCycleEnd fb) s fun t => t.flag PSF_STAT_ARMED = true ∧ t.get PSF_ARM_STAT_CODE = 0 ∧
    t.rdN PSF_DEM_STAT = 0) ∧
  (∀ (s : State) (fb : BitVec 3) (u : Nat), s.Canon → s.psf.selfCycle = some u → s.psf.selfClosed = false →
    answers (.ilkSelfCycleEnd fb) s fun t => t.get PSF_ARM_STAT_CODE = 8 ∧ t.flag PSF_ARM_STAT_PEND = false ∧
    t.now = max s.now (u + (if s.psf.selfOpen then 2 else 1) * s.selfTime) ∧
    t.flag PSF_STAT_ARMED = s.flag PSF_STAT_ARMED) ∧
  (∀ (s : State) (i : Initiator) (v : Word), s.Canon → Granted s i PSF_ARM → s.privileged i = true →
    s.flag PSF_STAT_ARMED = true →
    answers (.armDisable i v) s fun t => t.flag PSF_STAT_ARMED = false ∧ t.get PSF_OUT_CMD_ON = 0 ∧
    (∀ o : Fin 3, t.flag (PSF_OUTo_STAT_ON o) = false) ∧ (bitOf v.toNat 0 = false → endedWith t 0)) ∧
  (∀ (s : State) (i : Initiator) (v : Word), s.Canon → s.collectorOn = true → Granted s i PSF_ARM →
    s.privileged i = false →
    answers (.armDisable i v) s fun t => t.flag PSF_STAT_ARMED = s.flag PSF_STAT_ARMED ∧ Stands t 6 1 i.code) ∧
  (∀ (s : State) (v : Word) (o : Fin 3), s.Canon → Granted s (.engine 15) PSF_OUT_CMD →
    s.flag PSF_STAT_ARMED = true → s.rdN PSF_DEM_STAT = 0 → s.pulsing = false → bitOf v.toNat o = true →
    bitOf v.toNat (o + 4) = false →
    answers (.outputOnWrite (.engine 15) v) s fun t => t.bit PSF_OUT_CMD_ON o = true ∧
    t.flag (PSF_OUTo_STAT_ON o) = true ∧ endedWith t 0) ∧
  (∀ (s : State) (v : Word) (o : Fin 3), s.Canon → Granted s (.engine 15) PSF_OUT_CMD →
    (s.flag PSF_STAT_ARMED = false ∨ s.rdN PSF_DEM_STAT ≠ 0) → bitOf v.toNat o = true →
    bitOf v.toNat (o + 4) = false →
    answers (.outputOnWrite (.engine 15) v) s fun t => t.bit PSF_OUT_CMD_ON o = false ∧
    t.flag (PSF_OUTo_STAT_ON o) = false ∧ t.get (PSF_OUTo_SWCNT_REF o) = oneMore s (PSF_OUTo_SWCNT_REF o)) ∧
  (∀ (s : State) (v : Word) (o : Fin 3), s.Canon → Granted s (.engine 15) PSF_OUT_CMD →
    s.flag PSF_STAT_ARMED = true → s.rdN PSF_DEM_STAT = 0 → s.pulsing = true → bitOf v.toNat o = true →
    bitOf v.toNat (o + 4) = false → s.bit PSF_OUT_CMD_ON o = false →
    answers (.outputOnWrite (.engine 15) v) s fun t => t.bit PSF_OUT_CMD_ON o = false ∧ bitOf t.psf.onLater o = true) ∧
  (∀ (s : State) (i : Initiator) (v : Word) (o : Fin 3), s.Canon → s.collectorOn = true → Granted s i PSF_OUT_CMD →
    isMC i = false → bitOf v.toNat o = true → s.bit PSF_OUT_CMD_ON o = false →
    answers (.outputOnWrite i v) s fun t => t.bit PSF_OUT_CMD_ON o = false ∧ Stands t 6 1 i.code) ∧
  (∀ (s : State) (i : Initiator) (v : Word), s.Canon → Granted s i PSF_OUT_CMD → isMC i = false →
    v.toNat / 16 % 8 = 0 →
    answers (.outputOnWrite i v) s fun t => t.get PSF_OUT_CMD_ON = s.get PSF_OUT_CMD_ON) ∧
  (∀ (s : State) (i : Initiator) (v : Word) (o : Fin 3), s.Canon → Granted s i PSF_OUT_CMD →
    bitOf v.toNat (o + 4) = true →
    answers (.outputOffWrite i v) s fun t => t.bit PSF_OUT_CMD_ON o = false ∧ t.flag (PSF_OUTo_STAT_ON o) = false) ∧
  (∀ (s : State) (o : Fin 3) (above : Bool) (level : BitVec 16), s.Canon → s.collectorOn = true →
    s.flag (PSF_OUTo_STAT_ON o) ≠ s.fbReads o above → (s.pulseOf o).reported = false → (s.pulseOf o).start = none →
    answers (.outputFault o above level) s fun t => t.demand 20 = true ∧ t.flag PSF_STAT_LOCKOUT = true ∧
    Stands t 6 0x13 o ∧
    (if s.fbReads o above then t.flag (PSF_OUTo_FLT_STATIC_ON o) = true else t.flag (PSF_OUTo_FLT_STATIC_OFF o) = true) ∧
    t.get (PSF_OUTo_FB_V o) = level.toNat ∧ t.now = max s.now (vget s.psf.fbAt o 0 + s.fbTime o) ∧
    (s.flag PSF_STAT_LOCKOUT = false → t.get PSF_LOCKOUT_STAT_CAUSE = 1 ∧ t.get PSF_LOCKOUT_STAT_OUT = o ∧ t.flag PSF_STAT_ARMED = false)) ∧
  (∀ (s : State) (o : Fin 3) (above : Bool) (level : BitVec 16), s.Canon → s.mode ≠ 0 →
    s.flag (PSF_OUTo_STAT_ON o) = s.fbReads o above →
    answers (.outputFault o above level) s fun t => t.rdN PSF_DEM_STAT = s.rdN PSF_DEM_STAT ∧
    t.flag (PSF_OUTo_STAT_FB o) = s.fbReads o above ∧ t.get (PSF_OUTo_FB_V o) = level.toNat ∧
    (t.pulseOf o).reported = false) ∧
  (∀ (s : State) (o : Fin 3), s.Canon → s.flag (PSF_OUTo_STAT_ON o) = true → s.pulsing = false →
    answers (.offPulse o) s fun t => t.flag (PSF_OUTo_STAT_ON o) = false ∧ t.flag (PSF_OUTo_STAT_PULSE o) = true ∧
    (t.pulseOf o).start = some t.now ∧ max (s.pulseOf o).onSince (s.pulseOf o).last + s.pulsePer ≤ t.now) ∧
  (∀ (s : State) (o : Fin 3) (u : Nat) (level : BitVec 16), s.Canon → (s.pulseOf o).start = some u →
    (∀ k : Fin 3, k ≠ o → (s.pulseOf k).start = none) → (s.pulseOf o).discard = false → s.flag PSF_STAT_ARMED = true →
    s.rdN PSF_DEM_STAT = 0 → s.bit PSF_OUT_CMD_ON o = true →
    answers (.offPulseEnd false level) s fun t => t.get (PSF_OUTo_PTCNT_PASS o) = oneMore s (PSF_OUTo_PTCNT_PASS o) ∧
    t.flag (PSF_OUTo_STAT_ON o) = true ∧ t.flag (PSF_OUTo_STAT_PULSE o) = false ∧ t.now = max s.now (u + s.pulseW)) ∧
  (∀ (s : State) (o : Fin 3) (u : Nat) (level : BitVec 16), s.Canon → s.collectorOn = true →
    (s.pulseOf o).start = some u → (∀ k : Fin 3, k ≠ o → (s.pulseOf k).start = none) → (s.pulseOf o).discard = false →
    answers (.offPulseEnd true level) s fun t => t.get (PSF_OUTo_PTCNT_FAIL o) = oneMore s (PSF_OUTo_PTCNT_FAIL o) ∧
    t.demand 20 = true ∧ t.flag PSF_STAT_LOCKOUT = true ∧ Stands t 6 0x13 o) ∧
  (∀ (s : State) (o : Fin 3) (u : Nat) (fbOn : Bool) (level : BitVec 16), s.Canon → (s.pulseOf o).start = some u →
    (∀ k : Fin 3, k ≠ o → (s.pulseOf k).start = none) → (s.pulseOf o).discard = true →
    answers (.offPulseEnd fbOn level) s fun t => t.get (PSF_OUTo_PTCNT_DISC o) = oneMore s (PSF_OUTo_PTCNT_DISC o) ∧
    t.get (PSF_OUTo_PTCNT_PASS o) = s.get (PSF_OUTo_PTCNT_PASS o))

/-- The lockout key is taken in order and in time, a wrong word clears it, and lockout is left once every condition holds -/
def Obligations.LockoutIsLeftByKeyAndCycle : Prop :=
  (∀ (s : State) (i : Initiator) (v : Word), Granted s i PSF_LOCKOUT_KEY → s.privileged i = true →
    s.flag PSF_STAT_LOCKOUT = true → v.toNat % 65536 = 0x5A17 →
    answers (.lockoutKey i v) s fun t => t.psf.key1 = some s.now ∧ t.regs = s.regs ∧ endedWith t 0) ∧
  (∀ (s : State) (i : Initiator) (v : Word) (u : Nat), s.Canon → Granted s i PSF_LOCKOUT_KEY →
    s.privileged i = true → s.flag PSF_STAT_LOCKOUT = true → s.psf.key1 = some u → s.now ≤ u + sec →
    v.toNat % 65536 = 0xA5E8 →
    answers (.lockoutKey i v) s fun t => t.flag PSF_LOCKOUT_STAT_KEYOK = true ∧ t.psf.key1 = none) ∧
  (∀ (s : State) (i : Initiator) (v : Word), s.Canon → Granted s i PSF_LOCKOUT_KEY → s.privileged i = true →
    s.flag PSF_STAT_LOCKOUT = true → v.toNat % 65536 ≠ 0x5A17 →
    (v.toNat % 65536 ≠ 0xA5E8 ∨ ∀ u, s.psf.key1 = some u → u + sec < s.now) →
    answers (.lockoutKey i v) s fun t => t.flag PSF_LOCKOUT_STAT_KEYOK = false ∧ t.psf.key1 = none ∧
    t.get PSF_LOCKOUT_STAT_KEYERR = oneMore s PSF_LOCKOUT_STAT_KEYERR) ∧
  (∀ (s : State) (i : Initiator) (v : Word), s.Canon → s.collectorOn = true → Granted s i PSF_LOCKOUT_KEY →
    s.privileged i = false →
    answers (.lockoutKey i v) s fun t => t.psf.key1 = s.psf.key1 ∧
    t.flag PSF_LOCKOUT_STAT_KEYOK = s.flag PSF_LOCKOUT_STAT_KEYOK ∧ Stands t 6 1 i.code) ∧
  (∀ (s : State) (i : Initiator) (v : Word), Granted s i PSF_LOCKOUT_KEY → s.privileged i = true →
    s.flag PSF_STAT_LOCKOUT = false →
    answers (.lockoutKey i v) s fun t => t.regs = s.regs ∧ t.psf = s.psf) ∧
  (∀ (s : State) (fb : BitVec 3), s.Canon → s.mayLeave fb = true →
    answers (.lockoutExit fb) s fun t => t.flag PSF_STAT_LOCKOUT = false ∧ t.demand 20 = false ∧
    t.flag PSF_LOCKOUT_STAT_KEYOK = false ∧ t.flag PSF_LOCKOUT_STAT_ILKCYC = false ∧
    t.flag PSF_STAT_ARMED = s.flag PSF_STAT_ARMED) ∧
  (∀ (s : State) (fb : BitVec 3), s.Canon → s.mayLeave fb = false →
    answers (.lockoutExit fb) s fun t => t.flag PSF_STAT_LOCKOUT = s.flag PSF_STAT_LOCKOUT ∧ t.psf = s.psf)

/-- A copy is counted when it is bad, unexpected or of another cycle; a second copy that agrees is accepted, one that differs takes the safe reaction -/
def Obligations.CausewayComparison : Prop :=
  (∀ (s : State) (p : Fin 4) (f : Frame), s.Canon → s.compares = true →
    (leAt f.payload 32 4 ≠ s.scrc (f.payload.take 32) ∨ f.payload.length ≠ 36) →
    answers (.causewayReceive p f) s fun t => t.get PSF_CWAY_CNT1_SCRC = oneMore s PSF_CWAY_CNT1_SCRC ∧ t.psf = s.psf) ∧
  (∀ (s : State) (p : Fin 4) (f : Frame), s.Canon → s.compares = true →
    leAt f.payload 32 4 = s.scrc (f.payload.take 32) → f.payload.length = 36 →
    (s.psf.peers.find? (fun q => q.addr == byteAt f.payload 2 && decide (q.fromCycle ≤ s.tickNo / s.cyc)) = none) →
    answers (.causewayReceive p f) s fun t => t.get PSF_CWAY_CNT1_NEXP = oneMore s PSF_CWAY_CNT1_NEXP ∧ t.psf = s.psf) ∧
  (∀ (s : State) (p : Fin 4) (f : Frame) (x : CwPeer), s.Canon → s.compares = true →
    leAt f.payload 32 4 = s.scrc (f.payload.take 32) → f.payload.length = 36 →
    (s.psf.peers.find? (fun q => q.addr == byteAt f.payload 2 && decide (q.fromCycle ≤ s.tickNo / s.cyc)) = some x) →
    (leAt f.payload 28 4 ≠ x.uidl ∨ leAt f.payload 4 4 ≠ s.tickNo / s.cyc % 2 ^ 32) →
    answers (.causewayReceive p f) s fun t => t.get PSF_CWAY_CNT1_WRONG = oneMore s PSF_CWAY_CNT1_WRONG ∧
    t.psf = s.psf) ∧
  (∀ (s : State) (p : Fin 4) (f : Frame) (x : CwPeer), s.compares = true → f.payload.length = 36 →
    leAt f.payload 32 4 = s.scrc (f.payload.take 32) →
    (s.psf.peers.find? (fun q => q.addr == byteAt f.payload 2 && decide (q.fromCycle ≤ s.tickNo / s.cyc)) = some x) →
    leAt f.payload 28 4 = x.uidl → leAt f.payload 4 4 = s.tickNo / s.cyc % 2 ^ 32 → x.decided = false →
    x.copies = [] →
    answers (.causewayReceive p f) s fun t =>
    t.psf.peers = s.psf.peers.map (fun y => if y.addr = x.addr then { x with copies := [{ bytes := f.payload, at_ := s.now }] } else y)) ∧
  (∀ (s : State) (p : Fin 4) (f : Frame) (x : CwPeer) (a : CwCopy), s.Canon → s.compares = true →
    f.payload.length = 36 → leAt f.payload 32 4 = s.scrc (f.payload.take 32) →
    (s.psf.peers.find? (fun q => q.addr == byteAt f.payload 2 && decide (q.fromCycle ≤ s.tickNo / s.cyc)) = some x) →
    leAt f.payload 28 4 = x.uidl → leAt f.payload 4 4 = s.tickNo / s.cyc % 2 ^ 32 → x.decided = false →
    x.copies = [a] → copiesAgree a.bytes f.payload = true →
    answers (.causewayReceive p f) s fun t =>
    (∀ y ∈ t.psf.peers, y.addr = x.addr → y.outcome = 0 ∧ y.count = 0 ∧ y.decided = true) ∧
    t.get PSF_CWAY_CNT0_TWO = oneMore s PSF_CWAY_CNT0_TWO) ∧
  (∀ (s : State) (p : Fin 4) (f : Frame) (x : CwPeer) (a : CwCopy), s.Canon → s.compares = true →
    f.payload.length = 36 → leAt f.payload 32 4 = s.scrc (f.payload.take 32) →
    (s.psf.peers.find? (fun q => q.addr == byteAt f.payload 2 && decide (q.fromCycle ≤ s.tickNo / s.cyc)) = some x) →
    leAt f.payload 28 4 = x.uidl → leAt f.payload 4 4 = s.tickNo / s.cyc % 2 ^ 32 → x.decided = false →
    x.copies = [a] → copiesAgree a.bytes f.payload = false →
    answers (.causewayReceive p f) s fun t => t.demand 18 = true ∧ t.get PSF_SAFE_RX_ADDR = x.addr % 256 ∧
    (∀ y ∈ t.psf.peers, y.addr = x.addr → y.outcome = 3)) ∧
  (∀ (s : State), s.Canon → s.compares = true →
    answers .causewayDecision s fun t => (∀ y ∈ t.psf.peers, y.fromCycle ≤ s.tickNo / s.cyc → y.decided = true) ∧
    (s.sampleAt (s.tickNo / s.cyc * s.cyc) + s.cwWait : Int) ≤ t.now + t.ftOfs) ∧
  (∀ (s : State) (x : CwPeer), s.Canon → s.compares = true → x ∈ s.psf.peers →
    (∀ y ∈ s.psf.peers, y.addr = x.addr → y = x) → x.decided = false → x.fromCycle ≤ s.tickNo / s.cyc →
    x.copies = [] →
    answers .causewayDecision s fun t =>
    { x with count := min 16 (x.count + 1), outcome := 2, decided := true } ∈ t.psf.peers ∧
    oneMore s PSF_CWAY_CNT1_NONE ≤ t.get PSF_CWAY_CNT1_NONE ∧
    (max 1 (s.get PSF_ONEPATH_MAX_MAX) < min 16 (x.count + 1) → t.demand 18 = true)) ∧
  (∀ (s : State) (x : CwPeer) (a : CwCopy), s.Canon → s.compares = true → x ∈ s.psf.peers →
    (∀ y ∈ s.psf.peers, y.addr = x.addr → y = x) → x.decided = false → x.fromCycle ≤ s.tickNo / s.cyc →
    x.copies = [a] → bitOf (byteAt a.bytes 3) 0 = false →
    answers .causewayDecision s fun t =>
    { x with count := min 16 (x.count + 1), outcome := 1, decided := true } ∈ t.psf.peers ∧
    (max 1 (s.get PSF_ONEPATH_MAX_MAX) < min 16 (x.count + 1) → t.demand 18 = true)) ∧
  (∀ (s : State), s.compares = false →
    answers .causewayDecision s fun t => t = s)

/-- Acknowledging frees ended entries, the fatal summary clears when no fatal condition stands, faults end with their quiet period and can be forced -/
def Obligations.AcknowledgeRecoverForce : Prop :=
  (∀ (s : State) (i : Initiator) (v : Word) (k : Fin 16) (j : Fin 32), s.Canon → Granted s i FCR_ACK →
    s.privileged i = true → bitOf v.toNat k = true → s.get (FCR_HQi_INFO_SRC j) = k → s.endedEntry j = true →
    answers (.faultAck i v) s fun t => t.flag (FCR_HQi_INFO_VALID j) = false ∧ endedWith t 0) ∧
  (∀ (s : State) (i : Initiator) (v : Word) (k : Fin 16) (j : Fin 32), s.Canon → Granted s i FCR_ACK →
    s.privileged i = true → bitOf v.toNat k = true → bitOf v.toNat 31 = false →
    s.flag (FCR_HQi_INFO_ACTIVE j) = true → bitOf s.fcrActive k = false →
    answers (.faultAck i v) s fun t => t.flag (FCR_HQi_INFO_VALID j) = s.flag (FCR_HQi_INFO_VALID j) ∧
    t.bit FCR_STATUS_SRC k = false) ∧
  (∀ (s : State) (i : Initiator) (v : Word), s.Canon → s.collectorOn = true → Granted s i FCR_ACK →
    s.privileged i = false →
    answers (.faultAck i v) s fun t => Stands t 10 1 i.code ∧ t.flag FCR_STATUS_FATAL = s.flag FCR_STATUS_FATAL) ∧
  (∀ (s : State) (i : Initiator) (v : Word), s.Canon → Granted s i FCR_ACK → s.privileged i = true →
    s.flag FCR_STATUS_FATAL = true → s.fatalStands = false →
    answers (.fatalAck i v) s fun t => t.flag FCR_STATUS_FATAL = false ∧
    t.fcr.standing = s.fcr.standing.filter (fun f => f.cls != 3) ∧ endedWith t 0) ∧
  (∀ (s : State) (i : Initiator) (v : Word), s.Canon → Granted s i FCR_ACK → s.privileged i = true →
    s.flag FCR_STATUS_FATAL = true → s.fatalStands = true →
    answers (.fatalAck i v) s fun t => t.flag FCR_STATUS_FATAL = true ∧ t.fcr.standing = s.fcr.standing) ∧
  (∀ (s : State) (src : Fin 16) (code inst : Byte) (bus : Vector (BitVec 16) 8) (f : Standing) (u : Nat), s.Canon →
    s.standing? src code.toNat inst.toNat = some f → f.quietEnd = some u → src ∉ [1, 5, 8, 9] →
    answers (.faultRecovery src code inst bus) s fun t => t.standing? src code.toNat inst.toNat = none ∧
    t.now = max s.now u ∧ (∀ j : Fin 32, f.slot = some j.val → t.flag (FCR_HQi_INFO_ACTIVE j) = false) ∧
    (f.conseq = false → t.get (FCR_SRCs_CNT_REC src) = oneMore s (FCR_SRCs_CNT_REC src))) ∧
  (∀ (s : State) (src : Fin 16) (code inst : Byte) (bus : Vector (BitVec 16) 8) (f : Standing) (u : Nat),
    s.standing? src code.toNat inst.toNat = some f → f.quietEnd = some u → f.conseq = false →
    answers (.faultRecovery src code inst bus) s fun t => t.now = max s.now u ∧
    vget t.life.recs f.src 0 = vget s.life.recs f.src 0 + (if f.src < 16 then 1 else 0)) ∧
  (∀ (s : State) (src : Fin 16) (code inst : Byte) (bus : Vector (BitVec 16) 8),
    ((s.standing? src code.toNat inst.toNat).all (fun f => f.quietEnd.isNone) = true) →
    answers (.faultRecovery src code inst bus) s fun t => t = s) ∧
  (∀ (s : State), s.fcr.shadows ≠ [] →
    answers .shadowWindowClose s fun t => t.fcr.shadows = s.fcr.shadows.filter (fun x => decide (t.now < x.till)) ∧
    t.fcr.shadows.length < s.fcr.shadows.length ∧ t.regs = s.regs) ∧
  (∀ (s : State) (i : Initiator) (v : Word) (k : Fin 16), s.Canon → s.collectorOn = true → Granted s i FCR_FORCE →
    s.privileged i = true → (s.mode = 4 ∨ s.mode = 2 ∧ s.flag FCR_FORCE_EN_EN = true) → bitOf v.toNat k = true →
    (faultRow k (s.get FCR_FORCE_CODE_CODE) (s.get FCR_FORCE_CODE_INST)).isSome = true →
    answers (.faultForce i v) s fun t => Stands t k (s.get FCR_FORCE_CODE_CODE) (s.get FCR_FORCE_CODE_INST) ∧
    endedWith t 0) ∧
  (∀ (s : State) (i : Initiator) (v : Word) (k : Fin 16), s.Canon → s.collectorOn = true → Granted s i FCR_FORCE →
    s.privileged i = true → (s.mode = 4 ∨ s.mode = 2 ∧ s.flag FCR_FORCE_EN_EN = true) → bitOf v.toNat k = true →
    (faultRow k (s.get FCR_FORCE_CODE_CODE) (s.get FCR_FORCE_CODE_INST)).isSome = false →
    answers (.faultForce i v) s fun t => Stands t k 0xFF (s.get FCR_FORCE_CODE_INST)) ∧
  (∀ (s : State) (i : Initiator) (v : Word), s.Canon → s.collectorOn = true → Granted s i FCR_FORCE →
    (s.privileged i = false ∨ s.mode ≠ 4 ∧ (s.mode ≠ 2 ∨ s.flag FCR_FORCE_EN_EN = false)) →
    answers (.faultForce i v) s fun t => Stands t 10 1 i.code) ∧
  (∀ (s : State) (u : List (Nat × Word)), s.Canon → s.collectorOn = true → s.sealed = true →
    (u.any (fun x => s.upsetHits x.1 x.2) = true) →
    (u.all (fun x => x.1 != MGT_MODE_STAT && x.1 != MGT_PWR_STAT) = true) →
    answers (.configIntegrityCheck u) s fun t => Stands t 13 0x10 0) ∧
  (∀ (s : State),
    (s.sealed = false ∨ (s.regs.map (·.1) ++ s.sealRec.map (·.1) ++ s.fcr.upset).any s.sealBroken = false) →
    answers (.configIntegrityCheck []) s fun t => t.regs = s.regs ∧ t.fcr = { s.fcr with crcAt := some t.now } ∧
    t.now = max s.now ((s.fcr.crcAt.map (· + 100 * ms)).getD s.now) ∧ t.psf = s.psf) ∧
  (∀ (s : State) (l : List (Nat × Word)) (k : Fin 8) (w : Word), s.Canon → s.collectorOn = true → (k.val, w) ∈ l →
    w ≠ s.rd (PSF_OTPk k) →
    answers (.otpMirrorCheck l) s fun t => Stands t 13 0x11 k ∧ t.flag FCR_STATUS_FATAL = true) ∧
  (∀ (s : State) (l : List (Nat × Word)), (∀ x ∈ l, x.2 = s.rd (PSF_OTPk x.1)) →
    answers (.otpMirrorCheck l) s fun t => t.regs = s.regs ∧ t.fcr = { s.fcr with otpAt := some t.now } ∧
    t.now = max s.now ((s.fcr.otpAt.map (· + sec)).getD s.now) ∧ t.psf = s.psf)

/-- Power-on reset resets all but the non-volatile memories, a warm reset is counted with its cause, start-up runs to step 7 or recovery and enters its mode -/
def Obligations.ResetsAndStartUp : Prop :=
  (∀ (s : State),
    answers .powerOnReset s fun t => t.regs = [] ∧ t.flash = s.flash ∧ t.psf = PsfSt.reset ∧ t.mgt = MgtSt.reset ∧
    t.eng = State.reset.eng ∧ t.now = 0) ∧
  (∀ (s : State) (a : Nat), s.Canon →
    answers .powerOnReset s fun t =>
    t.memLE a 1 = (if lifeBase ≤ a ∧ a < 0x21000000 ∨ otpBase ≤ a ∧ a < otpBase + 0x1000 then s.memLE a 1 else 0)) ∧
  (∀ (s : State) (b : Board), s.Canon → s.mgt.por = true →
    answers (.powerOnResetRelease b) s fun t => t.mgt.por = false ∧
    t.get MGT_TW_STAT_ADDR = 0x60 + 3 * b.twa1.val + b.twa0.val ∧
    (t.mgt.booting = true ∧ t.get MGT_STARTUP_STEP = 7 ∨ t.flag MGT_STARTUP_STOP = true ∧ t.flag MGT_FW_STAT_RECOVERY = true)) ∧
  (∀ (s : State), s.Canon → s.mgt.por = false → s.mgt.rstIgnored = false → s.mgt.rstLow = none →
    s.aux.shutAt = none → s.mgt.resetDue = [] → s.flashWrites = false →
    answers .rstNLow s fun t => t.get MGT_RST_CNT_WARM = oneMore s MGT_RST_CNT_WARM ∧
    bitOf (t.rdN MGT_RST_CAUSE) 1 = true ∧ t.mgt.rstLow = some s.now ∧ t.eng = State.reset.eng ∧
    t.flag PSF_STAT_ARMED = false ∧ t.now = s.now + 20 * us) ∧
  (∀ (s : State), s.Canon → s.mgt.por = false → s.mgt.rstIgnored = false → s.mgt.rstLow = none →
    s.aux.shutAt = none → s.flashWrites = true →
    answers .rstNLow s fun t => t.mgt.resetDue = s.mgt.resetDue ++ [1] ∧ t.flag MGT_FL_STAT_SUSP = true ∧
    t.get MGT_RST_CNT_WARM = s.get MGT_RST_CNT_WARM) ∧
  (∀ (s : State) (u : Nat), s.mgt.rstLow = some u → (s.mgt.resetDue ≠ [] ∨ s.aux.shutAt.isSome = true) →
    answers .rstNRelease s fun t => t.mgt.rstLow = none ∧ t.regs = s.regs ∧ t.mgt.resetDue = s.mgt.resetDue) ∧
  (∀ (s : State) (u : Nat), s.Canon → s.mgt.rstLow = some u → s.mgt.resetDue = [] → s.aux.shutAt = none →
    answers .rstNRelease s fun t => t.mgt.rstLow = none ∧
    (t.mgt.booting = true ∧ t.get MGT_STARTUP_STEP = 7 ∨ t.flag MGT_STARTUP_STOP = true ∧ t.flag MGT_FW_STAT_RECOVERY = true)) ∧
  (∀ (s : State) (u : Nat), s.Canon → s.mgt.rstLow = some u →
    answers .rstNFailedClosed s fun t => t.mgt.rstIgnored = true ∧ t.mgt.rstLow = none ∧
    t.flag MGT_RST_CAUSE_RSTN_FC = true ∧ t.get MGT_RST_CNT_FC = oneMore s MGT_RST_CNT_FC ∧ u + 2 * sec ≤ t.now ∧
    (s.aux.shutAt = none → (t.mgt.booting = true ∧ t.get MGT_STARTUP_STEP = 7 ∨ t.flag MGT_STARTUP_STOP = true ∧ t.flag MGT_FW_STAT_RECOVERY = true))) ∧
  (∀ (s : State), s.mgt.rstIgnored = true →
    answers .rstNHighSeen s fun t => t.mgt.rstIgnored = false ∧ t.now = s.now + 10 * ms ∧ t.regs = s.regs ∧
    (t.standing? 0 0x15 0).all (fun f => !f.held) = true) ∧
  (∀ (s : State) (i : Initiator) (v : Word), Granted s i MGT_SWRST → s.privileged i = true →
    v.toNat % 65536 = 0x2B5C →
    answers (.softwareReset i v) s fun t => t.mgt.swKey = some s.now ∧ t.regs = s.regs ∧ endedWith t 0) ∧
  (∀ (s : State) (i : Initiator) (v : Word) (u : Nat), s.Canon → Granted s i MGT_SWRST → s.privileged i = true →
    s.mgt.swKey = some u → s.now ≤ u + sec → v.toNat % 65536 = 0xD4A3 → s.flashWrites = false → s.mgt.rstLow = none →
    s.mgt.resetDue = [] → s.aux.shutAt = none →
    answers (.softwareReset i v) s fun t => t.get MGT_RST_CNT_WARM = oneMore s MGT_RST_CNT_WARM ∧
    bitOf (t.rdN MGT_RST_CAUSE) 3 = true ∧ t.flag PSF_STAT_ARMED = false ∧
    (t.mgt.booting = true ∧ t.get MGT_STARTUP_STEP = 7 ∨ t.flag MGT_STARTUP_STOP = true ∧ t.flag MGT_FW_STAT_RECOVERY = true)) ∧
  (∀ (s : State) (i : Initiator) (v : Word) (u : Nat), s.Canon → Granted s i MGT_SWRST → s.privileged i = true →
    s.mgt.swKey = some u → s.now ≤ u + sec → v.toNat % 65536 = 0xD4A3 → s.flashWrites = true →
    answers (.softwareReset i v) s fun t => t.mgt.resetDue = s.mgt.resetDue ++ [3] ∧ t.flag MGT_FL_STAT_SUSP = true ∧
    t.get MGT_RST_CNT_WARM = s.get MGT_RST_CNT_WARM) ∧
  (∀ (s : State) (i : Initiator) (v : Word), Granted s i MGT_SWRST → s.privileged i = true →
    v.toNat % 65536 ≠ 0x2B5C → (v.toNat % 65536 ≠ 0xD4A3 ∨ ∀ u, s.mgt.swKey = some u → u + sec < s.now) →
    answers (.softwareReset i v) s fun t => t.mgt.swKey = none ∧ t.regs = s.regs ∧ endedWith t 0) ∧
  (∀ (s : State) (c : Nat), s.Canon → s.aux.shutAt = none → s.mgt.resetDue = [c] → c < 8 →
    answers .flashSuspendComplete s fun t => t.mgt.resetDue = [] ∧
    t.get MGT_RST_CNT_WARM = oneMore s MGT_RST_CNT_WARM ∧ bitOf (t.rdN MGT_RST_CAUSE) c = true) ∧
  (∀ (s : State) (u : Nat), s.Canon → s.aux.shutAt = some u → s.logicOn = true →
    answers .flashSuspendComplete s fun t => t.logicOn = false ∧ t.aux.shutAt = some s.now ∧ t.eng = State.reset.eng ∧
    t.flag PSF_STAT_ARMED = false) ∧
  (∀ (s : State), s.Canon → s.mgt.booting = true → s.flag PSF_STAT_HOLD = false → s.mgt.held = [] →
    (s.mgt.shipStart = true ∨ s.get MGT_PWR_CFG_START = 0) →
    answers .startUpComplete s fun t => t.mode = 2 ∧ t.flag MGT_STARTUP_DONE = true ∧ t.get MGT_STARTUP_STEP = 8 ∧
    t.mgt.booting = false ∧ t.now = max s.now (s.mgt.bootAt + s.mgt.bootFor * ms)) ∧
  (∀ (s : State), s.Canon → s.mgt.booting = true → s.flag PSF_STAT_HOLD = false → s.mgt.held = [] →
    s.mgt.shipStart = false → s.get MGT_PWR_CFG_START ≠ 0 →
    answers .startUpComplete s fun t => t.mode = 1 ∧ t.flag MGT_STARTUP_DONE = true) ∧
  (∀ (s : State), s.Canon → s.mgt.booting = true → s.flag PSF_STAT_HOLD = true →
    answers .startUpComplete s fun t => t.mode = 5 ∧ t.flag PSF_STAT_LOCKOUT = true ∧ t.demand 21 = true ∧
    t.flag MGT_STARTUP_DONE = true)

/-- A mode request is accepted when every check of Table 13.5 holds and refused with the first code otherwise; a pending transition enters its mode -/
def Obligations.ModeRequestsAndTransitions : Prop :=
  (∀ (s : State) (i : Initiator) (v : Word), s.Canon → Granted s i MGT_MODE_REQ → s.modeCode i 0 = 0 →
    answers (.modeReqShip i v) s fun t => t.flag MGT_MODE_STAT_PEND = true ∧ t.get MGT_MODE_STAT_TGT = 0 ∧
    t.get MGT_MODE_STAT_CODE = 0 ∧ t.mode = s.mode ∧ t.flag PSF_STAT_ARMED = false ∧ endedWith t 0) ∧
  (∀ (s : State) (i : Initiator) (v : Word), s.Canon → Granted s i MGT_MODE_REQ → s.modeCode i 1 = 0 →
    answers (.modeReqWatch i v) s fun t => t.flag MGT_MODE_STAT_PEND = true ∧ t.get MGT_MODE_STAT_TGT = 1 ∧
    t.get MGT_MODE_STAT_CODE = 0 ∧ t.mode = s.mode ∧ t.flag PSF_STAT_ARMED = false ∧ endedWith t 0) ∧
  (∀ (s : State) (i : Initiator) (v : Word), s.Canon → Granted s i MGT_MODE_REQ → s.modeCode i 2 = 0 →
    answers (.modeReqRun i v) s fun t => t.flag MGT_MODE_STAT_PEND = true ∧ t.get MGT_MODE_STAT_TGT = 2 ∧
    t.get MGT_MODE_STAT_CODE = 0 ∧ t.mode = s.mode ∧ endedWith t 0) ∧
  (∀ (s : State) (i : Initiator) (v : Word), s.Canon → Granted s i MGT_MODE_REQ → s.modeCode i 4 = 0 →
    answers (.modeReqService i v) s fun t => t.flag MGT_MODE_STAT_PEND = true ∧ t.get MGT_MODE_STAT_TGT = 4 ∧
    t.get MGT_MODE_STAT_CODE = 0 ∧ t.mode = s.mode ∧ endedWith t 0) ∧
  (∀ (s : State) (i : Initiator) (v : Word), s.Canon → Granted s i MGT_MODE_REQ → 2 ≤ s.modeCode i 0 →
    answers (.modeReqShip i v) s fun t => t.get MGT_MODE_STAT_CODE = s.modeCode i 0 ∧
    t.flag MGT_MODE_STAT_PEND = s.flag MGT_MODE_STAT_PEND ∧ t.mode = s.mode) ∧
  (∀ (s : State) (i : Initiator) (v : Word), s.Canon → Granted s i MGT_MODE_REQ → 2 ≤ s.modeCode i 1 →
    answers (.modeReqWatch i v) s fun t => t.get MGT_MODE_STAT_CODE = s.modeCode i 1 ∧
    t.flag MGT_MODE_STAT_PEND = s.flag MGT_MODE_STAT_PEND ∧ t.mode = s.mode) ∧
  (∀ (s : State) (i : Initiator) (v : Word), s.Canon → Granted s i MGT_MODE_REQ → 2 ≤ s.modeCode i 2 →
    answers (.modeReqRun i v) s fun t => t.get MGT_MODE_STAT_CODE = s.modeCode i 2 ∧
    t.flag MGT_MODE_STAT_PEND = s.flag MGT_MODE_STAT_PEND ∧ t.mode = s.mode) ∧
  (∀ (s : State) (i : Initiator) (v : Word), s.Canon → Granted s i MGT_MODE_REQ → 2 ≤ s.modeCode i 4 →
    answers (.modeReqService i v) s fun t => t.get MGT_MODE_STAT_CODE = s.modeCode i 4 ∧
    t.flag MGT_MODE_STAT_PEND = s.flag MGT_MODE_STAT_PEND ∧ t.mode = s.mode) ∧
  (∀ (s : State) (i : Initiator) (v : Word), s.Canon → s.collectorOn = true → Granted s i MGT_MODE_REQ →
    s.privileged i = false →
    answers (.modeReqRun i v) s fun t => t.get MGT_MODE_STAT_CODE = 1 ∧ Stands t 0 1 i.code) ∧
  (∀ (s : State) (i : Initiator) (v : Word) (r : Int), s.Canon → Granted s i MGT_MODE_REQ → s.modeCode i 3 = 0 →
    (s.trimCheck r).1 = 0 →
    answers (.modeReqTrim i v r) s fun t => t.flag MGT_MODE_STAT_PEND = true ∧ t.get MGT_MODE_STAT_TGT = 3 ∧
    t.get MGT_MODE_STAT_CODE = 0) ∧
  (∀ (s : State) (i : Initiator) (v : Word) (r : Int), s.Canon → Granted s i MGT_MODE_REQ → s.modeCode i 3 = 0 →
    (s.trimCheck r).1 ≠ 0 →
    answers (.modeReqTrim i v r) s fun t => t.get MGT_MODE_STAT_CODE = 8 ∧
    t.get MGT_CAL_STAT_REASON = (s.trimCheck r).1 % 256 ∧ t.flag MGT_MODE_STAT_PEND = s.flag MGT_MODE_STAT_PEND) ∧
  (∀ (s : State) (i : Initiator) (v : Word), Granted s i MGT_MODE_KEY → s.privileged i = true →
    (v.toNat % 65536 = 0x51A9 ∨ v.toNat % 65536 = 0x5E12) →
    answers (.modeKey i v) s fun t => t.mgt.modeKey = some (if v.toNat % 65536 = 0x51A9 then 0 else 4, s.now, false) ∧
    t.regs = s.regs) ∧
  (∀ (s : State) (i : Initiator) (v : Word) (m u : Nat), Granted s i MGT_MODE_KEY → s.privileged i = true →
    s.mgt.modeKey = some (m, u, false) → v.toNat % 65536 = (if m = 0 then 0x0E57 else 0xC3A9) →
    answers (.modeKey i v) s fun t => t.mgt.modeKey = some (m, u, true) ∧ t.regs = s.regs) ∧
  (∀ (s : State) (i : Initiator) (v : Word), Granted s i MGT_MODE_KEY → s.privileged i = true →
    v.toNat % 65536 ∉ [0x51A9, 0x5E12, 0x0E57, 0xC3A9] →
    answers (.modeKey i v) s fun t => t.mgt.modeKey = none ∧ t.regs = s.regs) ∧
  (∀ (s : State), s.Canon → s.mode = 4 → min 3600 (s.get MGT_SVC_CFG_TMO_S) ≠ 0 → s.flag MGT_MODE_STAT_PEND = false →
    answers .serviceTimeout s fun t => t.flag MGT_MODE_STAT_PEND = true ∧ t.get MGT_MODE_STAT_TGT = 2 ∧
    t.now = max s.now (s.privAt + min 3600 (s.get MGT_SVC_CFG_TMO_S) * sec)) ∧
  (∀ (s : State), s.Canon → s.flag MGT_MODE_STAT_PEND = true → s.get MGT_MODE_STAT_TGT = 2 → s.mode ≠ 1 →
    s.mode ≠ 5 →
    answers .modeTransitionComplete s fun t => t.mode = 2 ∧ t.get MGT_MODE_STAT_PREV = s.mode ∧
    t.flag MGT_MODE_STAT_PEND = false ∧
    (s.mode = 4 → t.rdN CMF_TEST = 0 ∧ (∀ e : Fin 16, t.flag (ENG_n_DBG_HALT e) = false))) ∧
  (∀ (s : State), s.Canon → s.flag MGT_MODE_STAT_PEND = true → s.get MGT_MODE_STAT_TGT = 1 → s.wakeHeld = none →
    answers .modeTransitionComplete s fun t => t.mode = 1 ∧ t.get MGT_MODE_STAT_PREV = s.mode ∧
    t.flag MGT_MODE_STAT_PEND = false ∧ t.tick.running = false) ∧
  (∀ (s : State), s.Canon → s.flag MGT_MODE_STAT_PEND = true → s.get MGT_MODE_STAT_TGT = 0 → s.wakeHeld = none →
    answers .modeTransitionComplete s fun t => t.mode = 0 ∧ t.get MGT_MODE_STAT_PREV = s.mode ∧
    t.flag MGT_MODE_STAT_PEND = false ∧ t.get MGT_PWR_STAT_ON = 1 ∧ t.tick.running = false) ∧
  (∀ (s : State), s.Canon → s.flag MGT_MODE_STAT_PEND = true → s.get MGT_MODE_STAT_TGT = 3 →
    answers .modeTransitionComplete s fun t => t.mode = 3 ∧ t.get MGT_MODE_STAT_PREV = s.mode) ∧
  (∀ (s : State), s.Canon → s.flag MGT_MODE_STAT_PEND = true → s.get MGT_MODE_STAT_TGT = 4 →
    answers .modeTransitionComplete s fun t => t.mode = 4 ∧ t.get MGT_MODE_STAT_PREV = s.mode ∧
    t.flag MGT_MODE_STAT_PEND = false ∧ t.privAt = t.now) ∧
  (∀ (s : State), s.Canon → s.flag MGT_MODE_STAT_PEND = true → s.get MGT_MODE_STAT_TGT = 2 → s.mode = 1 →
    answers .modeTransitionComplete s fun t => t.mode = 2 ∧ t.get MGT_MODE_STAT_PREV = s.mode ∧
    t.flag MGT_MODE_STAT_PEND = false ∧ t.get MGT_PWR_STAT_ON = 0x3FF) ∧
  (∀ (s : State), s.Canon → s.flag MGT_MODE_STAT_PEND = true → s.get MGT_MODE_STAT_TGT = 2 → s.mode = 5 →
    answers .modeTransitionComplete s fun t => s.mgt.reqAt + 40 * ms ≤ t.now ∧
    (t.mode = 2 ∧ t.flag PSF_STAT_HOLD = false ∧ t.flag MGT_PD0_FATAL_VALID = false ∧ bitOf t.psf.cause 21 = false ∨ t.mode = 5 ∧ t.flag PSF_STAT_HOLD = s.flag PSF_STAT_HOLD ∧ (t.flag FCR_STATUS_FATAL = true ∨ t.flag MGT_MODE_STAT_PEND = false))) ∧
  (∀ (s : State), s.Canon → s.flag MGT_MODE_STAT_PEND = true → s.get MGT_MODE_STAT_TGT = 6 →
    answers .modeTransitionComplete s fun t =>
    (t.mgt.booting = true ∧ t.get MGT_STARTUP_STEP = 7 ∨ t.flag MGT_STARTUP_STOP = true ∧ t.flag MGT_FW_STAT_RECOVERY = true) ∧
    t.flag MGT_RST_CAUSE_SHIPW = true) ∧
  (∀ (s : State), s.flag MGT_MODE_STAT_PEND = false →
    answers .modeTransitionComplete s fun t => t = s)

/-- WATCH bursts power the sensing domains and end, wake requests make the wake pending, and each monitor raises its condition and ends it -/
def Obligations.WatchWakeAndMonitors : Prop :=
  (∀ (s : State), s.Canon → s.mode = 1 → (s.meas.burst = none ∨ s.meas.burst = some 65) →
    answers .watchBurst s fun t => t.meas.burst = some 0 ∧ t.get MGT_PWR_STAT_ON = 0x29F ∧
    t.aux.scan = (if s.flag AUX_CTRL_EN then some t.now else none) ∧ t.now = max s.mgt.burstDue s.now + ms / 2) ∧
  (∀ (s : State), s.Canon → s.mode = 1 → s.meas.burst = some 64 → s.meas.burstScan = true →
    answers .watchBurstEnd s fun t => t.meas.burst = some 65 ∧ t.meas.bursts = s.meas.bursts + 1 ∧
    t.get MGT_PWR_STAT_ON = s.get MGT_PWR_STAT_ON ∧ t.now = s.now) ∧
  (∀ (s : State), s.mode ≠ 1 →
    answers .watchBurst s fun t => t = s) ∧
  (∀ (s : State), s.Canon → s.mgt.wakeStuck = false → s.mgt.por = false → bitOf (s.rdN MGT_WAKE_CFG) 0 = true →
    s.flag MGT_MODE_STAT_PEND = false → (s.mode = 1 ∨ s.mode = 0) →
    answers .wakePin s fun t => t.flag MGT_MODE_STAT_PEND = true ∧
    t.get MGT_MODE_STAT_TGT = (if s.mode = 1 then 2 else 6) ∧ t.wakeHeld = some 0) ∧
  (∀ (s : State), (s.mgt.wakeStuck = true ∨ s.mgt.por = true ∨ bitOf (s.rdN MGT_WAKE_CFG) 0 = false) →
    answers .wakePin s fun t => t = s) ∧
  (∀ (s : State), s.Canon → s.collectorOn = true → s.mgt.por = false → s.mgt.wakeStuck = false →
    answers .wakePinStuck s fun t => Stands t 0 0x16 0 ∧ t.mgt.wakeStuck = true) ∧
  (∀ (s : State), s.Canon → s.mode = 0 → s.mgt.por = false → s.mgt.wakeStuck = false →
    answers .wakePinStuck s fun t => t.flag MGT_WAKE_STAT_WSTUCK = true ∧ t.mgt.wakeStuck = true ∧
    (0, 0x16, 0) ∈ t.mgt.held) ∧
  (∀ (s : State), s.Canon → s.mgt.wakeStuck = true →
    answers .wakePinRelease s fun t => (t.standing? 0 0x16 0).all (fun f => !f.held) = true ∧ t.mgt.wakeStuck = false) ∧
  (∀ (s : State) (l : BitVec 16), s.Canon → s.collectorOn = true → s.mgt.por = false →
    (l.toNat < 1000 ∨ 16500 < l.toNat) →
    answers (.vstkOutOfRange l) s fun t => Stands t 11 0x10 0 ∧ t.get MGT_SUPPLY_VSTK = l.toNat) ∧
  (∀ (s : State) (l : BitVec 16), s.Canon → s.mgt.por = false → 1000 ≤ l.toNat → l.toNat ≤ 16500 →
    answers (.vstkInRange l) s fun t => (t.standing? 11 0x10 0).all (fun f => !f.held) = true ∧
    (11, 0x10, 0) ∉ t.mgt.held ∧ t.get MGT_SUPPLY_VSTK = l.toNat) ∧
  (∀ (s : State), s.Canon → s.collectorOn = true → s.domOn 1 = true →
    answers .railOutOfTolerance s fun t => Stands t 11 0x13 0) ∧
  (∀ (s : State),
    answers .railInTolerance s fun t => (t.standing? 11 0x13 0).all (fun f => !f.held) = true ∧
    (11, 0x13, 0) ∉ t.mgt.held) ∧
  (∀ (s : State) (l : BitVec 16), s.Canon → s.collectorOn = true → s.mgt.por = false → s.mgt.vaux = true →
    s.flag MGT_PWR_STAT_VAUXACT = true → (l.toNat < 900 ∨ 3200 < l.toNat) →
    answers (.vauxLoss l) s fun t => Stands t 11 0x11 0 ∧ t.mgt.vaux = false ∧ t.flag MGT_PWR_STAT_VAUXACT = false) ∧
  (∀ (s : State) (l : BitVec 16), s.Canon → s.mgt.por = false → 900 ≤ l.toNat → l.toNat ≤ 3200 →
    answers (.vauxReturn l) s fun t => (t.standing? 11 0x11 0).all (fun f => !f.held) = true ∧
    (11, 0x11, 0) ∉ t.mgt.held ∧ t.mgt.vaux = true ∧ t.get MGT_SUPPLY_VAUX = l.toNat) ∧
  (∀ (s : State), s.Canon → s.collectorOn = true → s.mgt.vio = true →
    answers .vioOverload s fun t => Stands t 11 0x12 0) ∧
  (∀ (s : State),
    answers .vioLoadNormal s fun t => (t.standing? 11 0x12 0).all (fun f => !f.held) = true ∧
    (11, 0x12, 0) ∉ t.mgt.held) ∧
  (∀ (s : State), s.Canon → s.collectorOn = true → s.logicOn = true →
    answers .oscillatorDeviation s fun t => Stands t 12 0x10 0) ∧
  (∀ (s : State),
    answers .oscillatorAgreement s fun t => (t.standing? 12 0x10 0).all (fun f => !f.held) = true ∧
    (12, 0x10, 0) ∉ t.mgt.held) ∧
  (∀ (s : State), s.Canon → s.collectorOn = true → s.logicOn = true →
    answers .pd0OscillatorStopped s fun t => Stands t 12 0x11 0) ∧
  (∀ (s : State),
    answers .pd0OscillatorRunning s fun t => (t.standing? 12 0x11 0).all (fun f => !f.held) = true ∧
    (12, 0x11, 0) ∉ t.mgt.held)

/-- A point is added to its procedure, the last commits the run or aborts it with its reason, a failed reference check aborts; STORE writes the older slot alone -/
def Obligations.TrimRunsAndSlots : Prop :=
  (∀ (s : State) (sum dev : Int) (st : Bool) (r : CalRun) (ch proc : Nat), s.mode = 3 → s.cal.run = some r →
    s.getIn MGT_CAL_CFG_SETTLE 2 15 + s.getIn MGT_CAL_CFG_AVG 4 255 ≤ r.seen →
    (needsRef proc = false ∨ r.refChecked = true ∨ refGood dev = true) → r.todo.head? = some (ch, proc) →
    r.points.length + 1 < procPoints proc →
    answers (.calPointComplete ⟨sum, dev⟩ st) s fun t =>
    t.cal.run = some { r with points := r.points ++ [sum], seen := 0, refChecked := r.refChecked || needsRef proc } ∧
    t.mode = 3) ∧
  (∀ (s : State) (sum dev : Int) (st : Bool) (r : CalRun) (ch proc : Nat), s.Canon → s.mode = 3 →
    s.cal.run = some r → s.getIn MGT_CAL_CFG_SETTLE 2 15 + s.getIn MGT_CAL_CFG_AVG 4 255 ≤ r.seen →
    (needsRef proc = false ∨ r.refChecked = true ∨ refGood dev = true) → r.todo.head? = some (ch, proc) →
    procPoints proc ≤ r.points.length + 1 →
    s.procTerms r.terms ch proc (s.getIn MGT_CAL_CFG_AVG 4 255) (r.points ++ [sum]) = none →
    answers (.calPointComplete ⟨sum, dev⟩ st) s fun t => t.get MGT_CAL_STAT_REASON = 7 ∧
    t.get MGT_CAL_CNT_ABT = oneMore s MGT_CAL_CNT_ABT ∧ t.calRuns = false ∧ t.cal.newTerms = s.cal.newTerms) ∧
  (∀ (s : State) (sum dev : Int) (st : Bool) (r : CalRun) (ch proc : Nat) (l : List (Nat × Int)), s.Canon →
    s.mode = 3 → s.cal.run = some r → s.getIn MGT_CAL_CFG_SETTLE 2 15 + s.getIn MGT_CAL_CFG_AVG 4 255 ≤ r.seen →
    (needsRef proc = false ∨ r.refChecked = true ∨ refGood dev = true) → s.aux.shutAt = none → r.todo = [(ch, proc)] →
    procPoints proc ≤ r.points.length + 1 →
    s.procTerms r.terms ch proc (s.getIn MGT_CAL_CFG_AVG 4 255) (r.points ++ [sum]) = some l →
    answers (.calPointComplete ⟨sum, dev⟩ st) s fun t =>
    t.get MGT_CAL_STAT_REASON = (if l.all (fun x => termOk ch x.1 x.2) then (if st then 0 else 0x0B) else 7) ∧
    t.calRuns = false ∧ t.flag MGT_MODE_STAT_PEND = true ∧ t.get MGT_MODE_STAT_TGT = 2 ∧
    (l.all (fun x => termOk ch x.1 x.2) = true → st = true → t.get MGT_CAL_CNT_DONE = oneMore s MGT_CAL_CNT_DONE ∧ t.get MGT_CAL_SLOT_ACT = (match s.newestCal with | some b => 1 - b | none => 0) ∧ t.rdN MGT_CAL_GEN = (match s.newestCal with | some b => (s.calGen b + 1) % 2 ^ 32 | none => 1) ∧ (∀ x ∈ l, ((trimRegs ch)[x.1]?).all (fun e => t.cal.newTerms.contains (e.1, x.2)) = true))) ∧
  (∀ (s : State) (sum dev : Int) (st : Bool) (r : CalRun) (ch proc : Nat) (l : List (Nat × Int)) (rest : List (Nat × Nat)),
    s.Canon → s.mode = 3 → s.cal.run = some r →
    s.getIn MGT_CAL_CFG_SETTLE 2 15 + s.getIn MGT_CAL_CFG_AVG 4 255 ≤ r.seen →
    (needsRef proc = false ∨ r.refChecked = true ∨ refGood dev = true) → r.todo = (ch, proc) :: rest → rest ≠ [] →
    procPoints proc ≤ r.points.length + 1 →
    s.procTerms r.terms ch proc (s.getIn MGT_CAL_CFG_AVG 4 255) (r.points ++ [sum]) = some l →
    answers (.calPointComplete ⟨sum, dev⟩ st) s fun t =>
    if l.all (fun x => termOk ch x.1 x.2) = true then (t.cal.run.map (·.todo)) = some rest ∧
    (t.cal.run.map (·.points)) = some [] ∧ t.mode = 3 else t.get MGT_CAL_STAT_REASON = 7 ∧ t.calRuns = false) ∧
  (∀ (s : State) (sum dev : Int) (st : Bool) (r : CalRun) (ch proc : Nat), s.Canon → s.mode = 3 →
    s.cal.run = some r → s.getIn MGT_CAL_CFG_SETTLE 2 15 + s.getIn MGT_CAL_CFG_AVG 4 255 ≤ r.seen →
    r.todo.head? = some (ch, proc) → needsRef proc = true → r.refChecked = false → refGood dev = false →
    answers (.calPointComplete ⟨sum, dev⟩ st) s fun t => t.get MGT_CAL_STAT_REASON = 6 ∧
    t.get MGT_CAL_CNT_ABT = oneMore s MGT_CAL_CNT_ABT ∧ t.calRuns = false ∧ t.cal.newTerms = s.cal.newTerms ∧
    t.flag MGT_CAL_REFCHK_OK = false ∧ t.get MGT_CAL_REFCHK_DEV = (BitVec.ofInt 16 (satI 16 dev)).toNat) ∧
  (∀ (s : State) (sum dev : Int) (st : Bool), (s.cal.run = none ∨ s.mode ≠ 3) →
    answers (.calPointComplete ⟨sum, dev⟩ st) s fun t => t = s) ∧
  (∀ (s : State) (i : Initiator) (v : Word), s.Canon → Granted s i MGT_CAL_CTRL → s.mode = 3 → s.calRuns = true →
    answers (.calAbort i v) s fun t => t.get MGT_CAL_STAT_REASON = 1 ∧
    t.get MGT_CAL_CNT_ABT = oneMore s MGT_CAL_CNT_ABT ∧ t.calRuns = false ∧ t.cal.newTerms = s.cal.newTerms ∧
    t.flag MGT_MODE_STAT_PEND = true ∧ t.get MGT_MODE_STAT_TGT = 2 ∧ endedWith t 0) ∧
  (∀ (s : State) (i : Initiator) (v : Word), Granted s i MGT_CAL_CTRL → s.mode ≠ 3 → bitOf v.toNat 9 = false →
    answers (.calAbort i v) s fun t => t.cal = s.cal ∧ t.mem = s.mem ∧ endedWith t 0) ∧
  (∀ (s : State) (i : Initiator) (v : Word), s.Canon → Granted s i MGT_CAL_CTRL → (s.mode = 3 ∨ s.mode = 4) →
    s.calRuns = false → s.aux.shutAt = none →
    answers (.calStore i v true) s fun t =>
    t.get MGT_CAL_SLOT_ACT = (match s.newestCal with | some b => 1 - b | none => 0) ∧
    t.rdN MGT_CAL_GEN = (match s.newestCal with | some b => (s.calGen b + 1) % 2 ^ 32 | none => 1) ∧
    t.memLE (calSlotAt (match s.newestCal with | some b => 1 - b | none => 0) + 1016) 4 = (match s.newestCal with | some b => (s.calGen b + 1) % 2 ^ 32 | none => 1) ^^^ 0xA5C35A3C ∧
    endedWith t 0) ∧
  (∀ (s : State) (i : Initiator) (v : Word) (st : Bool) (o : Nat), Granted s i MGT_CAL_CTRL →
    (s.mode = 3 ∨ s.mode = 4) → s.calRuns = false → s.aux.shutAt = none → o < 1024 →
    answers (.calStore i v st) s fun t =>
    t.memLE (calSlotAt (1 - (match s.newestCal with | some b => 1 - b | none => 0)) + o) 1 = s.memLE (calSlotAt (1 - (match s.newestCal with | some b => 1 - b | none => 0)) + o) 1) ∧
  (∀ (s : State) (i : Initiator) (v : Word), s.Canon → s.collectorOn = true → Granted s i MGT_CAL_CTRL →
    (s.mode = 3 ∨ s.mode = 4) → s.calRuns = false → s.aux.shutAt = none →
    answers (.calStore i v false) s fun t =>
    t.memLE (calSlotAt (match s.newestCal with | some b => 1 - b | none => 0) + 1016) 4 = 0 ∧ Stands t 9 0x13 0)

/-- A switch request answers the status of its checks and is scheduled when they pass; at its tick the slot is installed; slots pass probation or are rejected -/
def Obligations.ConfigurationSwitchAndProbation : Prop :=
  (∀ (s : State) (i : Initiator) (v : Word), s.Canon → Granted s i MGT_CFG_SWITCH → s.privileged i = true →
    answers (.cfgSwitchRequest i v) s fun t =>
    t.get MGT_CFG_SW_STAT_STATUS = (s.askSwitch (v.toNat % 2) 0 (s.get64 MGT_CFG_KSW_LO % 2 ^ 48)).1.1 ∧
    t.cfgSwitch = (if (s.askSwitch (v.toNat % 2) 0 (s.get64 MGT_CFG_KSW_LO % 2 ^ 48)).1.1 = 0 then some (v.toNat % 2, (s.askSwitch (v.toNat % 2) 0 (s.get64 MGT_CFG_KSW_LO % 2 ^ 48)).1.2) else s.cfgSwitch) ∧
    ((s.askSwitch (v.toNat % 2) 0 (s.get64 MGT_CFG_KSW_LO % 2 ^ 48)).1.1 = 0 → t.flag MGT_CFG_SW_STAT_PEND = true) ∧
    endedWith t 0) ∧
  (∀ (s : State) (p : Fin 4) (f : Frame), s.Canon → f.typ = 0x23 → f.src = 0 → f.payload.length = 20 →
    byteAt f.payload 2 = 0 →
    answers (.cfgSwitchFrame p f) s fun t =>
    t.get MGT_CFG_SW_STAT_STATUS = (s.askSwitch (byteAt f.payload 3 % 2) (leAt f.payload 4 4) (leAt f.payload 8 6)).1.1 ∧
    t.cfgSwitch = (if (s.askSwitch (byteAt f.payload 3 % 2) (leAt f.payload 4 4) (leAt f.payload 8 6)).1.1 = 0 then some (byteAt f.payload 3 % 2, (s.askSwitch (byteAt f.payload 3 % 2) (leAt f.payload 4 4) (leAt f.payload 8 6)).1.2) else s.cfgSwitch) ∧
    ((s.askSwitch (byteAt f.payload 3 % 2) (leAt f.payload 4 4) (leAt f.payload 8 6)).1.1 = 0 → t.flag MGT_CFG_SW_STAT_PEND = true)) ∧
  (∀ (s : State) (p : Fin 4) (f : Frame),
    (f.typ ≠ 0x23 ∨ f.src ≠ 0 ∨ f.payload.length ≠ 20 ∨ byteAt f.payload 2 ≠ 0) →
    answers (.cfgSwitchFrame p f) s fun t => t.cfgSwitch = s.cfgSwitch ∧ t.regs = s.regs) ∧
  (∀ (s : State) (i : Initiator) (v : Word), s.Canon → s.collectorOn = true → Granted s i MGT_CFG_SWITCH →
    s.privileged i = false →
    answers (.cfgSwitchRequest i v) s fun t => t.cfgSwitch = s.cfgSwitch ∧ Stands t 0 1 i.code) ∧
  (∀ (s : State) (i k : Nat), s.Canon → s.cfgSwitch = some (i, k) → i < 2 →
    (s.cfgRecords (slotOff i)).isSome = true →
    answers .cfgSwitchApply s fun t => t.cfgSwitch = none ∧ t.sealed = true ∧ t.get MGT_CFG_STAT_SLOT = i ∧
    t.flag MGT_CFG_STAT_BASE = false ∧ t.flag PSF_STAT_ARMED = false ∧ (∀ e : Fin 16, (t.engine e).nextCause = 5) ∧
    (s.sampleAt k : Int) ≤ t.now + t.ftOfs ∧ t.get MGT_CFG_SW_STAT_N = oneMore s MGT_CFG_SW_STAT_N) ∧
  (∀ (s : State), s.cfgSwitch = none →
    answers .cfgSwitchApply s fun t => t = s) ∧
  (∀ (s : State) (k : Fin 4), s.Canon → s.bit MGT_PROB_STAT_SLOTS k = true → s.mode = 2 → s.engFenced 15 = false →
    answers (.probationPassed k) s fun t => t.flag (MGT_SLOTs_HDR_PASSED k) = true ∧
    t.bit MGT_PROB_STAT_SLOTS k = false ∧ bytesAt flashDefault t.flash (slotBase k + 200) 4 = [0, 0, 0, 0]) ∧
  (∀ (s : State) (k : Fin 4), (s.bit MGT_PROB_STAT_SLOTS k = false ∨ s.mode ≠ 2 ∨ s.engFenced 15 = true) →
    answers (.probationPassed k) s fun t => t = s) ∧
  (∀ (s : State) (i : Initiator) (v : Word) (k : Fin 4), s.Canon → Granted s i MGT_SLOT_CTRL →
    s.privileged i = true → v.toNat / 65536 = 0x7E3D → bitOf v.toNat k = true →
    s.flag (MGT_SLOTs_HDR_COMMIT k) = true →
    answers (.slotReject i v) s fun t => t.flag (MGT_SLOTs_HDR_REJECTED k) = true ∧
    bytesAt flashDefault t.flash (slotBase k + 196) 4 = [0, 0, 0, 0] ∧ endedWith t 0) ∧
  (∀ (s : State) (i : Initiator) (v : Word), Granted s i MGT_SLOT_CTRL → s.privileged i = true →
    v.toNat / 65536 ≠ 0x7E3D →
    answers (.slotReject i v) s fun t => t.regs = s.regs ∧ t.flash = s.flash ∧ t.mem = s.mem)

/-- An update session takes, verifies and writes its image; keys open OTP programming and CLEAR; the log and the lifetime banks advance -/
def Obligations.UpdateOtpLogAndLifetime : Prop :=
  (∀ (s : State) (i : Initiator) (v : Word), s.Canon → Granted s i MGT_UPD_CTRL → s.privileged i = true →
    s.get MGT_UPD_STAT_STATE ≠ 4 → s.recovering = false → bitOf v.toNat 1 = false → bitOf v.toNat 2 = false →
    bitOf v.toNat 3 = false →
    answers (.updateOpen i v) s fun t =>
    t.mgt.upd = some { kind := t.get MGT_UPD_CTRL_KIND, tag := t.get MGT_UPD_CTRL_TAG, len := s.get MGT_UPD_LEN_V, got := [], spoiled := false } ∧
    (Unsealed s ⟨MGT_UPD_CTRL, 4, 1⟩ → t.get MGT_UPD_CTRL_KIND = fieldOf v.toNat 4 1) ∧
    (Unsealed s ⟨MGT_UPD_CTRL, 16, 16⟩ → t.get MGT_UPD_CTRL_TAG = v.toNat / 65536) ∧ t.get MGT_UPD_STAT_STATE = 1 ∧
    endedWith t 0) ∧
  (∀ (s : State) (p : Fin 4) (f : Frame) (u : UpdSt), f.typ = 0x33 → f.src = 0 → s.mgt.upd = some u →
    s.get MGT_UPD_STAT_STATE = 1 → u.tag = leAt f.payload 0 2 → u.kind = byteAt f.payload 2 → f.payload.drop 8 ≠ [] →
    leAt f.payload 4 4 + (f.payload.drop 8).length ≤ min u.len stagingSize →
    answers (.imageFrame p f) s fun t =>
    t.memBytes (lagoon + stagingOff + leAt f.payload 4 4) (f.payload.drop 8).length = f.payload.drop 8 ∧
    t.flash = s.flash) ∧
  (∀ (s : State) (p : Fin 4) (f : Frame), s.Canon → f.typ = 0x33 →
    ((f.src ≠ 0 ∧ (s.recovering = false ∨ f.dst ≠ 0xFE)) ∨ (s.mgt.upd.all fun u => u.tag != leAt f.payload 0 2 || u.kind != byteAt f.payload 2) = true) →
    answers (.imageFrame p f) s fun t => t.get MGT_UPD_STAT_DISC = oneMore s MGT_UPD_STAT_DISC ∧ t.mem = s.mem) ∧
  (∀ (s : State) (i : Initiator) (v : Word) (u : UpdSt), s.Canon → Granted s i MGT_UPD_CTRL → s.privileged i = true →
    s.collectorOn = true → s.mgt.upd = some u → s.get MGT_UPD_STAT_STATE = 1 → rangeSum u.got < u.len →
    bitOf v.toNat 0 = false → bitOf v.toNat 2 = false → bitOf v.toNat 3 = false →
    answers (.updateVerify i v) s fun t => t.get MGT_UPD_STAT_CODE = 1 ∧ t.mgt.upd = none ∧
    t.get MGT_UPD_STAT_STATE = 0 ∧ t.fcr.standing.any (fun x => x.src == 0 && x.code == 0x18) = true) ∧
  (∀ (s : State) (i : Initiator) (v : Word) (u : UpdSt), s.Canon → Granted s i MGT_UPD_CTRL → s.privileged i = true →
    s.mgt.upd = some u → s.get MGT_UPD_STAT_STATE = 1 → u.len ≤ rangeSum u.got →
    s.verifyCode stagingOff u.kind false = 0 → bitOf v.toNat 0 = false → bitOf v.toNat 2 = false →
    bitOf v.toNat 3 = false →
    answers (.updateVerify i v) s fun t => t.get MGT_UPD_STAT_CODE = 0 ∧ t.get MGT_UPD_STAT_STATE = 3 ∧
    t.mgt.upd = some u) ∧
  (∀ (s : State) (i : Initiator) (v : Word) (u : UpdSt), s.Canon → Granted s i MGT_UPD_CTRL → s.privileged i = true →
    s.mgt.upd = some u → s.get MGT_UPD_STAT_STATE = 3 → s.mgt.flashOp = none → bitOf v.toNat 0 = false →
    bitOf v.toNat 1 = false → bitOf v.toNat 3 = false →
    answers (.updateWrite i v) s fun t => t.get MGT_UPD_STAT_STATE = 4 ∧
    t.mgt.flashOp = some { slot := s.alternate u.kind, suspended := false } ∧ t.flag MGT_FL_STAT_BUSY = true ∧
    bytesAt flashDefault t.flash (slotBase (s.alternate u.kind) + 192) 4 = [0xFF, 0xFF, 0xFF, 0xFF]) ∧
  (∀ (s : State) (o : FlashOp), s.Canon → s.mgt.flashOp = some o → o.suspended = false → o.slot < 4 → s.mode ≠ 0 →
    s.logicOn = true → s.recovering = false →
    answers (.updateWriteComplete .good) s fun t => t.mgt.flashOp = none ∧ t.get MGT_UPD_STAT_STATE = 5 ∧
    t.flag MGT_FL_STAT_BUSY = false ∧
    bytesAt flashDefault t.flash (slotBase o.slot + 192) 4 = leBytes 4 (s.imgVersion stagingOff ^^^ 0x5A5AA5A5)) ∧
  (∀ (s : State) (o : FlashOp), s.Canon → s.mgt.flashOp = some o → o.suspended = false → s.mode ≠ 0 →
    s.logicOn = true →
    answers (.updateWriteComplete .writeFailed) s fun t => t.mgt.flashOp = none ∧ t.get MGT_UPD_STAT_STATE = 3 ∧
    t.get MGT_UPD_STAT_CODE = 6 ∧ t.flash = s.flash) ∧
  (∀ (s : State) (o : FlashOp), s.Canon → s.mgt.flashOp = some o → o.suspended = false → s.mode ≠ 0 →
    s.logicOn = true →
    answers (.updateWriteComplete .readbackFailed) s fun t => t.mgt.flashOp = none ∧ t.get MGT_UPD_STAT_STATE = 3 ∧
    t.get MGT_UPD_STAT_CODE = 7 ∧ t.flash = s.flash) ∧
  (∀ (s : State) (o : FlashOp) (r : FlashOutcome), s.mgt.flashOp = some o → o.suspended = false → s.mode = 0 →
    answers (.updateWriteComplete r) s fun t => t.mgt.flashOp = none ∧ t.mgt.vio = false ∧ t.regs = s.regs ∧
    t.flash = s.flash) ∧
  (∀ (s : State) (i : Initiator) (v : Word), s.Canon → Granted s i MGT_UPD_CTRL → s.privileged i = true →
    s.get MGT_UPD_STAT_STATE ≠ 4 → bitOf v.toNat 0 = false → bitOf v.toNat 1 = false → bitOf v.toNat 2 = false →
    answers (.updateClose i v) s fun t => t.mgt.upd = none ∧ t.get MGT_UPD_STAT_STATE = 0 ∧
    t.memLE (lagoon + stagingOff) 8 = 0) ∧
  (∀ (s : State) (i : Initiator) (v : Word), Granted s i MGT_OTP_KEY → s.privileged i = true →
    v.toNat % 65536 = 0x0F7A →
    answers (.otpKey i v) s fun t => t.mgt.otpKey = some (s.now, false) ∧ t.regs = s.regs) ∧
  (∀ (s : State) (i : Initiator) (v : Word) (u : Nat), Granted s i MGT_OTP_KEY → s.privileged i = true →
    s.mgt.otpKey = some (u, false) → s.now ≤ u + sec → v.toNat % 65536 = 0x9B3C →
    answers (.otpKey i v) s fun t => t.mgt.otpKey = some (s.now, true) ∧ t.regs = s.regs) ∧
  (∀ (s : State) (i : Initiator) (v : Word), Granted s i MGT_OTP_KEY → s.privileged i = true →
    v.toNat % 65536 ≠ 0x0F7A →
    (v.toNat % 65536 ≠ 0x9B3C ∨ (s.mgt.otpKey.all fun x => x.2 || decide (x.1 + sec < s.now)) = true) →
    answers (.otpKey i v) s fun t => t.mgt.otpKey = none ∧ t.regs = s.regs) ∧
  (∀ (s : State) (i : Initiator) (v : Word) (fb : BitVec 3) (g : Bool), s.Canon → Granted s i MGT_OTP_CTRL →
    s.privileged i = true → (bitOf (s.rdN (PSF_OTPk 7)) (v.toNat % 2) = true ∨ s.mgt.otpKey = none ∨ fb ≠ 0) →
    answers (.otpProgram i v fb g) s fun t =>
    t.get MGT_OTP_STAT_CODE = (if bitOf (s.rdN (PSF_OTPk 7)) (v.toNat % 2) then 1 else match s.mgt.otpKey with | some (u, true) => (if s.now ≤ u + sec then 3 else 2) | _ => 2) ∧
    t.mem = s.mem) ∧
  (∀ (s : State) (i : Initiator) (v : Word) (u : Nat) (k : Fin 7), s.Canon → Granted s i MGT_OTP_CTRL →
    s.privileged i = true → v.toNat % 2 = 0 → bitOf (s.rdN (PSF_OTPk 7)) 0 = false → s.mgt.otpKey = some (u, true) →
    s.now ≤ u + sec → 2000 ≤ s.get MGT_SUPPLY_VSTK → bitOf (s.rdN (MGT_OTP_DATAk 7)) 0 = true →
    answers (.otpProgram i v 0 true) s fun t => t.get MGT_OTP_STAT_CODE = 0 ∧
    t.rd (PSF_OTPk k) = s.rd (MGT_OTP_DATAk k) ∧ t.memLE (otpBase + 0x800 + 4 * k) 4 = s.rdN (MGT_OTP_DATAk k) ∧
    t.now = s.now + 50 * ms) ∧
  (∀ (s : State) (i : Initiator) (v : Word) (u : Nat), s.Canon → Granted s i MGT_OTP_CTRL → s.privileged i = true →
    v.toNat % 2 = 1 → bitOf (s.rdN (PSF_OTPk 7)) 1 = false → s.mgt.otpKey = some (u, true) → s.now ≤ u + sec →
    2000 ≤ s.get MGT_SUPPLY_VSTK →
    answers (.otpProgram i v 0 true) s fun t => t.get MGT_OTP_STAT_CODE = 0 ∧ bitOf (t.rdN (PSF_OTPk 7)) 1 = true ∧
    t.memLE (otpBase + 0x820) 4 = s.rdN (MGT_OTP_DATAk 0) ∧ t.now = s.now + 50 * ms) ∧
  (∀ (s : State) (i : Initiator) (v : Word) (u : Nat), s.Canon → Granted s i MGT_OTP_CTRL → s.privileged i = true →
    bitOf (s.rdN (PSF_OTPk 7)) (v.toNat % 2) = false → s.mgt.otpKey = some (u, true) → s.now ≤ u + sec →
    2000 ≤ s.get MGT_SUPPLY_VSTK → (v.toNat % 2 = 1 ∨ bitOf (s.rdN (MGT_OTP_DATAk 7)) 0 = true) →
    answers (.otpProgram i v 0 false) s fun t => t.get MGT_OTP_STAT_CODE = 4 ∧ t.now = s.now + 50 * ms) ∧
  (∀ (s : State) (i : Initiator) (v : Word), s.Canon → Granted s i MGT_LOG_POST → s.domOn 8 = true →
    answers (.logPost i v) s fun t => t.log.seq = s.log.seq + 1 ∧ t.get MGT_LOG_STAT_WPTR = s.log.seq % 131072 ∧
    t.memLE (lagoon + s.log.seq % 131072 * 32 + 16) 4 = (s.stagedLog i 1).toNat ∧ endedWith t 0) ∧
  (∀ (s : State), s.Canon → s.logicOn = true → s.started = true → s.engFenced 15 = false → s.aux.shutAt = none →
    answers (.lifetimeFlush true) s fun t => t.life.flushAt = t.now ∧ t.now = max s.now (s.life.flushAt + 10 * sec) ∧
    t.get MEM_LT_FLUSH_N = (s.get MEM_LT_FLUSH_N + 1) % 2 ^ MEM_LT_FLUSH_N.width) ∧
  (∀ (s : State), s.Canon → s.collectorOn = true → s.logicOn = true → s.started = true → s.engFenced 15 = false →
    s.aux.shutAt = none →
    answers (.lifetimeFlush false) s fun t => t.life.flushAt = t.now ∧ Stands t 9 0x13 0) ∧
  (∀ (s : State) (st : Bool), (s.logicOn = false ∨ s.started = false ∨ s.engFenced 15 = true) →
    answers (.lifetimeFlush st) s fun t => t = s) ∧
  (∀ (s : State) (i : Initiator) (v : Word), s.Canon → Granted s i MEM_LT_CTRL → s.privileged i = true →
    s.aux.shutAt = none → bitOf v.toNat 1 = false →
    answers (.lifetimeFlushNow i v true) s fun t => t.life.flushAt = s.now ∧
    t.get MEM_LT_FLUSH_N = (s.get MEM_LT_FLUSH_N + 1) % 2 ^ MEM_LT_FLUSH_N.width ∧ endedWith t 0) ∧
  (∀ (s : State) (i : Initiator) (v : Word), Granted s i MEM_LT_KEY → s.privileged i = true → s.mode = 4 →
    v.toNat % 65536 = 0x6C1E →
    answers (.lifetimeKey i v) s fun t => t.mgt.lifeKey = some (s.now, false) ∧ t.regs = s.regs) ∧
  (∀ (s : State) (i : Initiator) (v : Word) (u : Nat), Granted s i MEM_LT_KEY → s.privileged i = true → s.mode = 4 →
    s.mgt.lifeKey = some (u, false) → v.toNat % 65536 = 0xE1C6 →
    answers (.lifetimeKey i v) s fun t => t.mgt.lifeKey = some (u, true) ∧ t.regs = s.regs) ∧
  (∀ (s : State) (i : Initiator) (v : Word), Granted s i MEM_LT_KEY → s.privileged i = true →
    (s.mode ≠ 4 ∨ v.toNat % 65536 ∉ [0x6C1E, 0xE1C6]) →
    answers (.lifetimeKey i v) s fun t => t.mgt.lifeKey = none ∧ t.regs = s.regs) ∧
  (∀ (s : State) (i : Initiator) (v : Word) (u : Nat), Granted s i MEM_LT_CTRL → s.privileged i = true → s.mode = 4 →
    s.mgt.lifeKey = some (u, true) → bitOf v.toNat 0 = false →
    answers (.lifetimeClear i v) s fun t => t.mgt.lifeKey = none ∧ t.memLE (lifeBase + 0x1000) 8 = 0 ∧
    t.memLE (lifeBase + 56) 4 = (s.memLE (lifeBase + 56) 4 + 1) % 2 ^ 32 ∧ endedWith t 0) ∧
  (∀ (s : State) (i : Initiator) (v : Word), Granted s i MEM_LT_CTRL → s.privileged i = true → s.mode ≠ 4 →
    bitOf v.toNat 0 = false →
    answers (.lifetimeClear i v) s fun t => t.mem = s.mem ∧ t.life = s.life)

/-- Two-wire writes and reads carry words between the bus and the Lagoon from the pointer on; time-out, wake by address and Host Notify -/
def Obligations.TwoWireAndHostNotify : Prop :=
  (∀ (s : State) (w : TwWrite) (n b x : Nat), s.Canon → NoSteps s → 2 ≤ s.mode → s.logicOn = true →
    s.mgt.upd = none → w.cmd.toNat / 16 = 0xA → bitOf w.cmd.toNat 1 = false → w.data.length = 4 * n →
    lagoon ≤ w.addr.toNat → w.addr.toNat + 4 * n ≤ 0x13000000 → w.addr.toNat % 4 = 0 → s.domOn 8 = true →
    (∀ k < n, s.lagoonGrants .twoWire (w.addr.toNat + 4 * k) = true) →
    ((bitOf w.cmd.toNat 0 = false ∧ s.flag MGT_TW_CFG_PECREQ = false) ∨ (bitOf w.cmd.toNat 0 = true ∧ n ≤ 16 ∧ w.pec = some (pecOf (s.twAddr false :: w.cmd :: (leBytes 4 w.addr.toNat ++ w.data))))) →
    (b < w.addr.toNat ∨ w.addr.toNat + 4 * n ≤ b) → x ≠ MGT_TW_PTR → x ≠ MGT_TW_CNT0_TRANS.addr →
    answers (.twWrite w) s fun t => t.memBytes w.addr.toNat (4 * n) = w.data ∧ t.memLE b 1 = s.memLE b 1 ∧
    t.rdN MGT_TW_PTR = w.addr.toNat + 4 * n ∧ t.rd x = s.rd x ∧ t.sent.head? = some (.tw [] true)) ∧
  (∀ (s : State) (w : TwWrite), s.Canon → NoSteps s → 2 ≤ s.mode → s.logicOn = true → w.cmd.toNat / 16 ≠ 0xA →
    answers (.twWrite w) s fun t => t.mem = s.mem ∧ t.get MGT_TW_STAT_ERR = 1 ∧ t.rdN MGT_TW_PTR = s.rdN MGT_TW_PTR ∧
    t.sent.head? = some (.tw [] false)) ∧
  (∀ (s : State) (w : TwWrite) (p : Byte), s.Canon → NoSteps s → 2 ≤ s.mode → s.logicOn = true →
    w.cmd.toNat / 16 = 0xA → bitOf w.cmd.toNat 0 = true → w.pec = some p →
    p ≠ pecOf (s.twAddr false :: w.cmd :: (leBytes 4 w.addr.toNat ++ w.data)) →
    answers (.twWrite w) s fun t => t.mem = s.mem ∧ t.get MGT_TW_STAT_ERR = 2 ∧
    t.get MGT_TW_CNT1_PEC = oneMore s MGT_TW_CNT1_PEC ∧ t.sent.head? = some (.tw [] false)) ∧
  (∀ (s : State) (w : TwRead) (n x : Nat), s.Canon → 2 ≤ s.mode → s.logicOn = true → w.cmd.toNat / 16 = 0xA →
    bitOf w.cmd.toNat 1 = false → w.words = n → lagoon ≤ w.addr.toNat → w.addr.toNat + 4 * n ≤ 0x13000000 →
    w.addr.toNat % 4 = 0 → s.domOn 8 = true → (bitOf w.cmd.toNat 0 = true → 1 ≤ n ∧ n ≤ 16) → x ≠ MGT_TW_PTR →
    x ≠ MGT_TW_CNT0_TRANS.addr →
    answers (.twRead w) s fun t =>
    t.sent.head? = some (.tw (s.memBytes w.addr.toNat (4 * n) ++ (if bitOf w.cmd.toNat 0 then [pecOf (s.twAddr false :: w.cmd :: (leBytes 4 w.addr.toNat ++ leBytes 1 n ++ [s.twAddr true]) ++ s.memBytes w.addr.toNat (4 * n))] else [])) true) ∧
    t.rdN MGT_TW_PTR = w.addr.toNat + 4 * n ∧ t.mem = s.mem ∧ t.rd x = s.rd x) ∧
  (∀ (s : State) (n x : Nat), s.Canon → 2 ≤ s.mode → s.logicOn = true → lagoon ≤ s.rdN MGT_TW_PTR →
    s.rdN MGT_TW_PTR + 4 * n ≤ 0x13000000 → s.rdN MGT_TW_PTR % 4 = 0 → s.domOn 8 = true → x ≠ MGT_TW_PTR →
    x ≠ MGT_TW_CNT0_TRANS.addr →
    answers (.twCurrentRead n) s fun t => t.sent.head? = some (.tw (s.memBytes (s.rdN MGT_TW_PTR) (4 * n)) true) ∧
    t.rdN MGT_TW_PTR = s.rdN MGT_TW_PTR + 4 * n ∧ t.mem = s.mem ∧ t.rd x = s.rd x) ∧
  (∀ (s : State) (b : Bool), s.Canon → s.logicOn = true → s.collectorOn = true →
    answers (.twTimeout b) s fun t => t.get MGT_TW_STAT_ERR = 7 ∧ Stands t 0 0x14 (if b then 0 else 1) ∧
    t.now = s.now + s.getIn MGT_TW_CFG_TMO_MS 2 35 * ms ∧ t.rdN MGT_TW_PTR = s.rdN MGT_TW_PTR) ∧
  (∀ (s : State), s.Canon → s.mode = 1 → s.mgt.por = false → s.flag MGT_WAKE_CFG_TW = true →
    s.flag MGT_MODE_STAT_PEND = false →
    answers .twWakeMatch s fun t => t.flag MGT_MODE_STAT_PEND = true ∧ t.get MGT_MODE_STAT_TGT = 2 ∧
    t.sent.head? = some (.tw [] true)) ∧
  (∀ (s : State), (s.mode = 0 ∨ s.mode = 1 ∧ (s.logicOn = false ∨ s.flag MGT_MODE_STAT_PEND = false)) →
    s.flag MGT_WAKE_CFG_TW = false →
    answers .twWakeMatch s fun t => t.regs = s.regs ∧ t.now = s.now ∧ t.sent.head? = some (.tw [] false)) ∧
  (∀ (s : State), s.Canon → s.mode = 0 → s.mgt.por = false → s.flag MGT_WAKE_CFG_TW = true →
    s.flag MGT_MODE_STAT_PEND = false →
    answers .twWakeMatch s fun t => t.flag MGT_MODE_STAT_PEND = true ∧ t.get MGT_MODE_STAT_TGT = 6 ∧
    t.get MGT_TW_STAT_ERR = 8 ∧ t.sent.head? = some (.tw [] true)) ∧
  (∀ (s : State), 2 ≤ s.mode →
    answers .twWakeMatch s fun t => t = s) ∧
  (∀ (s : State), s.Canon → s.get MGT_NOTIFY_STAT_QCNT ≠ 0 → s.logicOn = true → s.mode ≠ 0 → s.mode ≠ 6 →
    answers (.hostNotifyAttempt .delivered) s fun t => t.get MGT_NOTIFY_STAT_QCNT = s.get MGT_NOTIFY_STAT_QCNT - 1 ∧
    t.get MGT_NOTIFY_CNT_DELIV = oneMore s MGT_NOTIFY_CNT_DELIV ∧
    t.rd (MGT_NOTIFY_Qe_WORD 0) = s.rd (MGT_NOTIFY_Qe_WORD 1)) ∧
  (∀ (s : State) (r : NotifyResult), s.Canon → s.get MGT_NOTIFY_STAT_QCNT ≠ 0 → s.logicOn = true → s.mode ≠ 0 →
    s.mode ≠ 6 → r ≠ .delivered → s.get MGT_NOTIFY_STAT_RETRY < 8 →
    answers (.hostNotifyAttempt r) s fun t => t.get MGT_NOTIFY_STAT_RETRY = s.get MGT_NOTIFY_STAT_RETRY + 1 ∧
    t.get MGT_NOTIFY_STAT_QCNT = s.get MGT_NOTIFY_STAT_QCNT) ∧
  (∀ (s : State) (r : NotifyResult), s.Canon → s.get MGT_NOTIFY_STAT_QCNT ≠ 0 → s.logicOn = true → s.mode ≠ 0 →
    s.mode ≠ 6 → r ≠ .delivered → 8 ≤ s.get MGT_NOTIFY_STAT_RETRY →
    answers (.hostNotifyAttempt r) s fun t => t.get MGT_NOTIFY_STAT_QCNT = s.get MGT_NOTIFY_STAT_QCNT - 1 ∧
    t.get MGT_NOTIFY_STAT_RETRY = 0) ∧
  (∀ (s : State) (i : Initiator) (v : Word), s.Canon → Granted s i MGT_NOTIFY_SEND → s.privileged i = true →
    s.flag MGT_NOTIFY_CFG_EN = true → s.mode ≠ 0 →
    (s.get MGT_NOTIFY_STAT_QCNT < 8 ∨ (s.notifySlot (0x10 + v.toNat % 16)).isSome = true) →
    answers (.notifySend i v) s fun t => (t.notifySlot (0x10 + v.toNat % 16)).isSome = true ∧
    ((t.notifySlot (0x10 + v.toNat % 16)).all fun e => t.get (MGT_NOTIFY_Qe_WORD_INFO e) == v.toNat / 256 % 256) = true ∧
    endedWith t 0) ∧
  (∀ (s : State) (i : Initiator) (v : Word), s.Canon → Granted s i MGT_NOTIFY_SEND → s.privileged i = true →
    s.flag MGT_NOTIFY_CFG_EN = true → s.mode ≠ 0 → 8 ≤ s.get MGT_NOTIFY_STAT_QCNT →
    s.notifySlot (0x10 + v.toNat % 16) = none →
    answers (.notifySend i v) s fun t => t.get MGT_NOTIFY_STAT_OVF = oneMore s MGT_NOTIFY_STAT_OVF ∧
    t.bit MGT_NOTIFY_PEND_J (v.toNat % 16) = true ∧ t.get MGT_NOTIFY_STAT_QCNT = s.get MGT_NOTIFY_STAT_QCNT)

/-- Single-wire buses send triggers and keep or discard responses, the flash time-out fails a write, and an owned check-value unit computes -/
def Obligations.SingleWireFlashAndCheckUnits : Prop :=
  (∀ (s : State) (n : Fin 2), s.Canon → s.swbIdle n = true → s.swbDue n ≠ [] →
    answers (.swbTrigger n) s fun t => t.get (MGT_SWBn_STAT_STATE n) = 4 ∧ (t.swb n).trig.isSome = true ∧
    t.get (MGT_SWBn_CNT0_TRIG n) = oneMore s (MGT_SWBn_CNT0_TRIG n) ∧ s.now ≤ t.now) ∧
  (∀ (s : State) (n : Fin 2) (i : Initiator) (v : Word), s.Canon → Granted s i (MGT_SWBn_CTRL n) →
    s.get (MGT_SWBn_STAT_STATE n) ≠ 0 →
    answers (.swbManualTrigger n i v) s fun t =>
    (if s.swbIdle n = true ∧ (s.swb n).freeAt ≤ s.now then t.get (MGT_SWBn_STAT_STATE n) = 4 ∧ (t.swb n).trig = some (v.toNat % 4, t.now) else (t.swb n).manual = some (v.toNat % 4)) ∧
    endedWith t 0) ∧
  (∀ (s : State) (n : Fin 2) (r : SwbReply) (x : Nat), s.Canon → (s.swb n).trig = some (1, x) → r.delay ≤ 500 →
    swbJudge 1 r = 0 →
    answers (.swbResponse n r) s fun t => t.rdN (MGT_SWBn_PRI n) % 65536 = swbValue (r.bytes.drop 1) ∧
    t.flag (MGT_SWBn_PRI_VALID n) = true ∧ t.flag (MGT_SWBn_PRI_HELD n) = false ∧ (t.swb n).trig = none ∧
    (t.swb n).bad = 0 ∧ t.get (MGT_SWBn_STAT_ERRS n) = 0 ∧ t.get (MGT_SWBn_CNT0_OK n) = oneMore s (MGT_SWBn_CNT0_OK n)) ∧
  (∀ (s : State) (n : Fin 2) (r : SwbReply) (k x : Nat), s.Canon → (s.swb n).trig = some (k, x) → r.delay ≤ 500 →
    swbJudge k r ≠ 0 →
    answers (.swbResponse n r) s fun t => t.get (MGT_SWBn_STAT_LASTERR n) = swbJudge k r ∧
    t.get (MGT_SWBn_STAT_ERRS n) = oneMore s (MGT_SWBn_STAT_ERRS n) ∧ (t.swb n).trig = none ∧
    t.rdN (MGT_SWBn_PRI n) % 65536 = s.rdN (MGT_SWBn_PRI n) % 65536) ∧
  (∀ (s : State) (n : Fin 2) (r : SwbReply) (x : Nat), s.Canon → (s.swb n).trig = some (0, x) → r.delay ≤ 500 →
    swbJudge 0 r = 0 →
    answers (.swbResponse n r) s fun t => t.rdN (MGT_SWBn_ID_LO n) = leAt r.bytes 1 4 ∧
    t.rdN (MGT_SWBn_ID_HI n) = leAt r.bytes 5 4 ∧ (t.swb n).trig = none ∧ (t.swb n).bad = 0 ∧
    t.get (MGT_SWBn_CNT0_OK n) = oneMore s (MGT_SWBn_CNT0_OK n)) ∧
  (∀ (s : State) (n : Fin 2) (r : SwbReply) (x : Nat), s.Canon → (s.swb n).trig = some (2, x) → r.delay ≤ 500 →
    swbJudge 2 r = 0 →
    answers (.swbResponse n r) s fun t => t.rdN (MGT_SWBn_SEC n) % 65536 = swbValue (r.bytes.drop 1) ∧
    (t.swb n).trig = none ∧ (t.swb n).bad = 0) ∧
  (∀ (s : State) (n : Fin 2) (r : SwbReply) (k x : Nat), s.Canon → (s.swb n).trig = some (k, x) → 500 < r.delay →
    answers (.swbResponse n r) s fun t => t.get (MGT_SWBn_STAT_LASTERR n) = 1 ∧ (t.swb n).trig = none ∧
    t.now = max s.now (x + 500 * us)) ∧
  (∀ (s : State) (n : Fin 2) (k x : Nat), s.Canon → (s.swb n).trig = some (k, x) →
    answers (.swbResponseTimeout n) s fun t => t.get (MGT_SWBn_STAT_LASTERR n) = 1 ∧
    t.get (MGT_SWBn_STAT_ERRS n) = oneMore s (MGT_SWBn_STAT_ERRS n) ∧ (t.swb n).trig = none ∧
    t.now = max s.now (x + 500 * us)) ∧
  (∀ (s : State) (n : Fin 2), s.Canon → s.flag (MGT_SWBn_STAT_PWR n) = true →
    answers (.swbPowerError n) s fun t => t.flag (MGT_SWBn_STAT_PWR n) = false ∧ t.get (MGT_SWBn_STAT_STATE n) = 0 ∧
    t.get (MGT_SWBn_STAT_LASTERR n) = 5 ∧ (t.swb n).offAt = some s.now ∧
    t.get (MGT_SWBn_CNT2_PWR n) = oneMore s (MGT_SWBn_CNT2_PWR n)) ∧
  (∀ (s : State) (n : Fin 2) (x : Nat), s.Canon → (s.swb n).offAt = some x → s.flag (MGT_SWBn_STAT_PWR n) = false →
    s.flag (MGT_SWBn_CFG_EN n) = true → 2 ≤ s.mode → s.mode ≤ 5 →
    answers (.swpPowerRetry n) s fun t => t.flag (MGT_SWBn_STAT_PWR n) = true ∧ t.get (MGT_SWBn_STAT_STATE n) = 1 ∧
    (t.swb n).offAt = none ∧ t.now = max s.now (x + sec)) ∧
  (∀ (s : State) (n : Fin 2), s.Canon → s.get (MGT_SWBn_STAT_STATE n) = 1 → s.mode ≠ 1 →
    answers (.swbPowerUp n) s fun t => t.get (MGT_SWBn_STAT_STATE n) = 4 ∧ (t.swb n).trig = some (0, t.now) ∧
    t.get (MGT_SWBn_CNT0_TRIG n) = oneMore s (MGT_SWBn_CNT0_TRIG n)) ∧
  (∀ (s : State) (o : FlashOp), s.Canon → s.collectorOn = true → s.mgt.flashOp = some o → o.suspended = false →
    answers .flashTimeout s fun t => t.mgt.flashOp = none ∧ t.get MGT_UPD_STAT_STATE = 3 ∧
    t.get MGT_UPD_STAT_CODE = 6 ∧ Stands t 0 0x10 o.slot ∧ t.flag MGT_FL_STAT_BUSY = false) ∧
  (∀ (s : State) (o : FlashOp), s.Canon → s.collectorOn = true → s.mgt.flashOp = some o → o.suspended = true →
    s.aux.shutAt = none → s.mgt.resetDue = [] →
    answers .flashTimeout s fun t => t.mgt.flashOp = some o ∧ Stands t 0 0x10 o.slot ∧
    t.get MGT_FL_ERR_TMO = oneMore s MGT_FL_ERR_TMO) ∧
  (∀ (s : State) (o : FlashOp) (c : Nat), s.Canon → s.mgt.flashOp = some o → o.suspended = true →
    s.aux.shutAt = none → s.mgt.resetDue = [c] → c < 8 →
    answers .flashTimeout s fun t => t.mgt.resetDue = [] ∧ t.get MGT_RST_CNT_WARM = oneMore s MGT_RST_CNT_WARM ∧
    bitOf (t.rdN MGT_RST_CAUSE) c = true) ∧
  (∀ (s : State) (u : Fin 4) (i : Initiator) (v : Word), s.Canon → Granted s i (MGT_CRCu_CTRL u) →
    s.ownsCrc i u = true → Unsealed s ⟨MGT_CRCu_CTRL u, 0, 2⟩ → bitOf v.toNat 4 = false → bitOf v.toNat 9 = false →
    answers (.crcStart u i v) s fun t => t.rdN (MGT_CRCu_STATE u) = (crcParam (fieldOf v.toNat 0 2)).2.2.1 ∧
    t.rdN (MGT_CRCu_LEN u) = 0 ∧ t.flag (MGT_CRCu_STAT_BUSY u) = true ∧ t.flag (MGT_CRCu_STAT_DONE u) = false ∧
    t.crcHeld u = [] ∧ endedWith t 0) ∧
  (∀ (s : State) (u : Fin 4) (i : Initiator) (v : Word) (z : Fin 3), s.Canon → Granted s i (MGT_CRCu_DATA u) →
    s.ownsCrc i u = true → s.flag (MGT_CRCu_CTRL_DIR u) = false → s.rdN (MGT_CRCu_LEN u) + 4 < 2 ^ 32 →
    answers (.crcData u i v z) s fun t =>
    t.rdN (MGT_CRCu_STATE u) = (if s.get (MGT_CRCu_CTRL_POLY u) < 2 then crcRefl (s.crcOf u).2.1 (s.rdN (MGT_CRCu_STATE u)) (leBytes (2 ^ z.val) v.toNat) else crcMsb 8 0x1D (s.rdN (MGT_CRCu_STATE u) % 256) (leBytes (2 ^ z.val) v.toNat)) ∧
    t.rdN (MGT_CRCu_LEN u) = s.rdN (MGT_CRCu_LEN u) + 2 ^ z.val ∧ endedWith t 0) ∧
  (∀ (s : State) (u : Fin 4) (i : Initiator) (v : Word) (b : Nat) (l : List Nat), s.Canon →
    Granted s i (MGT_CRCu_DATA u) → s.ownsCrc i u = true → s.flag (MGT_CRCu_CTRL_DIR u) = true →
    s.crcHeld u = b :: l → (b :: l).length = (s.crcOf u).1 / 8 →
    answers (.crcData u i v 0) s fun t =>
    t.rdN (MGT_CRCu_STATE u) = (s.crcByte u (BitVec.ofNat 8 b)).rdN (MGT_CRCu_STATE u) ∧
    t.crcHeld u = l ++ [v.toNat % 256] ∧ endedWith t 0) ∧
  (∀ (s : State) (u : Fin 4) (i : Initiator) (v : Word), s.Canon → Granted s i (MGT_CRCu_CTRL u) →
    s.ownsCrc i u = true → Unsealed s ⟨MGT_CRCu_CTRL u, 0, 2⟩ → Unsealed s ⟨MGT_CRCu_CTRL u, 2, 1⟩ →
    bitOf v.toNat 3 = false → bitOf v.toNat 9 = false →
    answers (.crcEnd u i v) s fun t => t.flag (MGT_CRCu_STAT_DONE u) = true ∧ t.flag (MGT_CRCu_STAT_BUSY u) = false ∧
    t.get (MGT_CRCu_CNT_N u) = oneMore s (MGT_CRCu_CNT_N u) ∧ t.rdN (MGT_CRCu_RESULT u) = s.rdN (MGT_CRCu_RESULT u) ∧
    (bitOf v.toNat 2 = true → t.flag (MGT_CRCu_STAT_OK u) = ((s.crcHeld u).length == (crcParam (fieldOf v.toNat 0 2)).1 / 8 && s.rdN (MGT_CRCu_RXCHK u) == s.rdN (MGT_CRCu_RESULT u)))) ∧
  (∀ (s : State) (u : Fin 4) (i : Initiator) (v : Word), s.Canon → Granted s i (MGT_CRCu_CTRL u) → 2 ≤ u.val →
    s.get (MGT_CRCu_STAT_OWNER u) = 0 → bitOf v.toNat 9 = false → bitOf v.toNat 3 = false → bitOf v.toNat 4 = false →
    answers (.crcClaim u i v) s fun t => t.get (MGT_CRCu_STAT_OWNER u) = i.code + 1 ∧ endedWith t 0) ∧
  (∀ (s : State) (u : Fin 4) (i : Initiator) (v : Word), s.Canon → s.collectorOn = true →
    Granted s i (MGT_CRCu_CTRL u) → s.ownsCrc i u = false → (u.val < 2 ∨ s.get (MGT_CRCu_STAT_OWNER u) ≠ 0) →
    answers (.crcClaim u i v) s fun t => t.get (MGT_CRCu_STAT_OWNER u) = s.get (MGT_CRCu_STAT_OWNER u) ∧
    Stands t 0 1 i.code) ∧
  (∀ (s : State) (u : Fin 4) (i : Initiator) (v : Word), s.Canon → Granted s i (MGT_CRCu_CTRL u) →
    s.ownsCrc i u = true →
    answers (.crcRelease u i v) s fun t =>
    t.get (MGT_CRCu_STAT_OWNER u) = (if 2 ≤ u.val then 0 else s.get (MGT_CRCu_STAT_OWNER u)) ∧ endedWith t 0) ∧
  (∀ (s : State) (u : Fin 4) (i : Initiator) (v : Word), s.Canon → Granted s i (MGT_CRCu_STATE u) →
    s.ownsCrc i u = true →
    answers (.crcStateWrite u i v) s fun t => t.rd (MGT_CRCu_STATE u) = v ∧
    t.rdN (MGT_CRCu_LEN u) = s.rdN (MGT_CRCu_LEN u) ∧ endedWith t 0) ∧
  (∀ (s : State) (u : Fin 4) (i : Initiator) (v : Word), s.Canon → s.collectorOn = true →
    Granted s i (MGT_CRCu_STATE u) → s.ownsCrc i u = false →
    answers (.crcStateWrite u i v) s fun t => t.rd (MGT_CRCu_STATE u) = s.rd (MGT_CRCu_STATE u) ∧ Stands t 0 1 i.code)

/-- Low-word reads latch the high word per initiator, reads clear RC fields, writes set the writable fields, refused accesses perform nothing -/
def Obligations.RegisterAndMemoryAccesses : Prop :=
  (∀ (s : State) (i : Initiator) (a : Nat) (j : Initiator) (b : Nat), s.Canon → locate i a = some (.reg, a) →
    s.accessCode i a false = 0 → isLowWord a = true → a < 2 ^ 32 →
    answers (.lowWordRead i a) s fun t => t.sent.head? = some (.word (BitVec.ofNat 32 ((s.seenAt a).view a))) ∧
    t.latches.find? (fun e => e.1 == latchKey i (a + 4)) = some (latchKey i (a + 4), BitVec.ofNat 32 ((s.seenAt a).view (a + 4))) ∧
    (i.code ≠ j.code → b < 2 ^ 32 → t.latches.find? (fun e => e.1 == latchKey j b) = s.latches.find? (fun e => e.1 == latchKey j b)) ∧
    t.mem = s.mem) ∧
  (∀ (s : State) (i : Initiator) (a : Nat) (k : Nat) (w : Word), s.Canon → locate i a = some (.reg, a) →
    s.accessCode i a false = 0 → 4 ≤ a → isLowWord a = false → isLowWord (a - 4) = true →
    (s.latches.find? (fun e => e.1 == latchKey i a) = some (k, w)) →
    answers (.lowWordRead i a) s fun t => t.sent.head? = some (.word w) ∧
    t.latches.find? (fun e => e.1 == latchKey i a) = none ∧ t.mem = s.mem) ∧
  (∀ (s : State) (i : Initiator) (a : Nat) (f : FieldDesc) (b : Nat), s.Canon → locate i a = some (.reg, a) →
    s.accessCode i a false = 0 → (isLowWord a = true ∨ s.latches.any (fun e => e.1 == latchKey i a) = false) →
    idxOf 4 MGT_LOG_WRk a = none → ((regAt a).any (fun r => r.1.fields.contains f) = true) → b ≠ a →
    answers (.readClearRegister i a) s fun t => t.sent.head? = some (.word (BitVec.ofNat 32 ((s.seenAt a).view a))) ∧
    fieldOf (t.rdN a) f.lo f.width = (if f.kind = .rc then 0 else fieldOf ((s.seenAt a).rdN a) f.lo f.width) ∧
    t.rd b = (s.seenAt a).rd b ∧ t.mem = s.mem) ∧
  (∀ (s : State) (i : Initiator) (a : Nat) (b : Nat), s.Canon → locate i a = some (.reg, a) →
    s.accessCode i a false = 0 →
    (a = AUX_TDIE_MAX ∨ a = AUX_RATE_MAX ∨ (idxOf 16 AUX_INi_TMAX a).isSome = true ∨ (idxOf 16 AUX_INi_TMIN a).isSome = true ∨ (idxOf 6 AUX_TDd_MAX a).isSome = true ∨ (idxOf 6 AUX_TDd_MIN a).isSome = true) →
    (s.latches.any (fun e => e.1 == latchKey i a) = false) → b ≠ a →
    answers (.extremeRegisterRead i a) s fun t => t.sent.head? = some (.word (s.rd a)) ∧ t.rdN a = 0 ∧
    t.rd b = s.rd b ∧ t.mem = s.mem) ∧
  (∀ (s : State) (i : Initiator) (a : Nat) (v : Word) (f : FieldDesc) (b : Nat), s.Canon → NoSteps s →
    locate i a = some (.reg, a) → Granted s i a → a / 0x10000 = 1 → a ≠ TMG_CTRL → a ≠ TMG_UTC_OFS_LO →
    a ≠ TMG_UTC_OFS_LO + 4 → idxOf 16 TMG_ENGn_PEAK a = none → ((∀ n, i ≠ .engine n) ∨ stagedBy i.code a = false) →
    ((regAt a).any (fun r => r.1.fields.contains f) = true) → b ≠ a →
    answers (.registerWrite i a v) s fun t =>
    fieldOf (t.rdN a) f.lo f.width = (let old := fieldOf (s.rdN a) f.lo f.width; let new := fieldOf v.toNat f.lo f.width; match f.kind with | .rw => (if s.sealed && s.loaderBits a f.lo f.width then old else new) | .rws => (if s.sealed then old else new) | .rw1c => old - (old &&& new) | _ => old) ∧
    t.rd b = s.rd b ∧ t.mem = s.mem ∧ endedWith t 0) ∧
  (∀ (s : State) (i : Initiator) (a : Nat) (v : Word), s.Canon → NoSteps s → s.collectorOn = true →
    locate i a = some (.reg, a) → s.accessCode i a true = 0 → s.modeAllows i a = false →
    idxOf 8 BAL_PHp_CMD a = none → ((∀ n, i ≠ .engine n) ∨ stagedBy i.code a = false) →
    answers (.registerWrite i a v) s fun t => Stands t (ownerOf a) 1 i.code ∧ endedWith t 2) ∧
  (∀ (s : State) (i : Initiator) (a : Nat) (v : Word), s.Canon → NoSteps s → s.collectorOn = true →
    locate i (a % 2 ^ 32) = none → (∀ n, i ≠ .engine n) →
    answers (.registerWrite i a v) s fun t => Stands t (ownerOf (a % 2 ^ 32)) 2 i.code ∧ endedWith t 4) ∧
  (∀ (s : State) (i : Initiator) (a : Nat) (v : Word) (b : Nat), s.Canon → NoSteps s →
    locate i a = some (.lagoon, a) → s.accessCode i a true = 0 → s.mgt.upd = none → a < 2 ^ 32 → (b < a ∨ a + 4 ≤ b) →
    answers (.registerWrite i a v) s fun t => t.memLE a 4 = v.toNat ∧ t.memLE b 1 = s.memLE b 1 ∧ t.regs = s.regs ∧
    endedWith t 0)
end

