-- ==== Sys2Proof/Laws/Bits.lean ====
section
/-! SUPPORT. Laws of bit fields, byte order and vectors. -/

namespace Sys2Proof.Machine

set_option Elab.async false

/-- A field holds what was put into it, as far as it is wide. -/
theorem fieldOf_withField_same (x lo w v : Nat) : fieldOf (withField x lo w v) lo w = v % 2 ^ w := by
  unfold fieldOf withField
  have h1 : x % 2 ^ lo < 2 ^ lo := Nat.mod_lt _ (by positivity)
  have h2 : x % 2 ^ lo + v % 2 ^ w * 2 ^ lo + x / 2 ^ (lo + w) * 2 ^ (lo + w)
      = x % 2 ^ lo + 2 ^ lo * (v % 2 ^ w + 2 ^ w * (x / 2 ^ (lo + w))) := by rw [pow_add]; ring
  rw [h2, Nat.add_mul_div_left _ _ (by positivity), Nat.div_eq_of_lt h1, zero_add, Nat.add_mul_mod_self_left, Nat.mod_mod]

/-- Writing a field keeps every field below it. -/
theorem fieldOf_withField_below (x lo w v : Nat) {l k : Nat} (h : l + k ≤ lo) :
    fieldOf (withField x lo w v) l k = fieldOf x l k := by
  obtain ⟨m, rfl⟩ := Nat.exists_eq_add_of_le h
  unfold fieldOf withField
  have e : x % 2 ^ (l + k + m) + v % 2 ^ w * 2 ^ (l + k + m) + x / 2 ^ (l + k + m + w) * 2 ^ (l + k + m + w)
      = x % 2 ^ (l + k + m) + 2 ^ (l + k) * (2 ^ m * (v % 2 ^ w + x / 2 ^ (l + k + m + w) * 2 ^ w)) := by
    simp only [pow_add]; ring
  have g (y : Nat) : y / 2 ^ l % 2 ^ k = y % 2 ^ (l + k) / 2 ^ l := by
    rw [pow_add, Nat.mod_mul_right_div_self]
  rw [e, g, g, Nat.add_mul_mod_self_left, Nat.mod_mod_of_dvd _ (pow_dvd_pow 2 (by omega))]

/-- Writing a field keeps every field above it. -/
theorem fieldOf_withField_above (x lo w v : Nat) {l k : Nat} (h : lo + w ≤ l) :
    fieldOf (withField x lo w v) l k = fieldOf x l k := by
  obtain ⟨m, rfl⟩ := Nat.exists_eq_add_of_le h
  unfold fieldOf withField
  have b : x % 2 ^ lo + v % 2 ^ w * 2 ^ lo < 2 ^ (lo + w) := by
    have h1 : x % 2 ^ lo < 2 ^ lo := Nat.mod_lt _ (by positivity)
    have h2 : v % 2 ^ w + 1 ≤ 2 ^ w := Nat.mod_lt _ (by positivity)
    calc x % 2 ^ lo + v % 2 ^ w * 2 ^ lo < (v % 2 ^ w + 1) * 2 ^ lo := by rw [add_mul]; omega
      _ ≤ 2 ^ w * 2 ^ lo := Nat.mul_le_mul_right _ h2
      _ = 2 ^ (lo + w) := by rw [pow_add]; ring
  rw [pow_add 2 (lo + w) m, ← Nat.div_div_eq_div_mul, ← Nat.div_div_eq_div_mul, Nat.mul_comm (x / 2 ^ (lo + w)),
    Nat.add_mul_div_left _ _ (by positivity), Nat.div_eq_of_lt b, zero_add]

/-- A field is less than two to its width. -/
theorem fieldOf_lt (x lo w : Nat) : fieldOf x lo w < 2 ^ w := Nat.mod_lt _ (by positivity)

/-- A word stays a word when a field that lies within it is written. -/
theorem withField_lt {x lo w v : Nat} (hx : x < 2 ^ 32) (h : lo + w ≤ 32) : withField x lo w v < 2 ^ 32 := by
  obtain ⟨m, e⟩ := Nat.exists_eq_add_of_le h
  unfold withField
  have h1 : x % 2 ^ lo + 1 ≤ 2 ^ lo := Nat.mod_lt _ (by positivity)
  have h2 : v % 2 ^ w + 1 ≤ 2 ^ w := Nat.mod_lt _ (by positivity)
  have h3 : x / 2 ^ (lo + w) + 1 ≤ 2 ^ m := by
    rw [e, pow_add] at hx; exact Nat.div_lt_of_lt_mul hx
  have h4 := Nat.mul_le_mul_right (2 ^ lo) h2
  have h5 := Nat.mul_le_mul_right (2 ^ (lo + w)) h3
  rw [e, pow_add 2 (lo + w) m, Nat.mul_comm (2 ^ (lo + w))]
  have h6 : 2 ^ w * 2 ^ lo = 2 ^ (lo + w) := by rw [pow_add]; ring
  rw [h6] at h4
  simp only [add_mul, one_mul] at h4 h5
  omega

/-- The bytes of a number spell its low part. -/
theorem ofLE_leBytes (k x : Nat) : ofLE (leBytes k x) = x % 256 ^ k := by
  induction k generalizing x with
  | zero => simp [leBytes, ofLE, Nat.mod_one]
  | succ k ih =>
    simp only [leBytes, ofLE, ih, BitVec.toNat_ofNat]
    rw [Nat.pow_succ' (m := 256)]; exact Nat.mod_mul.symm

@[simp] theorem leBytes_length (k x : Nat) : (leBytes k x).length = k := by
  induction k generalizing x with
  | zero => rfl
  | succ k ih => simp [leBytes, ih]

theorem bitOf_zero (i : Nat) : bitOf 0 i = false := by simp [bitOf]

theorem b2n_le (b : Bool) : b2n b ≤ 1 := by cases b <;> simp [b2n]

section
variable {α : Type} {n : Nat}

/-- An element of a vector within its bounds. -/
theorem vget_lt (v : Vector α n) {i : Nat} (d : α) (h : i < n) : vget v i d = v[i] := by
  simp [vget, List.getD, h]

/-- The element set is read back. -/
theorem vget_vset_same (v : Vector α n) {i : Nat} (x d : α) (h : i < n) : vget (vset v i x) i d = x := by
  rw [vget_lt _ _ h]; simp [vset, h]

/-- Setting an element keeps every other one. -/
theorem vget_vset_ne (v : Vector α n) {i j : Nat} (x d : α) (h : j ≠ i) : vget (vset v i x) j d = vget v j d := by
  unfold vset
  split
  · by_cases hj : j < n
    · rw [vget_lt _ _ hj, vget_lt _ _ hj, Vector.getElem_set_ne]; exact Ne.symm h
    · simp [vget, List.getD, Nat.le_of_not_lt hj]
  · rfl

end

end Sys2Proof.Machine
end

