-- ==== Sys2Proof/Laws/Store.lean ====
section
/-! SUPPORT. Laws of sparse storage: what a read finds after a write, and that every operation keeps the canonical form. -/

namespace Sys2Proof.Machine

set_option Elab.async false

section
variable {α : Type} [DecidableEq α] {d : Nat → α}

/-- A canonical list above `lo` is canonical above anything lower. -/
theorem sparseWfFrom_mono {l : List (Nat × α)} {lo lo' : Nat} (h : lo' ≤ lo) (w : sparseWfFrom d lo l = true) :
    sparseWfFrom d lo' l = true := by
  cases l with
  | nil => rfl
  | cons e t =>
    simp only [sparseWfFrom, Bool.and_eq_true, decide_eq_true_eq] at w ⊢
    exact ⟨⟨by omega, w.1.2⟩, w.2⟩

/-- Below its first address a canonical list reads as the default. -/
theorem sparseGet_below {l : List (Nat × α)} {lo a : Nat} (w : sparseWfFrom d lo l = true) (h : a < lo) :
    sparseGet d l a = d a := by
  cases l with
  | nil => rfl
  | cons e t =>
    simp only [sparseWfFrom, Bool.and_eq_true, decide_eq_true_eq] at w
    simp [sparseGet, show a < e.1 by omega]

theorem sparseGet_set_same_from {l : List (Nat × α)} {lo : Nat} (w : sparseWfFrom d lo l = true) (a : Nat) (v : α) :
    sparseGet d (sparseSet d l a v) a = v := by
  induction l generalizing lo with
  | nil => simp only [sparseSet]; split <;> simp_all [sparseGet]
  | cons e t ih =>
    obtain ⟨b, x⟩ := e
    simp only [sparseWfFrom, Bool.and_eq_true, decide_eq_true_eq] at w
    simp only [sparseSet]
    split
    · split <;> simp_all [sparseGet]
    · split
      · split
        · rw [sparseGet_below w.2 (by omega)]; simp_all
        · simp [sparseGet]
      · simp only [sparseGet]
        rw [if_neg (by omega), if_neg (by omega)]
        exact ih w.2

/-- A read at the address written finds the value written. -/
theorem sparseGet_set_same {l : List (Nat × α)} (w : sparseWf d l = true) (a : Nat) (v : α) :
    sparseGet d (sparseSet d l a v) a = v := sparseGet_set_same_from w a v

theorem sparseGet_set_ne_from {l : List (Nat × α)} {lo : Nat} (w : sparseWfFrom d lo l = true) {a b : Nat} (h : b ≠ a)
    (v : α) : sparseGet d (sparseSet d l a v) b = sparseGet d l b := by
  induction l generalizing lo with
  | nil =>
    simp only [sparseSet]
    split
    · rfl
    · simp only [sparseGet]; split <;> simp_all
  | cons e t ih =>
    obtain ⟨c, x⟩ := e
    simp only [sparseWfFrom, Bool.and_eq_true, decide_eq_true_eq] at w
    simp only [sparseSet]
    split
    · split
      · rfl
      · simp only [sparseGet]
        by_cases h1 : b < a
        · rw [if_pos h1, if_pos (by omega)]
        · rw [if_neg h1, if_neg h]
    · split
      · split
        · subst_vars
          simp only [sparseGet]
          by_cases h1 : b < c
          · rw [if_pos h1, sparseGet_below w.2 (by omega)]
          · rw [if_neg h1, if_neg h]
        · subst_vars; simp [sparseGet, h]
      · simp only [sparseGet]
        split
        · rfl
        · split
          · rfl
          · exact ih w.2

/-- A read at any other address finds what it found before. -/
theorem sparseGet_set_ne {l : List (Nat × α)} (w : sparseWf d l = true) {a b : Nat} (h : b ≠ a) (v : α) :
    sparseGet d (sparseSet d l a v) b = sparseGet d l b := sparseGet_set_ne_from w h v

theorem sparseSet_wf_from {l : List (Nat × α)} {lo a : Nat} (w : sparseWfFrom d lo l = true) (h : lo ≤ a) (v : α) :
    sparseWfFrom d lo (sparseSet d l a v) = true := by
  induction l generalizing lo with
  | nil => simp only [sparseSet]; split <;> simp_all [sparseWfFrom]
  | cons e t ih =>
    obtain ⟨b, x⟩ := e
    have w' := w
    simp only [sparseWfFrom, Bool.and_eq_true, decide_eq_true_eq] at w
    simp only [sparseSet]
    split
    · split
      · exact w'
      · simp only [sparseWfFrom, Bool.and_eq_true, decide_eq_true_eq]
        exact ⟨⟨h, by assumption⟩, ⟨by omega, w.1.2⟩, w.2⟩
    · split
      · split
        · exact sparseWfFrom_mono (by omega) w.2
        · simp only [sparseWfFrom, Bool.and_eq_true, decide_eq_true_eq]
          subst_vars
          exact ⟨⟨h, by assumption⟩, w.2⟩
      · simp only [sparseWfFrom, Bool.and_eq_true, decide_eq_true_eq]
        exact ⟨w.1, ih w.2 (by omega)⟩

/-- A write keeps the canonical form. -/
theorem sparseSet_wf {l : List (Nat × α)} (w : sparseWf d l = true) (a : Nat) (v : α) :
    sparseWf d (sparseSet d l a v) = true := sparseSet_wf_from w (Nat.zero_le a) v

theorem sparseFilter_wf_from {l : List (Nat × α)} {lo : Nat} (w : sparseWfFrom d lo l = true) (p : Nat × α → Bool) :
    sparseWfFrom d lo (l.filter p) = true := by
  induction l generalizing lo with
  | nil => rfl
  | cons e t ih =>
    simp only [sparseWfFrom, Bool.and_eq_true, decide_eq_true_eq] at w
    simp only [List.filter_cons]
    split
    · simp only [sparseWfFrom, Bool.and_eq_true, decide_eq_true_eq]
      exact ⟨w.1, ih w.2⟩
    · exact sparseWfFrom_mono (by omega) (ih w.2)

/-- Giving entries up keeps the canonical form. -/
theorem sparseFilter_wf {l : List (Nat × α)} (w : sparseWf d l = true) (p : Nat × α → Bool) :
    sparseWf d (l.filter p) = true := sparseFilter_wf_from w p

theorem sparseDrop_wf {l : List (Nat × α)} (w : sparseWf d l = true) (lo hi : Nat) :
    sparseWf d (sparseDrop lo hi l) = true := sparseFilter_wf w _

theorem sparseMap_wf_from {l : List (Nat × α)} {lo : Nat} (w : sparseWfFrom d lo l = true) (f : Nat × α → Option (Nat × α))
    (hf : ∀ e x, f e = some x → x.1 = e.1 ∧ x.2 ≠ d x.1) : sparseWfFrom d lo (l.filterMap f) = true := by
  induction l generalizing lo with
  | nil => rfl
  | cons e t ih =>
    simp only [sparseWfFrom, Bool.and_eq_true, decide_eq_true_eq] at w
    simp only [List.filterMap_cons]
    split
    · exact sparseWfFrom_mono (by omega) (ih w.2)
    · rename_i x hx
      have := hf e x hx
      simp only [sparseWfFrom, Bool.and_eq_true, decide_eq_true_eq]
      rw [this.1]
      exact ⟨⟨w.1.1, this.1 ▸ this.2⟩, ih w.2⟩

/-- Mapping the values, defaults being left out, keeps the canonical form. -/
theorem sparseMap_wf {l : List (Nat × α)} (w : sparseWf d l = true) (f : Nat × α → Option (Nat × α))
    (hf : ∀ e x, f e = some x → x.1 = e.1 ∧ x.2 ≠ d x.1) : sparseWf d (l.filterMap f) = true := sparseMap_wf_from w f hf

/-- A fold that keeps the canonical form at each element keeps it. -/
theorem sparseFold_wf {β : Type} (f : List (Nat × α) → β → List (Nat × α))
    (hf : ∀ m x, sparseWf d m = true → sparseWf d (f m x) = true) (l : List β) {m : List (Nat × α)}
    (w : sparseWf d m = true) : sparseWf d (l.foldl f m) = true := by
  induction l generalizing m with
  | nil => exact w
  | cons x t ih => exact ih (hf m x w)

end

section
variable {d : Nat → Byte}

/-- Storing bytes keeps the canonical form. -/
theorem putBytes_wf {m : List (Nat × Byte)} (w : sparseWf d m = true) (a : Nat) (l : List Byte) :
    sparseWf d (putBytes d m a l) = true := by
  induction l generalizing m a with
  | nil => exact w
  | cons b t ih => exact ih (sparseSet_wf w a b) (a + 1)

/-- A byte outside the bytes stored reads as before. -/
theorem sparseGet_putBytes_out {m : List (Nat × Byte)} (w : sparseWf d m = true) (a : Nat) (l : List Byte) {x : Nat}
    (h : x < a ∨ a + l.length ≤ x) : sparseGet d (putBytes d m a l) x = sparseGet d m x := by
  induction l generalizing m a with
  | nil => rfl
  | cons b t ih =>
    simp only [List.length_cons] at h
    rw [putBytes, ih (sparseSet_wf w a b) (a + 1) (by omega), sparseGet_set_ne w (by omega)]

/-- A byte stored reads as stored. -/
theorem sparseGet_putBytes_in {m : List (Nat × Byte)} (w : sparseWf d m = true) (a : Nat) (l : List Byte) {k : Nat}
    (h : k < l.length) : sparseGet d (putBytes d m a l) (a + k) = l[k] := by
  induction l generalizing m a k with
  | nil => simp at h
  | cons b t ih =>
    cases k with
    | zero =>
      rw [putBytes, sparseGet_putBytes_out (sparseSet_wf w a b) (a + 1) t (by omega)]
      simpa using sparseGet_set_same w a b
    | succ k =>
      rw [putBytes, show a + (k + 1) = (a + 1) + k by omega, ih (sparseSet_wf w a b) (a + 1) (by simpa using h)]
      simp

/-- The bytes stored are read back. -/
theorem bytesAt_putBytes {m : List (Nat × Byte)} (w : sparseWf d m = true) (a : Nat) (l : List Byte) :
    bytesAt d (putBytes d m a l) a l.length = l := by
  induction l generalizing m a with
  | nil => rfl
  | cons b t ih =>
    have h := sparseGet_putBytes_in w a (b :: t) (k := 0) (by simp)
    simp only [List.length_cons, bytesAt, Nat.add_zero] at *
    rw [h, putBytes, ih (sparseSet_wf w a b)]
    simp

end

end Sys2Proof.Machine
end

