-- ==== Sys2Proof/Laws/Kept.lean ====
section
/-! SUPPORT. The relation `Kept` between a state and a later one: it composes, and the plain operations have it. -/

namespace Sys2Proof.Machine

set_option Elab.async false

variable {s t u : State} {α β : Type}

@[refl] theorem Kept.rfl : Kept s s := ⟨Eq.refl _, id, Nat.le_refl _, List.suffix_refl _⟩

theorem Kept.trans (a : Kept s t) (b : Kept t u) : Kept s u :=
  ⟨b.queue.trans a.queue, fun h => b.canon (a.canon h), Nat.le_trans a.free b.free, List.IsSuffix.trans a.sent b.sent⟩

/-- The same for an outcome. -/
structure KeptO (s : State) (o : Outcome) : Prop where
  next_kept : ∀ t, o = .next t → Kept s t

/-- The same for a state that may be absent. -/
structure KeptM (s : State) (o : Option State) : Prop where
  some_kept : ∀ t, o = some t → Kept s t

theorem KeptO.next (h : Kept s t) : KeptO s (.next t) := ⟨fun _ e => by cases e; exact h⟩

theorem KeptO.ite {c : Prop} [Decidable c] {a b : Outcome} (ha : KeptO s a) (hb : KeptO s b) :
    KeptO s (if c then a else b) := by split <;> assumption

theorem KeptM.some (h : Kept s t) : KeptM s (some t) := ⟨fun _ e => by cases e; exact h⟩

theorem KeptM.none : KeptM s none := ⟨fun _ e => by cases e⟩

theorem KeptM.ite {c : Prop} [Decidable c] {a b : Option State} (ha : KeptM s a) (hb : KeptM s b) :
    KeptM s (if c then a else b) := by split <;> assumption

theorem KeptM.after {o : Option State} (h : Kept s t) (ho : KeptM t o) : KeptM s o :=
  ⟨fun x e => h.trans (ho.some_kept x e)⟩

theorem KeptM.map {o : Option α} {f : α → State} (h : ∀ x, Kept s (f x)) : KeptM s (o.map f) := by
  refine ⟨fun t e => ?_⟩
  cases o with
  | none => cases e
  | some x => cases e; exact h x

theorem Kept.of_some {o : Option State} (e : o = .some t) (h : KeptM s o) : Kept s t := h.some_kept t e

theorem Kept.getD {o : Option State} (ho : KeptM s o) (h : Kept s t) : Kept s (o.getD t) := by
  cases o with
  | none => exact h
  | some x => exact ho.some_kept x (Eq.refl _)

theorem Kept.of_snd {p : α × State} {a : α} (e : p = (a, t)) (h : Kept s p.2) : Kept s t := by subst e; exact h

theorem Kept.of_fst {p : State × α} {a : α} (e : p = (t, a)) (h : Kept s p.1) : Kept s t := by subst e; exact h

theorem Kept.ite_else {c : Prop} [Decidable c] (h : Kept s u) (ht : Kept u t) : Kept s (if c then t else u) := by
  split
  · exact h.trans ht
  · exact h

theorem Kept.ite_then {c : Prop} [Decidable c] (h : Kept s u) (ht : Kept u t) : Kept s (if c then u else t) := by
  split
  · exact h
  · exact h.trans ht

theorem Kept.ite {c : Prop} [Decidable c] (ht : Kept s t) (hu : Kept s u) : Kept s (if c then t else u) := by
  split <;> assumption

theorem Kept.pair {a : α} (h : Kept s t) : Kept s ((a, t) : α × State).2 := h

theorem Kept.pair_ite {c : Prop} [Decidable c] {a b : α × State} (ha : Kept s a.2) (hb : Kept s b.2) :
    Kept s (if c then a else b).2 := by split <;> assumption

/-- A record update that leaves the queue, the stores, the free values and the outputs alone. -/
theorem Kept.mk' (h : Kept s t) {now ftOfs latches sealed sealRec loaderRw privAt turned wakeHeld tick fcr psf eng port net imp log
    life cal bal trimOld cfgSwitch meas aux mgt} :
    Kept s { pending := t.pending, now := now, ftOfs := ftOfs, regs := t.regs, mem := t.mem, flash := t.flash, free := t.free,
             sent := t.sent, latches := latches, sealed := sealed, sealRec := sealRec, loaderRw := loaderRw, privAt := privAt, turned := turned,
             wakeHeld := wakeHeld, tick := tick, fcr := fcr, psf := psf, eng := eng, port := port, net := net, imp := imp,
             log := log, life := life, cal := cal, bal := bal, trimOld := trimOld, cfgSwitch := cfgSwitch, meas := meas,
             aux := aux, mgt := mgt } := ⟨h.queue, h.canon, h.free, h.sent⟩

/-- A record update that gives the stores canonical contents. -/
theorem Kept.stores (h : Kept s t) {now ftOfs regs mem flash latches sealed sealRec loaderRw privAt turned wakeHeld tick fcr psf eng
    port net imp log life cal bal trimOld cfgSwitch meas aux mgt}
    (hr : sparseWf resetWord t.regs = true → sparseWf resetWord regs = true) (hm : Memory.wf t.mem → Memory.wf mem)
    (hf : sparseWf flashDefault t.flash = true → sparseWf flashDefault flash = true) :
    Kept s { pending := t.pending, now := now, ftOfs := ftOfs, regs := regs, mem := mem, flash := flash, free := t.free,
             sent := t.sent, latches := latches, sealed := sealed, sealRec := sealRec, loaderRw := loaderRw, privAt := privAt, turned := turned,
             wakeHeld := wakeHeld, tick := tick, fcr := fcr, psf := psf, eng := eng, port := port, net := net, imp := imp,
             log := log, life := life, cal := cal, bal := bal, trimOld := trimOld, cfgSwitch := cfgSwitch, meas := meas,
             aux := aux, mgt := mgt } :=
  ⟨h.queue, fun c => have d := h.canon c; ⟨hr d.1, hm d.2.1, hf d.2.2⟩, h.free, h.sent⟩

theorem Kept.foldl {f : State → β → State} (hf : ∀ t x, Kept t (f t x)) {l : List β} {t : State} (h : Kept s t) :
    Kept s (l.foldl f t) := by
  induction l generalizing t with
  | nil => exact h
  | cons x l ih => exact ih (h.trans (hf t x))

/-- A fold that carries a value beside the state. -/
theorem Kept.foldl_snd {f : α × State → β → α × State} (hf : ∀ p x, Kept p.2 (f p x).2) {l : List β} {p : α × State}
    (h : Kept s p.2) : Kept s (l.foldl f p).2 := by
  induction l generalizing p with
  | nil => exact h
  | cons x l ih => exact ih (h.trans (hf p x))

theorem Kept.foldl_fst {f : State × α → β → State × α} (hf : ∀ p x, Kept p.1 (f p x).1) {l : List β} {p : State × α}
    (h : Kept s p.1) : Kept s (l.foldl f p).1 := by
  induction l generalizing p with
  | nil => exact h
  | cons x l ih => exact ih (h.trans (hf p x))

/-! ## The plain operations -/

theorem State.wr_kept (h : Kept s t) (a : Nat) (v : Word) : Kept s (t.wr a v) :=
  h.stores (fun w => sparseSet_wf w a v) id id

theorem State.memPut_kept (h : Kept s t) (a : Nat) (l : List Byte) : Kept s (t.memPut a l) :=
  h.stores id (fun w => putBytes_wf w a l) id

theorem State.emit_kept (h : Kept s t) (x : Sent) : Kept s (t.emit x) :=
  ⟨h.queue, h.canon, h.free, h.sent.trans (List.suffix_cons _ _)⟩

theorem State.fresh_kept (h : Kept s t) (w : Nat) : Kept s (t.fresh w).2 :=
  ⟨h.queue, h.canon, Nat.le_succ_of_le h.free, h.sent⟩

end Sys2Proof.Machine
end

