-- ==== Sys2Proof/Laws/KeptOps.lean ====
section
/-! SUPPORT. Every operation of Machine/Ops.lean keeps what `Kept` says. -/

set_option linter.unusedTactic false
set_option linter.unreachableTactic false
set_option linter.unusedVariables false

namespace Sys2Proof.Machine

set_option Elab.async false

theorem State.wrN_kept {z0 : State} (s : State) (a v : Nat) (hz : Kept z0 s) : Kept z0 (State.wrN s a v) := by
  refine hz.trans ?_
  unfold State.wrN
  repeat' (first
    | with_reducible exact Kept.rfl | with_reducible assumption | with_reducible apply State.wr_kept
    | with_reducible refine Kept.of_snd (by assumption) ?_ | intro _ | dsimp only
    | fail_if_no_progress with_reducible apply Kept.mk' | split)

theorem State.put_kept {z0 : State} (s : State) (f : Fld) (v : Nat) (hz : Kept z0 s) : Kept z0 (State.put s f v) := by
  refine hz.trans ?_
  unfold State.put
  repeat' (first
    | with_reducible exact Kept.rfl | with_reducible assumption | with_reducible apply State.wrN_kept
    | with_reducible refine Kept.of_snd (by assumption) ?_ | intro _ | dsimp only
    | fail_if_no_progress with_reducible apply Kept.mk' | split)

theorem State.putB_kept {z0 : State} (s : State) (f : Fld) (b : Bool) (hz : Kept z0 s) : Kept z0 (State.putB s f b) := by
  refine hz.trans ?_
  unfold State.putB
  repeat' (first
    | with_reducible exact Kept.rfl | with_reducible assumption | with_reducible apply State.put_kept
    | with_reducible refine Kept.of_snd (by assumption) ?_ | intro _ | dsimp only
    | fail_if_no_progress with_reducible apply Kept.mk' | split)

theorem State.bump_kept {z0 : State} (s : State) (f : Fld) (n : Nat) (hz : Kept z0 s) : Kept z0 (State.bump s f n) := by
  refine hz.trans ?_
  unfold State.bump
  repeat' (first
    | with_reducible exact Kept.rfl | with_reducible assumption | with_reducible apply State.put_kept
    | with_reducible refine Kept.of_snd (by assumption) ?_ | intro _ | dsimp only
    | fail_if_no_progress with_reducible apply Kept.mk' | split)

theorem State.wrap_kept {z0 : State} (s : State) (f : Fld) (n : Nat) (hz : Kept z0 s) : Kept z0 (State.wrap s f n) := by
  refine hz.trans ?_
  unfold State.wrap
  repeat' (first
    | with_reducible exact Kept.rfl | with_reducible assumption | with_reducible apply State.put_kept
    | with_reducible refine Kept.of_snd (by assumption) ?_ | intro _ | dsimp only
    | fail_if_no_progress with_reducible apply Kept.mk' | split)

theorem State.putBit_kept {z0 : State} (s : State) (f : Fld) (i : Nat) (b : Bool) (hz : Kept z0 s) : Kept z0 (State.putBit s f i b) := by
  refine hz.trans ?_
  unfold State.putBit
  repeat' (first
    | with_reducible exact Kept.rfl | with_reducible assumption | with_reducible apply State.put_kept
    | with_reducible refine Kept.of_snd (by assumption) ?_ | intro _ | dsimp only
    | fail_if_no_progress with_reducible apply Kept.mk' | split)

theorem State.putI_kept {z0 : State} (s : State) (f : Fld) (z : Int) (hz : Kept z0 s) : Kept z0 (State.putI s f z) := by
  refine hz.trans ?_
  unfold State.putI
  repeat' (first
    | with_reducible exact Kept.rfl | with_reducible assumption | with_reducible apply State.put_kept
    | with_reducible refine Kept.of_snd (by assumption) ?_ | intro _ | dsimp only
    | fail_if_no_progress with_reducible apply Kept.mk' | split)

theorem State.put64_kept {z0 : State} (s : State) (a v : Nat) (hz : Kept z0 s) : Kept z0 (State.put64 s a v) := by
  refine hz.trans ?_
  unfold State.put64
  repeat' (first
    | with_reducible exact Kept.rfl | with_reducible assumption | with_reducible apply State.wrN_kept
    | with_reducible refine Kept.of_snd (by assumption) ?_ | intro _ | dsimp only
    | fail_if_no_progress with_reducible apply Kept.mk' | split)

theorem State.memPutWord_kept {z0 : State} (s : State) (a : Nat) (w : Word) (hz : Kept z0 s) : Kept z0 (State.memPutWord s a w) := by
  refine hz.trans ?_
  unfold State.memPutWord
  repeat' (first
    | with_reducible exact Kept.rfl | with_reducible assumption | with_reducible apply State.memPut_kept
    | with_reducible refine Kept.of_snd (by assumption) ?_ | intro _ | dsimp only
    | fail_if_no_progress with_reducible apply Kept.mk' | split)

theorem State.flashPut_kept {z0 : State} (s : State) (a : Nat) (l : List Byte) (hz : Kept z0 s) : Kept z0 (State.flashPut s a l) := by
  refine hz.trans ?_
  unfold State.flashPut
  repeat' (first
    | with_reducible exact Kept.rfl | with_reducible assumption | with_reducible exact fun w => w
    | with_reducible exact fun w => putBytes_wf w _ _ | with_reducible exact fun w => sparseDrop_wf w _ _
    | with_reducible exact fun w => putBytes_wf (sparseDrop_wf w _ _) _ _
    | with_reducible exact fun w => sparseDrop_wf (sparseDrop_wf w _ _) _ _ | dsimp only
    | fail_if_no_progress with_reducible apply Kept.stores | with_reducible refine Kept.of_snd (by assumption) ?_
    | intro _ | dsimp only | fail_if_no_progress with_reducible apply Kept.mk' | split)

theorem State.flashErase_kept {z0 : State} (s : State) (lo hi : Nat) (hz : Kept z0 s) : Kept z0 (State.flashErase s lo hi) := by
  refine hz.trans ?_
  unfold State.flashErase
  repeat' (first
    | with_reducible exact Kept.rfl | with_reducible assumption | with_reducible exact fun w => w
    | with_reducible exact fun w => putBytes_wf w _ _ | with_reducible exact fun w => sparseDrop_wf w _ _
    | with_reducible exact fun w => putBytes_wf (sparseDrop_wf w _ _) _ _
    | with_reducible exact fun w => sparseDrop_wf (sparseDrop_wf w _ _) _ _ | dsimp only
    | fail_if_no_progress with_reducible apply Kept.stores | with_reducible refine Kept.of_snd (by assumption) ?_
    | intro _ | dsimp only | fail_if_no_progress with_reducible apply Kept.mk' | split)

theorem State.memDrop_kept {z0 : State} (s : State) (lo hi : Nat) (hz : Kept z0 s) : Kept z0 (State.memDrop s lo hi) := by
  refine hz.trans ?_
  unfold State.memDrop
  repeat' (first
    | with_reducible exact Kept.rfl | with_reducible assumption | with_reducible exact fun w => w
    | with_reducible exact fun w => putBytes_wf w _ _ | with_reducible exact fun w => sparseDrop_wf w _ _
    | with_reducible exact fun w => putBytes_wf (sparseDrop_wf w _ _) _ _
    | with_reducible exact fun w => sparseDrop_wf (sparseDrop_wf w _ _) _ _ | dsimp only
    | fail_if_no_progress with_reducible apply Kept.stores | with_reducible refine Kept.of_snd (by assumption) ?_
    | intro _ | dsimp only | fail_if_no_progress with_reducible apply Kept.mk' | split)

theorem State.unverify_kept {z0 : State} (s : State) (o n : Nat) (hz : Kept z0 s) : Kept z0 (State.unverify s o n) := by
  refine hz.trans ?_
  unfold State.unverify
  repeat' (first
    | with_reducible exact Kept.rfl | with_reducible assumption | with_reducible apply State.put_kept
    | with_reducible apply Kept.ite | with_reducible apply Kept.foldl
    | with_reducible refine Kept.of_snd (by assumption) ?_ | intro _ | dsimp only
    | fail_if_no_progress with_reducible apply Kept.mk' | split)

theorem State.ringPut_kept {z0 : State} (s : State) (off : Nat) (l : List Byte) (hz : Kept z0 s) : KeptM z0 (State.ringPut s off l) := by
  refine KeptM.after hz ?_
  unfold State.ringPut
  repeat' (first
    | with_reducible exact Kept.rfl | with_reducible assumption | with_reducible apply State.memPut_kept
    | with_reducible apply State.unverify_kept | with_reducible apply KeptM.some | with_reducible apply KeptM.none
    | with_reducible apply KeptM.ite | with_reducible apply Kept.ite_else | with_reducible apply Kept.ite_then
    | with_reducible apply Kept.ite | with_reducible refine Kept.of_snd (by assumption) ?_ | intro _ | dsimp only
    | fail_if_no_progress with_reducible apply Kept.mk' | split)

theorem State.tickSlot_kept {z0 : State} (t : Nat) (s : State) (n : Nat) (hz : Kept z0 s) : Kept z0 (State.tickSlot t s n) := by
  refine hz.trans ?_
  unfold State.tickSlot
  repeat' (first
    | with_reducible exact Kept.rfl | with_reducible assumption | with_reducible apply State.emit_kept
    | with_reducible apply Kept.ite_else | with_reducible apply Kept.ite_then | with_reducible apply Kept.ite
    | with_reducible refine Kept.of_snd (by assumption) ?_ | intro _ | dsimp only
    | fail_if_no_progress with_reducible apply Kept.mk' | split)

theorem State.sendCredit_kept {z0 : State} (s : State) (p q : Nat) (hz : Kept z0 s) : Kept z0 (State.sendCredit s p q) := by
  refine hz.trans ?_
  unfold State.sendCredit
  repeat' (first
    | with_reducible exact Kept.rfl | with_reducible assumption | with_reducible apply State.emit_kept
    | with_reducible refine Kept.of_snd (by assumption) ?_ | intro _ | dsimp only
    | fail_if_no_progress with_reducible apply Kept.mk' | split)

theorem State.creditSlot_kept {z0 : State} (t : Nat) (s : State) (n : Nat) (hz : Kept z0 s) : Kept z0 (State.creditSlot t s n) := by
  refine hz.trans ?_
  unfold State.creditSlot
  repeat' (first
    | with_reducible exact Kept.rfl | with_reducible assumption | with_reducible apply State.sendCredit_kept
    | with_reducible apply Kept.ite_else | with_reducible apply Kept.ite_then | with_reducible apply Kept.ite
    | with_reducible apply Kept.foldl | with_reducible apply Kept.foldl_snd
    | with_reducible refine Kept.of_snd (by assumption) ?_ | intro _ | dsimp only
    | fail_if_no_progress with_reducible apply Kept.mk' | split)

theorem State.moveTo_kept {z0 : State} (s : State) (t : Nat) (d : Int) (hz : Kept z0 s) : Kept z0 (State.moveTo s t d) := by
  refine hz.trans ?_
  unfold State.moveTo
  repeat' (first
    | with_reducible exact Kept.rfl | with_reducible assumption | with_reducible apply State.creditSlot_kept
    | with_reducible apply State.tickSlot_kept | with_reducible apply Kept.ite_else
    | with_reducible apply Kept.ite_then | with_reducible apply Kept.ite | with_reducible apply Kept.foldl
    | with_reducible refine Kept.of_snd (by assumption) ?_ | intro _ | dsimp only
    | fail_if_no_progress with_reducible apply Kept.mk' | split)

theorem State.reach_kept {z0 : State} (s : State) (t : Nat) (hz : Kept z0 s) : Kept z0 (State.reach s t) := by
  refine hz.trans ?_
  unfold State.reach
  repeat' (first
    | with_reducible exact Kept.rfl | with_reducible assumption | with_reducible apply State.moveTo_kept
    | with_reducible apply Kept.ite | with_reducible refine Kept.of_snd (by assumption) ?_ | intro _ | dsimp only
    | fail_if_no_progress with_reducible apply Kept.mk' | split)

theorem State.reachFt_kept {z0 : State} (s : State) (t : Nat) (hz : Kept z0 s) : Kept z0 (State.reachFt s t) := by
  refine hz.trans ?_
  unfold State.reachFt
  repeat' (first
    | with_reducible exact Kept.rfl | with_reducible assumption | with_reducible apply State.moveTo_kept
    | with_reducible apply Kept.ite | with_reducible refine Kept.of_snd (by assumption) ?_ | intro _ | dsimp only
    | fail_if_no_progress with_reducible apply Kept.mk' | split)

theorem State.regather_kept {z0 : State} (s : State) (hz : Kept z0 s) : Kept z0 (State.regather s) := by
  refine hz.trans ?_
  unfold State.regather
  repeat' (first
    | with_reducible exact Kept.rfl | with_reducible assumption | with_reducible refine Kept.of_snd (by assumption) ?_
    | intro _ | dsimp only | fail_if_no_progress with_reducible apply Kept.mk' | split)

theorem State.onEng_kept {z0 : State} (s : State) (e : Nat) (f : EngSt → EngSt) (hz : Kept z0 s) : Kept z0 (State.onEng s e f) := by
  refine hz.trans ?_
  unfold State.onEng
  repeat' (first
    | with_reducible exact Kept.rfl | with_reducible assumption | with_reducible refine Kept.of_snd (by assumption) ?_
    | intro _ | dsimp only | fail_if_no_progress with_reducible apply Kept.mk' | split)

theorem State.onPort_kept {z0 : State} (s : State) (n : Nat) (f : PortSt → PortSt) (hz : Kept z0 s) : Kept z0 (State.onPort s n f) := by
  refine hz.trans ?_
  unfold State.onPort
  repeat' (first
    | with_reducible exact Kept.rfl | with_reducible assumption | with_reducible refine Kept.of_snd (by assumption) ?_
    | intro _ | dsimp only | fail_if_no_progress with_reducible apply Kept.mk' | split)

theorem State.setCsr_kept {z0 : State} (s : State) (e a : Nat) (w : Word) (hz : Kept z0 s) : Kept z0 (State.setCsr s e a w) := by
  refine hz.trans ?_
  unfold State.setCsr
  repeat' (first
    | with_reducible exact Kept.rfl | with_reducible assumption | with_reducible apply State.onEng_kept
    | with_reducible refine Kept.of_snd (by assumption) ?_ | intro _ | dsimp only
    | fail_if_no_progress with_reducible apply Kept.mk' | split)

end Sys2Proof.Machine
end

