-- ==== Sys2Proof/Laws/KeptFabric.lean ====
section
/-! SUPPORT. Every operation of Machine/Fabric.lean keeps what `Kept` says. -/

set_option linter.unusedTactic false
set_option linter.unreachableTactic false
set_option linter.unusedVariables false

namespace Sys2Proof.Machine

set_option Elab.async false

theorem State.drop_kept {z0 : State} (s : State) (r : Nat) (hz : Kept z0 s) : Kept z0 (State.drop s r) := by
  refine hz.trans ?_
  unfold State.drop
  repeat' (first
    | with_reducible exact Kept.rfl | with_reducible assumption | with_reducible apply State.bump_kept
    | with_reducible refine Kept.of_snd (by assumption) ?_ | intro _ | dsimp only
    | fail_if_no_progress with_reducible apply Kept.mk' | split)

theorem State.showCredit_kept {z0 : State} (s : State) (n : Nat) (hz : Kept z0 s) : Kept z0 (State.showCredit s n) := by
  refine hz.trans ?_
  unfold State.showCredit
  repeat' (first
    | with_reducible exact Kept.rfl | with_reducible assumption | with_reducible apply State.put_kept
    | with_reducible apply State.wrN_kept | with_reducible refine Kept.of_snd (by assumption) ?_ | intro _
    | dsimp only | fail_if_no_progress with_reducible apply Kept.mk' | split)

theorem State.showTxq_kept {z0 : State} (s : State) (n q : Nat) (hz : Kept z0 s) : Kept z0 (State.showTxq s n q) := by
  refine hz.trans ?_
  unfold State.showTxq
  repeat' (first
    | with_reducible exact Kept.rfl | with_reducible assumption | with_reducible apply State.put_kept
    | with_reducible refine Kept.of_snd (by assumption) ?_ | intro _ | dsimp only
    | fail_if_no_progress with_reducible apply Kept.mk' | split)

theorem State.enqueue_kept {z0 : State} (s : State) (n : Nat) (it : TxItem) (hz : Kept z0 s) : Kept z0 (State.enqueue s n it) := by
  refine hz.trans ?_
  unfold State.enqueue
  repeat' (first
    | with_reducible exact Kept.rfl | with_reducible assumption | with_reducible apply State.drop_kept
    | with_reducible apply State.onPort_kept | with_reducible apply State.showTxq_kept | with_reducible apply Kept.ite
    | with_reducible refine Kept.of_snd (by assumption) ?_ | intro _ | dsimp only
    | fail_if_no_progress with_reducible apply Kept.mk' | split)

theorem State.toAgents_kept {z0 : State} (s : State) (f : Frame) (hz : Kept z0 s) : Kept z0 (State.toAgents s f) := by
  refine hz.trans ?_
  unfold State.toAgents
  repeat' (first
    | with_reducible exact Kept.rfl | with_reducible assumption | with_reducible apply State.drop_kept
    | with_reducible apply Kept.ite | with_reducible refine Kept.of_snd (by assumption) ?_ | intro _ | dsimp only
    | fail_if_no_progress with_reducible apply Kept.mk' | split)

theorem State.takeInbox_kept {z0 : State} (s : State) (f : Frame) (hz : Kept z0 s) : Kept z0 (State.takeInbox s f) := by
  refine hz.trans ?_
  unfold State.takeInbox
  repeat' (first
    | with_reducible exact Kept.rfl | with_reducible assumption | with_reducible refine Kept.of_snd (by assumption) ?_
    | intro _ | dsimp only | fail_if_no_progress with_reducible apply Kept.mk' | split)

theorem State.deliver_kept {z0 : State} (s : State) (f : Frame) (arrival : Option (Fin 4) := none) (hz : Kept z0 s) : Kept z0 (State.deliver s f arrival) := by
  refine hz.trans ?_
  unfold State.deliver
  repeat' (first
    | with_reducible exact Kept.rfl | with_reducible assumption | with_reducible apply State.enqueue_kept
    | with_reducible apply State.toAgents_kept | with_reducible apply Kept.ite_else
    | with_reducible apply Kept.ite_then | with_reducible apply Kept.ite
    | with_reducible refine Kept.of_snd (by assumption) ?_ | intro _ | dsimp only
    | fail_if_no_progress with_reducible apply Kept.mk' | split)

theorem State.toChildren_kept {z0 : State} (s : State) (f : Frame) (arrival : Option (Fin 4)) (hz : Kept z0 s) : Kept z0 (State.toChildren s f arrival) := by
  refine hz.trans ?_
  unfold State.toChildren
  repeat' (first
    | with_reducible exact Kept.rfl | with_reducible assumption | with_reducible apply State.enqueue_kept
    | with_reducible apply Kept.foldl | with_reducible refine Kept.of_snd (by assumption) ?_ | intro _ | dsimp only
    | fail_if_no_progress with_reducible apply Kept.mk' | split)

theorem State.inject_kept {z0 : State} (s : State) (f : Frame) (routeB : Bool) (hz : Kept z0 s) : Kept z0 (State.inject s f routeB) := by
  refine hz.trans ?_
  unfold State.inject
  repeat' (first
    | with_reducible exact Kept.rfl | with_reducible assumption | with_reducible apply State.deliver_kept
    | with_reducible apply State.drop_kept | with_reducible apply State.enqueue_kept
    | with_reducible apply State.toChildren_kept | with_reducible apply Kept.ite
    | with_reducible refine Kept.of_snd (by assumption) ?_ | intro _ | dsimp only
    | fail_if_no_progress with_reducible apply Kept.mk' | split)

theorem State.nextSeq_kept {z0 : State} (s : State) (dst cls : Nat) (hz : Kept z0 s) : Kept z0 (State.nextSeq s dst cls).2 := by
  refine hz.trans ?_
  unfold State.nextSeq
  repeat' (first
    | with_reducible exact Kept.rfl | with_reducible assumption | with_reducible apply Kept.pair_ite
    | with_reducible refine Kept.of_snd (by assumption) ?_ | intro _ | dsimp only
    | fail_if_no_progress with_reducible apply Kept.mk' | split)

theorem State.originate_kept {z0 : State} (s : State) (dst typ : Nat) (pay : List Byte) (routeB : Bool := false) (hz : Kept z0 s) : Kept z0 (State.originate s dst typ pay routeB) := by
  refine hz.trans ?_
  unfold State.originate
  repeat' (first
    | with_reducible exact Kept.rfl | with_reducible assumption | with_reducible apply State.inject_kept
    | with_reducible apply State.nextSeq_kept | with_reducible apply Kept.ite_else
    | with_reducible apply Kept.ite_then | with_reducible apply Kept.ite
    | with_reducible refine Kept.of_snd (by assumption) ?_ | intro _ | dsimp only
    | fail_if_no_progress with_reducible apply Kept.mk' | split)

theorem State.sendHop_kept {z0 : State} (s : State) (n typ : Nat) (pay : List Byte) (hz : Kept z0 s) : Kept z0 (State.sendHop s n typ pay) := by
  refine hz.trans ?_
  unfold State.sendHop
  repeat' (first
    | with_reducible exact Kept.rfl | with_reducible assumption | with_reducible apply State.enqueue_kept
    | with_reducible apply State.nextSeq_kept | with_reducible apply Kept.ite_else
    | with_reducible apply Kept.ite_then | with_reducible apply Kept.ite
    | with_reducible refine Kept.of_snd (by assumption) ?_ | intro _ | dsimp only
    | fail_if_no_progress with_reducible apply Kept.mk' | split)

theorem State.hazardBurst_kept {z0 : State} (s : State) (except : Option Nat) (hz : Kept z0 s) : Kept z0 (State.hazardBurst s except) := by
  refine hz.trans ?_
  unfold State.hazardBurst
  repeat' (first
    | with_reducible exact Kept.rfl | with_reducible assumption | with_reducible apply State.bump_kept
    | with_reducible apply State.emit_kept | with_reducible apply State.fresh_kept
    | with_reducible apply State.onPort_kept | with_reducible apply Kept.ite_else | with_reducible apply Kept.ite_then
    | with_reducible apply Kept.ite | with_reducible apply Kept.foldl
    | with_reducible refine Kept.of_snd (by assumption) ?_ | intro _ | dsimp only
    | fail_if_no_progress with_reducible apply Kept.mk' | split)

theorem State.floodHazard_kept {z0 : State} (s : State) (src : Nat) (hz : Kept z0 s) : Kept z0 (State.floodHazard s src) := by
  refine hz.trans ?_
  unfold State.floodHazard
  repeat' (first
    | with_reducible exact Kept.rfl | with_reducible assumption | with_reducible apply State.bump_kept
    | with_reducible apply State.hazardBurst_kept | with_reducible apply State.put_kept
    | with_reducible apply State.put64_kept | with_reducible apply State.putB_kept | with_reducible apply Kept.ite
    | with_reducible refine Kept.of_snd (by assumption) ?_ | intro _ | dsimp only
    | fail_if_no_progress with_reducible apply Kept.mk' | split)

theorem State.logEntry_kept {z0 : State} (s : State) (src cls code d0 d1 d2 : Nat) (hz : Kept z0 s) : Kept z0 (State.logEntry s src cls code d0 d1 d2) := by
  refine hz.trans ?_
  unfold State.logEntry
  repeat' (first
    | with_reducible exact Kept.rfl | with_reducible assumption | with_reducible apply State.bump_kept
    | with_reducible apply State.put_kept | with_reducible apply State.ringPut_kept | with_reducible apply KeptM.ite
    | with_reducible apply KeptM.none | with_reducible apply State.ringPut_kept
    | with_reducible refine Kept.of_snd (by assumption) ?_ | with_reducible refine Kept.of_some (by assumption) ?_
    | intro _ | dsimp only | fail_if_no_progress with_reducible apply Kept.mk' | split)

theorem State.logHw_kept {z0 : State} (s : State) (src code d0 d1 d2 : Nat) (hz : Kept z0 s) : Kept z0 (State.logHw s src code d0 d1 d2) := by
  refine hz.trans ?_
  unfold State.logHw
  repeat' (first
    | with_reducible exact Kept.rfl | with_reducible assumption | with_reducible apply State.fresh_kept
    | with_reducible apply State.logEntry_kept | with_reducible apply Kept.ite
    | with_reducible refine Kept.of_snd (by assumption) ?_ | intro _ | dsimp only
    | fail_if_no_progress with_reducible apply Kept.mk' | split)

theorem State.notifyPend_kept {z0 : State} (s : State) (evt : Nat) (hz : Kept z0 s) : Kept z0 (State.notifyPend s evt) := by
  refine hz.trans ?_
  unfold State.notifyPend
  repeat' (first
    | with_reducible exact Kept.rfl | with_reducible assumption | with_reducible apply State.putBit_kept
    | with_reducible apply Kept.ite | with_reducible refine Kept.of_snd (by assumption) ?_ | intro _ | dsimp only
    | fail_if_no_progress with_reducible apply Kept.mk' | split)

theorem State.notifyQueue_kept {z0 : State} (s : State) (evt info : Nat) (hz : Kept z0 s) : Kept z0 (State.notifyQueue s evt info) := by
  refine hz.trans ?_
  unfold State.notifyQueue
  repeat' (first
    | with_reducible exact Kept.rfl | with_reducible assumption | with_reducible apply State.bump_kept
    | with_reducible apply State.notifyPend_kept | with_reducible apply State.put_kept
    | with_reducible apply State.putB_kept | with_reducible apply State.wrN_kept | with_reducible apply Kept.ite
    | with_reducible refine Kept.of_snd (by assumption) ?_ | intro _ | dsimp only
    | fail_if_no_progress with_reducible apply Kept.mk' | split)

end Sys2Proof.Machine
end

