-- ==== Sys2Proof/Laws/KeptSweepCore.lean ====
section
/-! SUPPORT. Every operation of Machine/SweepCore.lean keeps what `Kept` says. -/

set_option linter.unusedTactic false
set_option linter.unreachableTactic false
set_option linter.unusedVariables false

namespace Sys2Proof.Machine

set_option Elab.async false

theorem State.sweepCode_kept {z0 : State} (s : State) (code stage : Nat) (hz : Kept z0 s) : Kept z0 (State.sweepCode s code stage) := by
  refine hz.trans ?_
  unfold State.sweepCode
  repeat' (first
    | with_reducible exact Kept.rfl | with_reducible assumption | with_reducible apply State.bump_kept
    | with_reducible apply State.put_kept | with_reducible apply Kept.ite
    | with_reducible refine Kept.of_snd (by assumption) ?_ | intro _ | dsimp only
    | fail_if_no_progress with_reducible apply Kept.mk' | split)

theorem State.trendAdd_kept {z0 : State} (s : State) (r : SweepRun) (hz : Kept z0 s) : Kept z0 (State.trendAdd s r) := by
  refine hz.trans ?_
  unfold State.trendAdd
  repeat' (first
    | with_reducible exact Kept.rfl | with_reducible assumption | with_reducible apply Kept.ite_else
    | with_reducible apply Kept.ite_then | with_reducible apply Kept.ite | with_reducible apply Kept.foldl
    | with_reducible refine Kept.of_snd (by assumption) ?_ | intro _ | dsimp only
    | fail_if_no_progress with_reducible apply Kept.mk' | split)

theorem State.sweepWrite_kept {z0 : State} (s : State) (r : SweepRun) (code : Nat) (hz : Kept z0 s) : Kept z0 (State.sweepWrite s r code) := by
  refine hz.trans ?_
  unfold State.sweepWrite
  repeat' (first
    | with_reducible exact Kept.rfl | with_reducible assumption | with_reducible apply State.put_kept
    | with_reducible apply State.put64_kept | with_reducible apply State.ringPut_kept
    | with_reducible apply State.sweepCode_kept | with_reducible apply State.trendAdd_kept
    | with_reducible apply State.wrN_kept | with_reducible apply KeptM.ite | with_reducible apply KeptM.none
    | with_reducible apply State.ringPut_kept | with_reducible apply Kept.ite_else
    | with_reducible apply Kept.ite_then | with_reducible apply Kept.ite
    | with_reducible refine Kept.of_snd (by assumption) ?_ | with_reducible refine Kept.of_some (by assumption) ?_
    | intro _ | dsimp only | fail_if_no_progress with_reducible apply Kept.mk' | split)

theorem State.showSweep_kept {z0 : State} (s : State) (hz : Kept z0 s) : Kept z0 (State.showSweep s) := by
  refine hz.trans ?_
  unfold State.showSweep
  repeat' (first
    | with_reducible exact Kept.rfl | with_reducible assumption | with_reducible apply State.put_kept
    | with_reducible apply State.putB_kept | with_reducible refine Kept.of_snd (by assumption) ?_ | intro _
    | dsimp only | fail_if_no_progress with_reducible apply Kept.mk' | split)

theorem State.sweepEnd_kept {z0 : State} (s : State) (code : Nat) (hz : Kept z0 s) : Kept z0 (State.sweepEnd s code) := by
  refine hz.trans ?_
  unfold State.sweepEnd
  repeat' (first
    | with_reducible exact Kept.rfl | with_reducible assumption | with_reducible apply State.put_kept
    | with_reducible apply State.showSweep_kept | with_reducible apply State.sweepWrite_kept
    | with_reducible refine Kept.of_snd (by assumption) ?_ | intro _ | dsimp only
    | fail_if_no_progress with_reducible apply Kept.mk' | split)

theorem State.sweepDone_kept {z0 : State} (s : State) (r : SweepRun) (hz : Kept z0 s) : Kept z0 (State.sweepDone s r) := by
  refine hz.trans ?_
  unfold State.sweepDone
  repeat' (first
    | with_reducible exact Kept.rfl | with_reducible assumption | with_reducible apply State.showSweep_kept
    | with_reducible apply State.sweepWrite_kept | with_reducible refine Kept.of_snd (by assumption) ?_ | intro _
    | dsimp only | fail_if_no_progress with_reducible apply Kept.mk' | split)

end Sys2Proof.Machine
end

