-- ==== Sys2Proof/Laws/KeptFerryAcc.lean ====
section
/-! SUPPORT. Every operation of Machine/FerryAcc.lean keeps what `Kept` says. -/

set_option linter.unusedTactic false
set_option linter.unreachableTactic false
set_option linter.unusedVariables false

namespace Sys2Proof.Machine

set_option Elab.async false

theorem State.onPhase_kept {z0 : State} (s : State) (p : Nat) (f : PhaseSt → PhaseSt) (hz : Kept z0 s) : Kept z0 (State.onPhase s p f) := by
  refine hz.trans ?_
  unfold State.onPhase
  repeat' (first
    | with_reducible exact Kept.rfl | with_reducible assumption | with_reducible refine Kept.of_snd (by assumption) ?_
    | intro _ | dsimp only | fail_if_no_progress with_reducible apply Kept.mk' | split)

theorem State.onCell_kept {z0 : State} (s : State) (c : Nat) (f : CellBal → CellBal) (hz : Kept z0 s) : Kept z0 (State.onCell s c f) := by
  refine hz.trans ?_
  unfold State.onCell
  repeat' (first
    | with_reducible exact Kept.rfl | with_reducible assumption | with_reducible refine Kept.of_snd (by assumption) ?_
    | intro _ | dsimp only | fail_if_no_progress with_reducible apply Kept.mk' | split)

theorem State.showCell_kept {z0 : State} (s : State) (c : Nat) (hz : Kept z0 s) : Kept z0 (State.showCell s c) := by
  refine hz.trans ?_
  unfold State.showCell
  repeat' (first
    | with_reducible exact Kept.rfl | with_reducible assumption | with_reducible apply State.wrN_kept
    | with_reducible refine Kept.of_snd (by assumption) ?_ | intro _ | dsimp only
    | fail_if_no_progress with_reducible apply Kept.mk' | split)

theorem State.showPhase_kept {z0 : State} (s : State) (p : Nat) (hz : Kept z0 s) : Kept z0 (State.showPhase s p) := by
  refine hz.trans ?_
  unfold State.showPhase
  repeat' (first
    | with_reducible exact Kept.rfl | with_reducible assumption | with_reducible apply State.wrN_kept
    | with_reducible refine Kept.of_snd (by assumption) ?_ | intro _ | dsimp only
    | fail_if_no_progress with_reducible apply Kept.mk' | split)

theorem State.ferryMark_kept {z0 : State} (s : State) (p : Nat) (hz : Kept z0 s) : Kept z0 (State.ferryMark s p) := by
  refine hz.trans ?_
  unfold State.ferryMark
  repeat' (first
    | with_reducible exact Kept.rfl | with_reducible assumption | with_reducible apply Kept.ite_else
    | with_reducible apply Kept.ite_then | with_reducible apply Kept.ite
    | with_reducible refine Kept.of_snd (by assumption) ?_ | intro _ | dsimp only
    | fail_if_no_progress with_reducible apply Kept.mk' | split)

theorem State.account_kept {z0 : State} (s : State) (p : Nat) (hz : Kept z0 s) : Kept z0 (State.account s p) := by
  refine hz.trans ?_
  unfold State.account
  repeat' (first
    | with_reducible exact Kept.rfl | with_reducible assumption | with_reducible apply State.ferryMark_kept
    | with_reducible apply State.onCell_kept | with_reducible apply State.onPhase_kept
    | with_reducible apply State.put_kept | with_reducible apply State.putB_kept
    | with_reducible apply State.showCell_kept | with_reducible apply State.showPhase_kept
    | with_reducible apply Kept.ite | with_reducible refine Kept.of_snd (by assumption) ?_ | intro _ | dsimp only
    | fail_if_no_progress with_reducible apply Kept.mk' | split)

theorem State.setPhase_kept {z0 : State} (s : State) (p st : Nat) (hz : Kept z0 s) : Kept z0 (State.setPhase s p st) := by
  refine hz.trans ?_
  unfold State.setPhase
  repeat' (first
    | with_reducible exact Kept.rfl | with_reducible assumption | with_reducible apply State.account_kept
    | with_reducible apply State.put_kept | with_reducible apply State.putB_kept
    | with_reducible apply State.putBit_kept | with_reducible refine Kept.of_snd (by assumption) ?_ | intro _
    | dsimp only | fail_if_no_progress with_reducible apply Kept.mk' | split)

theorem State.deselect_kept {z0 : State} (s : State) (p : Nat) (hz : Kept z0 s) : Kept z0 (State.deselect s p) := by
  refine hz.trans ?_
  unfold State.deselect
  repeat' (first
    | with_reducible exact Kept.rfl | with_reducible assumption | with_reducible apply State.account_kept
    | with_reducible apply State.ferryMark_kept | with_reducible apply State.onPhase_kept
    | with_reducible apply State.put_kept | with_reducible refine Kept.of_snd (by assumption) ?_ | intro _
    | dsimp only | fail_if_no_progress with_reducible apply Kept.mk' | split)

theorem State.dropExcitation_kept {z0 : State} (s : State) (p : Nat) (hz : Kept z0 s) : Kept z0 (State.dropExcitation s p) := by
  refine hz.trans ?_
  unfold State.dropExcitation
  repeat' (first
    | with_reducible exact Kept.rfl | with_reducible assumption | with_reducible apply Kept.ite_else
    | with_reducible apply Kept.ite_then | with_reducible apply Kept.ite
    | with_reducible refine Kept.of_snd (by assumption) ?_ | intro _ | dsimp only
    | fail_if_no_progress with_reducible apply Kept.mk' | split)

theorem State.stopPhase_kept {z0 : State} (s : State) (p : Nat) (hz : Kept z0 s) : Kept z0 (State.stopPhase s p) := by
  refine hz.trans ?_
  unfold State.stopPhase
  repeat' (first
    | with_reducible exact Kept.rfl | with_reducible assumption | with_reducible apply State.deselect_kept
    | with_reducible apply State.dropExcitation_kept | with_reducible apply State.onPhase_kept
    | with_reducible apply State.put_kept | with_reducible apply State.setPhase_kept
    | with_reducible refine Kept.of_snd (by assumption) ?_ | intro _ | dsimp only
    | fail_if_no_progress with_reducible apply Kept.mk' | split)

theorem State.stopFerry_kept {z0 : State} (s : State) (hz : Kept z0 s) : Kept z0 (State.stopFerry s) := by
  refine hz.trans ?_
  unfold State.stopFerry
  repeat' (first
    | with_reducible exact Kept.rfl | with_reducible assumption | with_reducible apply State.put_kept
    | with_reducible apply State.stopPhase_kept | with_reducible apply Kept.foldl
    | with_reducible refine Kept.of_snd (by assumption) ?_ | intro _ | dsimp only
    | fail_if_no_progress with_reducible apply Kept.mk' | split)

end Sys2Proof.Machine
end

