-- ==== Sys2Proof/Laws/KeptPsfCore.lean ====
section
/-! SUPPORT. Every operation of Machine/PsfCore.lean keeps what `Kept` says. -/

set_option linter.unusedTactic false
set_option linter.unreachableTactic false
set_option linter.unusedVariables false

namespace Sys2Proof.Machine

set_option Elab.async false

theorem State.wakeRequest_kept {z0 : State} (s : State) (b : Nat) (hz : Kept z0 s) : Kept z0 (State.wakeRequest s b) := by
  refine hz.trans ?_
  unfold State.wakeRequest
  repeat' (first
    | with_reducible exact Kept.rfl | with_reducible assumption | with_reducible apply State.put_kept
    | with_reducible apply Kept.ite | with_reducible refine Kept.of_snd (by assumption) ?_ | intro _ | dsimp only
    | fail_if_no_progress with_reducible apply Kept.mk' | split)

theorem State.onPulse_kept {z0 : State} (s : State) (o : Nat) (f : PulseSt → PulseSt) (hz : Kept z0 s) : Kept z0 (State.onPulse s o f) := by
  refine hz.trans ?_
  unfold State.onPulse
  repeat' (first
    | with_reducible exact Kept.rfl | with_reducible assumption | with_reducible refine Kept.of_snd (by assumption) ?_
    | intro _ | dsimp only | fail_if_no_progress with_reducible apply Kept.mk' | split)

theorem State.fbFrom_kept {z0 : State} (s : State) (o : Nat) (hz : Kept z0 s) : Kept z0 (State.fbFrom s o) := by
  refine hz.trans ?_
  unfold State.fbFrom
  repeat' (first
    | with_reducible exact Kept.rfl | with_reducible assumption | with_reducible refine Kept.of_snd (by assumption) ?_
    | intro _ | dsimp only | fail_if_no_progress with_reducible apply Kept.mk' | split)

theorem State.showOut_kept {z0 : State} (s : State) (o : Nat) (hz : Kept z0 s) : Kept z0 (State.showOut s o) := by
  refine hz.trans ?_
  unfold State.showOut
  repeat' (first
    | with_reducible exact Kept.rfl | with_reducible assumption | with_reducible apply State.bump_kept
    | with_reducible apply State.fbFrom_kept | with_reducible apply State.onPulse_kept
    | with_reducible apply State.putB_kept | with_reducible apply Kept.ite
    | with_reducible refine Kept.of_snd (by assumption) ?_ | intro _ | dsimp only
    | fail_if_no_progress with_reducible apply Kept.mk' | split)

theorem State.showOuts_kept {z0 : State} (s : State) (hz : Kept z0 s) : Kept z0 (State.showOuts s) := by
  refine hz.trans ?_
  unfold State.showOuts
  repeat' (first
    | with_reducible exact Kept.rfl | with_reducible assumption | with_reducible apply State.putB_kept
    | with_reducible apply State.showOut_kept | with_reducible refine Kept.of_snd (by assumption) ?_ | intro _
    | dsimp only | fail_if_no_progress with_reducible apply Kept.mk' | split)

theorem State.allOff_kept {z0 : State} (s : State) (hz : Kept z0 s) : Kept z0 (State.allOff s) := by
  refine hz.trans ?_
  unfold State.allOff
  repeat' (first
    | with_reducible exact Kept.rfl | with_reducible assumption | with_reducible apply State.onPulse_kept
    | with_reducible apply State.put_kept | with_reducible apply State.showOuts_kept
    | with_reducible apply Kept.ite_else | with_reducible apply Kept.ite_then | with_reducible apply Kept.ite
    | with_reducible apply Kept.foldl | with_reducible refine Kept.of_snd (by assumption) ?_ | intro _ | dsimp only
    | fail_if_no_progress with_reducible apply Kept.mk' | split)

theorem State.psfEvent_kept {z0 : State} (s : State) (kind cause code addr detail new : Nat) (hz : Kept z0 s) : Kept z0 (State.psfEvent s kind cause code addr detail new) := by
  refine hz.trans ?_
  unfold State.psfEvent
  repeat' (first
    | with_reducible exact Kept.rfl | with_reducible assumption | with_reducible apply State.logHw_kept
    | with_reducible apply State.notifyQueue_kept | with_reducible apply State.originate_kept
    | with_reducible apply State.put_kept | with_reducible apply State.put64_kept
    | with_reducible apply State.wrN_kept | with_reducible apply Kept.ite_else | with_reducible apply Kept.ite_then
    | with_reducible apply Kept.ite | with_reducible refine Kept.of_snd (by assumption) ?_ | intro _ | dsimp only
    | fail_if_no_progress with_reducible apply Kept.mk' | split)

theorem State.raiseOne_kept {z0 : State} (s : State) (b detail : Nat) (hz : Kept z0 s) : Kept z0 (State.raiseOne s b detail) := by
  refine hz.trans ?_
  unfold State.raiseOne
  repeat' (first
    | with_reducible exact Kept.rfl | with_reducible assumption | with_reducible apply State.allOff_kept
    | with_reducible apply State.bump_kept | with_reducible apply State.emit_kept
    | with_reducible apply State.onPort_kept | with_reducible apply State.psfEvent_kept
    | with_reducible apply State.put64_kept | with_reducible apply State.wakeRequest_kept
    | with_reducible apply State.wrN_kept | with_reducible apply Kept.ite_else | with_reducible apply Kept.ite_then
    | with_reducible apply Kept.ite | with_reducible apply Kept.foldl
    | with_reducible refine Kept.of_snd (by assumption) ?_ | intro _ | dsimp only
    | fail_if_no_progress with_reducible apply Kept.mk' | split)

theorem State.raiseHaz_kept {z0 : State} (s : State) (hz : Kept z0 s) : Kept z0 (State.raiseHaz s) := by
  refine hz.trans ?_
  unfold State.raiseHaz
  repeat' (first
    | with_reducible exact Kept.rfl | with_reducible assumption | with_reducible apply State.bump_kept
    | with_reducible apply State.raiseOne_kept | with_reducible apply Kept.ite
    | with_reducible refine Kept.of_snd (by assumption) ?_ | intro _ | dsimp only
    | fail_if_no_progress with_reducible apply Kept.mk' | split)

theorem State.trip_kept {z0 : State} (s : State) (hz : Kept z0 s) : Kept z0 (State.trip s) := by
  refine hz.trans ?_
  unfold State.trip
  repeat' (first
    | with_reducible exact Kept.rfl | with_reducible assumption | with_reducible apply State.bump_kept
    | with_reducible apply State.floodHazard_kept | with_reducible apply State.raiseHaz_kept
    | with_reducible apply State.wrap_kept | with_reducible apply Kept.ite_else | with_reducible apply Kept.ite_then
    | with_reducible apply Kept.ite | with_reducible refine Kept.of_snd (by assumption) ?_ | intro _ | dsimp only
    | fail_if_no_progress with_reducible apply Kept.mk' | split)

theorem State.raiseSrc_kept {z0 : State} (s : State) (b detail : Nat) (hz : Kept z0 s) : Kept z0 (State.raiseSrc s b detail) := by
  refine hz.trans ?_
  unfold State.raiseSrc
  repeat' (first
    | with_reducible exact Kept.rfl | with_reducible assumption | with_reducible apply State.raiseOne_kept
    | with_reducible apply State.trip_kept | with_reducible apply Kept.ite
    | with_reducible refine Kept.of_snd (by assumption) ?_ | intro _ | dsimp only
    | fail_if_no_progress with_reducible apply Kept.mk' | split)

theorem State.withdraw_kept {z0 : State} (s : State) (b : Nat) (hz : Kept z0 s) : Kept z0 (State.withdraw s b) := by
  refine hz.trans ?_
  unfold State.withdraw
  repeat' (first
    | with_reducible exact Kept.rfl | with_reducible assumption | with_reducible apply State.psfEvent_kept
    | with_reducible apply State.showOuts_kept | with_reducible apply State.wrN_kept
    | with_reducible apply Kept.ite_else | with_reducible apply Kept.ite_then | with_reducible apply Kept.ite
    | with_reducible refine Kept.of_snd (by assumption) ?_ | intro _ | dsimp only
    | fail_if_no_progress with_reducible apply Kept.mk' | split)

theorem State.releaseSrc_kept {z0 : State} (s : State) (b : Nat) (hz : Kept z0 s) : Kept z0 (State.releaseSrc s b) := by
  refine hz.trans ?_
  unfold State.releaseSrc
  repeat' (first
    | with_reducible exact Kept.rfl | with_reducible assumption | with_reducible apply State.withdraw_kept
    | with_reducible apply Kept.ite | with_reducible refine Kept.of_snd (by assumption) ?_ | intro _ | dsimp only
    | fail_if_no_progress with_reducible apply Kept.mk' | split)

theorem State.disarm_kept {z0 : State} (s : State) (hz : Kept z0 s) : Kept z0 (State.disarm s) := by
  refine hz.trans ?_
  unfold State.disarm
  repeat' (first
    | with_reducible exact Kept.rfl | with_reducible assumption | with_reducible apply State.allOff_kept
    | with_reducible apply State.psfEvent_kept | with_reducible apply State.put_kept
    | with_reducible apply Kept.ite_else | with_reducible apply Kept.ite_then | with_reducible apply Kept.ite
    | with_reducible refine Kept.of_snd (by assumption) ?_ | intro _ | dsimp only
    | fail_if_no_progress with_reducible apply Kept.mk' | split)

theorem State.lockoutEnter_kept {z0 : State} (s : State) (cause out : Nat) (hz : Kept z0 s) : Kept z0 (State.lockoutEnter s cause out) := by
  refine hz.trans ?_
  unfold State.lockoutEnter
  repeat' (first
    | with_reducible exact Kept.rfl | with_reducible assumption | with_reducible apply State.allOff_kept
    | with_reducible apply State.disarm_kept | with_reducible apply State.psfEvent_kept
    | with_reducible apply State.put_kept | with_reducible apply Kept.ite
    | with_reducible refine Kept.of_snd (by assumption) ?_ | intro _ | dsimp only
    | fail_if_no_progress with_reducible apply Kept.mk' | split)

theorem State.countProbation_kept {z0 : State} (s : State) (hz : Kept z0 s) : Kept z0 (State.countProbation s) := by
  refine hz.trans ?_
  unfold State.countProbation
  repeat' (first
    | with_reducible exact Kept.rfl | with_reducible assumption | with_reducible apply Kept.ite_else
    | with_reducible apply Kept.ite_then | with_reducible apply Kept.ite
    | with_reducible refine Kept.of_snd (by assumption) ?_ | intro _ | dsimp only
    | fail_if_no_progress with_reducible apply Kept.mk' | split)

theorem State.syncScrub_kept {z0 : State} (s : State) (hz : Kept z0 s) : Kept z0 (State.syncScrub s) := by
  refine hz.trans ?_
  unfold State.syncScrub
  repeat' (first
    | with_reducible exact Kept.rfl | with_reducible assumption | with_reducible refine Kept.of_snd (by assumption) ?_
    | intro _ | dsimp only | fail_if_no_progress with_reducible apply Kept.mk' | split)

theorem State.onSwb_kept {z0 : State} (s : State) (n : Nat) (f : SwbSt → SwbSt) (hz : Kept z0 s) : Kept z0 (State.onSwb s n f) := by
  refine hz.trans ?_
  unfold State.onSwb
  repeat' (first
    | with_reducible exact Kept.rfl | with_reducible assumption | with_reducible refine Kept.of_snd (by assumption) ?_
    | intro _ | dsimp only | fail_if_no_progress with_reducible apply Kept.mk' | split)

theorem State.followSwb_kept {z0 : State} (s : State) (n : Nat) (hz : Kept z0 s) : Kept z0 (State.followSwb s n) := by
  refine hz.trans ?_
  unfold State.followSwb
  repeat' (first
    | with_reducible exact Kept.rfl | with_reducible assumption | with_reducible apply State.onSwb_kept
    | with_reducible apply State.put_kept | with_reducible apply Kept.ite
    | with_reducible refine Kept.of_snd (by assumption) ?_ | intro _ | dsimp only
    | fail_if_no_progress with_reducible apply Kept.mk' | split)

theorem State.owStop_kept {z0 : State} (s : State) (tickStops : Bool) (hz : Kept z0 s) : Kept z0 (State.owStop s tickStops) := by
  refine hz.trans ?_
  unfold State.owStop
  repeat' (first
    | with_reducible exact Kept.rfl | with_reducible assumption | with_reducible apply Kept.ite
    | with_reducible refine Kept.of_snd (by assumption) ?_ | intro _ | dsimp only
    | fail_if_no_progress with_reducible apply Kept.mk' | split)

theorem State.setPort_kept {z0 : State} (s : State) (n st : Nat) (hz : Kept z0 s) : Kept z0 (State.setPort s n st) := by
  refine hz.trans ?_
  unfold State.setPort
  repeat' (first
    | with_reducible exact Kept.rfl | with_reducible assumption | with_reducible apply State.put_kept
    | with_reducible apply State.putBit_kept | with_reducible refine Kept.of_snd (by assumption) ?_ | intro _
    | dsimp only | fail_if_no_progress with_reducible apply Kept.mk' | split)

theorem State.startTicks_kept {z0 : State} (s : State) (hz : Kept z0 s) : Kept z0 (State.startTicks s) := by
  refine hz.trans ?_
  unfold State.startTicks
  repeat' (first
    | with_reducible exact Kept.rfl | with_reducible assumption | with_reducible apply State.put64_kept
    | with_reducible apply State.regather_kept | with_reducible refine Kept.of_snd (by assumption) ?_ | intro _
    | dsimp only | fail_if_no_progress with_reducible apply Kept.mk' | split)

theorem State.listenAgain_kept {z0 : State} (s : State) (n : Nat) (hz : Kept z0 s) : Kept z0 (State.listenAgain s n) := by
  refine hz.trans ?_
  unfold State.listenAgain
  repeat' (first
    | with_reducible exact Kept.rfl | with_reducible assumption | with_reducible apply State.onPort_kept
    | with_reducible apply State.setPort_kept | with_reducible apply Kept.ite_else
    | with_reducible apply Kept.ite_then | with_reducible apply Kept.ite
    | with_reducible refine Kept.of_snd (by assumption) ?_ | intro _ | dsimp only
    | fail_if_no_progress with_reducible apply Kept.mk' | split)

theorem State.fabricUp_kept {z0 : State} (s : State) (hz : Kept z0 s) : Kept z0 (State.fabricUp s) := by
  refine hz.trans ?_
  unfold State.fabricUp
  repeat' (first
    | with_reducible exact Kept.rfl | with_reducible assumption | with_reducible apply State.listenAgain_kept
    | with_reducible apply State.put_kept | with_reducible apply State.startTicks_kept | with_reducible apply Kept.ite
    | with_reducible apply Kept.foldl | with_reducible refine Kept.of_snd (by assumption) ?_ | intro _ | dsimp only
    | fail_if_no_progress with_reducible apply Kept.mk' | split)

theorem State.clocksOn_kept {z0 : State} (s : State) (hz : Kept z0 s) : Kept z0 (State.clocksOn s) := by
  refine hz.trans ?_
  unfold State.clocksOn
  repeat' (first
    | with_reducible exact Kept.rfl | with_reducible assumption | with_reducible refine Kept.of_snd (by assumption) ?_
    | intro _ | dsimp only | fail_if_no_progress with_reducible apply Kept.mk' | split)

theorem State.showVaux_kept {z0 : State} (s : State) (hz : Kept z0 s) : Kept z0 (State.showVaux s) := by
  refine hz.trans ?_
  unfold State.showVaux
  repeat' (first
    | with_reducible exact Kept.rfl | with_reducible assumption | with_reducible apply State.putB_kept
    | with_reducible refine Kept.of_snd (by assumption) ?_ | intro _ | dsimp only
    | fail_if_no_progress with_reducible apply Kept.mk' | split)

theorem State.enterMode_kept {z0 : State} (s : State) (m : Nat) (hz : Kept z0 s) : Kept z0 (State.enterMode s m) := by
  refine hz.trans ?_
  unfold State.enterMode
  repeat' (first
    | with_reducible exact Kept.rfl | with_reducible assumption | with_reducible apply State.countProbation_kept
    | with_reducible apply State.followSwb_kept | with_reducible apply State.fresh_kept
    | with_reducible apply State.logHw_kept | with_reducible apply State.notifyQueue_kept
    | with_reducible apply State.owStop_kept | with_reducible apply State.put_kept
    | with_reducible apply State.put64_kept | with_reducible apply State.putB_kept
    | with_reducible apply State.stopFerry_kept | with_reducible apply State.syncScrub_kept
    | with_reducible apply State.wr_kept | with_reducible apply Kept.ite
    | with_reducible refine Kept.of_snd (by assumption) ?_ | intro _ | dsimp only
    | fail_if_no_progress with_reducible apply Kept.mk' | split)

theorem State.enterActive_kept {z0 : State} (s : State) (m : Nat) (hz : Kept z0 s) : Kept z0 (State.enterActive s m) := by
  refine hz.trans ?_
  unfold State.enterActive
  repeat' (first
    | with_reducible exact Kept.rfl | with_reducible assumption | with_reducible apply State.enterMode_kept
    | with_reducible apply State.fabricUp_kept | with_reducible apply State.onSwb_kept
    | with_reducible apply Kept.foldl | with_reducible refine Kept.of_snd (by assumption) ?_ | intro _ | dsimp only
    | fail_if_no_progress with_reducible apply Kept.mk' | split)

theorem State.leaveWatch_kept {z0 : State} (s : State) (hz : Kept z0 s) : Kept z0 (State.leaveWatch s) := by
  refine hz.trans ?_
  unfold State.leaveWatch
  repeat' (first
    | with_reducible exact Kept.rfl | with_reducible assumption | with_reducible apply State.clocksOn_kept
    | with_reducible refine Kept.of_snd (by assumption) ?_ | intro _ | dsimp only
    | fail_if_no_progress with_reducible apply Kept.mk' | split)

end Sys2Proof.Machine
end

