-- ==== Sys2Proof/Laws/KeptFaults.lean ====
section
/-! SUPPORT. Every operation of Machine/Faults.lean keeps what `Kept` says. -/

set_option linter.unusedTactic false
set_option linter.unreachableTactic false
set_option linter.unusedVariables false

namespace Sys2Proof.Machine

set_option Elab.async false

theorem State.fallback_kept {z0 : State} (s : State) (typ init src cls code addr : Nat) (hz : Kept z0 s) : Kept z0 (State.fallback s typ init src cls code addr) := by
  refine hz.trans ?_
  unfold State.fallback
  repeat' (first
    | with_reducible exact Kept.rfl | with_reducible assumption | with_reducible apply State.bump_kept
    | with_reducible apply State.put_kept | with_reducible apply State.put64_kept
    | with_reducible apply State.wrN_kept | with_reducible apply Kept.ite
    | with_reducible refine Kept.of_snd (by assumption) ?_ | intro _ | dsimp only
    | fail_if_no_progress with_reducible apply Kept.mk' | split)

theorem State.queueEntry_kept {z0 : State} (s : State) (i src cls code : Nat) (conseq forced act : Bool) (cause d0 d1 : Nat) (hz : Kept z0 s) : Kept z0 (State.queueEntry s i src cls code conseq forced act cause d0 d1) := by
  refine hz.trans ?_
  unfold State.queueEntry
  repeat' (first
    | with_reducible exact Kept.rfl | with_reducible assumption | with_reducible apply State.put_kept
    | with_reducible apply State.put64_kept | with_reducible apply State.wrN_kept
    | with_reducible refine Kept.of_snd (by assumption) ?_ | intro _ | dsimp only
    | fail_if_no_progress with_reducible apply Kept.mk' | split)

theorem State.notify_kept {z0 : State} (s : State) (kind src cls code : Nat) (forced : Bool) (d0 d1 : Nat) (slot : Option Nat) (hz : Kept z0 s) : Kept z0 (State.notify s kind src cls code forced d0 d1 slot) := by
  refine hz.trans ?_
  unfold State.notify
  repeat' (first
    | with_reducible exact Kept.rfl | with_reducible assumption | with_reducible apply State.logHw_kept
    | with_reducible apply State.originate_kept | with_reducible apply Kept.ite_else
    | with_reducible apply Kept.ite_then | with_reducible apply Kept.ite
    | with_reducible refine Kept.of_snd (by assumption) ?_ | intro _ | dsimp only
    | fail_if_no_progress with_reducible apply Kept.mk' | split)

theorem State.calEnd_kept {z0 : State} (s : State) (reason : Nat) (hz : Kept z0 s) : Kept z0 (State.calEnd s reason) := by
  refine hz.trans ?_
  unfold State.calEnd
  repeat' (first
    | with_reducible exact Kept.rfl | with_reducible assumption | with_reducible apply State.put_kept
    | with_reducible apply Kept.ite_else | with_reducible apply Kept.ite_then | with_reducible apply Kept.ite
    | with_reducible refine Kept.of_snd (by assumption) ?_ | intro _ | dsimp only
    | fail_if_no_progress with_reducible apply Kept.mk' | split)

theorem State.calAbort_kept {z0 : State} (s : State) (reason : Nat) (hz : Kept z0 s) : Kept z0 (State.calAbort s reason) := by
  refine hz.trans ?_
  unfold State.calAbort
  repeat' (first
    | with_reducible exact Kept.rfl | with_reducible assumption | with_reducible apply State.bump_kept
    | with_reducible apply State.calEnd_kept | with_reducible apply Kept.ite_else | with_reducible apply Kept.ite_then
    | with_reducible apply Kept.ite | with_reducible refine Kept.of_snd (by assumption) ?_ | intro _ | dsimp only
    | fail_if_no_progress with_reducible apply Kept.mk' | split)

theorem State.openShadow_kept {z0 : State} (s : State) (srcs : Nat) (slot : Option Nat) (prim : Nat × Nat × Nat) (hz : Kept z0 s) : Kept z0 (State.openShadow s srcs slot prim) := by
  refine hz.trans ?_
  unfold State.openShadow
  repeat' (first
    | with_reducible exact Kept.rfl | with_reducible assumption | with_reducible refine Kept.of_snd (by assumption) ?_
    | intro _ | dsimp only | fail_if_no_progress with_reducible apply Kept.mk' | split)

theorem State.rejectSlot_kept {z0 : State} (s : State) (i : Nat) (hz : Kept z0 s) : Kept z0 (State.rejectSlot s i) := by
  refine hz.trans ?_
  unfold State.rejectSlot
  repeat' (first
    | with_reducible exact Kept.rfl | with_reducible assumption | with_reducible apply State.flashPut_kept
    | with_reducible apply State.put_kept | with_reducible refine Kept.of_snd (by assumption) ?_ | intro _
    | dsimp only | fail_if_no_progress with_reducible apply Kept.mk' | split)

theorem State.logSlot_kept {z0 : State} (s : State) (ev i : Nat) (hz : Kept z0 s) : Kept z0 (State.logSlot s ev i) := by
  refine hz.trans ?_
  unfold State.logSlot
  repeat' (first
    | with_reducible exact Kept.rfl | with_reducible assumption | with_reducible apply State.logHw_kept
    | with_reducible refine Kept.of_snd (by assumption) ?_ | intro _ | dsimp only
    | fail_if_no_progress with_reducible apply Kept.mk' | split)

theorem State.rejectProbation_kept {z0 : State} (s : State) (hz : Kept z0 s) : Kept z0 (State.rejectProbation s) := by
  refine hz.trans ?_
  unfold State.rejectProbation
  repeat' (first
    | with_reducible exact Kept.rfl | with_reducible assumption | with_reducible apply State.logSlot_kept
    | with_reducible apply State.put_kept | with_reducible apply State.rejectSlot_kept
    | with_reducible apply Kept.foldl | with_reducible refine Kept.of_snd (by assumption) ?_ | intro _ | dsimp only
    | fail_if_no_progress with_reducible apply Kept.mk' | split)

theorem State.holdEnter_kept {z0 : State} (s : State) (src code inst : Nat) (slot : Option Nat) (hz : Kept z0 s) : Kept z0 (State.holdEnter s src code inst slot) := by
  refine hz.trans ?_
  unfold State.holdEnter
  repeat' (first
    | with_reducible exact Kept.rfl | with_reducible assumption | with_reducible apply State.calAbort_kept
    | with_reducible apply State.disarm_kept | with_reducible apply State.enterActive_kept
    | with_reducible apply State.enterMode_kept | with_reducible apply State.leaveWatch_kept
    | with_reducible apply State.lockoutEnter_kept | with_reducible apply State.openShadow_kept
    | with_reducible apply State.put_kept | with_reducible apply State.raiseSrc_kept
    | with_reducible apply State.rejectProbation_kept | with_reducible apply State.sweepEnd_kept
    | with_reducible apply Kept.ite | with_reducible refine Kept.of_snd (by assumption) ?_ | intro _ | dsimp only
    | fail_if_no_progress with_reducible apply Kept.mk' | split)

theorem State.archive_kept {z0 : State} (s : State) (l : List Byte) (hz : Kept z0 s) : Kept z0 (State.archive s l) := by
  refine hz.trans ?_
  unfold State.archive
  repeat' (first
    | with_reducible exact Kept.rfl | with_reducible assumption | with_reducible apply State.memPut_kept
    | with_reducible apply Kept.ite | with_reducible refine Kept.of_snd (by assumption) ?_ | intro _ | dsimp only
    | fail_if_no_progress with_reducible apply Kept.mk' | split)

theorem State.raiseAgain_kept {z0 : State} (s : State) (f : Standing) (held : Bool) (hz : Kept z0 s) : Kept z0 (State.raiseAgain s f held) := by
  refine hz.trans ?_
  unfold State.raiseAgain
  repeat' (first
    | with_reducible exact Kept.rfl | with_reducible assumption | with_reducible apply State.bump_kept
    | with_reducible apply State.put_kept | with_reducible apply Kept.ite
    | with_reducible refine Kept.of_snd (by assumption) ?_ | intro _ | dsimp only
    | fail_if_no_progress with_reducible apply Kept.mk' | split)

theorem State.captureFault_kept {z0 : State} (s : State) (src code cls : Nat) (conseq forced : Bool) (cause d0 d1 : Nat) (acc : Option Access) (slot : Option Nat) (hz : Kept z0 s) : Kept z0 (State.captureFault s src code cls conseq forced cause d0 d1 acc slot) := by
  refine hz.trans ?_
  unfold State.captureFault
  repeat' (first
    | with_reducible exact Kept.rfl | with_reducible assumption | with_reducible apply State.bump_kept
    | with_reducible apply State.fallback_kept | with_reducible apply State.queueEntry_kept
    | with_reducible refine Kept.of_snd (by assumption) ?_ | intro _ | dsimp only
    | fail_if_no_progress with_reducible apply Kept.mk' | split)

theorem State.latchFault_kept {z0 : State} (s : State) (src code inst cls : Nat) (held forced : Bool) (w : Option Shadow) (d0 d1 : Nat) (acc : Option Access) (hz : Kept z0 s) : Kept z0 (State.latchFault s src code inst cls held forced w d0 d1 acc).2 := by
  refine hz.trans ?_
  unfold State.latchFault
  repeat' (first
    | with_reducible exact Kept.rfl | with_reducible assumption | with_reducible apply State.captureFault_kept
    | with_reducible apply State.put_kept | with_reducible apply Kept.ite_else | with_reducible apply Kept.ite_then
    | with_reducible apply Kept.ite | with_reducible apply Kept.pair_ite
    | with_reducible refine Kept.of_snd (by assumption) ?_ | intro _ | dsimp only
    | fail_if_no_progress with_reducible apply Kept.mk' | split)

theorem State.countFault_kept {z0 : State} (s : State) (src : Nat) (hz : Kept z0 s) : Kept z0 (State.countFault s src) := by
  refine hz.trans ?_
  unfold State.countFault
  repeat' (first
    | with_reducible exact Kept.rfl | with_reducible assumption | with_reducible refine Kept.of_snd (by assumption) ?_
    | intro _ | dsimp only | fail_if_no_progress with_reducible apply Kept.mk' | split)

theorem State.loseProbation_kept {z0 : State} (s : State) (slot : Option Nat) (prim : Nat × Nat × Nat) (lost : List Nat) (hz : Kept z0 s) : Kept z0 (State.loseProbation s slot prim lost) := by
  refine hz.trans ?_
  unfold State.loseProbation
  repeat' (first
    | with_reducible exact Kept.rfl | with_reducible assumption | with_reducible apply State.bump_kept
    | with_reducible apply State.latchFault_kept | with_reducible apply Kept.foldl
    | with_reducible apply Kept.foldl_snd | with_reducible refine Kept.of_snd (by assumption) ?_ | intro _
    | dsimp only | fail_if_no_progress with_reducible apply Kept.mk' | split)

theorem State.fatalFault_kept {z0 : State} (s : State) (src code inst : Nat) (forced : Bool) (d0 d1 : Nat) (slot : Option Nat) (lost : List Nat) (hz : Kept z0 s) : Kept z0 (State.fatalFault s src code inst forced d0 d1 slot lost) := by
  refine hz.trans ?_
  unfold State.fatalFault
  repeat' (first
    | with_reducible exact Kept.rfl | with_reducible assumption | with_reducible apply State.archive_kept
    | with_reducible apply State.holdEnter_kept | with_reducible apply State.loseProbation_kept
    | with_reducible apply State.put_kept | with_reducible refine Kept.of_snd (by assumption) ?_ | intro _
    | dsimp only | fail_if_no_progress with_reducible apply Kept.mk' | split)

theorem State.primaryFault_kept {z0 : State} (s : State) (src code inst cls : Nat) (held forced : Bool) (d0 d1 : Nat) (acc : Option Access) (hz : Kept z0 s) : Kept z0 (State.primaryFault s src code inst cls held forced d0 d1 acc).2 := by
  refine hz.trans ?_
  unfold State.primaryFault
  repeat' (first
    | with_reducible exact Kept.rfl | with_reducible assumption | with_reducible apply State.countFault_kept
    | with_reducible apply State.fatalFault_kept | with_reducible apply State.latchFault_kept
    | with_reducible apply State.notify_kept | with_reducible apply State.notifyQueue_kept
    | with_reducible apply State.putBit_kept | with_reducible apply Kept.ite_else | with_reducible apply Kept.ite_then
    | with_reducible apply Kept.ite | with_reducible apply Kept.pair_ite
    | with_reducible refine Kept.of_snd (by assumption) ?_ | intro _ | dsimp only
    | fail_if_no_progress with_reducible apply Kept.mk' | split)

theorem State.collect_kept {z0 : State} (s : State) (src code inst d0hi d1 : Nat) (forced : Bool) (acc : Option Access) (hz : Kept z0 s) : Kept z0 (State.collect s src code inst d0hi d1 forced acc).2 := by
  refine hz.trans ?_
  unfold State.collect
  repeat' (first
    | with_reducible exact Kept.rfl | with_reducible assumption | with_reducible apply State.bump_kept
    | with_reducible apply State.fallback_kept | with_reducible apply State.latchFault_kept
    | with_reducible apply State.primaryFault_kept | with_reducible apply State.raiseAgain_kept
    | with_reducible apply Kept.ite_else | with_reducible apply Kept.ite_then | with_reducible apply Kept.ite
    | with_reducible apply Kept.pair_ite | with_reducible refine Kept.of_snd (by assumption) ?_ | intro _ | dsimp only
    | fail_if_no_progress with_reducible apply Kept.mk' | split)

theorem State.fault_kept {z0 : State} (s : State) (src code inst : Nat) (hz : Kept z0 s) : Kept z0 (State.fault s src code inst) := by
  refine hz.trans ?_
  unfold State.fault
  repeat' (first
    | with_reducible exact Kept.rfl | with_reducible assumption | with_reducible apply State.collect_kept
    | with_reducible refine Kept.of_snd (by assumption) ?_ | intro _ | dsimp only
    | fail_if_no_progress with_reducible apply Kept.mk' | split)

theorem State.faultD_kept {z0 : State} (s : State) (src code inst d1 : Nat) (hz : Kept z0 s) : Kept z0 (State.faultD s src code inst d1) := by
  refine hz.trans ?_
  unfold State.faultD
  repeat' (first
    | with_reducible exact Kept.rfl | with_reducible assumption | with_reducible apply State.collect_kept
    | with_reducible refine Kept.of_snd (by assumption) ?_ | intro _ | dsimp only
    | fail_if_no_progress with_reducible apply Kept.mk' | split)

theorem State.faultU_kept {z0 : State} (s : State) (src code inst flt stat : Nat) (hz : Kept z0 s) : Kept z0 (State.faultU s src code inst flt stat) := by
  refine hz.trans ?_
  unfold State.faultU
  repeat' (first
    | with_reducible exact Kept.rfl | with_reducible assumption | with_reducible apply State.collect_kept
    | with_reducible refine Kept.of_snd (by assumption) ?_ | intro _ | dsimp only
    | fail_if_no_progress with_reducible apply Kept.mk' | split)

theorem State.refuseAccess_kept {z0 : State} (s : State) (src : Nat) (i : Initiator) (typ addr : Nat) (hz : Kept z0 s) : Kept z0 (State.refuseAccess s src i typ addr) := by
  refine hz.trans ?_
  unfold State.refuseAccess
  repeat' (first
    | with_reducible exact Kept.rfl | with_reducible assumption | with_reducible apply State.collect_kept
    | with_reducible refine Kept.of_snd (by assumption) ?_ | intro _ | dsimp only
    | fail_if_no_progress with_reducible apply Kept.mk' | split)

theorem State.refuseRight_kept {z0 : State} (s : State) (src : Nat) (i : Initiator) (addr : Nat) (hz : Kept z0 s) : Kept z0 (State.refuseRight s src i addr) := by
  refine hz.trans ?_
  unfold State.refuseRight
  repeat' (first
    | with_reducible exact Kept.rfl | with_reducible assumption | with_reducible apply State.refuseAccess_kept
    | with_reducible refine Kept.of_snd (by assumption) ?_ | intro _ | dsimp only
    | fail_if_no_progress with_reducible apply Kept.mk' | split)

theorem State.busError_kept {z0 : State} (s : State) (src : Nat) (i : Initiator) (typ addr : Nat) (hz : Kept z0 s) : Kept z0 (State.busError s src i typ addr) := by
  refine hz.trans ?_
  unfold State.busError
  repeat' (first
    | with_reducible exact Kept.rfl | with_reducible assumption | with_reducible apply State.collect_kept
    | with_reducible refine Kept.of_snd (by assumption) ?_ | intro _ | dsimp only
    | fail_if_no_progress with_reducible apply Kept.mk' | split)

theorem State.queueCorrected_kept {z0 : State} (s : State) (src inst : Nat) (w : Option Shadow) (hz : Kept z0 s) : Kept z0 (State.queueCorrected s src inst w) := by
  refine hz.trans ?_
  unfold State.queueCorrected
  repeat' (first
    | with_reducible exact Kept.rfl | with_reducible assumption | with_reducible apply State.bump_kept
    | with_reducible apply State.fallback_kept | with_reducible apply State.fresh_kept
    | with_reducible apply State.queueEntry_kept | with_reducible refine Kept.of_snd (by assumption) ?_ | intro _
    | dsimp only | fail_if_no_progress with_reducible apply Kept.mk' | split)

theorem State.corrected_kept {z0 : State} (s : State) (src inst : Nat) (hz : Kept z0 s) : Kept z0 (State.corrected s src inst) := by
  refine hz.trans ?_
  unfold State.corrected
  repeat' (first
    | with_reducible exact Kept.rfl | with_reducible assumption | with_reducible apply State.bump_kept
    | with_reducible apply State.fault_kept | with_reducible apply State.queueCorrected_kept
    | with_reducible apply Kept.ite | with_reducible refine Kept.of_snd (by assumption) ?_ | intro _ | dsimp only
    | fail_if_no_progress with_reducible apply Kept.mk' | split)

theorem State.endCond_kept {z0 : State} (s : State) (src code inst : Nat) (hz : Kept z0 s) : Kept z0 (State.endCond s src code inst) := by
  refine hz.trans ?_
  unfold State.endCond
  repeat' (first
    | with_reducible exact Kept.rfl | with_reducible assumption | with_reducible apply Kept.ite_else
    | with_reducible apply Kept.ite_then | with_reducible apply Kept.ite
    | with_reducible refine Kept.of_snd (by assumption) ?_ | intro _ | dsimp only
    | fail_if_no_progress with_reducible apply Kept.mk' | split)

theorem State.recover_kept {z0 : State} (s : State) (f : Standing) (hz : Kept z0 s) : Kept z0 (State.recover s f) := by
  refine hz.trans ?_
  unfold State.recover
  repeat' (first
    | with_reducible exact Kept.rfl | with_reducible assumption | with_reducible apply State.bump_kept
    | with_reducible apply State.notify_kept | with_reducible apply State.put_kept | with_reducible apply Kept.ite
    | with_reducible refine Kept.of_snd (by assumption) ?_ | intro _ | dsimp only
    | fail_if_no_progress with_reducible apply Kept.mk' | split)

theorem State.reactAnew_kept {z0 : State} (s : State) (f : Standing) (hz : Kept z0 s) : Kept z0 (State.reactAnew s f) := by
  refine hz.trans ?_
  unfold State.reactAnew
  repeat' (first
    | with_reducible exact Kept.rfl | with_reducible assumption | with_reducible apply State.raiseSrc_kept
    | with_reducible apply Kept.ite_else | with_reducible apply Kept.ite_then | with_reducible apply Kept.ite
    | with_reducible refine Kept.of_snd (by assumption) ?_ | intro _ | dsimp only
    | fail_if_no_progress with_reducible apply Kept.mk' | split)

theorem State.promote_kept {z0 : State} (s : State) (f : Standing) (hz : Kept z0 s) : Kept z0 (State.promote s f) := by
  refine hz.trans ?_
  unfold State.promote
  repeat' (first
    | with_reducible exact Kept.rfl | with_reducible assumption | with_reducible apply State.primaryFault_kept
    | with_reducible apply State.put_kept | with_reducible apply State.reactAnew_kept
    | with_reducible refine Kept.of_snd (by assumption) ?_ | intro _ | dsimp only
    | fail_if_no_progress with_reducible apply Kept.mk' | split)

theorem State.promoteAll_kept {z0 : State} (s : State) (srcs : Nat) (p : Nat × Nat × Nat → Bool) (hz : Kept z0 s) : Kept z0 (State.promoteAll s srcs p) := by
  refine hz.trans ?_
  unfold State.promoteAll
  repeat' (first
    | with_reducible exact Kept.rfl | with_reducible assumption | with_reducible apply State.promote_kept
    | with_reducible apply Kept.foldl | with_reducible refine Kept.of_snd (by assumption) ?_ | intro _ | dsimp only
    | fail_if_no_progress with_reducible apply Kept.mk' | split)

end Sys2Proof.Machine
end

