-- ==== Sys2Proof/Laws/KeptFerryCore.lean ====
section
/-! SUPPORT. Every operation of Machine/FerryCore.lean keeps what `Kept` says. -/

set_option linter.unusedTactic false
set_option linter.unreachableTactic false
set_option linter.unusedVariables false

namespace Sys2Proof.Machine

set_option Elab.async false

theorem State.fallbackNext_kept {z0 : State} (s : State) (p : Nat) (hz : Kept z0 s) : Kept z0 (State.fallbackNext s p) := by
  refine hz.trans ?_
  unfold State.fallbackNext
  repeat' (first
    | with_reducible exact Kept.rfl | with_reducible assumption | with_reducible apply State.bump_kept
    | with_reducible apply State.deselect_kept | with_reducible apply State.onPhase_kept
    | with_reducible apply State.setPhase_kept | with_reducible apply Kept.ite
    | with_reducible refine Kept.of_snd (by assumption) ?_ | intro _ | dsimp only
    | fail_if_no_progress with_reducible apply Kept.mk' | split)

theorem State.fencePhase_kept {z0 : State} (s : State) (p bit : Nat) (hold : Bool) (hz : Kept z0 s) : Kept z0 (State.fencePhase s p bit hold) := by
  refine hz.trans ?_
  unfold State.fencePhase
  repeat' (first
    | with_reducible exact Kept.rfl | with_reducible assumption | with_reducible apply State.deselect_kept
    | with_reducible apply State.dropExcitation_kept | with_reducible apply State.fallbackNext_kept
    | with_reducible apply State.onPhase_kept | with_reducible apply State.put_kept
    | with_reducible apply State.putBit_kept | with_reducible apply Kept.ite_else | with_reducible apply Kept.ite_then
    | with_reducible apply Kept.ite | with_reducible apply Kept.foldl
    | with_reducible refine Kept.of_snd (by assumption) ?_ | intro _ | dsimp only
    | fail_if_no_progress with_reducible apply Kept.mk' | split)

theorem State.phaseFault_kept {z0 : State} (s : State) (p bit : Nat) (hold : Bool) (hz : Kept z0 s) : Kept z0 (State.phaseFault s p bit hold) := by
  refine hz.trans ?_
  unfold State.phaseFault
  repeat' (first
    | with_reducible exact Kept.rfl | with_reducible assumption | with_reducible apply State.collect_kept
    | with_reducible apply State.fencePhase_kept | with_reducible apply State.openShadow_kept
    | with_reducible apply State.putBit_kept | with_reducible apply Kept.ite_else | with_reducible apply Kept.ite_then
    | with_reducible apply Kept.ite | with_reducible refine Kept.of_snd (by assumption) ?_ | intro _ | dsimp only
    | fail_if_no_progress with_reducible apply Kept.mk' | split)

end Sys2Proof.Machine
end

