-- ==== Sys2Proof/Laws/KeptFences.lean ====
section
/-! SUPPORT. Every operation of Machine/Fences.lean keeps what `Kept` says. -/

set_option linter.unusedTactic false
set_option linter.unreachableTactic false
set_option linter.unusedVariables false

namespace Sys2Proof.Machine

set_option Elab.async false

theorem State.pmc_kept {z0 : State} (s : State) (e code n : Nat) (hz : Kept z0 s) : Kept z0 (State.pmc s e code n) := by
  refine hz.trans ?_
  unfold State.pmc
  repeat' (first
    | with_reducible exact Kept.rfl | with_reducible assumption | with_reducible apply State.put64_kept
    | with_reducible apply State.putBit_kept | with_reducible apply Kept.ite_else | with_reducible apply Kept.ite_then
    | with_reducible apply Kept.ite | with_reducible apply Kept.foldl
    | with_reducible refine Kept.of_snd (by assumption) ?_ | intro _ | dsimp only
    | fail_if_no_progress with_reducible apply Kept.mk' | split)

theorem State.syncEng_kept {z0 : State} (s : State) (e : Nat) (hz : Kept z0 s) : Kept z0 (State.syncEng s e) := by
  refine hz.trans ?_
  unfold State.syncEng
  repeat' (first
    | with_reducible exact Kept.rfl | with_reducible assumption | with_reducible apply State.onEng_kept
    | with_reducible apply State.pmc_kept | with_reducible apply State.put_kept
    | with_reducible apply State.put64_kept | with_reducible apply Kept.ite_else | with_reducible apply Kept.ite_then
    | with_reducible apply Kept.ite | with_reducible refine Kept.of_snd (by assumption) ?_ | intro _ | dsimp only
    | fail_if_no_progress with_reducible apply Kept.mk' | split)

theorem State.syncAll_kept {z0 : State} (s : State) (hz : Kept z0 s) : Kept z0 (State.syncAll s) := by
  refine hz.trans ?_
  unfold State.syncAll
  repeat' (first
    | with_reducible exact Kept.rfl | with_reducible assumption | with_reducible apply State.syncEng_kept
    | with_reducible apply Kept.foldl | with_reducible refine Kept.of_snd (by assumption) ?_ | intro _ | dsimp only
    | fail_if_no_progress with_reducible apply Kept.mk' | split)

theorem State.setEng_kept {z0 : State} (s : State) (e st : Nat) (hz : Kept z0 s) : Kept z0 (State.setEng s e st) := by
  refine hz.trans ?_
  unfold State.setEng
  repeat' (first
    | with_reducible exact Kept.rfl | with_reducible assumption | with_reducible apply State.put_kept
    | with_reducible apply State.putB_kept | with_reducible apply State.putBit_kept
    | with_reducible apply State.syncEng_kept | with_reducible apply Kept.ite_else
    | with_reducible apply Kept.ite_then | with_reducible apply Kept.ite
    | with_reducible refine Kept.of_snd (by assumption) ?_ | intro _ | dsimp only
    | fail_if_no_progress with_reducible apply Kept.mk' | split)

theorem State.showMail_kept {z0 : State} (s : State) (e : Nat) (hz : Kept z0 s) : Kept z0 (State.showMail s e) := by
  refine hz.trans ?_
  unfold State.showMail
  repeat' (first
    | with_reducible exact Kept.rfl | with_reducible assumption | with_reducible apply State.put_kept
    | with_reducible apply State.putB_kept | with_reducible apply State.wrN_kept
    | with_reducible refine Kept.of_snd (by assumption) ?_ | intro _ | dsimp only
    | fail_if_no_progress with_reducible apply Kept.mk' | split)

theorem State.putMail_kept {z0 : State} (s : State) (m : Msg) (hz : Kept z0 s) : Kept z0 (State.putMail s m) := by
  refine hz.trans ?_
  unfold State.putMail
  repeat' (first
    | with_reducible exact Kept.rfl | with_reducible assumption | with_reducible apply State.onEng_kept
    | with_reducible apply State.pmc_kept | with_reducible apply State.showMail_kept
    | with_reducible refine Kept.of_snd (by assumption) ?_ | intro _ | dsimp only
    | fail_if_no_progress with_reducible apply Kept.mk' | split)

theorem State.closeTag_kept {z0 : State} (s : State) (e t : Nat) (hz : Kept z0 s) : Kept z0 (State.closeTag s e t) := by
  refine hz.trans ?_
  unfold State.closeTag
  repeat' (first
    | with_reducible exact Kept.rfl | with_reducible assumption | with_reducible apply State.onEng_kept
    | with_reducible apply State.showMail_kept | with_reducible refine Kept.of_snd (by assumption) ?_ | intro _
    | dsimp only | fail_if_no_progress with_reducible apply Kept.mk' | split)

theorem State.hardReply_kept {z0 : State} (s : State) (e t d status : Nat) (hz : Kept z0 s) : Kept z0 (State.hardReply s e t d status) := by
  refine hz.trans ?_
  unfold State.hardReply
  repeat' (first
    | with_reducible exact Kept.rfl | with_reducible assumption | with_reducible apply State.closeTag_kept
    | with_reducible apply State.fresh_kept | with_reducible apply State.putMail_kept
    | with_reducible refine Kept.of_snd (by assumption) ?_ | intro _ | dsimp only
    | fail_if_no_progress with_reducible apply Kept.mk' | split)

theorem State.fenceMail_kept {z0 : State} (s : State) (r : Nat) (hz : Kept z0 s) : Kept z0 (State.fenceMail s r) := by
  refine hz.trans ?_
  unfold State.fenceMail
  repeat' (first
    | with_reducible exact Kept.rfl | with_reducible assumption | with_reducible apply State.bump_kept
    | with_reducible apply State.hardReply_kept | with_reducible apply State.onEng_kept
    | with_reducible apply State.showMail_kept | with_reducible apply Kept.foldl
    | with_reducible refine Kept.of_snd (by assumption) ?_ | intro _ | dsimp only
    | fail_if_no_progress with_reducible apply Kept.mk' | split)

theorem State.carryMail_kept {z0 : State} (s : State) (m : Msg) (hz : Kept z0 s) : Kept z0 (State.carryMail s m) := by
  refine hz.trans ?_
  unfold State.carryMail
  repeat' (first
    | with_reducible exact Kept.rfl | with_reducible assumption | with_reducible apply State.bump_kept
    | with_reducible apply State.closeTag_kept | with_reducible apply State.hardReply_kept
    | with_reducible apply State.onEng_kept | with_reducible apply State.putMail_kept
    | with_reducible apply State.showMail_kept | with_reducible apply Kept.ite
    | with_reducible refine Kept.of_snd (by assumption) ?_ | intro _ | dsimp only
    | fail_if_no_progress with_reducible apply Kept.mk' | split)

theorem State.mcPut_kept {z0 : State} (s : State) (o : Nat) (l : List Byte) (hz : Kept z0 s) : Kept z0 (State.mcPut s o l) := by
  refine hz.trans ?_
  unfold State.mcPut
  repeat' (first
    | with_reducible exact Kept.rfl | with_reducible assumption | with_reducible apply State.drop_kept
    | with_reducible apply State.memPut_kept | with_reducible refine Kept.of_snd (by assumption) ?_ | intro _
    | dsimp only | fail_if_no_progress with_reducible apply Kept.mk' | split)

theorem State.flashRead_kept {z0 : State} (s : State) (a : Nat) (hz : Kept z0 s) : Kept z0 (State.flashRead s a) := by
  refine hz.trans ?_
  unfold State.flashRead
  repeat' (first
    | with_reducible exact Kept.rfl | with_reducible assumption | with_reducible apply State.bump_kept
    | with_reducible apply State.emit_kept | with_reducible apply State.fresh_kept
    | with_reducible apply State.put_kept | with_reducible apply Kept.ite
    | with_reducible refine Kept.of_snd (by assumption) ?_ | intro _ | dsimp only
    | fail_if_no_progress with_reducible apply Kept.mk' | split)

theorem State.restoreCopy_kept {z0 : State} (s : State) (img : Nat) (hz : Kept z0 s) : Kept z0 (State.restoreCopy s img) := by
  refine hz.trans ?_
  unfold State.restoreCopy
  repeat' (first
    | with_reducible exact Kept.rfl | with_reducible assumption | with_reducible apply State.flashRead_kept
    | with_reducible apply State.memPut_kept | with_reducible apply State.putB_kept
    | with_reducible refine Kept.of_snd (by assumption) ?_ | intro _ | dsimp only
    | fail_if_no_progress with_reducible apply Kept.mk' | split)

theorem State.bootPmp_kept {z0 : State} (s : State) (n : Nat) (hz : Kept z0 s) : Kept z0 (State.bootPmp s n) := by
  refine hz.trans ?_
  unfold State.bootPmp
  repeat' (first
    | with_reducible exact Kept.rfl | with_reducible assumption | with_reducible apply State.fresh_kept
    | with_reducible apply State.setCsr_kept | with_reducible apply Kept.foldl | with_reducible apply Kept.foldl_snd
    | with_reducible refine Kept.of_snd (by assumption) ?_ | intro _ | dsimp only
    | fail_if_no_progress with_reducible apply Kept.mk' | split)

theorem State.clearEngine_kept {z0 : State} (s : State) (img e : Nat) (hz : Kept z0 s) : Kept z0 (State.clearEngine s img e) := by
  refine hz.trans ?_
  unfold State.clearEngine
  repeat' (first
    | with_reducible exact Kept.rfl | with_reducible assumption | with_reducible apply State.mcPut_kept
    | with_reducible apply State.memDrop_kept | with_reducible apply State.memPut_kept
    | with_reducible apply State.onEng_kept | with_reducible apply State.put_kept
    | with_reducible apply State.wrN_kept | with_reducible apply Kept.ite
    | with_reducible refine Kept.of_snd (by assumption) ?_ | intro _ | dsimp only
    | fail_if_no_progress with_reducible apply Kept.mk' | split)

theorem State.loadCode_kept {z0 : State} (s : State) (img e : Nat) (hz : Kept z0 s) : Kept z0 (State.loadCode s img e) := by
  refine hz.trans ?_
  unfold State.loadCode
  repeat' (first
    | with_reducible exact Kept.rfl | with_reducible assumption | with_reducible apply State.bootPmp_kept
    | with_reducible apply State.mcPut_kept | with_reducible apply State.memDrop_kept
    | with_reducible apply State.memPut_kept | with_reducible apply Kept.ite
    | with_reducible refine Kept.of_snd (by assumption) ?_ | intro _ | dsimp only
    | fail_if_no_progress with_reducible apply Kept.mk' | split)

theorem State.copyFault_kept {z0 : State} (s : State) (e : Nat) (hz : Kept z0 s) : Kept z0 (State.copyFault s e) := by
  refine hz.trans ?_
  unfold State.copyFault
  repeat' (first
    | with_reducible exact Kept.rfl | with_reducible assumption | with_reducible apply State.collect_kept
    | with_reducible apply State.openShadow_kept | with_reducible apply Kept.ite_else
    | with_reducible apply Kept.ite_then | with_reducible apply Kept.ite
    | with_reducible refine Kept.of_snd (by assumption) ?_ | intro _ | dsimp only
    | fail_if_no_progress with_reducible apply Kept.mk' | split)

theorem State.reload_kept {z0 : State} (s : State) (e : Nat) (hz : Kept z0 s) : Kept z0 (State.reload s e) := by
  refine hz.trans ?_
  unfold State.reload
  repeat' (first
    | with_reducible exact Kept.rfl | with_reducible assumption | with_reducible apply State.clearEngine_kept
    | with_reducible apply State.copyFault_kept | with_reducible apply State.loadCode_kept
    | with_reducible apply State.put_kept | with_reducible apply State.restoreCopy_kept
    | with_reducible apply State.setEng_kept | with_reducible apply Kept.ite
    | with_reducible refine Kept.of_snd (by assumption) ?_ | intro _ | dsimp only
    | fail_if_no_progress with_reducible apply Kept.mk' | split)

theorem State.installImage_kept {z0 : State} (s : State) (img e : Nat) (hz : Kept z0 s) : Kept z0 (State.installImage s img e) := by
  refine hz.trans ?_
  unfold State.installImage
  repeat' (first
    | with_reducible exact Kept.rfl | with_reducible assumption | with_reducible apply State.onEng_kept
    | with_reducible apply State.put_kept | with_reducible apply State.putBit_kept
    | with_reducible apply State.wrN_kept | with_reducible apply Kept.foldl | with_reducible apply Kept.foldl_snd
    | with_reducible refine Kept.of_snd (by assumption) ?_ | intro _ | dsimp only
    | fail_if_no_progress with_reducible apply Kept.mk' | split)

theorem State.freeSems_kept {z0 : State} (s : State) (e : Nat) (hz : Kept z0 s) : Kept z0 (State.freeSems s e) := by
  refine hz.trans ?_
  unfold State.freeSems
  repeat' (first
    | with_reducible exact Kept.rfl | with_reducible assumption | with_reducible apply State.put_kept
    | with_reducible apply Kept.ite_else | with_reducible apply Kept.ite_then | with_reducible apply Kept.ite
    | with_reducible apply Kept.foldl | with_reducible refine Kept.of_snd (by assumption) ?_ | intro _ | dsimp only
    | fail_if_no_progress with_reducible apply Kept.mk' | split)

theorem State.freeCrc_kept {z0 : State} (s : State) (c : Nat) (hz : Kept z0 s) : Kept z0 (State.freeCrc s c) := by
  refine hz.trans ?_
  unfold State.freeCrc
  repeat' (first
    | with_reducible exact Kept.rfl | with_reducible assumption | with_reducible apply State.put_kept
    | with_reducible apply Kept.ite_else | with_reducible apply Kept.ite_then | with_reducible apply Kept.ite
    | with_reducible apply Kept.foldl | with_reducible refine Kept.of_snd (by assumption) ?_ | intro _ | dsimp only
    | fail_if_no_progress with_reducible apply Kept.mk' | split)

theorem State.loseSamples_kept {z0 : State} (s : State) (e : Nat) (hz : Kept z0 s) : Kept z0 (State.loseSamples s e) := by
  refine hz.trans ?_
  unfold State.loseSamples
  repeat' (first
    | with_reducible exact Kept.rfl | with_reducible assumption | with_reducible apply Kept.ite_else
    | with_reducible apply Kept.ite_then | with_reducible apply Kept.ite
    | with_reducible refine Kept.of_snd (by assumption) ?_ | intro _ | dsimp only
    | fail_if_no_progress with_reducible apply Kept.mk' | split)

theorem State.stopEngine_kept {z0 : State} (s : State) (e st : Nat) (hz : Kept z0 s) : Kept z0 (State.stopEngine s e st) := by
  refine hz.trans ?_
  unfold State.stopEngine
  repeat' (first
    | with_reducible exact Kept.rfl | with_reducible assumption | with_reducible apply State.fenceMail_kept
    | with_reducible apply State.freeCrc_kept | with_reducible apply State.freeSems_kept
    | with_reducible apply State.loseSamples_kept | with_reducible apply State.onEng_kept
    | with_reducible apply State.put_kept | with_reducible apply State.setEng_kept
    | with_reducible refine Kept.of_snd (by assumption) ?_ | intro _ | dsimp only
    | fail_if_no_progress with_reducible apply Kept.mk' | split)

theorem State.stopPhases_kept {z0 : State} (s : State) (e : Nat) (hz : Kept z0 s) : Kept z0 (State.stopPhases s e) := by
  refine hz.trans ?_
  unfold State.stopPhases
  repeat' (first
    | with_reducible exact Kept.rfl | with_reducible assumption | with_reducible apply State.phaseFault_kept
    | with_reducible apply Kept.ite_else | with_reducible apply Kept.ite_then | with_reducible apply Kept.ite
    | with_reducible refine Kept.of_snd (by assumption) ?_ | intro _ | dsimp only
    | fail_if_no_progress with_reducible apply Kept.mk' | split)

theorem State.fenceEngine_kept {z0 : State} (s : State) (e st : Nat) (hz : Kept z0 s) : Kept z0 (State.fenceEngine s e st) := by
  refine hz.trans ?_
  unfold State.fenceEngine
  repeat' (first
    | with_reducible exact Kept.rfl | with_reducible assumption | with_reducible apply State.stopEngine_kept
    | with_reducible apply State.stopPhases_kept | with_reducible refine Kept.of_snd (by assumption) ?_ | intro _
    | dsimp only | fail_if_no_progress with_reducible apply Kept.mk' | split)

theorem State.beginRestart_kept {z0 : State} (s : State) (e why cause : Nat) (hz : Kept z0 s) : Kept z0 (State.beginRestart s e why cause) := by
  refine hz.trans ?_
  unfold State.beginRestart
  repeat' (first
    | with_reducible exact Kept.rfl | with_reducible assumption | with_reducible apply State.bump_kept
    | with_reducible apply State.onEng_kept | with_reducible apply State.put_kept
    | with_reducible apply State.reload_kept | with_reducible apply State.setEng_kept
    | with_reducible refine Kept.of_snd (by assumption) ?_ | intro _ | dsimp only
    | fail_if_no_progress with_reducible apply Kept.mk' | split)

theorem State.restartEngine_kept {z0 : State} (s : State) (e why cause : Nat) (hz : Kept z0 s) : Kept z0 (State.restartEngine s e why cause) := by
  refine hz.trans ?_
  unfold State.restartEngine
  repeat' (first
    | with_reducible exact Kept.rfl | with_reducible assumption | with_reducible apply State.beginRestart_kept
    | with_reducible apply State.endCond_kept | with_reducible apply State.fault_kept
    | with_reducible apply State.putBit_kept | with_reducible apply State.setEng_kept | with_reducible apply Kept.ite
    | with_reducible refine Kept.of_snd (by assumption) ?_ | intro _ | dsimp only
    | fail_if_no_progress with_reducible apply Kept.mk' | split)

theorem State.stopOnFault_kept {z0 : State} (s : State) (e src code d0hi d1 why : Nat) (hz : Kept z0 s) : Kept z0 (State.stopOnFault s e src code d0hi d1 why) := by
  refine hz.trans ?_
  unfold State.stopOnFault
  repeat' (first
    | with_reducible exact Kept.rfl | with_reducible assumption | with_reducible apply State.collect_kept
    | with_reducible apply State.openShadow_kept | with_reducible apply State.restartEngine_kept
    | with_reducible apply State.stopEngine_kept | with_reducible apply State.stopPhases_kept
    | with_reducible apply Kept.ite_else | with_reducible apply Kept.ite_then | with_reducible apply Kept.ite
    | with_reducible refine Kept.of_snd (by assumption) ?_ | intro _ | dsimp only
    | fail_if_no_progress with_reducible apply Kept.mk' | split)

theorem State.trapEngine_kept {z0 : State} (s : State) (e : Nat) (mcause mepc mtval : Nat) (hz : Kept z0 s) : Kept z0 (State.trapEngine s e mcause mepc mtval) := by
  refine hz.trans ?_
  unfold State.trapEngine
  repeat' (first
    | with_reducible exact Kept.rfl | with_reducible assumption | with_reducible apply State.bump_kept
    | with_reducible apply State.put_kept | with_reducible apply State.stopOnFault_kept
    | with_reducible apply State.wrN_kept | with_reducible apply Kept.ite
    | with_reducible refine Kept.of_snd (by assumption) ?_ | intro _ | dsimp only
    | fail_if_no_progress with_reducible apply Kept.mk' | split)

end Sys2Proof.Machine
end

