-- ==== Sys2Proof/Laws/KeptViews.lean ====
section
/-! SUPPORT. Every operation of Machine/Views.lean keeps what `Kept` says. -/

set_option linter.unusedTactic false
set_option linter.unreachableTactic false
set_option linter.unusedVariables false

namespace Sys2Proof.Machine

set_option Elab.async false

theorem State.setSrc_kept {z0 : State} (s : State) (ch b : Nat) (hz : Kept z0 s) : Kept z0 (State.setSrc s ch b) := by
  refine hz.trans ?_
  unfold State.setSrc
  repeat' (first
    | with_reducible exact Kept.rfl | with_reducible assumption | with_reducible refine Kept.of_snd (by assumption) ?_
    | intro _ | dsimp only | fail_if_no_progress with_reducible apply Kept.mk' | split)

end Sys2Proof.Machine
end

