-- ==== Sys2Proof/Laws/KeptRegAccess.lean ====
section
/-! SUPPORT. Every operation of Machine/RegAccess.lean keeps what `Kept` says. -/

set_option linter.unusedTactic false
set_option linter.unreachableTactic false
set_option linter.unusedVariables false

namespace Sys2Proof.Machine

set_option Elab.async false

theorem State.countRefused_kept {z0 : State} (s : State) (a : Nat) (hz : Kept z0 s) : Kept z0 (State.countRefused s a) := by
  refine hz.trans ?_
  unfold State.countRefused
  repeat' (first
    | with_reducible exact Kept.rfl | with_reducible assumption | with_reducible apply State.bump_kept
    | with_reducible refine Kept.of_snd (by assumption) ?_ | intro _ | dsimp only
    | fail_if_no_progress with_reducible apply Kept.mk' | split)

theorem State.accessTrap_kept {z0 : State} (s : State) (i : Initiator) (a : Nat) (write : Bool) (hz : Kept z0 s) : Kept z0 (State.accessTrap s i a write) := by
  refine hz.trans ?_
  unfold State.accessTrap
  repeat' (first
    | with_reducible exact Kept.rfl | with_reducible assumption | with_reducible apply State.trapEngine_kept
    | with_reducible refine Kept.of_snd (by assumption) ?_ | intro _ | dsimp only
    | fail_if_no_progress with_reducible apply Kept.mk' | split)

theorem State.refused_kept {z0 : State} (s : State) (i : Initiator) (a : Nat) (write : Bool) (c : Ended) (hz : Kept z0 s) : Kept z0 (State.refused s i a write c) := by
  refine hz.trans ?_
  unfold State.refused
  repeat' (first
    | with_reducible exact Kept.rfl | with_reducible assumption | with_reducible apply State.accessTrap_kept
    | with_reducible apply State.busError_kept | with_reducible apply State.countRefused_kept
    | with_reducible apply State.pmc_kept | with_reducible apply State.refuseAccess_kept
    | with_reducible apply Kept.ite | with_reducible refine Kept.of_snd (by assumption) ?_ | intro _ | dsimp only
    | fail_if_no_progress with_reducible apply Kept.mk' | split)

theorem State.countWait_kept {z0 : State} (s : State) (n : Nat) (hz : Kept z0 s) : Kept z0 (State.countWait s n) := by
  refine hz.trans ?_
  unfold State.countWait
  repeat' (first
    | with_reducible exact Kept.rfl | with_reducible assumption | with_reducible apply State.fresh_kept
    | with_reducible apply State.pmc_kept | with_reducible apply Kept.ite_else | with_reducible apply Kept.ite_then
    | with_reducible apply Kept.ite | with_reducible refine Kept.of_snd (by assumption) ?_ | intro _ | dsimp only
    | fail_if_no_progress with_reducible apply Kept.mk' | split)

theorem State.countAccess_kept {z0 : State} (s : State) (i : Initiator) (a : Nat) (write : Bool) (hz : Kept z0 s) : Kept z0 (State.countAccess s i a write) := by
  refine hz.trans ?_
  unfold State.countAccess
  repeat' (first
    | with_reducible exact Kept.rfl | with_reducible assumption | with_reducible apply State.countWait_kept
    | with_reducible apply State.pmc_kept | with_reducible apply Kept.ite
    | with_reducible refine Kept.of_snd (by assumption) ?_ | intro _ | dsimp only
    | fail_if_no_progress with_reducible apply Kept.mk' | split)

theorem State.takeField_kept {z0 : State} (s : State) (a : Nat) (f : FieldDesc) (v : Nat) (hz : Kept z0 s) : Kept z0 (State.takeField s a f v) := by
  refine hz.trans ?_
  unfold State.takeField
  repeat' (first
    | with_reducible exact Kept.rfl | with_reducible assumption | with_reducible apply State.bump_kept
    | with_reducible apply State.put_kept | with_reducible apply Kept.ite_else | with_reducible apply Kept.ite_then
    | with_reducible apply Kept.ite | with_reducible refine Kept.of_snd (by assumption) ?_ | intro _ | dsimp only
    | fail_if_no_progress with_reducible apply Kept.mk' | split)

theorem State.writeField_kept {z0 : State} (s : State) (i : Initiator) (a w : Nat) (f : FieldDesc) (hz : Kept z0 s) : Kept z0 (State.writeField s i a w f) := by
  refine hz.trans ?_
  unfold State.writeField
  repeat' (first
    | with_reducible exact Kept.rfl | with_reducible assumption | with_reducible apply State.refuseAccess_kept
    | with_reducible apply State.takeField_kept | with_reducible apply Kept.ite
    | with_reducible refine Kept.of_snd (by assumption) ?_ | intro _ | dsimp only
    | fail_if_no_progress with_reducible apply Kept.mk' | split)

theorem State.writeFields_kept {z0 : State} (s : State) (i : Initiator) (a w : Nat) (hz : Kept z0 s) : Kept z0 (State.writeFields s i a w) := by
  refine hz.trans ?_
  unfold State.writeFields
  repeat' (first
    | with_reducible exact Kept.rfl | with_reducible assumption | with_reducible apply State.writeField_kept
    | with_reducible apply Kept.foldl | with_reducible refine Kept.of_snd (by assumption) ?_ | intro _ | dsimp only
    | fail_if_no_progress with_reducible apply Kept.mk' | split)

theorem State.writeTrim_kept {z0 : State} (s : State) (i : Initiator) (a w ch b : Nat) (hz : Kept z0 s) : Kept z0 (State.writeTrim s i a w ch b) := by
  refine hz.trans ?_
  unfold State.writeTrim
  repeat' (first
    | with_reducible exact Kept.rfl | with_reducible assumption | with_reducible apply State.refuseAccess_kept
    | with_reducible apply State.setSrc_kept | with_reducible apply State.writeFields_kept
    | with_reducible apply Kept.ite | with_reducible refine Kept.of_snd (by assumption) ?_ | intro _ | dsimp only
    | fail_if_no_progress with_reducible apply Kept.mk' | split)

theorem State.plainWrite_kept {z0 : State} (s : State) (i : Initiator) (a w : Nat) (hz : Kept z0 s) : Kept z0 (State.plainWrite s i a w) := by
  refine hz.trans ?_
  unfold State.plainWrite
  repeat' (first
    | with_reducible exact Kept.rfl | with_reducible assumption | with_reducible apply State.put_kept
    | with_reducible apply State.syncScrub_kept | with_reducible apply State.wrN_kept
    | with_reducible apply State.writeFields_kept | with_reducible apply State.writeTrim_kept
    | with_reducible apply Kept.ite | with_reducible refine Kept.of_snd (by assumption) ?_ | intro _ | dsimp only
    | fail_if_no_progress with_reducible apply Kept.mk' | split)

theorem State.guarded_kept {z0 : State} (s : State) (i : Initiator) (a : Nat) (act : State → State) (hz : Kept z0 s) (hact : ∀ t, Kept t (act t)) : Kept z0 (State.guarded s i a act).2 := by
  refine hz.trans ?_
  unfold State.guarded
  repeat' (first
    | with_reducible exact Kept.rfl | with_reducible assumption | with_reducible refine Kept.trans ?_ (hact _)
    | with_reducible apply State.accessTrap_kept | with_reducible apply State.countAccess_kept
    | with_reducible apply State.refuseAccess_kept | with_reducible apply State.refused_kept
    | with_reducible apply Kept.ite_else | with_reducible apply Kept.ite_then | with_reducible apply Kept.ite
    | with_reducible apply Kept.pair_ite | with_reducible refine Kept.of_snd (by assumption) ?_ | intro _ | dsimp only
    | fail_if_no_progress with_reducible apply Kept.mk' | split)

theorem State.writeRow_kept {z0 : State} (s : State) (i : Initiator) (a : Nat) (act : State → State) (hz : Kept z0 s) (hact : ∀ t, Kept t (act t)) : Kept z0 (State.writeRow s i a act) := by
  refine hz.trans ?_
  unfold State.writeRow
  repeat' (first
    | with_reducible exact Kept.rfl | with_reducible assumption | with_reducible refine Kept.trans ?_ (hact _)
    | with_reducible apply State.emit_kept | with_reducible apply State.guarded_kept
    | with_reducible refine Kept.of_snd (by assumption) ?_ | intro _ | dsimp only
    | fail_if_no_progress with_reducible apply Kept.mk' | split)

theorem State.ifPrivileged_kept {z0 : State} (s : State) (i : Initiator) (a : Nat) (act : State → State) (hz : Kept z0 s) (hact : ∀ t, Kept t (act t)) : Kept z0 (State.ifPrivileged s i a act) := by
  refine hz.trans ?_
  unfold State.ifPrivileged
  repeat' (first
    | with_reducible exact Kept.rfl | with_reducible assumption | with_reducible refine Kept.trans ?_ (hact _)
    | with_reducible apply State.refuseRight_kept | with_reducible apply Kept.ite
    | with_reducible refine Kept.of_snd (by assumption) ?_ | intro _ | dsimp only
    | fail_if_no_progress with_reducible apply Kept.mk' | split)

theorem State.clearRc_kept {z0 : State} (s : State) (a : Nat) (hz : Kept z0 s) : Kept z0 (State.clearRc s a) := by
  refine hz.trans ?_
  unfold State.clearRc
  repeat' (first
    | with_reducible exact Kept.rfl | with_reducible assumption | with_reducible apply State.put_kept
    | with_reducible apply Kept.ite_else | with_reducible apply Kept.ite_then | with_reducible apply Kept.ite
    | with_reducible apply Kept.foldl | with_reducible refine Kept.of_snd (by assumption) ?_ | intro _ | dsimp only
    | fail_if_no_progress with_reducible apply Kept.mk' | split)

theorem State.readReg_kept {z0 : State} (s : State) (i : Initiator) (a : Nat) (hz : Kept z0 s) : Kept z0 (State.readReg s i a).2 := by
  refine hz.trans ?_
  unfold State.readReg
  repeat' (first
    | with_reducible exact Kept.rfl | with_reducible assumption | with_reducible apply State.clearRc_kept
    | with_reducible apply Kept.ite_else | with_reducible apply Kept.ite_then | with_reducible apply Kept.ite
    | with_reducible apply Kept.pair_ite | with_reducible refine Kept.of_snd (by assumption) ?_ | intro _ | dsimp only
    | fail_if_no_progress with_reducible apply Kept.mk' | split)

theorem State.scLevel_kept {z0 : State} (s : State) (a : Nat) (hz : Kept z0 s) : Kept z0 (State.scLevel s a) := by
  refine hz.trans ?_
  unfold State.scLevel
  repeat' (first
    | with_reducible exact Kept.rfl | with_reducible assumption | with_reducible apply State.fresh_kept
    | with_reducible apply State.put_kept | with_reducible apply Kept.ite_else | with_reducible apply Kept.ite_then
    | with_reducible apply Kept.ite | with_reducible refine Kept.of_snd (by assumption) ?_ | intro _ | dsimp only
    | fail_if_no_progress with_reducible apply Kept.mk' | split)

theorem State.busRead_kept {z0 : State} (s : State) (i : Initiator) (a : Nat) (hz : Kept z0 s) : Kept z0 (State.busRead s i a).2 := by
  refine hz.trans ?_
  unfold State.busRead
  repeat' (first
    | with_reducible exact Kept.rfl | with_reducible assumption | with_reducible apply State.countAccess_kept
    | with_reducible apply State.fresh_kept | with_reducible apply State.readReg_kept
    | with_reducible apply State.refused_kept | with_reducible apply State.scLevel_kept
    | with_reducible apply State.syncAll_kept | with_reducible apply Kept.ite | with_reducible apply Kept.pair_ite
    | with_reducible refine Kept.of_snd (by assumption) ?_ | intro _ | dsimp only
    | fail_if_no_progress with_reducible apply Kept.mk' | split)

theorem State.readRow_kept {z0 : State} (s : State) (i : Initiator) (a : Nat) (hz : Kept z0 s) : Kept z0 (State.readRow s i a) := by
  refine hz.trans ?_
  unfold State.readRow
  repeat' (first
    | with_reducible exact Kept.rfl | with_reducible assumption | with_reducible apply State.busRead_kept
    | with_reducible apply State.emit_kept | with_reducible apply Kept.ite
    | with_reducible refine Kept.of_snd (by assumption) ?_ | intro _ | dsimp only
    | fail_if_no_progress with_reducible apply Kept.mk' | split)

end Sys2Proof.Machine
end

