-- ==== Sys2Proof/Laws/KeptEngineIsa.lean ====
section
/-! SUPPORT. Every operation of Machine/EngineIsa.lean keeps what `Kept` says. -/

set_option linter.unusedTactic false
set_option linter.unreachableTactic false
set_option linter.unusedVariables false

namespace Sys2Proof.Machine

set_option Elab.async false

theorem State.setX_kept {z0 : State} (s : State) (e r : Nat) (w : Word) (hz : Kept z0 s) : Kept z0 (State.setX s e r w) := by
  refine hz.trans ?_
  unfold State.setX
  repeat' (first
    | with_reducible exact Kept.rfl | with_reducible assumption | with_reducible apply State.onEng_kept
    | with_reducible apply Kept.ite | with_reducible refine Kept.of_snd (by assumption) ?_ | intro _ | dsimp only
    | fail_if_no_progress with_reducible apply Kept.mk' | split)

theorem State.setAcc_kept {z0 : State} (s : State) (e a : Nat) (z : Int) (hz : Kept z0 s) : Kept z0 (State.setAcc s e a z) := by
  refine hz.trans ?_
  unfold State.setAcc
  repeat' (first
    | with_reducible exact Kept.rfl | with_reducible assumption | with_reducible apply State.onEng_kept
    | with_reducible apply State.pmc_kept | with_reducible apply State.wrN_kept | with_reducible apply Kept.ite
    | with_reducible refine Kept.of_snd (by assumption) ?_ | intro _ | dsimp only
    | fail_if_no_progress with_reducible apply Kept.mk' | split)

theorem State.retire_kept {z0 : State} (s : State) (e : Nat) (hz : Kept z0 s) : Kept z0 (State.retire s e) := by
  refine hz.trans ?_
  unfold State.retire
  repeat' (first
    | with_reducible exact Kept.rfl | with_reducible assumption | with_reducible apply State.onEng_kept
    | with_reducible apply State.pmc_kept | with_reducible refine Kept.of_snd (by assumption) ?_ | intro _
    | dsimp only | fail_if_no_progress with_reducible apply Kept.mk' | split)

theorem State.illegal_kept {z0 : State} (s : State) (e : Nat) (hz : Kept z0 s) : Kept z0 (State.illegal s e) := by
  refine hz.trans ?_
  unfold State.illegal
  repeat' (first
    | with_reducible exact Kept.rfl | with_reducible assumption | with_reducible apply State.fresh_kept
    | with_reducible apply State.trapEngine_kept | with_reducible refine Kept.of_snd (by assumption) ?_ | intro _
    | dsimp only | fail_if_no_progress with_reducible apply Kept.mk' | split)

theorem State.instr_kept {z0 : State} (s : State) (e : Nat) (legal : Bool) (act : State → State) (hz : Kept z0 s) (hact : ∀ t, Kept t (act t)) : Kept z0 (State.instr s e legal act) := by
  refine hz.trans ?_
  unfold State.instr
  repeat' (first
    | with_reducible exact Kept.rfl | with_reducible assumption | with_reducible refine Kept.trans ?_ (hact _)
    | with_reducible apply State.illegal_kept | with_reducible apply State.retire_kept | with_reducible apply Kept.ite
    | with_reducible refine Kept.of_snd (by assumption) ?_ | intro _ | dsimp only
    | fail_if_no_progress with_reducible apply Kept.mk' | split)

theorem State.mac_kept {z0 : State} (s : State) (e a rs1 rs2 : Nat) (f : Word → Word → Int) (hz : Kept z0 s) : Kept z0 (State.mac s e a rs1 rs2 f) := by
  refine hz.trans ?_
  unfold State.mac
  repeat' (first
    | with_reducible exact Kept.rfl | with_reducible assumption | with_reducible apply State.instr_kept
    | with_reducible apply State.pmc_kept | with_reducible apply State.setAcc_kept
    | with_reducible refine Kept.of_snd (by assumption) ?_ | intro _ | dsimp only
    | fail_if_no_progress with_reducible apply Kept.mk' | split)

theorem execYdMac2_kept (e : Fin 16) (rd rs1 rs2 : Fin 32) (s : State) : KeptO s (execYdMac2 e rd rs1 rs2 s) := by
  unfold execYdMac2
  repeat' (first
    | with_reducible exact Kept.rfl | with_reducible assumption | with_reducible apply State.mac_kept
    | with_reducible apply KeptO.next | with_reducible apply KeptO.ite
    | with_reducible refine Kept.of_snd (by assumption) ?_ | intro _ | dsimp only
    | fail_if_no_progress with_reducible apply Kept.mk' | split)

theorem execYdMsu2_kept (e : Fin 16) (rd rs1 rs2 : Fin 32) (s : State) : KeptO s (execYdMsu2 e rd rs1 rs2 s) := by
  unfold execYdMsu2
  repeat' (first
    | with_reducible exact Kept.rfl | with_reducible assumption | with_reducible apply State.mac_kept
    | with_reducible apply KeptO.next | with_reducible apply KeptO.ite
    | with_reducible refine Kept.of_snd (by assumption) ?_ | intro _ | dsimp only
    | fail_if_no_progress with_reducible apply Kept.mk' | split)

theorem execYdMcr_kept (e : Fin 16) (rd rs1 rs2 : Fin 32) (s : State) : KeptO s (execYdMcr e rd rs1 rs2 s) := by
  unfold execYdMcr
  repeat' (first
    | with_reducible exact Kept.rfl | with_reducible assumption | with_reducible apply State.mac_kept
    | with_reducible apply KeptO.next | with_reducible apply KeptO.ite
    | with_reducible refine Kept.of_snd (by assumption) ?_ | intro _ | dsimp only
    | fail_if_no_progress with_reducible apply Kept.mk' | split)

theorem execYdMci_kept (e : Fin 16) (rd rs1 rs2 : Fin 32) (s : State) : KeptO s (execYdMci e rd rs1 rs2 s) := by
  unfold execYdMci
  repeat' (first
    | with_reducible exact Kept.rfl | with_reducible assumption | with_reducible apply State.mac_kept
    | with_reducible apply KeptO.next | with_reducible apply KeptO.ite
    | with_reducible refine Kept.of_snd (by assumption) ?_ | intro _ | dsimp only
    | fail_if_no_progress with_reducible apply Kept.mk' | split)

theorem execYdMac1_kept (e : Fin 16) (rd rs1 rs2 : Fin 32) (s : State) : KeptO s (execYdMac1 e rd rs1 rs2 s) := by
  unfold execYdMac1
  repeat' (first
    | with_reducible exact Kept.rfl | with_reducible assumption | with_reducible apply State.mac_kept
    | with_reducible apply KeptO.next | with_reducible apply KeptO.ite
    | with_reducible refine Kept.of_snd (by assumption) ?_ | intro _ | dsimp only
    | fail_if_no_progress with_reducible apply Kept.mk' | split)

theorem State.dftStep_kept {z0 : State} (s : State) (e p rs1 : Nat) (hz : Kept z0 s) : Kept z0 (State.dftStep s e p rs1) := by
  refine hz.trans ?_
  unfold State.dftStep
  repeat' (first
    | with_reducible exact Kept.rfl | with_reducible assumption | with_reducible apply State.pmc_kept
    | with_reducible apply State.setAcc_kept | with_reducible refine Kept.of_snd (by assumption) ?_ | intro _
    | dsimp only | fail_if_no_progress with_reducible apply Kept.mk' | split)

theorem execYdDft_kept (e : Fin 16) (rd rs1 rs2 : Fin 32) (s : State) : KeptO s (execYdDft e rd rs1 rs2 s) := by
  unfold execYdDft
  repeat' (first
    | with_reducible exact Kept.rfl | with_reducible assumption | with_reducible apply State.dftStep_kept
    | with_reducible apply State.instr_kept | with_reducible apply KeptO.next | with_reducible apply KeptO.ite
    | with_reducible refine Kept.of_snd (by assumption) ?_ | intro _ | dsimp only
    | fail_if_no_progress with_reducible apply Kept.mk' | split)

theorem execYdDfta_kept (e : Fin 16) (rd rs1 rs2 : Fin 32) (s : State) : KeptO s (execYdDfta e rd rs1 rs2 s) := by
  unfold execYdDfta
  repeat' (first
    | with_reducible exact Kept.rfl | with_reducible assumption | with_reducible apply State.dftStep_kept
    | with_reducible apply State.instr_kept | with_reducible apply State.onEng_kept | with_reducible apply KeptO.next
    | with_reducible apply KeptO.ite | with_reducible refine Kept.of_snd (by assumption) ?_ | intro _ | dsimp only
    | fail_if_no_progress with_reducible apply Kept.mk' | split)

theorem execYdAccw_kept (e : Fin 16) (rd rs1 rs2 : Fin 32) (s : State) : KeptO s (execYdAccw e rd rs1 rs2 s) := by
  unfold execYdAccw
  repeat' (first
    | with_reducible exact Kept.rfl | with_reducible assumption | with_reducible apply State.instr_kept
    | with_reducible apply State.setAcc_kept | with_reducible apply KeptO.next | with_reducible apply KeptO.ite
    | with_reducible refine Kept.of_snd (by assumption) ?_ | intro _ | dsimp only
    | fail_if_no_progress with_reducible apply Kept.mk' | split)

theorem execYdAccz_kept (e : Fin 16) (rd _rs1 _rs2 : Fin 32) (s : State) : KeptO s (execYdAccz e rd _rs1 _rs2 s) := by
  unfold execYdAccz
  repeat' (first
    | with_reducible exact Kept.rfl | with_reducible assumption | with_reducible apply State.instr_kept
    | with_reducible apply State.setAcc_kept | with_reducible apply KeptO.next | with_reducible apply KeptO.ite
    | with_reducible refine Kept.of_snd (by assumption) ?_ | intro _ | dsimp only
    | fail_if_no_progress with_reducible apply Kept.mk' | split)

theorem execYdAccrl_kept (e : Fin 16) (rd rs1 _rs2 : Fin 32) (s : State) : KeptO s (execYdAccrl e rd rs1 _rs2 s) := by
  unfold execYdAccrl
  repeat' (first
    | with_reducible exact Kept.rfl | with_reducible assumption | with_reducible apply State.instr_kept
    | with_reducible apply State.setX_kept | with_reducible apply KeptO.next | with_reducible apply KeptO.ite
    | with_reducible refine Kept.of_snd (by assumption) ?_ | intro _ | dsimp only
    | fail_if_no_progress with_reducible apply Kept.mk' | split)

theorem execYdAccrh_kept (e : Fin 16) (rd rs1 _rs2 : Fin 32) (s : State) : KeptO s (execYdAccrh e rd rs1 _rs2 s) := by
  unfold execYdAccrh
  repeat' (first
    | with_reducible exact Kept.rfl | with_reducible assumption | with_reducible apply State.instr_kept
    | with_reducible apply State.setX_kept | with_reducible apply KeptO.next | with_reducible apply KeptO.ite
    | with_reducible refine Kept.of_snd (by assumption) ?_ | intro _ | dsimp only
    | fail_if_no_progress with_reducible apply Kept.mk' | split)

theorem execYdAccrs_kept (e : Fin 16) (rd rs1 rs2 : Fin 32) (s : State) : KeptO s (execYdAccrs e rd rs1 rs2 s) := by
  unfold execYdAccrs
  repeat' (first
    | with_reducible exact Kept.rfl | with_reducible assumption | with_reducible apply State.instr_kept
    | with_reducible apply State.setX_kept | with_reducible apply KeptO.next | with_reducible apply KeptO.ite
    | with_reducible refine Kept.of_snd (by assumption) ?_ | intro _ | dsimp only
    | fail_if_no_progress with_reducible apply Kept.mk' | split)

theorem execYdPks_kept (e : Fin 16) (rd rs1 rs2 : Fin 32) (s : State) : KeptO s (execYdPks e rd rs1 rs2 s) := by
  unfold execYdPks
  repeat' (first
    | with_reducible exact Kept.rfl | with_reducible assumption | with_reducible apply State.instr_kept
    | with_reducible apply State.setX_kept | with_reducible apply KeptO.next | with_reducible apply KeptO.ite
    | with_reducible refine Kept.of_snd (by assumption) ?_ | intro _ | dsimp only
    | fail_if_no_progress with_reducible apply Kept.mk' | split)

theorem execYdUpkl_kept (e : Fin 16) (rd rs1 _rs2 : Fin 32) (s : State) : KeptO s (execYdUpkl e rd rs1 _rs2 s) := by
  unfold execYdUpkl
  repeat' (first
    | with_reducible exact Kept.rfl | with_reducible assumption | with_reducible apply State.instr_kept
    | with_reducible apply State.setX_kept | with_reducible apply KeptO.next | with_reducible apply KeptO.ite
    | with_reducible refine Kept.of_snd (by assumption) ?_ | intro _ | dsimp only
    | fail_if_no_progress with_reducible apply Kept.mk' | split)

theorem execYdUpkh_kept (e : Fin 16) (rd rs1 _rs2 : Fin 32) (s : State) : KeptO s (execYdUpkh e rd rs1 _rs2 s) := by
  unfold execYdUpkh
  repeat' (first
    | with_reducible exact Kept.rfl | with_reducible assumption | with_reducible apply State.instr_kept
    | with_reducible apply State.setX_kept | with_reducible apply KeptO.next | with_reducible apply KeptO.ite
    | with_reducible refine Kept.of_snd (by assumption) ?_ | intro _ | dsimp only
    | fail_if_no_progress with_reducible apply Kept.mk' | split)

theorem execYdSat_kept (e : Fin 16) (rd rs1 : Fin 32) (imm : BitVec 12) (s : State) : KeptO s (execYdSat e rd rs1 imm s) := by
  unfold execYdSat
  repeat' (first
    | with_reducible exact Kept.rfl | with_reducible assumption | with_reducible apply State.instr_kept
    | with_reducible apply State.setX_kept | with_reducible apply KeptO.next | with_reducible apply KeptO.ite
    | with_reducible refine Kept.of_snd (by assumption) ?_ | intro _ | dsimp only
    | fail_if_no_progress with_reducible apply Kept.mk' | split)

theorem State.setExt_kept {z0 : State} (s : State) (e : Nat) (csr : ExtCsr) (v : Word) (hz : Kept z0 s) : Kept z0 (State.setExt s e csr v) := by
  refine hz.trans ?_
  unfold State.setExt
  repeat' (first
    | with_reducible exact Kept.rfl | with_reducible assumption | with_reducible apply State.onEng_kept
    | with_reducible apply State.wrN_kept | with_reducible refine Kept.of_snd (by assumption) ?_ | intro _
    | dsimp only | fail_if_no_progress with_reducible apply Kept.mk' | split)

theorem execExtensionCsrWrite_kept (e : Fin 16) (csr : ExtCsr) (v : Word) (s : State) : KeptO s (execExtensionCsrWrite e csr v s) := by
  unfold execExtensionCsrWrite
  repeat' (first
    | with_reducible exact Kept.rfl | with_reducible assumption | with_reducible apply State.instr_kept
    | with_reducible apply State.setExt_kept | with_reducible apply KeptO.next | with_reducible apply KeptO.ite
    | with_reducible refine Kept.of_snd (by assumption) ?_ | intro _ | dsimp only
    | fail_if_no_progress with_reducible apply Kept.mk' | split)

end Sys2Proof.Machine
end

