-- ==== Sys2Proof/Laws/KeptCell.lean ====
section
/-! SUPPORT. Every operation of Machine/Cell.lean keeps what `Kept` says. -/

set_option linter.unusedTactic false
set_option linter.unreachableTactic false
set_option linter.unusedVariables false

namespace Sys2Proof.Machine

set_option Elab.async false

theorem State.onChan_kept {z0 : State} (s : State) (ch : Nat) (f : ChanSt → ChanSt) (hz : Kept z0 s) : Kept z0 (State.onChan s ch f) := by
  refine hz.trans ?_
  unfold State.onChan
  repeat' (first
    | with_reducible exact Kept.rfl | with_reducible assumption | with_reducible refine Kept.of_snd (by assumption) ?_
    | intro _ | dsimp only | fail_if_no_progress with_reducible apply Kept.mk' | split)

theorem State.takeSample_kept {z0 : State} (s : State) (x : StrobeSample) (ch : Nat) (hz : Kept z0 s) : Kept z0 (State.takeSample s x ch) := by
  refine hz.trans ?_
  unfold State.takeSample
  repeat' (first
    | with_reducible exact Kept.rfl | with_reducible assumption | with_reducible apply State.endCond_kept
    | with_reducible apply State.onChan_kept | with_reducible apply Kept.ite_else | with_reducible apply Kept.ite_then
    | with_reducible apply Kept.ite | with_reducible refine Kept.of_snd (by assumption) ?_ | intro _ | dsimp only
    | fail_if_no_progress with_reducible apply Kept.mk' | split)

theorem State.latchFilter_kept {z0 : State} (s : State) (hz : Kept z0 s) : Kept z0 (State.latchFilter s) := by
  refine hz.trans ?_
  unfold State.latchFilter
  repeat' (first
    | with_reducible exact Kept.rfl | with_reducible assumption | with_reducible apply State.fresh_kept
    | with_reducible apply State.owStop_kept | with_reducible apply State.put_kept | with_reducible apply Kept.ite
    | with_reducible refine Kept.of_snd (by assumption) ?_ | intro _ | dsimp only
    | fail_if_no_progress with_reducible apply Kept.mk' | split)

theorem State.cellDiag_kept {z0 : State} (s : State) (c fl : Nat) (hz : Kept z0 s) : Kept z0 (State.cellDiag s c fl) := by
  refine hz.trans ?_
  unfold State.cellDiag
  repeat' (first
    | with_reducible exact Kept.rfl | with_reducible assumption | with_reducible apply State.bump_kept
    | with_reducible apply Kept.ite_else | with_reducible apply Kept.ite_then | with_reducible apply Kept.ite
    | with_reducible refine Kept.of_snd (by assumption) ?_ | intro _ | dsimp only
    | fail_if_no_progress with_reducible apply Kept.mk' | split)

theorem State.publishCell_kept {z0 : State} (s : State) (late : Bool) (c : Nat) (hz : Kept z0 s) : Kept z0 (State.publishCell s late c) := by
  refine hz.trans ?_
  unfold State.publishCell
  repeat' (first
    | with_reducible exact Kept.rfl | with_reducible assumption | with_reducible apply State.cellDiag_kept
    | with_reducible apply State.wrN_kept | with_reducible apply Kept.ite_else | with_reducible apply Kept.ite_then
    | with_reducible apply Kept.ite | with_reducible refine Kept.of_snd (by assumption) ?_ | intro _ | dsimp only
    | fail_if_no_progress with_reducible apply Kept.mk' | split)

theorem State.countDisagree_kept {z0 : State} (s : State) (c : Nat) (hz : Kept z0 s) : Kept z0 (State.countDisagree s c) := by
  refine hz.trans ?_
  unfold State.countDisagree
  repeat' (first
    | with_reducible exact Kept.rfl | with_reducible assumption | with_reducible apply State.endCond_kept
    | with_reducible apply State.put_kept | with_reducible apply Kept.ite
    | with_reducible refine Kept.of_snd (by assumption) ?_ | intro _ | dsimp only
    | fail_if_no_progress with_reducible apply Kept.mk' | split)

theorem State.countUnused_kept {z0 : State} (s : State) (c : Nat) (hz : Kept z0 s) : Kept z0 (State.countUnused s c) := by
  refine hz.trans ?_
  unfold State.countUnused
  repeat' (first
    | with_reducible exact Kept.rfl | with_reducible assumption | with_reducible apply State.endCond_kept
    | with_reducible apply State.put_kept | with_reducible apply Kept.ite
    | with_reducible refine Kept.of_snd (by assumption) ?_ | intro _ | dsimp only
    | fail_if_no_progress with_reducible apply Kept.mk' | split)

theorem State.cellSums_kept {z0 : State} (s : State) (hz : Kept z0 s) : Kept z0 (State.cellSums s) := by
  refine hz.trans ?_
  unfold State.cellSums
  repeat' (first
    | with_reducible exact Kept.rfl | with_reducible assumption | with_reducible apply State.put_kept
    | with_reducible apply State.wrN_kept | with_reducible apply Kept.foldl
    | with_reducible refine Kept.of_snd (by assumption) ?_ | intro _ | dsimp only
    | fail_if_no_progress with_reducible apply Kept.mk' | split)

theorem State.groupStat_kept {z0 : State} (s : State) (late : Nat) (g : Nat) (hz : Kept z0 s) : Kept z0 (State.groupStat s late g) := by
  refine hz.trans ?_
  unfold State.groupStat
  repeat' (first
    | with_reducible exact Kept.rfl | with_reducible assumption | with_reducible apply State.bump_kept
    | with_reducible apply State.put_kept | with_reducible apply Kept.ite
    | with_reducible refine Kept.of_snd (by assumption) ?_ | intro _ | dsimp only
    | fail_if_no_progress with_reducible apply Kept.mk' | split)

theorem State.owPre_kept {z0 : State} (s : State) (hz : Kept z0 s) : Kept z0 (State.owPre s) := by
  refine hz.trans ?_
  unfold State.owPre
  repeat' (first
    | with_reducible exact Kept.rfl | with_reducible assumption | with_reducible apply State.fresh_kept
    | with_reducible apply Kept.ite_else | with_reducible apply Kept.ite_then | with_reducible apply Kept.ite
    | with_reducible refine Kept.of_snd (by assumption) ?_ | intro _ | dsimp only
    | fail_if_no_progress with_reducible apply Kept.mk' | split)

theorem State.owEnd_kept {z0 : State} (s : State) (hz : Kept z0 s) : Kept z0 (State.owEnd s) := by
  refine hz.trans ?_
  unfold State.owEnd
  repeat' (first
    | with_reducible exact Kept.rfl | with_reducible assumption | with_reducible apply State.put_kept
    | with_reducible apply State.putB_kept | with_reducible apply Kept.ite_else | with_reducible apply Kept.ite_then
    | with_reducible apply Kept.ite | with_reducible refine Kept.of_snd (by assumption) ?_ | intro _ | dsimp only
    | fail_if_no_progress with_reducible apply Kept.mk' | split)

theorem State.bankCells_kept {z0 : State} (s : State) (late : Nat) (hz : Kept z0 s) : Kept z0 (State.bankCells s late) := by
  refine hz.trans ?_
  unfold State.bankCells
  repeat' (first
    | with_reducible exact Kept.rfl | with_reducible assumption | with_reducible apply State.cellSums_kept
    | with_reducible apply State.countDisagree_kept | with_reducible apply State.countUnused_kept
    | with_reducible apply State.groupStat_kept | with_reducible apply State.owEnd_kept
    | with_reducible apply State.owPre_kept | with_reducible apply State.publishCell_kept
    | with_reducible apply State.put_kept | with_reducible apply State.putB_kept
    | with_reducible apply State.wrap_kept | with_reducible apply Kept.foldl
    | with_reducible refine Kept.of_snd (by assumption) ?_ | intro _ | dsimp only
    | fail_if_no_progress with_reducible apply Kept.mk' | split)

theorem execOpenWireStep_kept (s : State) : KeptO s (execOpenWireStep s) := by
  unfold execOpenWireStep
  repeat' (first
    | with_reducible exact Kept.rfl | with_reducible assumption | with_reducible apply State.put_kept
    | with_reducible apply KeptO.next | with_reducible apply KeptO.ite | with_reducible apply Kept.ite_else
    | with_reducible apply Kept.ite_then | with_reducible apply Kept.ite | with_reducible apply Kept.getD
    | with_reducible refine Kept.of_snd (by assumption) ?_ | intro _ | dsimp only
    | fail_if_no_progress with_reducible apply Kept.mk' | split)

theorem State.owCutoff_kept {z0 : State} (s : State) (x : StrobeSample) (hz : Kept z0 s) : Kept z0 (State.owCutoff s x) := by
  refine hz.trans ?_
  unfold State.owCutoff
  repeat' (first
    | with_reducible exact Kept.rfl | with_reducible assumption | with_reducible apply Kept.ite_else
    | with_reducible apply Kept.ite_then | with_reducible apply Kept.ite
    | with_reducible refine Kept.of_snd (by assumption) ?_ | intro _ | dsimp only
    | fail_if_no_progress with_reducible apply Kept.mk' | split)

theorem State.setTap_kept {z0 : State} (s : State) (t : Nat) (b : Bool) (hz : Kept z0 s) : Kept z0 (State.setTap s t b) := by
  refine hz.trans ?_
  unfold State.setTap
  repeat' (first
    | with_reducible exact Kept.rfl | with_reducible assumption | with_reducible apply State.putB_kept
    | with_reducible apply State.wrN_kept | with_reducible apply Kept.ite
    | with_reducible refine Kept.of_snd (by assumption) ?_ | intro _ | dsimp only
    | fail_if_no_progress with_reducible apply Kept.mk' | split)

theorem State.owTest_kept {z0 : State} (s : State) (t : Nat) (hz : Kept z0 s) : Kept z0 (State.owTest s t) := by
  refine hz.trans ?_
  unfold State.owTest
  repeat' (first
    | with_reducible exact Kept.rfl | with_reducible assumption | with_reducible apply State.endCond_kept
    | with_reducible apply State.faultD_kept | with_reducible apply State.put_kept
    | with_reducible apply State.setTap_kept | with_reducible apply State.wrap_kept | with_reducible apply Kept.ite
    | with_reducible apply Kept.foldl | with_reducible apply Kept.foldl_snd
    | with_reducible refine Kept.of_snd (by assumption) ?_ | intro _ | dsimp only
    | fail_if_no_progress with_reducible apply Kept.mk' | split)

theorem execOpenWireDwellEnd_kept (s : State) : KeptO s (execOpenWireDwellEnd s) := by
  unfold execOpenWireDwellEnd
  repeat' (first
    | with_reducible exact Kept.rfl | with_reducible assumption | with_reducible apply State.owTest_kept
    | with_reducible apply State.put_kept | with_reducible apply State.wrap_kept | with_reducible apply KeptO.next
    | with_reducible apply KeptO.ite | with_reducible apply Kept.ite_else | with_reducible apply Kept.ite_then
    | with_reducible apply Kept.ite | with_reducible apply Kept.foldl
    | with_reducible refine Kept.of_snd (by assumption) ?_ | intro _ | dsimp only
    | fail_if_no_progress with_reducible apply Kept.mk' | split)

theorem execUnusedChannelNotShorted_kept (c : Fin 32) (s : State) : KeptO s (execUnusedChannelNotShorted c s) := by
  unfold execUnusedChannelNotShorted
  repeat' (first
    | with_reducible exact Kept.rfl | with_reducible assumption | with_reducible apply State.faultD_kept
    | with_reducible apply State.put_kept | with_reducible apply KeptO.next | with_reducible apply KeptO.ite
    | with_reducible apply Kept.ite_else | with_reducible apply Kept.ite_then | with_reducible apply Kept.ite
    | with_reducible refine Kept.of_snd (by assumption) ?_ | intro _ | dsimp only
    | fail_if_no_progress with_reducible apply Kept.mk' | split)

theorem execModulatorFault_kept (ch : Fin 34) (s : State) : KeptO s (execModulatorFault ch s) := by
  unfold execModulatorFault
  repeat' (first
    | with_reducible exact Kept.rfl | with_reducible assumption | with_reducible apply State.faultD_kept
    | with_reducible apply KeptO.next | with_reducible apply KeptO.ite | with_reducible apply Kept.ite_else
    | with_reducible apply Kept.ite_then | with_reducible apply Kept.ite
    | with_reducible refine Kept.of_snd (by assumption) ?_ | intro _ | dsimp only
    | fail_if_no_progress with_reducible apply Kept.mk' | split)

theorem execPathDisagreement_kept (c : Fin 32) (s : State) : KeptO s (execPathDisagreement c s) := by
  unfold execPathDisagreement
  repeat' (first
    | with_reducible exact Kept.rfl | with_reducible assumption | with_reducible apply State.faultD_kept
    | with_reducible apply State.put_kept | with_reducible apply KeptO.next | with_reducible apply KeptO.ite
    | with_reducible apply Kept.ite_else | with_reducible apply Kept.ite_then | with_reducible apply Kept.ite
    | with_reducible refine Kept.of_snd (by assumption) ?_ | intro _ | dsimp only
    | fail_if_no_progress with_reducible apply Kept.mk' | split)

theorem State.writeCmfTest_kept {z0 : State} (s : State) (i : Initiator) (v : Nat) (hz : Kept z0 s) : Kept z0 (State.writeCmfTest s i v) := by
  refine hz.trans ?_
  unfold State.writeCmfTest
  repeat' (first
    | with_reducible exact Kept.rfl | with_reducible assumption | with_reducible apply State.onChan_kept
    | with_reducible apply State.plainWrite_kept | with_reducible apply Kept.ite_else
    | with_reducible apply Kept.ite_then | with_reducible apply Kept.ite
    | with_reducible refine Kept.of_snd (by assumption) ?_ | intro _ | dsimp only
    | fail_if_no_progress with_reducible apply Kept.mk' | split)

theorem execForceMod_kept (i : Initiator) (v : Word) (s : State) : KeptO s (execForceMod i v s) := by
  unfold execForceMod
  repeat' (first
    | with_reducible exact Kept.rfl | with_reducible assumption | with_reducible apply State.writeCmfTest_kept
    | with_reducible apply State.writeRow_kept | with_reducible apply KeptO.next | with_reducible apply KeptO.ite
    | with_reducible refine Kept.of_snd (by assumption) ?_ | intro _ | dsimp only
    | fail_if_no_progress with_reducible apply Kept.mk' | split)

theorem execForceOw_kept (i : Initiator) (v : Word) (s : State) : KeptO s (execForceOw i v s) := by
  unfold execForceOw
  repeat' (first
    | with_reducible exact Kept.rfl | with_reducible assumption | with_reducible apply State.writeCmfTest_kept
    | with_reducible apply State.writeRow_kept | with_reducible apply KeptO.next | with_reducible apply KeptO.ite
    | with_reducible refine Kept.of_snd (by assumption) ?_ | intro _ | dsimp only
    | fail_if_no_progress with_reducible apply Kept.mk' | split)

theorem execCmfEnable_kept (i : Initiator) (v : Word) (s : State) : KeptO s (execCmfEnable i v s) := by
  unfold execCmfEnable
  repeat' (first
    | with_reducible exact Kept.rfl | with_reducible assumption | with_reducible apply State.plainWrite_kept
    | with_reducible apply State.writeRow_kept | with_reducible apply KeptO.next | with_reducible apply KeptO.ite
    | with_reducible refine Kept.of_snd (by assumption) ?_ | intro _ | dsimp only
    | fail_if_no_progress with_reducible apply Kept.mk' | split)

theorem State.dcstBegin_kept {z0 : State} (s : State) (c : Nat) (hz : Kept z0 s) : Kept z0 (State.dcstBegin s c) := by
  refine hz.trans ?_
  unfold State.dcstBegin
  repeat' (first
    | with_reducible exact Kept.rfl | with_reducible assumption | with_reducible refine Kept.of_snd (by assumption) ?_
    | intro _ | dsimp only | fail_if_no_progress with_reducible apply Kept.mk' | split)

theorem execDcSelfTest_kept (c : Fin 32) (ovTrips uvTrips : Bool) (s : State) : KeptO s (execDcSelfTest c ovTrips uvTrips s) := by
  unfold execDcSelfTest
  repeat' (first
    | with_reducible exact Kept.rfl | with_reducible assumption | with_reducible apply State.bump_kept
    | with_reducible apply State.dcstBegin_kept | with_reducible apply State.faultU_kept
    | with_reducible apply State.put_kept | with_reducible apply State.reach_kept | with_reducible apply KeptO.next
    | with_reducible apply KeptO.ite | with_reducible apply Kept.ite_else | with_reducible apply Kept.ite_then
    | with_reducible apply Kept.ite | with_reducible refine Kept.of_snd (by assumption) ?_ | intro _ | dsimp only
    | fail_if_no_progress with_reducible apply Kept.mk' | split)

end Sys2Proof.Machine
end

