-- ==== Sys2Proof/Laws/KeptCurrent.lean ====
section
/-! SUPPORT. Every operation of Machine/Current.lean keeps what `Kept` says. -/

set_option linter.unusedTactic false
set_option linter.unreachableTactic false
set_option linter.unusedVariables false

namespace Sys2Proof.Machine

set_option Elab.async false

theorem State.onCur_kept {z0 : State} (s : State) (f : CurSt → CurSt) (hz : Kept z0 s) : Kept z0 (State.onCur s f) := by
  refine hz.trans ?_
  unfold State.onCur
  repeat' (first
    | with_reducible exact Kept.rfl | with_reducible assumption | with_reducible refine Kept.of_snd (by assumption) ?_
    | intro _ | dsimp only | fail_if_no_progress with_reducible apply Kept.mk' | split)

theorem State.bankCs_kept {z0 : State} (s : State) (seq ch : Nat) (hz : Kept z0 s) : Kept z0 (State.bankCs s seq ch) := by
  refine hz.trans ?_
  unfold State.bankCs
  repeat' (first
    | with_reducible exact Kept.rfl | with_reducible assumption | with_reducible apply State.onCur_kept
    | with_reducible apply State.put_kept | with_reducible apply State.putB_kept | with_reducible apply State.wrN_kept
    | with_reducible apply Kept.ite_else | with_reducible apply Kept.ite_then | with_reducible apply Kept.ite
    | with_reducible refine Kept.of_snd (by assumption) ?_ | intro _ | dsimp only
    | fail_if_no_progress with_reducible apply Kept.mk' | split)

theorem State.showQ_kept {z0 : State} (s : State) (lo res : Nat) (q : Int) (hz : Kept z0 s) : Kept z0 (State.showQ s lo res q) := by
  refine hz.trans ?_
  unfold State.showQ
  repeat' (first
    | with_reducible exact Kept.rfl | with_reducible assumption | with_reducible apply State.put64_kept
    | with_reducible apply State.wrN_kept | with_reducible refine Kept.of_snd (by assumption) ?_ | intro _
    | dsimp only | fail_if_no_progress with_reducible apply Kept.mk' | split)

theorem State.coulombs_kept {z0 : State} (s : State) (dt : Nat) (hz : Kept z0 s) : Kept z0 (State.coulombs s dt) := by
  refine hz.trans ?_
  unfold State.coulombs
  repeat' (first
    | with_reducible exact Kept.rfl | with_reducible assumption | with_reducible apply State.onCur_kept
    | with_reducible apply State.put_kept | with_reducible apply State.showQ_kept | with_reducible apply Kept.ite_else
    | with_reducible apply Kept.ite_then | with_reducible apply Kept.ite
    | with_reducible refine Kept.of_snd (by assumption) ?_ | intro _ | dsimp only
    | fail_if_no_progress with_reducible apply Kept.mk' | split)

theorem State.mainPath_kept {z0 : State} (s : State) (burst : Bool) (hz : Kept z0 s) : Kept z0 (State.mainPath s burst) := by
  refine hz.trans ?_
  unfold State.mainPath
  repeat' (first
    | with_reducible exact Kept.rfl | with_reducible assumption | with_reducible apply State.onCur_kept
    | with_reducible apply State.put_kept | with_reducible apply Kept.ite_else | with_reducible apply Kept.ite_then
    | with_reducible apply Kept.ite | with_reducible refine Kept.of_snd (by assumption) ?_ | intro _ | dsimp only
    | fail_if_no_progress with_reducible apply Kept.mk' | split)

theorem State.currentBack_kept {z0 : State} (s : State) (hz : Kept z0 s) : Kept z0 (State.currentBack s) := by
  refine hz.trans ?_
  unfold State.currentBack
  repeat' (first
    | with_reducible exact Kept.rfl | with_reducible assumption | with_reducible apply State.endCond_kept
    | with_reducible apply State.onCur_kept | with_reducible apply State.releaseSrc_kept
    | with_reducible apply Kept.ite_else | with_reducible apply Kept.ite_then | with_reducible apply Kept.ite
    | with_reducible refine Kept.of_snd (by assumption) ?_ | intro _ | dsimp only
    | fail_if_no_progress with_reducible apply Kept.mk' | split)

theorem State.biasBlock_kept {z0 : State} (s : State) (hz : Kept z0 s) : Kept z0 (State.biasBlock s) := by
  refine hz.trans ?_
  unfold State.biasBlock
  repeat' (first
    | with_reducible exact Kept.rfl | with_reducible assumption | with_reducible apply State.endCond_kept
    | with_reducible apply State.faultD_kept | with_reducible apply State.onCur_kept
    | with_reducible apply State.put_kept | with_reducible apply State.putI_kept | with_reducible apply Kept.ite
    | with_reducible refine Kept.of_snd (by assumption) ?_ | intro _ | dsimp only
    | fail_if_no_progress with_reducible apply Kept.mk' | split)

theorem State.diversity_kept {z0 : State} (s : State) (hz : Kept z0 s) : Kept z0 (State.diversity s) := by
  refine hz.trans ?_
  unfold State.diversity
  repeat' (first
    | with_reducible exact Kept.rfl | with_reducible assumption | with_reducible apply State.biasBlock_kept
    | with_reducible apply State.bump_kept | with_reducible apply State.endCond_kept
    | with_reducible apply State.onCur_kept | with_reducible apply State.put_kept | with_reducible apply Kept.ite
    | with_reducible refine Kept.of_snd (by assumption) ?_ | intro _ | dsimp only
    | fail_if_no_progress with_reducible apply Kept.mk' | split)

theorem State.bankCurrent_kept {z0 : State} (s : State) (seq dt : Nat) (burst : Bool) (hz : Kept z0 s) : Kept z0 (State.bankCurrent s seq dt burst) := by
  refine hz.trans ?_
  unfold State.bankCurrent
  repeat' (first
    | with_reducible exact Kept.rfl | with_reducible assumption | with_reducible apply State.bankCs_kept
    | with_reducible apply State.coulombs_kept | with_reducible apply State.currentBack_kept
    | with_reducible apply State.diversity_kept | with_reducible apply State.mainPath_kept
    | with_reducible apply State.putB_kept | with_reducible refine Kept.of_snd (by assumption) ?_ | intro _
    | dsimp only | fail_if_no_progress with_reducible apply Kept.mk' | split)

theorem execNoValidCurrent_kept (s : State) : KeptO s (execNoValidCurrent s) := by
  unfold execNoValidCurrent
  repeat' (first
    | with_reducible exact Kept.rfl | with_reducible assumption | with_reducible apply State.collect_kept
    | with_reducible apply State.onCur_kept | with_reducible apply State.raiseSrc_kept
    | with_reducible apply KeptO.next | with_reducible apply KeptO.ite | with_reducible apply Kept.ite_else
    | with_reducible apply Kept.ite_then | with_reducible apply Kept.ite
    | with_reducible refine Kept.of_snd (by assumption) ?_ | intro _ | dsimp only
    | fail_if_no_progress with_reducible apply Kept.mk' | split)

theorem State.writeQctrl_kept {z0 : State} (s : State) (v : Nat) (hz : Kept z0 s) : Kept z0 (State.writeQctrl s v) := by
  refine hz.trans ?_
  unfold State.writeQctrl
  repeat' (first
    | with_reducible exact Kept.rfl | with_reducible assumption | with_reducible apply State.onCur_kept
    | with_reducible apply State.put_kept | with_reducible apply Kept.ite_else | with_reducible apply Kept.ite_then
    | with_reducible apply Kept.ite | with_reducible refine Kept.of_snd (by assumption) ?_ | intro _ | dsimp only
    | fail_if_no_progress with_reducible apply Kept.mk' | split)

theorem execQaccLoad_kept (i : Initiator) (v : Word) (s : State) : KeptO s (execQaccLoad i v s) := by
  unfold execQaccLoad
  repeat' (first
    | with_reducible exact Kept.rfl | with_reducible assumption | with_reducible apply State.writeQctrl_kept
    | with_reducible apply State.writeRow_kept | with_reducible apply KeptO.next | with_reducible apply KeptO.ite
    | with_reducible refine Kept.of_snd (by assumption) ?_ | intro _ | dsimp only
    | fail_if_no_progress with_reducible apply Kept.mk' | split)

theorem execQaccClr1_kept (i : Initiator) (v : Word) (s : State) : KeptO s (execQaccClr1 i v s) := by
  unfold execQaccClr1
  repeat' (first
    | with_reducible exact Kept.rfl | with_reducible assumption | with_reducible apply State.writeQctrl_kept
    | with_reducible apply State.writeRow_kept | with_reducible apply KeptO.next | with_reducible apply KeptO.ite
    | with_reducible refine Kept.of_snd (by assumption) ?_ | intro _ | dsimp only
    | fail_if_no_progress with_reducible apply Kept.mk' | split)

theorem execCurrentPathDisagreement_kept (s : State) : KeptO s (execCurrentPathDisagreement s) := by
  unfold execCurrentPathDisagreement
  repeat' (first
    | with_reducible exact Kept.rfl | with_reducible assumption | with_reducible apply State.faultD_kept
    | with_reducible apply State.onCur_kept | with_reducible apply State.put_kept | with_reducible apply KeptO.next
    | with_reducible apply KeptO.ite | with_reducible apply Kept.ite_else | with_reducible apply Kept.ite_then
    | with_reducible apply Kept.ite | with_reducible refine Kept.of_snd (by assumption) ?_ | intro _ | dsimp only
    | fail_if_no_progress with_reducible apply Kept.mk' | split)

theorem execDiversityBiasBlock_kept (s : State) : KeptO s (execDiversityBiasBlock s) := by
  unfold execDiversityBiasBlock
  repeat' (first
    | with_reducible exact Kept.rfl | with_reducible assumption | with_reducible apply State.biasBlock_kept
    | with_reducible apply KeptO.next | with_reducible apply KeptO.ite | with_reducible apply Kept.ite_else
    | with_reducible apply Kept.ite_then | with_reducible apply Kept.ite
    | with_reducible refine Kept.of_snd (by assumption) ?_ | intro _ | dsimp only
    | fail_if_no_progress with_reducible apply Kept.mk' | split)

theorem execZeroWindowChange_kept (inside : Bool) (s : State) : KeptO s (execZeroWindowChange inside s) := by
  unfold execZeroWindowChange
  repeat' (first
    | with_reducible exact Kept.rfl | with_reducible assumption | with_reducible apply State.putB_kept
    | with_reducible apply State.wakeRequest_kept | with_reducible apply KeptO.next | with_reducible apply KeptO.ite
    | with_reducible apply Kept.ite_else | with_reducible apply Kept.ite_then | with_reducible apply Kept.ite
    | with_reducible refine Kept.of_snd (by assumption) ?_ | intro _ | dsimp only
    | fail_if_no_progress with_reducible apply Kept.mk' | split)

theorem execShortCircuit_kept (negative : Bool) (s : State) : KeptO s (execShortCircuit negative s) := by
  unfold execShortCircuit
  repeat' (first
    | with_reducible exact Kept.rfl | with_reducible assumption | with_reducible apply State.bump_kept
    | with_reducible apply State.put_kept | with_reducible apply State.putB_kept
    | with_reducible apply State.raiseSrc_kept | with_reducible apply KeptO.next | with_reducible apply KeptO.ite
    | with_reducible apply Kept.ite_else | with_reducible apply Kept.ite_then | with_reducible apply Kept.ite
    | with_reducible refine Kept.of_snd (by assumption) ?_ | intro _ | dsimp only
    | fail_if_no_progress with_reducible apply Kept.mk' | split)

theorem execScQuiet_kept (s : State) : KeptO s (execScQuiet s) := by
  unfold execScQuiet
  repeat' (first
    | with_reducible exact Kept.rfl | with_reducible assumption | with_reducible apply State.put_kept
    | with_reducible apply KeptO.next | with_reducible apply KeptO.ite
    | with_reducible refine Kept.of_snd (by assumption) ?_ | intro _ | dsimp only
    | fail_if_no_progress with_reducible apply Kept.mk' | split)

theorem State.clearTrip_kept {z0 : State} (s : State) (hz : Kept z0 s) : Kept z0 (State.clearTrip s) := by
  refine hz.trans ?_
  unfold State.clearTrip
  repeat' (first
    | with_reducible exact Kept.rfl | with_reducible assumption | with_reducible apply State.put_kept
    | with_reducible apply State.withdraw_kept | with_reducible apply Kept.ite_else
    | with_reducible apply Kept.ite_then | with_reducible apply Kept.ite
    | with_reducible refine Kept.of_snd (by assumption) ?_ | intro _ | dsimp only
    | fail_if_no_progress with_reducible apply Kept.mk' | split)

theorem execScTripClear_kept (i : Initiator) (_v : Word) (s : State) : KeptO s (execScTripClear i _v s) := by
  unfold execScTripClear
  repeat' (first
    | with_reducible exact Kept.rfl | with_reducible assumption | with_reducible apply State.clearTrip_kept
    | with_reducible apply State.ifPrivileged_kept | with_reducible apply State.writeRow_kept
    | with_reducible apply KeptO.next | with_reducible apply KeptO.ite
    | with_reducible refine Kept.of_snd (by assumption) ?_ | intro _ | dsimp only
    | fail_if_no_progress with_reducible apply Kept.mk' | split)

theorem execScSelfTest_kept (trips : Bool) (s : State) : KeptO s (execScSelfTest trips s) := by
  unfold execScSelfTest
  repeat' (first
    | with_reducible exact Kept.rfl | with_reducible assumption | with_reducible apply State.bump_kept
    | with_reducible apply State.faultU_kept | with_reducible apply State.putB_kept
    | with_reducible apply State.reach_kept | with_reducible apply KeptO.next | with_reducible apply KeptO.ite
    | with_reducible apply Kept.ite | with_reducible apply Kept.getD
    | with_reducible refine Kept.of_snd (by assumption) ?_ | intro _ | dsimp only
    | fail_if_no_progress with_reducible apply Kept.mk' | split)

end Sys2Proof.Machine
end

