-- ==== Sys2Proof/Laws/KeptAuxiliary.lean ====
section
/-! SUPPORT. Every operation of Machine/Auxiliary.lean keeps what `Kept` says. -/

set_option linter.unusedTactic false
set_option linter.unreachableTactic false
set_option linter.unusedVariables false

namespace Sys2Proof.Machine

set_option Elab.async false

theorem State.onInp_kept {z0 : State} (s : State) (i : Nat) (f : InSt → InSt) (hz : Kept z0 s) : Kept z0 (State.onInp s i f) := by
  refine hz.trans ?_
  unfold State.onInp
  repeat' (first
    | with_reducible exact Kept.rfl | with_reducible assumption | with_reducible refine Kept.of_snd (by assumption) ?_
    | intro _ | dsimp only | fail_if_no_progress with_reducible apply Kept.mk' | split)

theorem State.onDie_kept {z0 : State} (s : State) (d : Nat) (f : DieSt → DieSt) (hz : Kept z0 s) : Kept z0 (State.onDie s d f) := by
  refine hz.trans ?_
  unfold State.onDie
  repeat' (first
    | with_reducible exact Kept.rfl | with_reducible assumption | with_reducible refine Kept.of_snd (by assumption) ?_
    | intro _ | dsimp only | fail_if_no_progress with_reducible apply Kept.mk' | split)

theorem State.takeExtreme_kept {z0 : State} (s : State) (f new : Fld) (sgn x : Int) (hz : Kept z0 s) : Kept z0 (State.takeExtreme s f new sgn x) := by
  refine hz.trans ?_
  unfold State.takeExtreme
  repeat' (first
    | with_reducible exact Kept.rfl | with_reducible assumption | with_reducible apply State.put_kept
    | with_reducible apply State.putI_kept | with_reducible apply Kept.ite
    | with_reducible refine Kept.of_snd (by assumption) ?_ | intro _ | dsimp only
    | fail_if_no_progress with_reducible apply Kept.mk' | split)

theorem State.goodValue_kept {z0 : State} (s : State) (i : Nat) (x : Int) (stamp : Nat) (therm : Bool) (hz : Kept z0 s) : Kept z0 (State.goodValue s i x stamp therm) := by
  refine hz.trans ?_
  unfold State.goodValue
  repeat' (first
    | with_reducible exact Kept.rfl | with_reducible assumption | with_reducible apply State.onInp_kept
    | with_reducible apply State.takeExtreme_kept | with_reducible apply Kept.ite
    | with_reducible refine Kept.of_snd (by assumption) ?_ | intro _ | dsimp only
    | fail_if_no_progress with_reducible apply Kept.mk' | split)

theorem State.rollMeans_kept {z0 : State} (s : State) (t : Nat) (hz : Kept z0 s) : Kept z0 (State.rollMeans s t) := by
  refine hz.trans ?_
  unfold State.rollMeans
  repeat' (first
    | with_reducible exact Kept.rfl | with_reducible assumption | with_reducible apply State.onInp_kept
    | with_reducible apply Kept.ite | with_reducible apply Kept.foldl
    | with_reducible refine Kept.of_snd (by assumption) ?_ | intro _ | dsimp only
    | fail_if_no_progress with_reducible apply Kept.mk' | split)

theorem State.endWindow_kept {z0 : State} (s : State) (i : Nat) (hz : Kept z0 s) : Kept z0 (State.endWindow s i) := by
  refine hz.trans ?_
  unfold State.endWindow
  repeat' (first
    | with_reducible exact Kept.rfl | with_reducible assumption | with_reducible apply State.endCond_kept
    | with_reducible apply State.onInp_kept | with_reducible apply Kept.ite_else | with_reducible apply Kept.ite_then
    | with_reducible apply Kept.ite | with_reducible refine Kept.of_snd (by assumption) ?_ | intro _ | dsimp only
    | fail_if_no_progress with_reducible apply Kept.mk' | split)

theorem State.thermConv_kept {z0 : State} (s : State) (i : Nat) (v t : Int) (refBad : Bool) (stamp : Nat) (hz : Kept z0 s) : Kept z0 (State.thermConv s i v t refBad stamp) := by
  refine hz.trans ?_
  unfold State.thermConv
  repeat' (first
    | with_reducible exact Kept.rfl | with_reducible assumption | with_reducible apply State.endCond_kept
    | with_reducible apply State.faultD_kept | with_reducible apply State.goodValue_kept
    | with_reducible apply State.onInp_kept | with_reducible apply Kept.ite
    | with_reducible refine Kept.of_snd (by assumption) ?_ | intro _ | dsimp only
    | fail_if_no_progress with_reducible apply Kept.mk' | split)

theorem State.absConv_kept {z0 : State} (s : State) (i : Nat) (v : Int) (stamp : Nat) (hz : Kept z0 s) : Kept z0 (State.absConv s i v stamp) := by
  refine hz.trans ?_
  unfold State.absConv
  repeat' (first
    | with_reducible exact Kept.rfl | with_reducible assumption | with_reducible apply State.endCond_kept
    | with_reducible apply State.faultD_kept | with_reducible apply State.goodValue_kept
    | with_reducible apply State.onInp_kept | with_reducible apply Kept.ite
    | with_reducible refine Kept.of_snd (by assumption) ?_ | intro _ | dsimp only
    | fail_if_no_progress with_reducible apply Kept.mk' | split)

theorem State.auxConv_kept {z0 : State} (s : State) (i code : Nat) (refBad : Bool) (stamp : Nat) (hz : Kept z0 s) : Kept z0 (State.auxConv s i code refBad stamp) := by
  refine hz.trans ?_
  unfold State.auxConv
  repeat' (first
    | with_reducible exact Kept.rfl | with_reducible assumption | with_reducible apply State.absConv_kept
    | with_reducible apply State.endWindow_kept | with_reducible apply State.fresh_kept
    | with_reducible apply State.onInp_kept | with_reducible apply State.thermConv_kept
    | with_reducible apply Kept.ite | with_reducible refine Kept.of_snd (by assumption) ?_ | intro _ | dsimp only
    | fail_if_no_progress with_reducible apply Kept.mk' | split)

theorem State.dieConv_kept {z0 : State} (s : State) (d : Nat) (r : DieReading) (hz : Kept z0 s) : Kept z0 (State.dieConv s d r) := by
  refine hz.trans ?_
  unfold State.dieConv
  repeat' (first
    | with_reducible exact Kept.rfl | with_reducible assumption | with_reducible apply State.bump_kept
    | with_reducible apply State.endCond_kept | with_reducible apply State.faultD_kept
    | with_reducible apply State.onDie_kept | with_reducible apply State.takeExtreme_kept
    | with_reducible apply Kept.ite | with_reducible refine Kept.of_snd (by assumption) ?_ | intro _ | dsimp only
    | fail_if_no_progress with_reducible apply Kept.mk' | split)

theorem State.followTs_kept {z0 : State} (s : State) (hz : Kept z0 s) : Kept z0 (State.followTs s) := by
  refine hz.trans ?_
  unfold State.followTs
  repeat' (first
    | with_reducible exact Kept.rfl | with_reducible assumption | with_reducible apply Kept.ite_else
    | with_reducible apply Kept.ite_then | with_reducible apply Kept.ite
    | with_reducible refine Kept.of_snd (by assumption) ?_ | intro _ | dsimp only
    | fail_if_no_progress with_reducible apply Kept.mk' | split)

theorem execAuxScanStart_kept (s : State) : KeptO s (execAuxScanStart s) := by
  unfold execAuxScanStart
  repeat' (first
    | with_reducible exact Kept.rfl | with_reducible assumption | with_reducible apply State.reach_kept
    | with_reducible apply KeptO.next | with_reducible apply KeptO.ite | with_reducible apply Kept.ite_else
    | with_reducible apply Kept.ite_then | with_reducible apply Kept.ite
    | with_reducible refine Kept.of_snd (by assumption) ?_ | intro _ | dsimp only
    | fail_if_no_progress with_reducible apply Kept.mk' | split)

theorem State.scanDone_kept {z0 : State} (s : State) (r : ScanResult) (start : Nat) (hz : Kept z0 s) : Kept z0 (State.scanDone s r start) := by
  refine hz.trans ?_
  unfold State.scanDone
  repeat' (first
    | with_reducible exact Kept.rfl | with_reducible assumption | with_reducible apply State.auxConv_kept
    | with_reducible apply State.dieConv_kept | with_reducible apply State.endCond_kept
    | with_reducible apply State.faultD_kept | with_reducible apply State.followTs_kept
    | with_reducible apply State.onDie_kept | with_reducible apply State.putB_kept
    | with_reducible apply State.rollMeans_kept | with_reducible apply State.wrap_kept | with_reducible apply Kept.ite
    | with_reducible apply Kept.foldl | with_reducible refine Kept.of_snd (by assumption) ?_ | intro _ | dsimp only
    | fail_if_no_progress with_reducible apply Kept.mk' | split)

theorem State.calScan_kept {z0 : State} (s : State) (hz : Kept z0 s) : Kept z0 (State.calScan s) := by
  refine hz.trans ?_
  unfold State.calScan
  repeat' (first
    | with_reducible exact Kept.rfl | with_reducible assumption | with_reducible apply Kept.ite_else
    | with_reducible apply Kept.ite_then | with_reducible apply Kept.ite
    | with_reducible refine Kept.of_snd (by assumption) ?_ | intro _ | dsimp only
    | fail_if_no_progress with_reducible apply Kept.mk' | split)

theorem execAuxScanComplete_kept (r : ScanResult) (s : State) : KeptO s (execAuxScanComplete r s) := by
  unfold execAuxScanComplete
  repeat' (first
    | with_reducible exact Kept.rfl | with_reducible assumption | with_reducible apply State.calScan_kept
    | with_reducible apply State.reach_kept | with_reducible apply State.scanDone_kept
    | with_reducible apply KeptO.next | with_reducible apply KeptO.ite
    | with_reducible refine Kept.of_snd (by assumption) ?_ | intro _ | dsimp only
    | fail_if_no_progress with_reducible apply Kept.mk' | split)

theorem State.bankAux_kept {z0 : State} (s : State) (hz : Kept z0 s) : Kept z0 (State.bankAux s) := by
  refine hz.trans ?_
  unfold State.bankAux
  repeat' (first
    | with_reducible exact Kept.rfl | with_reducible assumption | with_reducible apply State.put_kept
    | with_reducible apply State.putB_kept | with_reducible apply State.wrN_kept | with_reducible apply Kept.foldl
    | with_reducible refine Kept.of_snd (by assumption) ?_ | intro _ | dsimp only
    | fail_if_no_progress with_reducible apply Kept.mk' | split)

theorem State.limitEvent_kept {z0 : State} (s : State) (kind i : Nat) (rel : Bool) (hz : Kept z0 s) : Kept z0 (State.limitEvent s kind i rel) := by
  refine hz.trans ?_
  unfold State.limitEvent
  repeat' (first
    | with_reducible exact Kept.rfl | with_reducible assumption | with_reducible apply State.put_kept
    | with_reducible apply State.put64_kept | with_reducible apply State.wrN_kept
    | with_reducible refine Kept.of_snd (by assumption) ?_ | intro _ | dsimp only
    | fail_if_no_progress with_reducible apply Kept.mk' | split)

theorem State.coldCharge_kept {z0 : State} (s : State) (on : Bool) (hz : Kept z0 s) : Kept z0 (State.coldCharge s on) := by
  refine hz.trans ?_
  unfold State.coldCharge
  repeat' (first
    | with_reducible exact Kept.rfl | with_reducible assumption | with_reducible apply State.psfEvent_kept
    | with_reducible apply State.putB_kept | with_reducible apply State.releaseSrc_kept
    | with_reducible apply Kept.ite | with_reducible refine Kept.of_snd (by assumption) ?_ | intro _ | dsimp only
    | fail_if_no_progress with_reducible apply Kept.mk' | split)

theorem State.limitSet_kept {z0 : State} (s : State) (kind i : Nat) (on : Bool) (hz : Kept z0 s) : Kept z0 (State.limitSet s kind i on) := by
  refine hz.trans ?_
  unfold State.limitSet
  repeat' (first
    | with_reducible exact Kept.rfl | with_reducible assumption | with_reducible apply State.bump_kept
    | with_reducible apply State.coldCharge_kept | with_reducible apply State.limitEvent_kept
    | with_reducible apply State.putB_kept | with_reducible apply State.putBit_kept
    | with_reducible apply State.raiseSrc_kept | with_reducible apply State.releaseSrc_kept
    | with_reducible apply Kept.ite | with_reducible refine Kept.of_snd (by assumption) ?_ | intro _ | dsimp only
    | fail_if_no_progress with_reducible apply Kept.mk' | split)

theorem State.limitCounts_kept {z0 : State} (s : State) (kind i cnt : Nat) (hit safe : Bool) (hz : Kept z0 s) : Kept z0 (State.limitCounts s kind i cnt hit safe) := by
  refine hz.trans ?_
  unfold State.limitCounts
  repeat' (first
    | with_reducible exact Kept.rfl | with_reducible assumption | with_reducible apply State.limitSet_kept
    | with_reducible apply State.onInp_kept | with_reducible apply Kept.ite
    | with_reducible refine Kept.of_snd (by assumption) ?_ | intro _ | dsimp only
    | fail_if_no_progress with_reducible apply Kept.mk' | split)

theorem State.releaseKept_kept {z0 : State} (s : State) (kind : Nat) (hz : Kept z0 s) : Kept z0 (State.releaseKept s kind) := by
  refine hz.trans ?_
  unfold State.releaseKept
  repeat' (first
    | with_reducible exact Kept.rfl | with_reducible assumption | with_reducible apply State.coldCharge_kept
    | with_reducible apply State.releaseSrc_kept | with_reducible apply Kept.ite
    | with_reducible refine Kept.of_snd (by assumption) ?_ | intro _ | dsimp only
    | fail_if_no_progress with_reducible apply Kept.mk' | split)

theorem State.tempLimits_kept {z0 : State} (s : State) (hz : Kept z0 s) : Kept z0 (State.tempLimits s) := by
  refine hz.trans ?_
  unfold State.tempLimits
  repeat' (first
    | with_reducible exact Kept.rfl | with_reducible assumption | with_reducible apply State.limitCounts_kept
    | with_reducible apply State.onInp_kept | with_reducible apply State.releaseKept_kept
    | with_reducible apply Kept.ite_else | with_reducible apply Kept.ite_then | with_reducible apply Kept.ite
    | with_reducible apply Kept.foldl | with_reducible refine Kept.of_snd (by assumption) ?_ | intro _ | dsimp only
    | fail_if_no_progress with_reducible apply Kept.mk' | split)

theorem State.rateOne_kept {z0 : State} (s : State) (i : Nat) (hz : Kept z0 s) : Kept z0 (State.rateOne s i) := by
  refine hz.trans ?_
  unfold State.rateOne
  repeat' (first
    | with_reducible exact Kept.rfl | with_reducible assumption | with_reducible apply State.limitCounts_kept
    | with_reducible apply State.put_kept | with_reducible apply State.putI_kept | with_reducible apply Kept.ite
    | with_reducible refine Kept.of_snd (by assumption) ?_ | intro _ | dsimp only
    | fail_if_no_progress with_reducible apply Kept.mk' | split)

theorem State.rateEval_kept {z0 : State} (s : State) (hz : Kept z0 s) : Kept z0 (State.rateEval s) := by
  refine hz.trans ?_
  unfold State.rateEval
  repeat' (first
    | with_reducible exact Kept.rfl | with_reducible assumption | with_reducible apply State.rateOne_kept
    | with_reducible apply State.rollMeans_kept | with_reducible apply Kept.ite | with_reducible apply Kept.foldl
    | with_reducible refine Kept.of_snd (by assumption) ?_ | intro _ | dsimp only
    | fail_if_no_progress with_reducible apply Kept.mk' | split)

end Sys2Proof.Machine
end

