-- ==== Sys2Proof/Laws/KeptFerry.lean ====
section
/-! SUPPORT. Every operation of Machine/Ferry.lean keeps what `Kept` says. -/

set_option linter.unusedTactic false
set_option linter.unreachableTactic false
set_option linter.unusedVariables false

namespace Sys2Proof.Machine

set_option Elab.async false

theorem State.stageWrite_kept {z0 : State} (s : State) (e a : Nat) (v : Word) (hz : Kept z0 s) : Kept z0 (State.stageWrite s e a v) := by
  refine hz.trans ?_
  unfold State.stageWrite
  repeat' (first
    | with_reducible exact Kept.rfl | with_reducible assumption | with_reducible apply State.onEng_kept
    | with_reducible apply State.put_kept | with_reducible apply Kept.ite
    | with_reducible refine Kept.of_snd (by assumption) ?_ | intro _ | dsimp only
    | fail_if_no_progress with_reducible apply Kept.mk' | split)

theorem State.orStaged_kept {z0 : State} (s : State) (i : Initiator) (a : Nat) (v : Word) (act : State → State) (hz : Kept z0 s) (hact : ∀ t, Kept t (act t)) : Kept z0 (State.orStaged s i a v act) := by
  refine hz.trans ?_
  unfold State.orStaged
  repeat' (first
    | with_reducible exact Kept.rfl | with_reducible assumption | with_reducible refine Kept.trans ?_ (hact _)
    | with_reducible apply State.emit_kept | with_reducible apply State.refused_kept
    | with_reducible apply State.stageWrite_kept | with_reducible apply Kept.ite
    | with_reducible refine Kept.of_snd (by assumption) ?_ | intro _ | dsimp only
    | fail_if_no_progress with_reducible apply Kept.mk' | split)

theorem State.loseExcitation_kept {z0 : State} (s : State) (p : Nat) (hz : Kept z0 s) : Kept z0 (State.loseExcitation s p) := by
  refine hz.trans ?_
  unfold State.loseExcitation
  repeat' (first
    | with_reducible exact Kept.rfl | with_reducible assumption | with_reducible apply State.bump_kept
    | with_reducible apply State.dropExcitation_kept | with_reducible apply Kept.ite
    | with_reducible refine Kept.of_snd (by assumption) ?_ | intro _ | dsimp only
    | fail_if_no_progress with_reducible apply Kept.mk' | split)

theorem State.noteClips_kept {z0 : State} (s : State) (p m : Nat) (hz : Kept z0 s) : Kept z0 (State.noteClips s p m) := by
  refine hz.trans ?_
  unfold State.noteClips
  repeat' (first
    | with_reducible exact Kept.rfl | with_reducible assumption | with_reducible apply State.onPhase_kept
    | with_reducible refine Kept.of_snd (by assumption) ?_ | intro _ | dsimp only
    | fail_if_no_progress with_reducible apply Kept.mk' | split)

theorem State.showAct_kept {z0 : State} (s : State) (p : Nat) (hz : Kept z0 s) : Kept z0 (State.showAct s p) := by
  refine hz.trans ?_
  unfold State.showAct
  repeat' (first
    | with_reducible exact Kept.rfl | with_reducible assumption | with_reducible apply State.put_kept
    | with_reducible apply State.putB_kept | with_reducible apply Kept.ite_else | with_reducible apply Kept.ite_then
    | with_reducible apply Kept.ite | with_reducible refine Kept.of_snd (by assumption) ?_ | intro _ | dsimp only
    | fail_if_no_progress with_reducible apply Kept.mk' | split)

theorem State.drivePhase_kept {z0 : State} (s : State) (p : Nat) (hz : Kept z0 s) : Kept z0 (State.drivePhase s p) := by
  refine hz.trans ?_
  unfold State.drivePhase
  repeat' (first
    | with_reducible exact Kept.rfl | with_reducible assumption | with_reducible apply State.deselect_kept
    | with_reducible apply State.dropExcitation_kept | with_reducible apply State.ferryMark_kept
    | with_reducible apply State.noteClips_kept | with_reducible apply State.put_kept
    | with_reducible apply State.putB_kept | with_reducible apply State.setPhase_kept
    | with_reducible apply State.showAct_kept | with_reducible apply Kept.ite
    | with_reducible refine Kept.of_snd (by assumption) ?_ | intro _ | dsimp only
    | fail_if_no_progress with_reducible apply Kept.mk' | split)

theorem State.applyPhase_kept {z0 : State} (s : State) (p : Nat) (hz : Kept z0 s) : Kept z0 (State.applyPhase s p) := by
  refine hz.trans ?_
  unfold State.applyPhase
  repeat' (first
    | with_reducible exact Kept.rfl | with_reducible assumption | with_reducible apply State.drivePhase_kept
    | with_reducible apply State.loseExcitation_kept | with_reducible refine Kept.of_snd (by assumption) ?_ | intro _
    | dsimp only | fail_if_no_progress with_reducible apply Kept.mk' | split)

theorem State.ferryRefresh_kept {z0 : State} (s : State) (hz : Kept z0 s) : Kept z0 (State.ferryRefresh s) := by
  refine hz.trans ?_
  unfold State.ferryRefresh
  repeat' (first
    | with_reducible exact Kept.rfl | with_reducible assumption | with_reducible apply State.applyPhase_kept
    | with_reducible apply State.putB_kept | with_reducible apply Kept.foldl
    | with_reducible refine Kept.of_snd (by assumption) ?_ | intro _ | dsimp only
    | fail_if_no_progress with_reducible apply Kept.mk' | split)

theorem State.beginChange_kept {z0 : State} (s : State) (p j : Nat) (keep : Bool) (hz : Kept z0 s) : Kept z0 (State.beginChange s p j keep) := by
  refine hz.trans ?_
  unfold State.beginChange
  repeat' (first
    | with_reducible exact Kept.rfl | with_reducible assumption | with_reducible apply State.bump_kept
    | with_reducible apply State.deselect_kept | with_reducible apply State.onPhase_kept
    | with_reducible apply State.put_kept | with_reducible apply State.setPhase_kept
    | with_reducible refine Kept.of_snd (by assumption) ?_ | intro _ | dsimp only
    | fail_if_no_progress with_reducible apply Kept.mk' | split)

theorem State.slotTimer_kept {z0 : State} (s : State) (p : Nat) (hz : Kept z0 s) : Kept z0 (State.slotTimer s p) := by
  refine hz.trans ?_
  unfold State.slotTimer
  repeat' (first
    | with_reducible exact Kept.rfl | with_reducible assumption | with_reducible apply State.onPhase_kept
    | with_reducible refine Kept.of_snd (by assumption) ?_ | intro _ | dsimp only
    | fail_if_no_progress with_reducible apply Kept.mk' | split)

theorem State.selectPhase_kept {z0 : State} (s : State) (p : Nat) (hz : Kept z0 s) : Kept z0 (State.selectPhase s p) := by
  refine hz.trans ?_
  unfold State.selectPhase
  repeat' (first
    | with_reducible exact Kept.rfl | with_reducible assumption | with_reducible apply State.beginChange_kept
    | with_reducible apply State.deselect_kept | with_reducible apply State.onPhase_kept
    | with_reducible apply State.setPhase_kept | with_reducible apply State.slotTimer_kept
    | with_reducible apply Kept.ite | with_reducible refine Kept.of_snd (by assumption) ?_ | intro _ | dsimp only
    | fail_if_no_progress with_reducible apply Kept.mk' | split)

theorem State.fallbackTick_kept {z0 : State} (s : State) (p : Nat) (hz : Kept z0 s) : Kept z0 (State.fallbackTick s p) := by
  refine hz.trans ?_
  unfold State.fallbackTick
  repeat' (first
    | with_reducible exact Kept.rfl | with_reducible assumption | with_reducible apply State.deselect_kept
    | with_reducible apply State.fallbackNext_kept | with_reducible apply State.fresh_kept
    | with_reducible apply State.setPhase_kept | with_reducible apply Kept.ite
    | with_reducible refine Kept.of_snd (by assumption) ?_ | intro _ | dsimp only
    | fail_if_no_progress with_reducible apply Kept.mk' | split)

theorem State.countClips_kept {z0 : State} (s : State) (p : Nat) (hz : Kept z0 s) : Kept z0 (State.countClips s p) := by
  refine hz.trans ?_
  unfold State.countClips
  repeat' (first
    | with_reducible exact Kept.rfl | with_reducible assumption | with_reducible apply State.bump_kept
    | with_reducible apply State.onPhase_kept | with_reducible apply Kept.ite_else
    | with_reducible apply Kept.ite_then | with_reducible apply Kept.ite
    | with_reducible refine Kept.of_snd (by assumption) ?_ | intro _ | dsimp only
    | fail_if_no_progress with_reducible apply Kept.mk' | split)

theorem State.countAllClips_kept {z0 : State} (s : State) (hz : Kept z0 s) : Kept z0 (State.countAllClips s) := by
  refine hz.trans ?_
  unfold State.countAllClips
  repeat' (first
    | with_reducible exact Kept.rfl | with_reducible assumption | with_reducible apply State.bump_kept
    | with_reducible apply State.countClips_kept | with_reducible apply Kept.ite_else
    | with_reducible apply Kept.ite_then | with_reducible apply Kept.ite | with_reducible apply Kept.foldl
    | with_reducible refine Kept.of_snd (by assumption) ?_ | intro _ | dsimp only
    | fail_if_no_progress with_reducible apply Kept.mk' | split)

theorem State.takeTarget_kept {z0 : State} (s : State) (c : Nat) (hz : Kept z0 s) : Kept z0 (State.takeTarget s c) := by
  refine hz.trans ?_
  unfold State.takeTarget
  repeat' (first
    | with_reducible exact Kept.rfl | with_reducible assumption | with_reducible apply State.onCell_kept
    | with_reducible apply State.showCell_kept | with_reducible refine Kept.of_snd (by assumption) ?_ | intro _
    | dsimp only | fail_if_no_progress with_reducible apply Kept.mk' | split)

theorem State.promoted_kept {z0 : State} (p : Nat) (s : State) (hz : Kept z0 s) : Kept z0 (State.promoted p s) := by
  refine hz.trans ?_
  unfold State.promoted
  repeat' (first
    | with_reducible exact Kept.rfl | with_reducible assumption | with_reducible apply State.promoteAll_kept
    | with_reducible refine Kept.of_snd (by assumption) ?_ | intro _ | dsimp only
    | fail_if_no_progress with_reducible apply Kept.mk' | split)

theorem State.boundaryPhase_kept {z0 : State} (s : State) (p : Nat) (hz : Kept z0 s) : Kept z0 (State.boundaryPhase s p) := by
  refine hz.trans ?_
  unfold State.boundaryPhase
  repeat' (first
    | with_reducible exact Kept.rfl | with_reducible assumption | with_reducible apply State.account_kept
    | with_reducible apply State.applyPhase_kept | with_reducible apply State.fallbackTick_kept
    | with_reducible apply State.onPhase_kept | with_reducible apply State.promoted_kept
    | with_reducible apply State.put_kept | with_reducible apply State.putBit_kept
    | with_reducible apply State.selectPhase_kept | with_reducible apply Kept.ite
    | with_reducible refine Kept.of_snd (by assumption) ?_ | intro _ | dsimp only
    | fail_if_no_progress with_reducible apply Kept.mk' | split)

theorem State.ferryTick_kept {z0 : State} (s : State) (hz : Kept z0 s) : Kept z0 (State.ferryTick s) := by
  refine hz.trans ?_
  unfold State.ferryTick
  repeat' (first
    | with_reducible exact Kept.rfl | with_reducible assumption | with_reducible apply State.account_kept
    | with_reducible apply State.boundaryPhase_kept | with_reducible apply State.countAllClips_kept
    | with_reducible apply State.takeTarget_kept | with_reducible apply Kept.ite_else
    | with_reducible apply Kept.ite_then | with_reducible apply Kept.ite | with_reducible apply Kept.foldl
    | with_reducible refine Kept.of_snd (by assumption) ?_ | intro _ | dsimp only
    | fail_if_no_progress with_reducible apply Kept.mk' | split)

theorem State.balCell_kept {z0 : State} (s : State) (c : Nat) (hz : Kept z0 s) : Kept z0 (State.balCell s c) := by
  refine hz.trans ?_
  unfold State.balCell
  repeat' (first
    | with_reducible exact Kept.rfl | with_reducible assumption | with_reducible apply State.bump_kept
    | with_reducible apply State.onCell_kept | with_reducible apply State.putB_kept | with_reducible apply Kept.ite
    | with_reducible refine Kept.of_snd (by assumption) ?_ | intro _ | dsimp only
    | fail_if_no_progress with_reducible apply Kept.mk' | split)

theorem State.efficiency_kept {z0 : State} (s : State) (hz : Kept z0 s) : Kept z0 (State.efficiency s) := by
  refine hz.trans ?_
  unfold State.efficiency
  repeat' (first
    | with_reducible exact Kept.rfl | with_reducible assumption | with_reducible apply State.put_kept
    | with_reducible apply Kept.ite | with_reducible refine Kept.of_snd (by assumption) ?_ | intro _ | dsimp only
    | fail_if_no_progress with_reducible apply Kept.mk' | split)

theorem State.bankFerry_kept {z0 : State} (s : State) (hz : Kept z0 s) : Kept z0 (State.bankFerry s) := by
  refine hz.trans ?_
  unfold State.bankFerry
  repeat' (first
    | with_reducible exact Kept.rfl | with_reducible assumption | with_reducible apply State.balCell_kept
    | with_reducible apply State.efficiency_kept | with_reducible apply State.ferryRefresh_kept
    | with_reducible apply State.putI_kept | with_reducible apply Kept.ite_else | with_reducible apply Kept.ite_then
    | with_reducible apply Kept.ite | with_reducible apply Kept.foldl
    | with_reducible refine Kept.of_snd (by assumption) ?_ | intro _ | dsimp only
    | fail_if_no_progress with_reducible apply Kept.mk' | split)

theorem State.ferryStrobe_kept {z0 : State} (s : State) (x : StrobeSample) (hz : Kept z0 s) : Kept z0 (State.ferryStrobe s x) := by
  refine hz.trans ?_
  unfold State.ferryStrobe
  repeat' (first
    | with_reducible exact Kept.rfl | with_reducible assumption | with_reducible apply State.onPhase_kept
    | with_reducible apply State.put_kept | with_reducible apply Kept.ite_else | with_reducible apply Kept.ite_then
    | with_reducible apply Kept.ite | with_reducible apply Kept.foldl
    | with_reducible refine Kept.of_snd (by assumption) ?_ | intro _ | dsimp only
    | fail_if_no_progress with_reducible apply Kept.mk' | split)

theorem execSelectorBreakEnd_kept (p : Fin 8) (busLow busHigh : BitVec 16) (s : State) : KeptO s (execSelectorBreakEnd p busLow busHigh s) := by
  unfold execSelectorBreakEnd
  repeat' (first
    | with_reducible exact Kept.rfl | with_reducible assumption | with_reducible apply State.account_kept
    | with_reducible apply State.applyPhase_kept | with_reducible apply State.onPhase_kept
    | with_reducible apply State.phaseFault_kept | with_reducible apply State.put_kept
    | with_reducible apply KeptO.next | with_reducible apply KeptO.ite | with_reducible apply Kept.ite
    | with_reducible refine Kept.of_snd (by assumption) ?_ | intro _ | dsimp only
    | fail_if_no_progress with_reducible apply Kept.mk' | split)

theorem execGroupBusNotDischarged_kept (p : Fin 8) (s : State) : KeptO s (execGroupBusNotDischarged p s) := by
  unfold execGroupBusNotDischarged
  repeat' (first
    | with_reducible exact Kept.rfl | with_reducible assumption | with_reducible apply State.phaseFault_kept
    | with_reducible apply State.put_kept | with_reducible apply State.reach_kept | with_reducible apply KeptO.next
    | with_reducible apply KeptO.ite | with_reducible refine Kept.of_snd (by assumption) ?_ | intro _ | dsimp only
    | fail_if_no_progress with_reducible apply Kept.mk' | split)

theorem State.scanPhase_kept {z0 : State} (s : State) (p : Nat) (bus : Vector (BitVec 16) 8) (hz : Kept z0 s) : Kept z0 (State.scanPhase s p bus) := by
  refine hz.trans ?_
  unfold State.scanPhase
  repeat' (first
    | with_reducible exact Kept.rfl | with_reducible assumption | with_reducible apply State.bump_kept
    | with_reducible apply State.deselect_kept | with_reducible apply State.onPhase_kept
    | with_reducible apply State.phaseFault_kept | with_reducible apply Kept.ite
    | with_reducible refine Kept.of_snd (by assumption) ?_ | intro _ | dsimp only
    | fail_if_no_progress with_reducible apply Kept.mk' | split)

theorem State.reselect_kept {z0 : State} (s : State) (p j : Nat) (keep : Bool) (hz : Kept z0 s) : Kept z0 (State.reselect s p j keep) := by
  refine hz.trans ?_
  unfold State.reselect
  repeat' (first
    | with_reducible exact Kept.rfl | with_reducible assumption | with_reducible apply State.onPhase_kept
    | with_reducible apply State.setPhase_kept | with_reducible refine Kept.of_snd (by assumption) ?_ | intro _
    | dsimp only | fail_if_no_progress with_reducible apply Kept.mk' | split)

theorem execSelectorScan_kept (p : Fin 8) (bus : Vector (BitVec 16) 8) (s : State) : KeptO s (execSelectorScan p bus s) := by
  unfold execSelectorScan
  repeat' (first
    | with_reducible exact Kept.rfl | with_reducible assumption | with_reducible apply State.applyPhase_kept
    | with_reducible apply State.reselect_kept | with_reducible apply State.scanPhase_kept
    | with_reducible apply State.setPhase_kept | with_reducible apply KeptO.next | with_reducible apply KeptO.ite
    | with_reducible apply Kept.ite | with_reducible refine Kept.of_snd (by assumption) ?_ | intro _ | dsimp only
    | fail_if_no_progress with_reducible apply Kept.mk' | split)

theorem execSlotEnd_kept (p : Fin 8) (s : State) : KeptO s (execSlotEnd p s) := by
  unfold execSlotEnd
  repeat' (first
    | with_reducible exact Kept.rfl | with_reducible assumption | with_reducible apply State.applyPhase_kept
    | with_reducible apply State.beginChange_kept | with_reducible apply State.deselect_kept
    | with_reducible apply State.fallbackNext_kept | with_reducible apply State.onPhase_kept
    | with_reducible apply State.setPhase_kept | with_reducible apply KeptO.next | with_reducible apply KeptO.ite
    | with_reducible apply Kept.ite_else | with_reducible apply Kept.ite_then | with_reducible apply Kept.ite
    | with_reducible refine Kept.of_snd (by assumption) ?_ | intro _ | dsimp only
    | fail_if_no_progress with_reducible apply Kept.mk' | split)

theorem State.writePhaseTest_kept {z0 : State} (s : State) (p : Nat) (i : Initiator) (v : Nat) (hz : Kept z0 s) : Kept z0 (State.writePhaseTest s p i v) := by
  refine hz.trans ?_
  unfold State.writePhaseTest
  repeat' (first
    | with_reducible exact Kept.rfl | with_reducible assumption | with_reducible apply State.bump_kept
    | with_reducible apply State.deselect_kept | with_reducible apply State.onPhase_kept
    | with_reducible apply State.plainWrite_kept | with_reducible apply Kept.ite_else
    | with_reducible apply Kept.ite_then | with_reducible apply Kept.ite
    | with_reducible refine Kept.of_snd (by assumption) ?_ | intro _ | dsimp only
    | fail_if_no_progress with_reducible apply Kept.mk' | split)

theorem execPhaseTestScan_kept (p : Fin 8) (i : Initiator) (v : Word) (s : State) : KeptO s (execPhaseTestScan p i v s) := by
  unfold execPhaseTestScan
  repeat' (first
    | with_reducible exact Kept.rfl | with_reducible assumption | with_reducible apply State.writePhaseTest_kept
    | with_reducible apply State.writeRow_kept | with_reducible apply KeptO.next | with_reducible apply KeptO.ite
    | with_reducible refine Kept.of_snd (by assumption) ?_ | intro _ | dsimp only
    | fail_if_no_progress with_reducible apply Kept.mk' | split)

theorem execPhaseTestBleed_kept (p : Fin 8) (i : Initiator) (v : Word) (s : State) : KeptO s (execPhaseTestBleed p i v s) := by
  unfold execPhaseTestBleed
  repeat' (first
    | with_reducible exact Kept.rfl | with_reducible assumption | with_reducible apply State.writePhaseTest_kept
    | with_reducible apply State.writeRow_kept | with_reducible apply KeptO.next | with_reducible apply KeptO.ite
    | with_reducible refine Kept.of_snd (by assumption) ?_ | intro _ | dsimp only
    | fail_if_no_progress with_reducible apply Kept.mk' | split)

theorem execGateReadback_kept (p : Fin 8) (drive : Fin 66) (s : State) : KeptO s (execGateReadback p drive s) := by
  unfold execGateReadback
  repeat' (first
    | with_reducible exact Kept.rfl | with_reducible assumption | with_reducible apply State.phaseFault_kept
    | with_reducible apply State.put_kept | with_reducible apply KeptO.next | with_reducible apply KeptO.ite
    | with_reducible apply Kept.ite_else | with_reducible apply Kept.ite_then | with_reducible apply Kept.ite
    | with_reducible refine Kept.of_snd (by assumption) ?_ | intro _ | dsimp only
    | fail_if_no_progress with_reducible apply Kept.mk' | split)

theorem execFallbackStop_kept (s : State) : KeptO s (execFallbackStop s) := by
  unfold execFallbackStop
  repeat' (first
    | with_reducible exact Kept.rfl | with_reducible assumption | with_reducible apply State.deselect_kept
    | with_reducible apply State.setPhase_kept | with_reducible apply KeptO.next | with_reducible apply KeptO.ite
    | with_reducible apply Kept.ite_else | with_reducible apply Kept.ite_then | with_reducible apply Kept.ite
    | with_reducible apply Kept.foldl | with_reducible refine Kept.of_snd (by assumption) ?_ | intro _ | dsimp only
    | fail_if_no_progress with_reducible apply Kept.mk' | split)

theorem State.releasePhase_kept {z0 : State} (s : State) (p bit : Nat) (bus : Vector (BitVec 16) 8) (hz : Kept z0 s) : Kept z0 (State.releasePhase s p bit bus) := by
  refine hz.trans ?_
  unfold State.releasePhase
  repeat' (first
    | with_reducible exact Kept.rfl | with_reducible assumption | with_reducible apply State.onPhase_kept
    | with_reducible apply State.put_kept | with_reducible apply State.scanPhase_kept
    | with_reducible apply State.setPhase_kept | with_reducible apply Kept.ite | with_reducible apply Kept.foldl
    | with_reducible refine Kept.of_snd (by assumption) ?_ | intro _ | dsimp only
    | fail_if_no_progress with_reducible apply Kept.mk' | split)

theorem State.writeTarget_kept {z0 : State} (s : State) (c : Nat) (i : Initiator) (v : Nat) (hz : Kept z0 s) : Kept z0 (State.writeTarget s c i v) := by
  refine hz.trans ?_
  unfold State.writeTarget
  repeat' (first
    | with_reducible exact Kept.rfl | with_reducible assumption | with_reducible apply State.onCell_kept
    | with_reducible apply State.plainWrite_kept | with_reducible apply State.put_kept
    | with_reducible refine Kept.of_snd (by assumption) ?_ | intro _ | dsimp only
    | fail_if_no_progress with_reducible apply Kept.mk' | split)

theorem execBalTargetWrite_kept (c : Fin 32) (i : Initiator) (v : Word) (s : State) : KeptO s (execBalTargetWrite c i v s) := by
  unfold execBalTargetWrite
  repeat' (first
    | with_reducible exact Kept.rfl | with_reducible assumption | with_reducible apply State.orStaged_kept
    | with_reducible apply State.writeRow_kept | with_reducible apply State.writeTarget_kept
    | with_reducible apply KeptO.next | with_reducible apply KeptO.ite
    | with_reducible refine Kept.of_snd (by assumption) ?_ | intro _ | dsimp only
    | fail_if_no_progress with_reducible apply Kept.mk' | split)

theorem execTargetDone_kept (c : Fin 32) (s : State) : KeptO s (execTargetDone c s) := by
  unfold execTargetDone
  repeat' (first
    | with_reducible exact Kept.rfl | with_reducible assumption | with_reducible apply State.account_kept
    | with_reducible apply KeptO.next | with_reducible apply KeptO.ite
    | with_reducible refine Kept.of_snd (by assumption) ?_ | intro _ | dsimp only
    | fail_if_no_progress with_reducible apply Kept.mk' | split)

theorem State.writePhaseCmd_kept {z0 : State} (s : State) (p : Nat) (i : Initiator) (v : Nat) (hz : Kept z0 s) : Kept z0 (State.writePhaseCmd s p i v).2 := by
  refine hz.trans ?_
  unfold State.writePhaseCmd
  repeat' (first
    | with_reducible exact Kept.rfl | with_reducible assumption | with_reducible apply State.countAccess_kept
    | with_reducible apply State.guarded_kept | with_reducible apply State.onPhase_kept
    | with_reducible apply State.plainWrite_kept | with_reducible apply State.refuseRight_kept
    | with_reducible apply State.refused_kept | with_reducible apply Kept.ite | with_reducible apply Kept.pair_ite
    | with_reducible refine Kept.of_snd (by assumption) ?_ | intro _ | dsimp only
    | fail_if_no_progress with_reducible apply Kept.mk' | split)

theorem execPhaseCommandWrite_kept (p : Fin 8) (i : Initiator) (v : Word) (s : State) : KeptO s (execPhaseCommandWrite p i v s) := by
  unfold execPhaseCommandWrite
  repeat' (first
    | with_reducible exact Kept.rfl | with_reducible assumption | with_reducible apply State.emit_kept
    | with_reducible apply State.orStaged_kept | with_reducible apply State.writePhaseCmd_kept
    | with_reducible apply KeptO.next | with_reducible apply KeptO.ite
    | with_reducible refine Kept.of_snd (by assumption) ?_ | intro _ | dsimp only
    | fail_if_no_progress with_reducible apply Kept.mk' | split)

theorem execCommandExpiry_kept (p : Fin 8) (s : State) : KeptO s (execCommandExpiry p s) := by
  unfold execCommandExpiry
  repeat' (first
    | with_reducible exact Kept.rfl | with_reducible assumption | with_reducible apply State.applyPhase_kept
    | with_reducible apply KeptO.next | with_reducible apply KeptO.ite | with_reducible apply Kept.ite_else
    | with_reducible apply Kept.ite_then | with_reducible apply Kept.ite
    | with_reducible refine Kept.of_snd (by assumption) ?_ | intro _ | dsimp only
    | fail_if_no_progress with_reducible apply Kept.mk' | split)

theorem execBalEnable_kept (i : Initiator) (v : Word) (s : State) : KeptO s (execBalEnable i v s) := by
  unfold execBalEnable
  repeat' (first
    | with_reducible exact Kept.rfl | with_reducible assumption | with_reducible apply State.ferryRefresh_kept
    | with_reducible apply State.plainWrite_kept | with_reducible apply State.writeRow_kept
    | with_reducible apply KeptO.next | with_reducible apply KeptO.ite
    | with_reducible refine Kept.of_snd (by assumption) ?_ | intro _ | dsimp only
    | fail_if_no_progress with_reducible apply Kept.mk' | split)

theorem execPrimaryOvercurrent_kept (p : Fin 8) (s : State) : KeptO s (execPrimaryOvercurrent p s) := by
  unfold execPrimaryOvercurrent
  repeat' (first
    | with_reducible exact Kept.rfl | with_reducible assumption | with_reducible apply State.applyPhase_kept
    | with_reducible apply State.onPhase_kept | with_reducible apply State.phaseFault_kept
    | with_reducible apply KeptO.next | with_reducible apply KeptO.ite | with_reducible apply Kept.ite_else
    | with_reducible apply Kept.ite_then | with_reducible apply Kept.ite
    | with_reducible refine Kept.of_snd (by assumption) ?_ | intro _ | dsimp only
    | fail_if_no_progress with_reducible apply Kept.mk' | split)

theorem execNoSecondaryConduction_kept (p : Fin 8) (s : State) : KeptO s (execNoSecondaryConduction p s) := by
  unfold execNoSecondaryConduction
  repeat' (first
    | with_reducible exact Kept.rfl | with_reducible assumption | with_reducible apply State.onPhase_kept
    | with_reducible apply State.phaseFault_kept | with_reducible apply KeptO.next | with_reducible apply KeptO.ite
    | with_reducible apply Kept.ite_else | with_reducible apply Kept.ite_then | with_reducible apply Kept.ite
    | with_reducible refine Kept.of_snd (by assumption) ?_ | intro _ | dsimp only
    | fail_if_no_progress with_reducible apply Kept.mk' | split)

theorem execCommandTransfer_kept (p : Fin 8) (s : State) : KeptO s (execCommandTransfer p s) := by
  unfold execCommandTransfer
  repeat' (first
    | with_reducible exact Kept.rfl | with_reducible assumption | with_reducible apply State.onPhase_kept
    | with_reducible apply State.phaseFault_kept | with_reducible apply KeptO.next | with_reducible apply KeptO.ite
    | with_reducible apply Kept.ite_else | with_reducible apply Kept.ite_then | with_reducible apply Kept.ite
    | with_reducible refine Kept.of_snd (by assumption) ?_ | intro _ | dsimp only
    | fail_if_no_progress with_reducible apply Kept.mk' | split)

theorem State.followComparator_kept {z0 : State} (s : State) (c : Nat) (hz : Kept z0 s) : Kept z0 (State.followComparator s c) := by
  refine hz.trans ?_
  unfold State.followComparator
  repeat' (first
    | with_reducible exact Kept.rfl | with_reducible assumption | with_reducible apply State.ferryRefresh_kept
    | with_reducible apply State.putB_kept | with_reducible apply Kept.ite_else | with_reducible apply Kept.ite_then
    | with_reducible apply Kept.ite | with_reducible refine Kept.of_snd (by assumption) ?_ | intro _ | dsimp only
    | fail_if_no_progress with_reducible apply Kept.mk' | split)

theorem execDcQualify_kept (c : Fin 32) (ov : Bool) (s : State) : KeptO s (execDcQualify c ov s) := by
  unfold execDcQualify
  repeat' (first
    | with_reducible exact Kept.rfl | with_reducible assumption | with_reducible apply State.bump_kept
    | with_reducible apply State.followComparator_kept | with_reducible apply State.put_kept
    | with_reducible apply State.raiseSrc_kept | with_reducible apply State.wakeRequest_kept
    | with_reducible apply KeptO.next | with_reducible apply KeptO.ite | with_reducible apply Kept.ite_else
    | with_reducible apply Kept.ite_then | with_reducible apply Kept.ite
    | with_reducible refine Kept.of_snd (by assumption) ?_ | intro _ | dsimp only
    | fail_if_no_progress with_reducible apply Kept.mk' | split)

theorem execDcRelease_kept (c : Fin 32) (ov : Bool) (s : State) : KeptO s (execDcRelease c ov s) := by
  unfold execDcRelease
  repeat' (first
    | with_reducible exact Kept.rfl | with_reducible assumption | with_reducible apply State.followComparator_kept
    | with_reducible apply State.put_kept | with_reducible apply State.releaseSrc_kept
    | with_reducible apply KeptO.next | with_reducible apply KeptO.ite | with_reducible apply Kept.ite
    | with_reducible refine Kept.of_snd (by assumption) ?_ | intro _ | dsimp only
    | fail_if_no_progress with_reducible apply Kept.mk' | split)

end Sys2Proof.Machine
end

