-- ==== Sys2Proof/Laws/KeptThrottle.lean ====
section
/-! SUPPORT. Every operation of Machine/Throttle.lean keeps what `Kept` says. -/

set_option linter.unusedTactic false
set_option linter.unreachableTactic false
set_option linter.unusedVariables false

namespace Sys2Proof.Machine

set_option Elab.async false

theorem State.throttleEvent_kept {z0 : State} (s : State) (src dst cause sensor : Nat) (h : Int) (hz : Kept z0 s) : Kept z0 (State.throttleEvent s src dst cause sensor h) := by
  refine hz.trans ?_
  unfold State.throttleEvent
  repeat' (first
    | with_reducible exact Kept.rfl | with_reducible assumption | with_reducible apply State.put_kept
    | with_reducible apply State.put64_kept | with_reducible apply State.wrN_kept
    | with_reducible refine Kept.of_snd (by assumption) ?_ | intro _ | dsimp only
    | fail_if_no_progress with_reducible apply Kept.mk' | split)

theorem State.throttleFrame_kept {z0 : State} (s : State) (kind : Nat) (hz : Kept z0 s) : Kept z0 (State.throttleFrame s kind) := by
  refine hz.trans ?_
  unfold State.throttleFrame
  repeat' (first
    | with_reducible exact Kept.rfl | with_reducible assumption | with_reducible apply State.bump_kept
    | with_reducible apply State.notifyQueue_kept | with_reducible apply State.originate_kept
    | with_reducible apply Kept.ite | with_reducible refine Kept.of_snd (by assumption) ?_ | intro _ | dsimp only
    | fail_if_no_progress with_reducible apply Kept.mk' | split)

theorem State.showGrace_kept {z0 : State} (s : State) (hz : Kept z0 s) : Kept z0 (State.showGrace s) := by
  refine hz.trans ?_
  unfold State.showGrace
  repeat' (first
    | with_reducible exact Kept.rfl | with_reducible assumption | with_reducible apply State.put_kept
    | with_reducible apply State.putB_kept | with_reducible refine Kept.of_snd (by assumption) ?_ | intro _
    | dsimp only | fail_if_no_progress with_reducible apply Kept.mk' | split)

theorem State.setLevel_kept {z0 : State} (s : State) (l cause : Nat) (hz : Kept z0 s) : Kept z0 (State.setLevel s l cause) := by
  refine hz.trans ?_
  unfold State.setLevel
  repeat' (first
    | with_reducible exact Kept.rfl | with_reducible assumption | with_reducible apply State.bump_kept
    | with_reducible apply State.ferryRefresh_kept | with_reducible apply State.logHw_kept
    | with_reducible apply State.put_kept | with_reducible apply State.putBit_kept
    | with_reducible apply State.sweepEnd_kept | with_reducible apply State.throttleEvent_kept
    | with_reducible apply Kept.ite | with_reducible apply Kept.foldl
    | with_reducible refine Kept.of_snd (by assumption) ?_ | intro _ | dsimp only
    | fail_if_no_progress with_reducible apply Kept.mk' | split)

theorem State.raiseLevel_kept {z0 : State} (s : State) (l cause : Nat) (hz : Kept z0 s) : Kept z0 (State.raiseLevel s l cause) := by
  refine hz.trans ?_
  unfold State.raiseLevel
  repeat' (first
    | with_reducible exact Kept.rfl | with_reducible assumption | with_reducible apply State.setLevel_kept
    | with_reducible apply State.showGrace_kept | with_reducible apply Kept.ite_else
    | with_reducible apply Kept.ite_then | with_reducible apply Kept.ite
    | with_reducible refine Kept.of_snd (by assumption) ?_ | intro _ | dsimp only
    | fail_if_no_progress with_reducible apply Kept.mk' | split)

theorem State.followTarget_kept {z0 : State} (s : State) (was lt : Nat) (hz : Kept z0 s) : Kept z0 (State.followTarget s was lt) := by
  refine hz.trans ?_
  unfold State.followTarget
  repeat' (first
    | with_reducible exact Kept.rfl | with_reducible assumption | with_reducible apply State.showGrace_kept
    | with_reducible apply State.throttleEvent_kept | with_reducible apply State.throttleFrame_kept
    | with_reducible apply Kept.ite | with_reducible refine Kept.of_snd (by assumption) ?_ | intro _ | dsimp only
    | fail_if_no_progress with_reducible apply Kept.mk' | split)

theorem State.followFailure_kept {z0 : State} (s : State) (hz : Kept z0 s) : Kept z0 (State.followFailure s) := by
  refine hz.trans ?_
  unfold State.followFailure
  repeat' (first
    | with_reducible exact Kept.rfl | with_reducible assumption | with_reducible apply State.putB_kept
    | with_reducible refine Kept.of_snd (by assumption) ?_ | intro _ | dsimp only
    | fail_if_no_progress with_reducible apply Kept.mk' | split)

theorem State.sensorFailed_kept {z0 : State} (s : State) (d : Nat) (hz : Kept z0 s) : Kept z0 (State.sensorFailed s d) := by
  refine hz.trans ?_
  unfold State.sensorFailed
  repeat' (first
    | with_reducible exact Kept.rfl | with_reducible assumption | with_reducible apply State.bump_kept
    | with_reducible apply State.put_kept | with_reducible apply State.raiseLevel_kept
    | with_reducible refine Kept.of_snd (by assumption) ?_ | intro _ | dsimp only
    | fail_if_no_progress with_reducible apply Kept.mk' | split)

theorem State.followBelow_kept {z0 : State} (s : State) (h : Int) (hz : Kept z0 s) : Kept z0 (State.followBelow s h) := by
  refine hz.trans ?_
  unfold State.followBelow
  repeat' (first
    | with_reducible exact Kept.rfl | with_reducible assumption | with_reducible apply Kept.ite_else
    | with_reducible apply Kept.ite_then | with_reducible apply Kept.ite | with_reducible apply Kept.getD
    | with_reducible refine Kept.of_snd (by assumption) ?_ | intro _ | dsimp only
    | fail_if_no_progress with_reducible apply Kept.mk' | split)

theorem State.hotTimes_kept {z0 : State} (s : State) (dt : Nat) (hz : Kept z0 s) : Kept z0 (State.hotTimes s dt) := by
  refine hz.trans ?_
  unfold State.hotTimes
  repeat' (first
    | with_reducible exact Kept.rfl | with_reducible assumption | with_reducible apply State.onDie_kept
    | with_reducible apply State.wrN_kept | with_reducible apply Kept.ite_else | with_reducible apply Kept.ite_then
    | with_reducible apply Kept.ite | with_reducible apply Kept.foldl
    | with_reducible refine Kept.of_snd (by assumption) ?_ | intro _ | dsimp only
    | fail_if_no_progress with_reducible apply Kept.mk' | split)

theorem State.evalThrottle_kept {z0 : State} (s : State) (hz : Kept z0 s) : Kept z0 (State.evalThrottle s) := by
  refine hz.trans ?_
  unfold State.evalThrottle
  repeat' (first
    | with_reducible exact Kept.rfl | with_reducible assumption | with_reducible apply State.followBelow_kept
    | with_reducible apply State.followFailure_kept | with_reducible apply State.followTarget_kept
    | with_reducible apply State.put_kept | with_reducible apply State.putI_kept
    | with_reducible apply State.raiseLevel_kept | with_reducible apply State.sensorFailed_kept
    | with_reducible apply State.showGrace_kept | with_reducible apply Kept.ite
    | with_reducible refine Kept.of_snd (by assumption) ?_ | intro _ | dsimp only
    | fail_if_no_progress with_reducible apply Kept.mk' | split)

theorem execThrottleEvaluation_kept (td : Vector DieReading 4) (s : State) : KeptO s (execThrottleEvaluation td s) := by
  unfold execThrottleEvaluation
  repeat' (first
    | with_reducible exact Kept.rfl | with_reducible assumption | with_reducible apply State.dieConv_kept
    | with_reducible apply State.evalThrottle_kept | with_reducible apply State.hotTimes_kept
    | with_reducible apply State.reach_kept | with_reducible apply KeptO.next | with_reducible apply KeptO.ite
    | with_reducible apply Kept.ite_else | with_reducible apply Kept.ite_then | with_reducible apply Kept.ite
    | with_reducible apply Kept.foldl | with_reducible refine Kept.of_snd (by assumption) ?_ | intro _ | dsimp only
    | fail_if_no_progress with_reducible apply Kept.mk' | split)

theorem execThrottleGraceExpiry_kept (s : State) : KeptO s (execThrottleGraceExpiry s) := by
  unfold execThrottleGraceExpiry
  repeat' (first
    | with_reducible exact Kept.rfl | with_reducible assumption | with_reducible apply State.reach_kept
    | with_reducible apply State.setLevel_kept | with_reducible apply State.showGrace_kept
    | with_reducible apply KeptO.next | with_reducible apply KeptO.ite
    | with_reducible refine Kept.of_snd (by assumption) ?_ | intro _ | dsimp only
    | fail_if_no_progress with_reducible apply Kept.mk' | split)

theorem execThrottleStepDown_kept (s : State) : KeptO s (execThrottleStepDown s) := by
  unfold execThrottleStepDown
  repeat' (first
    | with_reducible exact Kept.rfl | with_reducible assumption | with_reducible apply State.followBelow_kept
    | with_reducible apply State.reach_kept | with_reducible apply State.setLevel_kept
    | with_reducible apply KeptO.next | with_reducible apply KeptO.ite | with_reducible apply Kept.ite_else
    | with_reducible apply Kept.ite_then | with_reducible apply Kept.ite
    | with_reducible refine Kept.of_snd (by assumption) ?_ | intro _ | dsimp only
    | fail_if_no_progress with_reducible apply Kept.mk' | split)

theorem State.writeThrCtrl_kept {z0 : State} (s : State) (i : Initiator) (v : Nat) (hz : Kept z0 s) : Kept z0 (State.writeThrCtrl s i v) := by
  refine hz.trans ?_
  unfold State.writeThrCtrl
  repeat' (first
    | with_reducible exact Kept.rfl | with_reducible assumption | with_reducible apply State.plainWrite_kept
    | with_reducible apply State.raiseLevel_kept | with_reducible apply Kept.ite_else
    | with_reducible apply Kept.ite_then | with_reducible apply Kept.ite
    | with_reducible refine Kept.of_snd (by assumption) ?_ | intro _ | dsimp only
    | fail_if_no_progress with_reducible apply Kept.mk' | split)

theorem execThrottleEnforce_kept (i : Initiator) (v : Word) (s : State) : KeptO s (execThrottleEnforce i v s) := by
  unfold execThrottleEnforce
  repeat' (first
    | with_reducible exact Kept.rfl | with_reducible assumption | with_reducible apply State.writeRow_kept
    | with_reducible apply State.writeThrCtrl_kept | with_reducible apply KeptO.next | with_reducible apply KeptO.ite
    | with_reducible refine Kept.of_snd (by assumption) ?_ | intro _ | dsimp only
    | fail_if_no_progress with_reducible apply Kept.mk' | split)

theorem execThrottleFloor_kept (i : Initiator) (v : Word) (s : State) : KeptO s (execThrottleFloor i v s) := by
  unfold execThrottleFloor
  repeat' (first
    | with_reducible exact Kept.rfl | with_reducible assumption | with_reducible apply State.writeRow_kept
    | with_reducible apply State.writeThrCtrl_kept | with_reducible apply KeptO.next | with_reducible apply KeptO.ite
    | with_reducible refine Kept.of_snd (by assumption) ?_ | intro _ | dsimp only
    | fail_if_no_progress with_reducible apply Kept.mk' | split)

end Sys2Proof.Machine
end

