-- ==== Sys2Proof/Laws/KeptImpedance.lean ====
section
/-! SUPPORT. Every operation of Machine/Impedance.lean keeps what `Kept` says. -/

set_option linter.unusedTactic false
set_option linter.unreachableTactic false
set_option linter.unusedVariables false

namespace Sys2Proof.Machine

set_option Elab.async false

theorem State.toSettle_kept {z0 : State} (s : State) (r : SweepRun) (w : Bool × List Nat × Nat) (k : Nat) (hz : Kept z0 s) : Kept z0 (State.toSettle s r w k) := by
  refine hz.trans ?_
  unfold State.toSettle
  repeat' (first
    | with_reducible exact Kept.rfl | with_reducible assumption | with_reducible apply State.bump_kept
    | with_reducible apply State.showSweep_kept | with_reducible apply Kept.ite_else
    | with_reducible apply Kept.ite_then | with_reducible apply Kept.ite
    | with_reducible refine Kept.of_snd (by assumption) ?_ | intro _ | dsimp only
    | fail_if_no_progress with_reducible apply Kept.mk' | split)

theorem State.beginStage_kept {z0 : State} (s : State) (r : SweepRun) (st : Nat) (bins : List Nat) (hz : Kept z0 s) : Kept z0 (State.beginStage s r st bins).2 := by
  refine hz.trans ?_
  unfold State.beginStage
  repeat' (first
    | with_reducible exact Kept.rfl | with_reducible assumption | with_reducible apply State.put_kept
    | with_reducible apply Kept.ite_else | with_reducible apply Kept.ite_then | with_reducible apply Kept.ite
    | with_reducible apply Kept.pair_ite | with_reducible refine Kept.of_snd (by assumption) ?_ | intro _ | dsimp only
    | fail_if_no_progress with_reducible apply Kept.mk' | split)

theorem State.stagesFrom_kept {z0 : State} (n : Nat) (s : State) (r : SweepRun) (st k : Nat) (hz : Kept z0 s) :
    Kept z0 (State.stagesFrom n s r st k) := by
  induction n generalizing s r st with
  | zero => exact State.sweepDone_kept s r hz
  | succ n ih =>
    unfold State.stagesFrom
    dsimp only
    split
    · exact ih _ _ _ hz
    · split
      · exact State.toSettle_kept _ _ _ _ (State.beginStage_kept _ _ _ _ hz)
      · exact ih _ _ _ (State.beginStage_kept _ _ _ _ hz)

theorem State.sweepStart_kept {z0 : State} (s : State) (kind k : Nat) (hz : Kept z0 s) : Kept z0 (State.sweepStart s kind k) := by
  refine hz.trans ?_
  unfold State.sweepStart
  repeat' (first
    | with_reducible exact Kept.rfl | with_reducible assumption | with_reducible apply State.put_kept
    | with_reducible apply State.stagesFrom_kept | with_reducible refine Kept.of_snd (by assumption) ?_ | intro _
    | dsimp only | fail_if_no_progress with_reducible apply Kept.mk' | split)

theorem State.sweepResume_kept {z0 : State} (s : State) (k : Nat) (hz : Kept z0 s) : Kept z0 (State.sweepResume s k) := by
  refine hz.trans ?_
  unfold State.sweepResume
  repeat' (first
    | with_reducible exact Kept.rfl | with_reducible assumption | with_reducible apply State.stagesFrom_kept
    | with_reducible apply Kept.ite_else | with_reducible apply Kept.ite_then | with_reducible apply Kept.ite
    | with_reducible refine Kept.of_snd (by assumption) ?_ | intro _ | dsimp only
    | fail_if_no_progress with_reducible apply Kept.mk' | split)

theorem State.passBetween_kept {z0 : State} (s : State) (outer : SweepRun) (k : Nat) (hz : Kept z0 s) : Kept z0 (State.passBetween s outer k) := by
  refine hz.trans ?_
  unfold State.passBetween
  repeat' (first
    | with_reducible exact Kept.rfl | with_reducible assumption | with_reducible apply State.put_kept
    | with_reducible apply State.sweepResume_kept | with_reducible apply State.sweepStart_kept
    | with_reducible refine Kept.of_snd (by assumption) ?_ | intro _ | dsimp only
    | fail_if_no_progress with_reducible apply Kept.mk' | split)

theorem State.stageEnd_kept {z0 : State} (s : State) (r : SweepRun) (k : Nat) (hz : Kept z0 s) : Kept z0 (State.stageEnd s r k) := by
  refine hz.trans ?_
  unfold State.stageEnd
  repeat' (first
    | with_reducible exact Kept.rfl | with_reducible assumption | with_reducible apply State.passBetween_kept
    | with_reducible apply State.put_kept | with_reducible apply State.stagesFrom_kept
    | with_reducible apply State.sweepResume_kept | with_reducible apply State.sweepStart_kept
    | with_reducible apply Kept.ite | with_reducible refine Kept.of_snd (by assumption) ?_ | intro _ | dsimp only
    | fail_if_no_progress with_reducible apply Kept.mk' | split)

theorem State.wantFull_kept {z0 : State} (s : State) (k : Nat) (hz : Kept z0 s) : Kept z0 (State.wantFull s k) := by
  refine hz.trans ?_
  unfold State.wantFull
  repeat' (first
    | with_reducible exact Kept.rfl | with_reducible assumption | with_reducible apply State.sweepCode_kept
    | with_reducible apply State.sweepStart_kept | with_reducible apply Kept.ite
    | with_reducible refine Kept.of_snd (by assumption) ?_ | intro _ | dsimp only
    | fail_if_no_progress with_reducible apply Kept.mk' | split)

theorem State.wantPass_kept {z0 : State} (s : State) (k : Nat) (hz : Kept z0 s) : Kept z0 (State.wantPass s k) := by
  refine hz.trans ?_
  unfold State.wantPass
  repeat' (first
    | with_reducible exact Kept.rfl | with_reducible assumption | with_reducible apply State.put_kept
    | with_reducible apply State.sweepCode_kept | with_reducible apply State.sweepStart_kept
    | with_reducible apply Kept.ite | with_reducible refine Kept.of_snd (by assumption) ?_ | intro _ | dsimp only
    | fail_if_no_progress with_reducible apply Kept.mk' | split)

theorem execFullSweepDue_kept (s : State) : KeptO s (execFullSweepDue s) := by
  unfold execFullSweepDue
  repeat' (first
    | with_reducible exact Kept.rfl | with_reducible assumption | with_reducible apply State.reachFt_kept
    | with_reducible apply State.wantFull_kept | with_reducible apply KeptO.next | with_reducible apply KeptO.ite
    | with_reducible apply Kept.ite_else | with_reducible apply Kept.ite_then | with_reducible apply Kept.ite
    | with_reducible refine Kept.of_snd (by assumption) ?_ | intro _ | dsimp only
    | fail_if_no_progress with_reducible apply Kept.mk' | split)

theorem execTempPassDue_kept (s : State) : KeptO s (execTempPassDue s) := by
  unfold execTempPassDue
  repeat' (first
    | with_reducible exact Kept.rfl | with_reducible assumption | with_reducible apply State.reachFt_kept
    | with_reducible apply State.wantPass_kept | with_reducible apply KeptO.next | with_reducible apply KeptO.ite
    | with_reducible apply Kept.ite_else | with_reducible apply Kept.ite_then | with_reducible apply Kept.ite
    | with_reducible refine Kept.of_snd (by assumption) ?_ | intro _ | dsimp only
    | fail_if_no_progress with_reducible apply Kept.mk' | split)

theorem State.sweepRequests_kept {z0 : State} (s : State) (hz : Kept z0 s) : Kept z0 (State.sweepRequests s) := by
  refine hz.trans ?_
  unfold State.sweepRequests
  repeat' (first
    | with_reducible exact Kept.rfl | with_reducible assumption | with_reducible apply State.wantFull_kept
    | with_reducible apply State.wantPass_kept | with_reducible apply Kept.ite_else
    | with_reducible apply Kept.ite_then | with_reducible apply Kept.ite
    | with_reducible refine Kept.of_snd (by assumption) ?_ | intro _ | dsimp only
    | fail_if_no_progress with_reducible apply Kept.mk' | split)

theorem State.relearn_kept {z0 : State} (s : State) (hz : Kept z0 s) : Kept z0 (State.relearn s) := by
  refine hz.trans ?_
  unfold State.relearn
  repeat' (first
    | with_reducible exact Kept.rfl | with_reducible assumption | with_reducible apply State.wrN_kept
    | with_reducible refine Kept.of_snd (by assumption) ?_ | intro _ | dsimp only
    | fail_if_no_progress with_reducible apply Kept.mk' | split)

theorem State.writeImpCtrl_kept {z0 : State} (s : State) (i : Initiator) (v : Nat) (hz : Kept z0 s) : Kept z0 (State.writeImpCtrl s i v) := by
  refine hz.trans ?_
  unfold State.writeImpCtrl
  repeat' (first
    | with_reducible exact Kept.rfl | with_reducible assumption | with_reducible apply State.ferryRefresh_kept
    | with_reducible apply State.plainWrite_kept | with_reducible apply State.relearn_kept
    | with_reducible apply State.sweepEnd_kept | with_reducible apply Kept.ite_else
    | with_reducible apply Kept.ite_then | with_reducible apply Kept.ite
    | with_reducible refine Kept.of_snd (by assumption) ?_ | intro _ | dsimp only
    | fail_if_no_progress with_reducible apply Kept.mk' | split)

theorem execImpStart_kept (i : Initiator) (v : Word) (s : State) : KeptO s (execImpStart i v s) := by
  unfold execImpStart
  repeat' (first
    | with_reducible exact Kept.rfl | with_reducible assumption | with_reducible apply State.writeImpCtrl_kept
    | with_reducible apply State.writeRow_kept | with_reducible apply KeptO.next | with_reducible apply KeptO.ite
    | with_reducible refine Kept.of_snd (by assumption) ?_ | intro _ | dsimp only
    | fail_if_no_progress with_reducible apply Kept.mk' | split)

theorem execImpTstart_kept (i : Initiator) (v : Word) (s : State) : KeptO s (execImpTstart i v s) := by
  unfold execImpTstart
  repeat' (first
    | with_reducible exact Kept.rfl | with_reducible assumption | with_reducible apply State.writeImpCtrl_kept
    | with_reducible apply State.writeRow_kept | with_reducible apply KeptO.next | with_reducible apply KeptO.ite
    | with_reducible refine Kept.of_snd (by assumption) ?_ | intro _ | dsimp only
    | fail_if_no_progress with_reducible apply Kept.mk' | split)

theorem execImpStop_kept (i : Initiator) (v : Word) (s : State) : KeptO s (execImpStop i v s) := by
  unfold execImpStop
  repeat' (first
    | with_reducible exact Kept.rfl | with_reducible assumption | with_reducible apply State.writeImpCtrl_kept
    | with_reducible apply State.writeRow_kept | with_reducible apply KeptO.next | with_reducible apply KeptO.ite
    | with_reducible refine Kept.of_snd (by assumption) ?_ | intro _ | dsimp only
    | fail_if_no_progress with_reducible apply Kept.mk' | split)

theorem execImpTrelrn_kept (i : Initiator) (v : Word) (s : State) : KeptO s (execImpTrelrn i v s) := by
  unfold execImpTrelrn
  repeat' (first
    | with_reducible exact Kept.rfl | with_reducible assumption | with_reducible apply State.writeImpCtrl_kept
    | with_reducible apply State.writeRow_kept | with_reducible apply KeptO.next | with_reducible apply KeptO.ite
    | with_reducible refine Kept.of_snd (by assumption) ?_ | intro _ | dsimp only
    | fail_if_no_progress with_reducible apply Kept.mk' | split)

theorem State.takePlan_kept {z0 : State} (s : State) (w : Nat) (hz : Kept z0 s) : Kept z0 (State.takePlan s w) := by
  refine hz.trans ?_
  unfold State.takePlan
  repeat' (first
    | with_reducible exact Kept.rfl | with_reducible assumption | with_reducible apply State.ferryRefresh_kept
    | with_reducible apply State.sweepEnd_kept | with_reducible apply State.wrN_kept
    | with_reducible apply Kept.ite_else | with_reducible apply Kept.ite_then | with_reducible apply Kept.ite
    | with_reducible refine Kept.of_snd (by assumption) ?_ | intro _ | dsimp only
    | fail_if_no_progress with_reducible apply Kept.mk' | split)

theorem State.writeImpPlan_kept {z0 : State} (s : State) (i : Initiator) (v : Nat) (hz : Kept z0 s) : Kept z0 (State.writeImpPlan s i v) := by
  refine hz.trans ?_
  unfold State.writeImpPlan
  repeat' (first
    | with_reducible exact Kept.rfl | with_reducible assumption | with_reducible apply State.plainWrite_kept
    | with_reducible apply State.refuseRight_kept | with_reducible apply State.takePlan_kept
    | with_reducible apply State.wrN_kept | with_reducible apply Kept.ite
    | with_reducible refine Kept.of_snd (by assumption) ?_ | intro _ | dsimp only
    | fail_if_no_progress with_reducible apply Kept.mk' | split)

theorem State.writeImpStat_kept {z0 : State} (s : State) (i : Initiator) (v : Nat) (hz : Kept z0 s) : Kept z0 (State.writeImpStat s i v) := by
  refine hz.trans ?_
  unfold State.writeImpStat
  repeat' (first
    | with_reducible exact Kept.rfl | with_reducible assumption | with_reducible apply State.putB_kept
    | with_reducible apply Kept.ite_else | with_reducible apply Kept.ite_then | with_reducible apply Kept.ite
    | with_reducible refine Kept.of_snd (by assumption) ?_ | intro _ | dsimp only
    | fail_if_no_progress with_reducible apply Kept.mk' | split)

theorem execSweepWindowStart_kept (s : State) : KeptO s (execSweepWindowStart s) := by
  unfold execSweepWindowStart
  repeat' (first
    | with_reducible exact Kept.rfl | with_reducible assumption | with_reducible apply State.ferryRefresh_kept
    | with_reducible apply State.showSweep_kept | with_reducible apply KeptO.next | with_reducible apply KeptO.ite
    | with_reducible apply Kept.ite_else | with_reducible apply Kept.ite_then | with_reducible apply Kept.ite
    | with_reducible refine Kept.of_snd (by assumption) ?_ | intro _ | dsimp only
    | fail_if_no_progress with_reducible apply Kept.mk' | split)

theorem State.sweepSample_kept {z0 : State} (s : State) (x : StrobeSample) (hz : Kept z0 s) : Kept z0 (State.sweepSample s x) := by
  refine hz.trans ?_
  unfold State.sweepSample
  repeat' (first
    | with_reducible exact Kept.rfl | with_reducible assumption | with_reducible apply Kept.ite_else
    | with_reducible apply Kept.ite_then | with_reducible apply Kept.ite
    | with_reducible refine Kept.of_snd (by assumption) ?_ | intro _ | dsimp only
    | fail_if_no_progress with_reducible apply Kept.mk' | split)

theorem State.sweepTick_kept {z0 : State} (s : State) (hz : Kept z0 s) : Kept z0 (State.sweepTick s) := by
  refine hz.trans ?_
  unfold State.sweepTick
  repeat' (first
    | with_reducible exact Kept.rfl | with_reducible assumption | with_reducible apply Kept.ite_else
    | with_reducible apply Kept.ite_then | with_reducible apply Kept.ite
    | with_reducible refine Kept.of_snd (by assumption) ?_ | intro _ | dsimp only
    | fail_if_no_progress with_reducible apply Kept.mk' | split)

theorem State.countInvalid_kept {z0 : State} (s : State) (q : Nat) (hz : Kept z0 s) : Kept z0 (State.countInvalid s q) := by
  refine hz.trans ?_
  unfold State.countInvalid
  repeat' (first
    | with_reducible exact Kept.rfl | with_reducible assumption | with_reducible apply State.bump_kept
    | with_reducible apply Kept.ite_else | with_reducible apply Kept.ite_then | with_reducible apply Kept.ite
    | with_reducible refine Kept.of_snd (by assumption) ?_ | intro _ | dsimp only
    | fail_if_no_progress with_reducible apply Kept.mk' | split)

theorem State.resultOf_kept {z0 : State} (s : State) (r : SweepRun) (a : BinAcc) (c : Nat) (lowi : Bool) (hz : Kept z0 s) : Kept z0 (State.resultOf s r a c lowi).2 := by
  refine hz.trans ?_
  unfold State.resultOf
  repeat' (first
    | with_reducible exact Kept.rfl | with_reducible assumption | with_reducible apply State.countInvalid_kept
    | with_reducible apply State.fresh_kept | with_reducible apply Kept.ite_else | with_reducible apply Kept.ite_then
    | with_reducible apply Kept.ite | with_reducible apply Kept.pair_ite
    | with_reducible refine Kept.of_snd (by assumption) ?_ | intro _ | dsimp only
    | fail_if_no_progress with_reducible apply Kept.mk' | split)

theorem State.checkExcitation_kept {z0 : State} (s : State) (r : SweepRun) (a : BinAcc) (sum p : Nat) (hz : Kept z0 s) : Kept z0 (State.checkExcitation s r a sum p) := by
  refine hz.trans ?_
  unfold State.checkExcitation
  repeat' (first
    | with_reducible exact Kept.rfl | with_reducible assumption | with_reducible apply State.bump_kept
    | with_reducible apply State.faultD_kept | with_reducible apply State.put_kept | with_reducible apply Kept.ite
    | with_reducible refine Kept.of_snd (by assumption) ?_ | intro _ | dsimp only
    | fail_if_no_progress with_reducible apply Kept.mk' | split)

theorem State.endBin_kept {z0 : State} (s : State) (r : SweepRun) (a : BinAcc) (hz : Kept z0 s) : Kept z0 (State.endBin s r a).2 := by
  refine hz.trans ?_
  unfold State.endBin
  repeat' (first
    | with_reducible exact Kept.rfl | with_reducible assumption | with_reducible apply State.checkExcitation_kept
    | with_reducible apply State.resultOf_kept | with_reducible apply Kept.ite_then | with_reducible apply Kept.ite
    | with_reducible apply Kept.pair_ite | with_reducible apply Kept.foldl | with_reducible apply Kept.foldl_snd
    | with_reducible refine Kept.of_snd (by assumption) ?_ | intro _ | dsimp only
    | fail_if_no_progress with_reducible apply Kept.mk' | split)

theorem State.rawTemp_kept {z0 : State} (s : State) (phi : Int) (hz : Kept z0 s) : Kept z0 (State.rawTemp s phi).2 := by
  refine hz.trans ?_
  unfold State.rawTemp
  repeat' (first
    | with_reducible exact Kept.rfl | with_reducible assumption | with_reducible apply State.fresh_kept
    | with_reducible apply Kept.ite_else | with_reducible apply Kept.ite_then | with_reducible apply Kept.ite
    | with_reducible apply Kept.pair_ite | with_reducible refine Kept.of_snd (by assumption) ?_ | intro _ | dsimp only
    | fail_if_no_progress with_reducible apply Kept.mk' | split)

theorem State.learn_kept {z0 : State} (s : State) (c : Nat) (e : Int) (hz : Kept z0 s) : Kept z0 (State.learn s c e) := by
  refine hz.trans ?_
  unfold State.learn
  repeat' (first
    | with_reducible exact Kept.rfl | with_reducible assumption | with_reducible apply State.wrN_kept
    | with_reducible apply Kept.ite | with_reducible refine Kept.of_snd (by assumption) ?_ | intro _ | dsimp only
    | fail_if_no_progress with_reducible apply Kept.mk' | split)

theorem State.estimate_kept {z0 : State} (s : State) (r : SweepRun) (b c : Nat) (hz : Kept z0 s) : Kept z0 (State.estimate s r b c).2 := by
  refine hz.trans ?_
  unfold State.estimate
  repeat' (first
    | with_reducible exact Kept.rfl | with_reducible assumption | with_reducible apply State.learn_kept
    | with_reducible apply State.rawTemp_kept | with_reducible apply Kept.ite_else
    | with_reducible apply Kept.ite_then | with_reducible apply Kept.ite | with_reducible apply Kept.pair_ite
    | with_reducible refine Kept.of_snd (by assumption) ?_ | intro _ | dsimp only
    | fail_if_no_progress with_reducible apply Kept.mk' | split)

theorem State.showThot_kept {z0 : State} (s : State) (hz : Kept z0 s) : Kept z0 (State.showThot s) := by
  refine hz.trans ?_
  unfold State.showThot
  repeat' (first
    | with_reducible exact Kept.rfl | with_reducible assumption | with_reducible apply State.put_kept
    | with_reducible apply State.putI_kept | with_reducible refine Kept.of_snd (by assumption) ?_ | intro _
    | dsimp only | fail_if_no_progress with_reducible apply Kept.mk' | split)

theorem State.estimates_kept {z0 : State} (s : State) (r : SweepRun) (b : Nat) (hz : Kept z0 s) : Kept z0 (State.estimates s r b) := by
  refine hz.trans ?_
  unfold State.estimates
  repeat' (first
    | with_reducible exact Kept.rfl | with_reducible assumption | with_reducible apply State.estimate_kept
    | with_reducible apply State.put_kept | with_reducible apply State.ringPut_kept
    | with_reducible apply State.showThot_kept | with_reducible apply KeptM.ite | with_reducible apply KeptM.none
    | with_reducible apply State.ringPut_kept | with_reducible apply Kept.ite_then | with_reducible apply Kept.ite
    | with_reducible apply Kept.foldl | with_reducible apply Kept.foldl_snd
    | with_reducible refine Kept.of_snd (by assumption) ?_ | with_reducible refine Kept.of_some (by assumption) ?_
    | intro _ | dsimp only | fail_if_no_progress with_reducible apply Kept.mk' | split)

theorem State.closeWindow_kept {z0 : State} (s : State) (r : SweepRun) (hz : Kept z0 s) : Kept z0 (State.closeWindow s r) := by
  refine hz.trans ?_
  unfold State.closeWindow
  repeat' (first
    | with_reducible exact Kept.rfl | with_reducible assumption | with_reducible apply State.bump_kept
    | with_reducible apply State.endBin_kept | with_reducible apply State.estimates_kept
    | with_reducible apply State.stageEnd_kept | with_reducible apply State.toSettle_kept
    | with_reducible apply Kept.ite | with_reducible apply Kept.foldl | with_reducible apply Kept.foldl_snd
    | with_reducible refine Kept.of_snd (by assumption) ?_ | intro _ | dsimp only
    | fail_if_no_progress with_reducible apply Kept.mk' | split)

theorem execSweepWindowEnd_kept (s : State) : KeptO s (execSweepWindowEnd s) := by
  unfold execSweepWindowEnd
  repeat' (first
    | with_reducible exact Kept.rfl | with_reducible assumption | with_reducible apply State.closeWindow_kept
    | with_reducible apply State.ferryRefresh_kept | with_reducible apply KeptO.next | with_reducible apply KeptO.ite
    | with_reducible apply Kept.ite | with_reducible refine Kept.of_snd (by assumption) ?_ | intro _ | dsimp only
    | fail_if_no_progress with_reducible apply Kept.mk' | split)

theorem State.settleTick_kept {z0 : State} (s : State) (hz : Kept z0 s) : Kept z0 (State.settleTick s) := by
  refine hz.trans ?_
  unfold State.settleTick
  repeat' (first
    | with_reducible exact Kept.rfl | with_reducible assumption | with_reducible apply State.closeWindow_kept
    | with_reducible apply Kept.ite_else | with_reducible apply Kept.ite_then | with_reducible apply Kept.ite
    | with_reducible refine Kept.of_snd (by assumption) ?_ | intro _ | dsimp only
    | fail_if_no_progress with_reducible apply Kept.mk' | split)

theorem State.limitExcitation_kept {z0 : State} (s : State) (p : Nat) (hz : Kept z0 s) : Kept z0 (State.limitExcitation s p) := by
  refine hz.trans ?_
  unfold State.limitExcitation
  repeat' (first
    | with_reducible exact Kept.rfl | with_reducible assumption | with_reducible apply State.bump_kept
    | with_reducible apply State.dropExcitation_kept | with_reducible apply State.ferryRefresh_kept
    | with_reducible apply State.noteClips_kept | with_reducible apply Kept.ite_else
    | with_reducible apply Kept.ite_then | with_reducible apply Kept.ite
    | with_reducible refine Kept.of_snd (by assumption) ?_ | intro _ | dsimp only
    | fail_if_no_progress with_reducible apply Kept.mk' | split)

theorem State.sweepLimits_kept {z0 : State} (s : State) (hz : Kept z0 s) : Kept z0 (State.sweepLimits s) := by
  refine hz.trans ?_
  unfold State.sweepLimits
  repeat' (first
    | with_reducible exact Kept.rfl | with_reducible assumption | with_reducible apply State.limitExcitation_kept
    | with_reducible apply Kept.foldl | with_reducible refine Kept.of_snd (by assumption) ?_ | intro _ | dsimp only
    | fail_if_no_progress with_reducible apply Kept.mk' | split)

theorem execExcitationRemoval_kept (p : Fin 8) (s : State) : KeptO s (execExcitationRemoval p s) := by
  unfold execExcitationRemoval
  repeat' (first
    | with_reducible exact Kept.rfl | with_reducible assumption | with_reducible apply State.limitExcitation_kept
    | with_reducible apply KeptO.next | with_reducible apply KeptO.ite
    | with_reducible refine Kept.of_snd (by assumption) ?_ | intro _ | dsimp only
    | fail_if_no_progress with_reducible apply Kept.mk' | split)

theorem State.tempHistory_kept {z0 : State} (s : State) (hz : Kept z0 s) : Kept z0 (State.tempHistory s) := by
  refine hz.trans ?_
  unfold State.tempHistory
  repeat' (first
    | with_reducible exact Kept.rfl | with_reducible assumption | with_reducible apply Kept.ite
    | with_reducible refine Kept.of_snd (by assumption) ?_ | intro _ | dsimp only
    | fail_if_no_progress with_reducible apply Kept.mk' | split)

end Sys2Proof.Machine
end

