-- ==== Sys2Proof/Laws/KeptAdmission.lean ====
section
/-! SUPPORT. Every operation of Machine/Admission.lean keeps what `Kept` says. -/

set_option linter.unusedTactic false
set_option linter.unreachableTactic false
set_option linter.unusedVariables false

namespace Sys2Proof.Machine

set_option Elab.async false

theorem State.countCway_kept {z0 : State} (s : State) (hz : Kept z0 s) : Kept z0 (State.countCway s) := by
  refine hz.trans ?_
  unfold State.countCway
  repeat' (first
    | with_reducible exact Kept.rfl | with_reducible assumption | with_reducible apply State.bump_kept
    | with_reducible refine Kept.of_snd (by assumption) ?_ | intro _ | dsimp only
    | fail_if_no_progress with_reducible apply Kept.mk' | split)

theorem State.admitTasks_kept {z0 : State} (s : State) (p : Nat) (hz : Kept z0 s) : Kept z0 (State.admitTasks s p).2 := by
  refine hz.trans ?_
  unfold State.admitTasks
  repeat' (first
    | with_reducible exact Kept.rfl | with_reducible assumption | with_reducible apply State.put_kept
    | with_reducible apply State.wrN_kept | with_reducible apply Kept.ite_else | with_reducible apply Kept.ite_then
    | with_reducible apply Kept.ite | with_reducible apply Kept.pair_ite | with_reducible apply Kept.foldl
    | with_reducible refine Kept.of_snd (by assumption) ?_ | intro _ | dsimp only
    | fail_if_no_progress with_reducible apply Kept.mk' | split)

end Sys2Proof.Machine
end

