-- ==== Sys2Proof/Laws/KeptEngineCsr.lean ====
section
/-! SUPPORT. Every operation of Machine/EngineCsr.lean keeps what `Kept` says. -/

set_option linter.unusedTactic false
set_option linter.unreachableTactic false
set_option linter.unusedVariables false

namespace Sys2Proof.Machine

set_option Elab.async false

theorem State.enterHandler_kept {z0 : State} (s : State) (e c pc v : Nat) (hz : Kept z0 s) : Kept z0 (State.enterHandler s e c pc v) := by
  refine hz.trans ?_
  unfold State.enterHandler
  repeat' (first
    | with_reducible exact Kept.rfl | with_reducible assumption | with_reducible apply State.onEng_kept
    | with_reducible apply State.setCsr_kept | with_reducible refine Kept.of_snd (by assumption) ?_ | intro _
    | dsimp only | fail_if_no_progress with_reducible apply Kept.mk' | split)

theorem State.leaveHandler_kept {z0 : State} (s : State) (e : Nat) (hz : Kept z0 s) : Kept z0 (State.leaveHandler s e) := by
  refine hz.trans ?_
  unfold State.leaveHandler
  repeat' (first
    | with_reducible exact Kept.rfl | with_reducible assumption | with_reducible apply State.onEng_kept
    | with_reducible apply State.setCsr_kept | with_reducible refine Kept.of_snd (by assumption) ?_ | intro _
    | dsimp only | fail_if_no_progress with_reducible apply Kept.mk' | split)

theorem State.counterOf_kept {z0 : State} (s : State) (e n : Nat) (hz : Kept z0 s) : Kept z0 (State.counterOf s e n).2 := by
  refine hz.trans ?_
  unfold State.counterOf
  repeat' (first
    | with_reducible exact Kept.rfl | with_reducible assumption | with_reducible apply State.fresh_kept
    | with_reducible apply State.syncEng_kept | with_reducible apply Kept.ite_else
    | with_reducible apply Kept.ite_then | with_reducible apply Kept.ite | with_reducible apply Kept.pair_ite
    | with_reducible refine Kept.of_snd (by assumption) ?_ | intro _ | dsimp only
    | fail_if_no_progress with_reducible apply Kept.mk' | split)

theorem State.readCounter_kept {z0 : State} (s : State) (e n : Nat) (high : Bool) (hz : Kept z0 s) : Kept z0 (State.readCounter s e n high).2 := by
  refine hz.trans ?_
  unfold State.readCounter
  repeat' (first
    | with_reducible exact Kept.rfl | with_reducible assumption | with_reducible apply State.counterOf_kept
    | with_reducible apply State.onEng_kept | with_reducible apply Kept.pair_ite
    | with_reducible refine Kept.of_snd (by assumption) ?_ | intro _ | dsimp only
    | fail_if_no_progress with_reducible apply Kept.mk' | split)

theorem State.writeCounter_kept {z0 : State} (s : State) (e n : Nat) (high : Bool) (w : Word) (hz : Kept z0 s) : Kept z0 (State.writeCounter s e n high w) := by
  refine hz.trans ?_
  unfold State.writeCounter
  repeat' (first
    | with_reducible exact Kept.rfl | with_reducible assumption | with_reducible apply State.syncEng_kept
    | with_reducible apply State.wr_kept | with_reducible apply State.wrN_kept | with_reducible apply Kept.ite
    | with_reducible refine Kept.of_snd (by assumption) ?_ | intro _ | dsimp only
    | fail_if_no_progress with_reducible apply Kept.mk' | split)

theorem State.writePmp_kept {z0 : State} (s : State) (a : Nat) (w : Word) (hz : Kept z0 s) : Kept z0 (State.writePmp s a w) := by
  refine hz.trans ?_
  unfold State.writePmp
  repeat' (first
    | with_reducible exact Kept.rfl | with_reducible assumption | with_reducible apply State.setCsr_kept
    | with_reducible apply Kept.ite | with_reducible refine Kept.of_snd (by assumption) ?_ | intro _ | dsimp only
    | fail_if_no_progress with_reducible apply Kept.mk' | split)

theorem State.readCsr_kept {z0 : State} (s : State) (e a : Nat) (hz : Kept z0 s) : Kept z0 (State.readCsr s e a).2 := by
  refine hz.trans ?_
  unfold State.readCsr
  repeat' (first
    | with_reducible exact Kept.rfl | with_reducible assumption | with_reducible apply State.fresh_kept
    | with_reducible apply State.readCounter_kept | with_reducible apply Kept.ite_else
    | with_reducible apply Kept.ite_then | with_reducible apply Kept.ite | with_reducible apply Kept.pair_ite
    | with_reducible refine Kept.of_snd (by assumption) ?_ | intro _ | dsimp only
    | fail_if_no_progress with_reducible apply Kept.mk' | split)

theorem State.writeCsr_kept {z0 : State} (s : State) (e a : Nat) (w : Word) (hz : Kept z0 s) : Kept z0 (State.writeCsr s e a w) := by
  refine hz.trans ?_
  unfold State.writeCsr
  repeat' (first
    | with_reducible exact Kept.rfl | with_reducible assumption | with_reducible apply State.put_kept
    | with_reducible apply State.setCsr_kept | with_reducible apply State.setExt_kept
    | with_reducible apply State.syncEng_kept | with_reducible apply State.writeCounter_kept
    | with_reducible apply State.writePmp_kept | with_reducible apply Kept.ite_else
    | with_reducible apply Kept.ite_then | with_reducible apply Kept.ite
    | with_reducible refine Kept.of_snd (by assumption) ?_ | intro _ | dsimp only
    | fail_if_no_progress with_reducible apply Kept.mk' | split)

end Sys2Proof.Machine
end

