-- ==== Sys2Proof/Laws/KeptEngine.lean ====
section
/-! SUPPORT. Every operation of Machine/Engine.lean keeps what `Kept` says. -/

set_option linter.unusedTactic false
set_option linter.unreachableTactic false
set_option linter.unusedVariables false

namespace Sys2Proof.Machine

set_option Elab.async false

theorem State.bookCycles_kept {z0 : State} (s : State) (e : Nat) (hz : Kept z0 s) : Kept z0 (State.bookCycles s e) := by
  refine hz.trans ?_
  unfold State.bookCycles
  repeat' (first
    | with_reducible exact Kept.rfl | with_reducible assumption | with_reducible apply State.onEng_kept
    | with_reducible apply State.syncEng_kept | with_reducible refine Kept.of_snd (by assumption) ?_ | intro _
    | dsimp only | fail_if_no_progress with_reducible apply Kept.mk' | split)

theorem State.enterEngine_kept {z0 : State} (s : State) (e st entry cause : Nat) (hz : Kept z0 s) : Kept z0 (State.enterEngine s e st entry cause) := by
  refine hz.trans ?_
  unfold State.enterEngine
  repeat' (first
    | with_reducible exact Kept.rfl | with_reducible assumption | with_reducible apply State.onEng_kept
    | with_reducible apply State.put_kept | with_reducible apply State.setEng_kept
    | with_reducible refine Kept.of_snd (by assumption) ?_ | intro _ | dsimp only
    | fail_if_no_progress with_reducible apply Kept.mk' | split)

theorem State.tickEntry_kept {z0 : State} (s : State) (e : Nat) (hz : Kept z0 s) : Kept z0 (State.tickEntry s e) := by
  refine hz.trans ?_
  unfold State.tickEntry
  repeat' (first
    | with_reducible exact Kept.rfl | with_reducible assumption | with_reducible apply State.enterEngine_kept
    | with_reducible apply State.onEng_kept | with_reducible apply State.pmc_kept
    | with_reducible apply State.put_kept | with_reducible apply State.wrN_kept
    | with_reducible refine Kept.of_snd (by assumption) ?_ | intro _ | dsimp only
    | fail_if_no_progress with_reducible apply Kept.mk' | split)

theorem State.trigger_kept {z0 : State} (s : State) (e : Nat) (hz : Kept z0 s) : Kept z0 (State.trigger s e) := by
  refine hz.trans ?_
  unfold State.trigger
  repeat' (first
    | with_reducible exact Kept.rfl | with_reducible assumption | with_reducible apply State.onEng_kept
    | with_reducible apply State.tickEntry_kept | with_reducible apply Kept.ite
    | with_reducible refine Kept.of_snd (by assumption) ?_ | intro _ | dsimp only
    | fail_if_no_progress with_reducible apply Kept.mk' | split)

theorem State.triggerAll_kept {z0 : State} (s : State) (trig : Nat) (hz : Kept z0 s) : Kept z0 (State.triggerAll s trig) := by
  refine hz.trans ?_
  unfold State.triggerAll
  repeat' (first
    | with_reducible exact Kept.rfl | with_reducible assumption | with_reducible apply State.trigger_kept
    | with_reducible apply Kept.foldl | with_reducible refine Kept.of_snd (by assumption) ?_ | intro _ | dsimp only
    | fail_if_no_progress with_reducible apply Kept.mk' | split)

theorem State.deferEvent_kept {z0 : State} (s : State) (e bit : Nat) (hz : Kept z0 s) : Kept z0 (State.deferEvent s e bit) := by
  refine hz.trans ?_
  unfold State.deferEvent
  repeat' (first
    | with_reducible exact Kept.rfl | with_reducible assumption | with_reducible apply State.bump_kept
    | with_reducible apply State.onEng_kept | with_reducible apply Kept.ite
    | with_reducible refine Kept.of_snd (by assumption) ?_ | intro _ | dsimp only
    | fail_if_no_progress with_reducible apply Kept.mk' | split)

theorem State.eventEntry_kept {z0 : State} (s : State) (e bit : Nat) (hz : Kept z0 s) : Kept z0 (State.eventEntry s e bit) := by
  refine hz.trans ?_
  unfold State.eventEntry
  repeat' (first
    | with_reducible exact Kept.rfl | with_reducible assumption | with_reducible apply State.deferEvent_kept
    | with_reducible apply State.enterEngine_kept | with_reducible apply State.onEng_kept
    | with_reducible apply State.pmc_kept | with_reducible apply Kept.ite
    | with_reducible refine Kept.of_snd (by assumption) ?_ | intro _ | dsimp only
    | fail_if_no_progress with_reducible apply Kept.mk' | split)

theorem State.endTask_kept {z0 : State} (s : State) (e : Nat) (hz : Kept z0 s) : Kept z0 (State.endTask s e) := by
  refine hz.trans ?_
  unfold State.endTask
  repeat' (first
    | with_reducible exact Kept.rfl | with_reducible assumption | with_reducible apply State.fault_kept
    | with_reducible apply State.onEng_kept | with_reducible apply State.put_kept | with_reducible apply Kept.ite_else
    | with_reducible apply Kept.ite_then | with_reducible apply Kept.ite
    | with_reducible refine Kept.of_snd (by assumption) ?_ | intro _ | dsimp only
    | fail_if_no_progress with_reducible apply Kept.mk' | split)

theorem State.commitOne_kept {z0 : State} (s : State) (e : Fin 16) (w : Nat × Word) (hz : Kept z0 s) : Kept z0 (State.commitOne s e w) := by
  refine hz.trans ?_
  unfold State.commitOne
  repeat' (first
    | with_reducible exact Kept.rfl | with_reducible assumption | with_reducible apply State.guarded_kept
    | with_reducible apply State.pmc_kept | with_reducible apply State.writePhaseCmd_kept
    | with_reducible apply State.writeTarget_kept | with_reducible refine Kept.of_snd (by assumption) ?_ | intro _
    | dsimp only | fail_if_no_progress with_reducible apply Kept.mk' | split)

theorem State.commit_kept {z0 : State} (s : State) (e : Fin 16) (hz : Kept z0 s) : Kept z0 (State.commit s e) := by
  refine hz.trans ?_
  unfold State.commit
  repeat' (first
    | with_reducible exact Kept.rfl | with_reducible assumption | with_reducible apply State.commitOne_kept
    | with_reducible apply State.onEng_kept | with_reducible apply State.put_kept | with_reducible apply Kept.ite
    | with_reducible apply Kept.foldl | with_reducible refine Kept.of_snd (by assumption) ?_ | intro _ | dsimp only
    | fail_if_no_progress with_reducible apply Kept.mk' | split)

theorem State.post_kept {z0 : State} (s : State) (e : Nat) (hz : Kept z0 s) : Kept z0 (State.post s e) := by
  refine hz.trans ?_
  unfold State.post
  repeat' (first
    | with_reducible exact Kept.rfl | with_reducible assumption | with_reducible apply State.put_kept
    | with_reducible apply Kept.ite_else | with_reducible apply Kept.ite_then | with_reducible apply Kept.ite
    | with_reducible refine Kept.of_snd (by assumption) ?_ | intro _ | dsimp only
    | fail_if_no_progress with_reducible apply Kept.mk' | split)

theorem execYtPost_kept (e : Fin 16) (s : State) : KeptO s (execYtPost e s) := by
  unfold execYtPost
  repeat' (first
    | with_reducible exact Kept.rfl | with_reducible assumption | with_reducible apply State.commit_kept
    | with_reducible apply State.endTask_kept | with_reducible apply State.instr_kept
    | with_reducible apply State.post_kept | with_reducible apply KeptO.next | with_reducible apply KeptO.ite
    | with_reducible refine Kept.of_snd (by assumption) ?_ | intro _ | dsimp only
    | fail_if_no_progress with_reducible apply Kept.mk' | split)

theorem State.sleep_kept {z0 : State} (s : State) (e : Nat) (hz : Kept z0 s) : Kept z0 (State.sleep s e) := by
  refine hz.trans ?_
  unfold State.sleep
  repeat' (first
    | with_reducible exact Kept.rfl | with_reducible assumption | with_reducible apply State.bookCycles_kept
    | with_reducible apply State.deferEvent_kept | with_reducible apply State.eventEntry_kept
    | with_reducible apply State.setEng_kept | with_reducible apply State.tickEntry_kept
    | with_reducible apply Kept.ite | with_reducible apply Kept.foldl
    | with_reducible refine Kept.of_snd (by assumption) ?_ | intro _ | dsimp only
    | fail_if_no_progress with_reducible apply Kept.mk' | split)

theorem execYtWft_kept (e : Fin 16) (s : State) : KeptO s (execYtWft e s) := by
  unfold execYtWft
  repeat' (first
    | with_reducible exact Kept.rfl | with_reducible assumption | with_reducible apply State.commit_kept
    | with_reducible apply State.endTask_kept | with_reducible apply State.post_kept
    | with_reducible apply State.retire_kept | with_reducible apply State.sleep_kept | with_reducible apply KeptO.next
    | with_reducible apply KeptO.ite | with_reducible apply Kept.ite_else | with_reducible apply Kept.ite_then
    | with_reducible apply Kept.ite | with_reducible refine Kept.of_snd (by assumption) ?_ | intro _ | dsimp only
    | fail_if_no_progress with_reducible apply Kept.mk' | split)

theorem execYtTask_kept (e : Fin 16) (rs1 : Fin 32) (s : State) : KeptO s (execYtTask e rs1 s) := by
  unfold execYtTask
  repeat' (first
    | with_reducible exact Kept.rfl | with_reducible assumption | with_reducible apply State.endTask_kept
    | with_reducible apply State.instr_kept | with_reducible apply State.onEng_kept | with_reducible apply KeptO.next
    | with_reducible apply KeptO.ite | with_reducible refine Kept.of_snd (by assumption) ?_ | intro _ | dsimp only
    | fail_if_no_progress with_reducible apply Kept.mk' | split)

theorem execEngineEventEntry_kept (e : Fin 16) (cause : EngineEvent) (s : State) : KeptO s (execEngineEventEntry e cause s) := by
  unfold execEngineEventEntry
  repeat' (first
    | with_reducible exact Kept.rfl | with_reducible assumption | with_reducible apply State.eventEntry_kept
    | with_reducible apply State.onEng_kept | with_reducible apply KeptO.next | with_reducible apply KeptO.ite
    | with_reducible apply Kept.ite_else | with_reducible apply Kept.ite_then | with_reducible apply Kept.ite
    | with_reducible refine Kept.of_snd (by assumption) ?_ | intro _ | dsimp only
    | fail_if_no_progress with_reducible apply Kept.mk' | split)

theorem State.closeTick_kept {z0 : State} (s : State) (e : Nat) (hz : Kept z0 s) : Kept z0 (State.closeTick s e) := by
  refine hz.trans ?_
  unfold State.closeTick
  repeat' (first
    | with_reducible exact Kept.rfl | with_reducible assumption | with_reducible apply State.bookCycles_kept
    | with_reducible apply State.onEng_kept | with_reducible apply State.put_kept | with_reducible apply Kept.ite
    | with_reducible refine Kept.of_snd (by assumption) ?_ | intro _ | dsimp only
    | fail_if_no_progress with_reducible apply Kept.mk' | split)

theorem State.abandon_kept {z0 : State} (s : State) (e : Nat) (hz : Kept z0 s) : Kept z0 (State.abandon s e) := by
  refine hz.trans ?_
  unfold State.abandon
  repeat' (first
    | with_reducible exact Kept.rfl | with_reducible assumption | with_reducible apply State.onEng_kept
    | with_reducible apply State.put_kept | with_reducible apply State.setEng_kept
    | with_reducible apply State.trigger_kept | with_reducible apply Kept.ite_else
    | with_reducible apply Kept.ite_then | with_reducible apply Kept.ite
    | with_reducible refine Kept.of_snd (by assumption) ?_ | intro _ | dsimp only
    | fail_if_no_progress with_reducible apply Kept.mk' | split)

theorem State.countRun_kept {z0 : State} (s : State) (e : Nat) (hz : Kept z0 s) : Kept z0 (State.countRun s e) := by
  refine hz.trans ?_
  unfold State.countRun
  repeat' (first
    | with_reducible exact Kept.rfl | with_reducible assumption | with_reducible apply State.onEng_kept
    | with_reducible apply State.put_kept | with_reducible refine Kept.of_snd (by assumption) ?_ | intro _
    | dsimp only | fail_if_no_progress with_reducible apply Kept.mk' | split)

theorem execEngineOverrun_kept (e : Fin 16) (s : State) : KeptO s (execEngineOverrun e s) := by
  unfold execEngineOverrun
  repeat' (first
    | with_reducible exact Kept.rfl | with_reducible assumption | with_reducible apply State.abandon_kept
    | with_reducible apply State.bump_kept | with_reducible apply State.collect_kept
    | with_reducible apply State.countRun_kept | with_reducible apply State.loseSamples_kept
    | with_reducible apply State.onEng_kept | with_reducible apply State.pmc_kept
    | with_reducible apply State.put_kept | with_reducible apply KeptO.next | with_reducible apply KeptO.ite
    | with_reducible apply Kept.ite_else | with_reducible apply Kept.ite_then | with_reducible apply Kept.ite
    | with_reducible refine Kept.of_snd (by assumption) ?_ | intro _ | dsimp only
    | fail_if_no_progress with_reducible apply Kept.mk' | split)

theorem execOverrunLimit_kept (e : Fin 16) (s : State) : KeptO s (execOverrunLimit e s) := by
  unfold execOverrunLimit
  repeat' (first
    | with_reducible exact Kept.rfl | with_reducible assumption | with_reducible apply State.fenceEngine_kept
    | with_reducible apply State.onEng_kept | with_reducible apply State.openShadow_kept
    | with_reducible apply State.put_kept | with_reducible apply State.restartEngine_kept
    | with_reducible apply KeptO.next | with_reducible apply KeptO.ite | with_reducible apply Kept.ite
    | with_reducible refine Kept.of_snd (by assumption) ?_ | intro _ | dsimp only
    | fail_if_no_progress with_reducible apply Kept.mk' | split)

theorem execSamplePortOverflow_kept (e : Fin 8) (s : State) : KeptO s (execSamplePortOverflow e s) := by
  unfold execSamplePortOverflow
  repeat' (first
    | with_reducible exact Kept.rfl | with_reducible assumption | with_reducible apply State.loseSamples_kept
    | with_reducible apply State.onEng_kept | with_reducible apply State.put_kept | with_reducible apply KeptO.next
    | with_reducible apply KeptO.ite | with_reducible apply Kept.ite_else | with_reducible apply Kept.ite_then
    | with_reducible apply Kept.ite | with_reducible refine Kept.of_snd (by assumption) ?_ | intro _ | dsimp only
    | fail_if_no_progress with_reducible apply Kept.mk' | split)

theorem State.haltEngine_kept {z0 : State} (s : State) (e : Nat) (hz : Kept z0 s) : Kept z0 (State.haltEngine s e) := by
  refine hz.trans ?_
  unfold State.haltEngine
  repeat' (first
    | with_reducible exact Kept.rfl | with_reducible assumption | with_reducible apply State.fenceEngine_kept
    | with_reducible apply State.put_kept | with_reducible refine Kept.of_snd (by assumption) ?_ | intro _
    | dsimp only | fail_if_no_progress with_reducible apply Kept.mk' | split)

theorem State.takeTrap_kept {z0 : State} (s : State) (e c pc v : Nat) (hz : Kept z0 s) : Kept z0 (State.takeTrap s e c pc v) := by
  refine hz.trans ?_
  unfold State.takeTrap
  repeat' (first
    | with_reducible exact Kept.rfl | with_reducible assumption | with_reducible apply State.enterHandler_kept
    | with_reducible apply State.haltEngine_kept | with_reducible apply State.onEng_kept
    | with_reducible apply State.trapEngine_kept | with_reducible apply Kept.ite
    | with_reducible refine Kept.of_snd (by assumption) ?_ | intro _ | dsimp only
    | fail_if_no_progress with_reducible apply Kept.mk' | split)

theorem execEngineTrap_kept (e : Fin 16) (mcause mepc mtval : Word) (s : State) : KeptO s (execEngineTrap e mcause mepc mtval s) := by
  unfold execEngineTrap
  repeat' (first
    | with_reducible exact Kept.rfl | with_reducible assumption | with_reducible apply State.takeTrap_kept
    | with_reducible apply KeptO.next | with_reducible apply KeptO.ite | with_reducible apply Kept.ite_else
    | with_reducible apply Kept.ite_then | with_reducible apply Kept.ite
    | with_reducible refine Kept.of_snd (by assumption) ?_ | intro _ | dsimp only
    | fail_if_no_progress with_reducible apply Kept.mk' | split)

theorem State.phasesBack_kept {z0 : State} (s : State) (e : Nat) (hz : Kept z0 s) : Kept z0 (State.phasesBack s e) := by
  refine hz.trans ?_
  unfold State.phasesBack
  repeat' (first
    | with_reducible exact Kept.rfl | with_reducible assumption | with_reducible apply State.endCond_kept
    | with_reducible apply Kept.ite_else | with_reducible apply Kept.ite_then | with_reducible apply Kept.ite
    | with_reducible refine Kept.of_snd (by assumption) ?_ | intro _ | dsimp only
    | fail_if_no_progress with_reducible apply Kept.mk' | split)

theorem execEngineRestartRelease_kept (e : Fin 16) (s : State) : KeptO s (execEngineRestartRelease e s) := by
  unfold execEngineRestartRelease
  repeat' (first
    | with_reducible exact Kept.rfl | with_reducible assumption | with_reducible apply State.onEng_kept
    | with_reducible apply State.phasesBack_kept | with_reducible apply State.promoteAll_kept
    | with_reducible apply State.setEng_kept | with_reducible apply State.tickEntry_kept
    | with_reducible apply KeptO.next | with_reducible apply KeptO.ite | with_reducible apply Kept.ite_else
    | with_reducible apply Kept.ite_then | with_reducible apply Kept.ite
    | with_reducible refine Kept.of_snd (by assumption) ?_ | intro _ | dsimp only
    | fail_if_no_progress with_reducible apply Kept.mk' | split)

theorem State.commandRestart_kept {z0 : State} (s : State) (e why : Nat) (hz : Kept z0 s) : Kept z0 (State.commandRestart s e why) := by
  refine hz.trans ?_
  unfold State.commandRestart
  repeat' (first
    | with_reducible exact Kept.rfl | with_reducible assumption | with_reducible apply State.fenceEngine_kept
    | with_reducible apply State.restartEngine_kept | with_reducible refine Kept.of_snd (by assumption) ?_ | intro _
    | dsimp only | fail_if_no_progress with_reducible apply Kept.mk' | split)

theorem State.writeEngRestart_kept {z0 : State} (s : State) (v : Nat) (hz : Kept z0 s) : Kept z0 (State.writeEngRestart s v) := by
  refine hz.trans ?_
  unfold State.writeEngRestart
  repeat' (first
    | with_reducible exact Kept.rfl | with_reducible assumption | with_reducible apply State.commandRestart_kept
    | with_reducible apply Kept.foldl | with_reducible refine Kept.of_snd (by assumption) ?_ | intro _ | dsimp only
    | fail_if_no_progress with_reducible apply Kept.mk' | split)

theorem execEngRestart_kept (i : Initiator) (v : Word) (s : State) : KeptO s (execEngRestart i v s) := by
  unfold execEngRestart
  repeat' (first
    | with_reducible exact Kept.rfl | with_reducible assumption | with_reducible apply State.writeEngRestart_kept
    | with_reducible apply State.writeRow_kept | with_reducible apply KeptO.next | with_reducible apply KeptO.ite
    | with_reducible refine Kept.of_snd (by assumption) ?_ | intro _ | dsimp only
    | fail_if_no_progress with_reducible apply Kept.mk' | split)

theorem State.writeEngCtrl_kept {z0 : State} (s : State) (e : Nat) (i : Initiator) (v : Nat) (hz : Kept z0 s) : Kept z0 (State.writeEngCtrl s e i v) := by
  refine hz.trans ?_
  unfold State.writeEngCtrl
  repeat' (first
    | with_reducible exact Kept.rfl | with_reducible assumption | with_reducible apply State.commandRestart_kept
    | with_reducible apply State.fenceEngine_kept | with_reducible apply State.plainWrite_kept
    | with_reducible apply State.put_kept | with_reducible apply Kept.ite
    | with_reducible refine Kept.of_snd (by assumption) ?_ | intro _ | dsimp only
    | fail_if_no_progress with_reducible apply Kept.mk' | split)

theorem execEngineEnable_kept (e : Fin 16) (i : Initiator) (v : Word) (s : State) : KeptO s (execEngineEnable e i v s) := by
  unfold execEngineEnable
  repeat' (first
    | with_reducible exact Kept.rfl | with_reducible assumption | with_reducible apply State.writeEngCtrl_kept
    | with_reducible apply State.writeRow_kept | with_reducible apply KeptO.next | with_reducible apply KeptO.ite
    | with_reducible refine Kept.of_snd (by assumption) ?_ | intro _ | dsimp only
    | fail_if_no_progress with_reducible apply Kept.mk' | split)

theorem State.updateGo_kept {z0 : State} (s : State) (hz : Kept z0 s) : Kept z0 (State.updateGo s) := by
  refine hz.trans ?_
  unfold State.updateGo
  repeat' (first
    | with_reducible exact Kept.rfl | with_reducible assumption | with_reducible apply State.installImage_kept
    | with_reducible apply State.onEng_kept | with_reducible apply State.put_kept
    | with_reducible apply State.wrN_kept | with_reducible apply Kept.ite
    | with_reducible refine Kept.of_snd (by assumption) ?_ | intro _ | dsimp only
    | fail_if_no_progress with_reducible apply Kept.mk' | split)

theorem State.writeEngUpd_kept {z0 : State} (s : State) (i : Initiator) (v : Nat) (hz : Kept z0 s) : Kept z0 (State.writeEngUpd s i v) := by
  refine hz.trans ?_
  unfold State.writeEngUpd
  repeat' (first
    | with_reducible exact Kept.rfl | with_reducible assumption | with_reducible apply State.plainWrite_kept
    | with_reducible apply State.refuseRight_kept | with_reducible apply State.updateGo_kept
    | with_reducible apply Kept.ite | with_reducible refine Kept.of_snd (by assumption) ?_ | intro _ | dsimp only
    | fail_if_no_progress with_reducible apply Kept.mk' | split)

theorem execEngineUpdateGo_kept (i : Initiator) (v : Word) (s : State) : KeptO s (execEngineUpdateGo i v s) := by
  unfold execEngineUpdateGo
  repeat' (first
    | with_reducible exact Kept.rfl | with_reducible assumption | with_reducible apply State.writeEngUpd_kept
    | with_reducible apply State.writeRow_kept | with_reducible apply KeptO.next | with_reducible apply KeptO.ite
    | with_reducible refine Kept.of_snd (by assumption) ?_ | intro _ | dsimp only
    | fail_if_no_progress with_reducible apply Kept.mk' | split)

theorem State.probeImage_kept {z0 : State} (s : State) (img : Nat) (hz : Kept z0 s) : Kept z0 (State.probeImage s img) := by
  refine hz.trans ?_
  unfold State.probeImage
  repeat' (first
    | with_reducible exact Kept.rfl | with_reducible assumption | with_reducible apply State.countProbation_kept
    | with_reducible apply State.putBit_kept | with_reducible apply Kept.ite
    | with_reducible refine Kept.of_snd (by assumption) ?_ | intro _ | dsimp only
    | fail_if_no_progress with_reducible apply Kept.mk' | split)

theorem State.activate_kept {z0 : State} (s : State) (e : Nat) (hz : Kept z0 s) : Kept z0 (State.activate s e) := by
  refine hz.trans ?_
  unfold State.activate
  repeat' (first
    | with_reducible exact Kept.rfl | with_reducible assumption | with_reducible apply State.admitTasks_kept
    | with_reducible apply State.fenceEngine_kept | with_reducible apply State.installImage_kept
    | with_reducible apply State.onEng_kept | with_reducible apply State.probeImage_kept
    | with_reducible apply State.put_kept | with_reducible apply State.restartEngine_kept
    | with_reducible apply Kept.ite | with_reducible refine Kept.of_snd (by assumption) ?_ | intro _ | dsimp only
    | fail_if_no_progress with_reducible apply Kept.mk' | split)

theorem State.writeEngDbg_kept {z0 : State} (s : State) (e : Nat) (i : Initiator) (v : Nat) (hz : Kept z0 s) : Kept z0 (State.writeEngDbg s e i v) := by
  refine hz.trans ?_
  unfold State.writeEngDbg
  repeat' (first
    | with_reducible exact Kept.rfl | with_reducible assumption | with_reducible apply State.haltEngine_kept
    | with_reducible apply State.onEng_kept | with_reducible apply State.phasesBack_kept
    | with_reducible apply State.plainWrite_kept | with_reducible apply State.setEng_kept
    | with_reducible apply Kept.ite | with_reducible refine Kept.of_snd (by assumption) ?_ | intro _ | dsimp only
    | fail_if_no_progress with_reducible apply Kept.mk' | split)

theorem execEngineBreakpoint_kept (e : Fin 16) (pc : Word) (s : State) : KeptO s (execEngineBreakpoint e pc s) := by
  unfold execEngineBreakpoint
  repeat' (first
    | with_reducible exact Kept.rfl | with_reducible assumption | with_reducible apply State.haltEngine_kept
    | with_reducible apply State.onEng_kept | with_reducible apply KeptO.next | with_reducible apply KeptO.ite
    | with_reducible apply Kept.ite_else | with_reducible apply Kept.ite_then | with_reducible apply Kept.ite
    | with_reducible refine Kept.of_snd (by assumption) ?_ | intro _ | dsimp only
    | fail_if_no_progress with_reducible apply Kept.mk' | split)

theorem State.writeTxHdr_kept {z0 : State} (s : State) (e : Nat) (i : Initiator) (v : Nat) (hz : Kept z0 s) : Kept z0 (State.writeTxHdr s e i v) := by
  refine hz.trans ?_
  unfold State.writeTxHdr
  repeat' (first
    | with_reducible exact Kept.rfl | with_reducible assumption | with_reducible apply State.plainWrite_kept
    | with_reducible apply State.refuseRight_kept | with_reducible apply Kept.ite
    | with_reducible refine Kept.of_snd (by assumption) ?_ | intro _ | dsimp only
    | fail_if_no_progress with_reducible apply Kept.mk' | split)

theorem State.sendMail_kept {z0 : State} (s : State) (e : Nat) (pay : Word) (hz : Kept z0 s) : Kept z0 (State.sendMail s e pay) := by
  refine hz.trans ?_
  unfold State.sendMail
  repeat' (first
    | with_reducible exact Kept.rfl | with_reducible assumption | with_reducible apply State.bump_kept
    | with_reducible apply State.carryMail_kept | with_reducible apply State.onEng_kept
    | with_reducible apply State.pmc_kept | with_reducible apply State.showMail_kept | with_reducible apply Kept.ite
    | with_reducible refine Kept.of_snd (by assumption) ?_ | intro _ | dsimp only
    | fail_if_no_progress with_reducible apply Kept.mk' | split)

theorem State.writeTxPay_kept {z0 : State} (s : State) (e : Nat) (i : Initiator) (v : Word) (hz : Kept z0 s) : Kept z0 (State.writeTxPay s e i v) := by
  refine hz.trans ?_
  unfold State.writeTxPay
  repeat' (first
    | with_reducible exact Kept.rfl | with_reducible assumption | with_reducible apply State.refuseRight_kept
    | with_reducible apply State.sendMail_kept | with_reducible apply Kept.ite
    | with_reducible refine Kept.of_snd (by assumption) ?_ | intro _ | dsimp only
    | fail_if_no_progress with_reducible apply Kept.mk' | split)

theorem execMailboxSend_kept (e : Fin 16) (i : Initiator) (v : Word) (s : State) : KeptO s (execMailboxSend e i v s) := by
  unfold execMailboxSend
  repeat' (first
    | with_reducible exact Kept.rfl | with_reducible assumption | with_reducible apply State.writeRow_kept
    | with_reducible apply State.writeTxPay_kept | with_reducible apply KeptO.next | with_reducible apply KeptO.ite
    | with_reducible refine Kept.of_snd (by assumption) ?_ | intro _ | dsimp only
    | fail_if_no_progress with_reducible apply Kept.mk' | split)

theorem execMailboxDelivery_kept (e : Fin 16) (s : State) : KeptO s (execMailboxDelivery e s) := by
  unfold execMailboxDelivery
  repeat' (first
    | with_reducible exact Kept.rfl | with_reducible assumption | with_reducible apply State.carryMail_kept
    | with_reducible apply State.onEng_kept | with_reducible apply State.showMail_kept
    | with_reducible apply KeptO.next | with_reducible apply KeptO.ite | with_reducible apply Kept.ite_else
    | with_reducible apply Kept.ite_then | with_reducible apply Kept.ite
    | with_reducible refine Kept.of_snd (by assumption) ?_ | intro _ | dsimp only
    | fail_if_no_progress with_reducible apply Kept.mk' | split)

theorem State.popMail_kept {z0 : State} (s : State) (e : Nat) (v : Nat) (hz : Kept z0 s) : Kept z0 (State.popMail s e v) := by
  refine hz.trans ?_
  unfold State.popMail
  repeat' (first
    | with_reducible exact Kept.rfl | with_reducible assumption | with_reducible apply State.drop_kept
    | with_reducible apply State.onEng_kept | with_reducible apply State.showMail_kept
    | with_reducible apply Kept.ite_else | with_reducible apply Kept.ite_then | with_reducible apply Kept.ite
    | with_reducible refine Kept.of_snd (by assumption) ?_ | intro _ | dsimp only
    | fail_if_no_progress with_reducible apply Kept.mk' | split)

theorem execMailboxPop_kept (e : Fin 16) (i : Initiator) (v : Word) (s : State) : KeptO s (execMailboxPop e i v s) := by
  unfold execMailboxPop
  repeat' (first
    | with_reducible exact Kept.rfl | with_reducible assumption | with_reducible apply State.popMail_kept
    | with_reducible apply State.writeRow_kept | with_reducible apply KeptO.next | with_reducible apply KeptO.ite
    | with_reducible refine Kept.of_snd (by assumption) ?_ | intro _ | dsimp only
    | fail_if_no_progress with_reducible apply Kept.mk' | split)

theorem execMailboxTimeout_kept (e : Fin 16) (tag : Fin 8) (s : State) : KeptO s (execMailboxTimeout e tag s) := by
  unfold execMailboxTimeout
  repeat' (first
    | with_reducible exact Kept.rfl | with_reducible assumption | with_reducible apply State.hardReply_kept
    | with_reducible apply KeptO.next | with_reducible apply KeptO.ite | with_reducible apply Kept.ite_else
    | with_reducible apply Kept.ite_then | with_reducible apply Kept.ite
    | with_reducible refine Kept.of_snd (by assumption) ?_ | intro _ | dsimp only
    | fail_if_no_progress with_reducible apply Kept.mk' | split)

theorem State.writeSem_kept {z0 : State} (s : State) (k : Nat) (i : Initiator) (v : Nat) (hz : Kept z0 s) : Kept z0 (State.writeSem s k i v) := by
  refine hz.trans ?_
  unfold State.writeSem
  repeat' (first
    | with_reducible exact Kept.rfl | with_reducible assumption | with_reducible apply State.put_kept
    | with_reducible apply Kept.ite_else | with_reducible apply Kept.ite_then | with_reducible apply Kept.ite
    | with_reducible refine Kept.of_snd (by assumption) ?_ | intro _ | dsimp only
    | fail_if_no_progress with_reducible apply Kept.mk' | split)

theorem execSemaphoreAcquire_kept (k : Fin 32) (i : Initiator) (v : Word) (s : State) : KeptO s (execSemaphoreAcquire k i v s) := by
  unfold execSemaphoreAcquire
  repeat' (first
    | with_reducible exact Kept.rfl | with_reducible assumption | with_reducible apply State.writeRow_kept
    | with_reducible apply State.writeSem_kept | with_reducible apply KeptO.next | with_reducible apply KeptO.ite
    | with_reducible refine Kept.of_snd (by assumption) ?_ | intro _ | dsimp only
    | fail_if_no_progress with_reducible apply Kept.mk' | split)

theorem execSemaphoreRelease_kept (k : Fin 32) (i : Initiator) (v : Word) (s : State) : KeptO s (execSemaphoreRelease k i v s) := by
  unfold execSemaphoreRelease
  repeat' (first
    | with_reducible exact Kept.rfl | with_reducible assumption | with_reducible apply State.writeRow_kept
    | with_reducible apply State.writeSem_kept | with_reducible apply KeptO.next | with_reducible apply KeptO.ite
    | with_reducible refine Kept.of_snd (by assumption) ?_ | intro _ | dsimp only
    | fail_if_no_progress with_reducible apply Kept.mk' | split)

theorem execPmcSelectWrite_kept (e : Fin 16) (k : Fin 6) (i : Initiator) (v : Word) (s : State) : KeptO s (execPmcSelectWrite e k i v s) := by
  unfold execPmcSelectWrite
  repeat' (first
    | with_reducible exact Kept.rfl | with_reducible assumption | with_reducible apply State.plainWrite_kept
    | with_reducible apply State.syncEng_kept | with_reducible apply State.writeRow_kept
    | with_reducible apply KeptO.next | with_reducible apply KeptO.ite
    | with_reducible refine Kept.of_snd (by assumption) ?_ | intro _ | dsimp only
    | fail_if_no_progress with_reducible apply Kept.mk' | split)

theorem State.dumpCounters_kept {z0 : State} (s : State) (n : Nat) (hz : Kept z0 s) : Kept z0 (State.dumpCounters s n) := by
  refine hz.trans ?_
  unfold State.dumpCounters
  repeat' (first
    | with_reducible exact Kept.rfl | with_reducible assumption | with_reducible apply State.bump_kept
    | with_reducible apply State.onEng_kept | with_reducible apply State.put_kept
    | with_reducible apply State.ringPut_kept | with_reducible apply State.wrN_kept | with_reducible apply KeptM.ite
    | with_reducible apply KeptM.none | with_reducible apply State.ringPut_kept | with_reducible apply Kept.foldl
    | with_reducible refine Kept.of_snd (by assumption) ?_ | with_reducible refine Kept.of_some (by assumption) ?_
    | intro _ | dsimp only | fail_if_no_progress with_reducible apply Kept.mk' | split)

theorem execPerfDump_kept (s : State) : KeptO s (execPerfDump s) := by
  unfold execPerfDump
  repeat' (first
    | with_reducible exact Kept.rfl | with_reducible assumption | with_reducible apply State.dumpCounters_kept
    | with_reducible apply State.syncAll_kept | with_reducible apply KeptO.next | with_reducible apply KeptO.ite
    | with_reducible apply Kept.ite_then | with_reducible apply Kept.ite
    | with_reducible refine Kept.of_snd (by assumption) ?_ | intro _ | dsimp only
    | fail_if_no_progress with_reducible apply Kept.mk' | split)

end Sys2Proof.Machine
end

