-- ==== Sys2Proof/Laws/KeptNetCore.lean ====
section
/-! SUPPORT. Every operation of Machine/NetCore.lean keeps what `Kept` says. -/

set_option linter.unusedTactic false
set_option linter.unreachableTactic false
set_option linter.unusedVariables false

namespace Sys2Proof.Machine

set_option Elab.async false

theorem State.sendSound_kept {z0 : State} (s : State) (n typ round : Nat) (body : List Byte) (hz : Kept z0 s) : Kept z0 (State.sendSound s n typ round body) := by
  refine hz.trans ?_
  unfold State.sendSound
  repeat' (first
    | with_reducible exact Kept.rfl | with_reducible assumption | with_reducible apply State.sendHop_kept
    | with_reducible refine Kept.of_snd (by assumption) ?_ | intro _ | dsimp only
    | fail_if_no_progress with_reducible apply Kept.mk' | split)

theorem State.startRound_kept {z0 : State} (s : State) (rerun : Bool) (hz : Kept z0 s) : Kept z0 (State.startRound s rerun) := by
  refine hz.trans ?_
  unfold State.startRound
  repeat' (first
    | with_reducible exact Kept.rfl | with_reducible assumption | with_reducible apply State.bump_kept
    | with_reducible apply State.put_kept | with_reducible apply State.sendSound_kept | with_reducible apply Kept.ite
    | with_reducible apply Kept.foldl | with_reducible refine Kept.of_snd (by assumption) ?_ | intro _ | dsimp only
    | fail_if_no_progress with_reducible apply Kept.mk' | split)

theorem State.newRound_kept {z0 : State} (s : State) (hz : Kept z0 s) : Kept z0 (State.newRound s) := by
  refine hz.trans ?_
  unfold State.newRound
  repeat' (first
    | with_reducible exact Kept.rfl | with_reducible assumption | with_reducible apply State.startRound_kept
    | with_reducible apply Kept.ite | with_reducible refine Kept.of_snd (by assumption) ?_ | intro _ | dsimp only
    | fail_if_no_progress with_reducible apply Kept.mk' | split)

theorem State.wantRound_kept {z0 : State} (s : State) (hz : Kept z0 s) : Kept z0 (State.wantRound s) := by
  refine hz.trans ?_
  unfold State.wantRound
  repeat' (first
    | with_reducible exact Kept.rfl | with_reducible assumption | with_reducible apply State.commit_kept
    | with_reducible apply State.put_kept | with_reducible apply State.startRound_kept | with_reducible apply Kept.ite
    | with_reducible refine Kept.of_snd (by assumption) ?_ | intro _ | dsimp only
    | fail_if_no_progress with_reducible apply Kept.mk' | split)

theorem State.lateRound_kept {z0 : State} (s : State) (hz : Kept z0 s) : Kept z0 (State.lateRound s) := by
  refine hz.trans ?_
  unfold State.lateRound
  repeat' (first
    | with_reducible exact Kept.rfl | with_reducible assumption | with_reducible apply State.commit_kept
    | with_reducible apply State.startRound_kept | with_reducible apply Kept.ite_else
    | with_reducible apply Kept.ite_then | with_reducible apply Kept.ite
    | with_reducible refine Kept.of_snd (by assumption) ?_ | intro _ | dsimp only
    | fail_if_no_progress with_reducible apply Kept.mk' | split)

theorem State.sendLinkev_kept {z0 : State} (s : State) (n p : Nat) (up : Bool) (hz : Kept z0 s) : Kept z0 (State.sendLinkev s n p up) := by
  refine hz.trans ?_
  unfold State.sendLinkev
  repeat' (first
    | with_reducible exact Kept.rfl | with_reducible assumption | with_reducible apply State.bump_kept
    | with_reducible apply State.sendSound_kept | with_reducible apply Kept.ite_else
    | with_reducible apply Kept.ite_then | with_reducible apply Kept.ite
    | with_reducible refine Kept.of_snd (by assumption) ?_ | intro _ | dsimp only
    | fail_if_no_progress with_reducible apply Kept.mk' | split)

theorem State.linkEvent_kept {z0 : State} (s : State) (p : Nat) (up : Bool) (hz : Kept z0 s) : Kept z0 (State.linkEvent s p up) := by
  refine hz.trans ?_
  unfold State.linkEvent
  repeat' (first
    | with_reducible exact Kept.rfl | with_reducible assumption | with_reducible apply State.onEng_kept
    | with_reducible apply State.put_kept | with_reducible apply State.putB_kept
    | with_reducible apply State.sendLinkev_kept | with_reducible apply State.wantRound_kept
    | with_reducible apply State.wrap_kept | with_reducible apply Kept.ite | with_reducible apply Kept.foldl
    | with_reducible refine Kept.of_snd (by assumption) ?_ | intro _ | dsimp only
    | fail_if_no_progress with_reducible apply Kept.mk' | split)

theorem State.showExpected_kept {z0 : State} (s : State) (n : Nat) (hz : Kept z0 s) : Kept z0 (State.showExpected s n) := by
  refine hz.trans ?_
  unfold State.showExpected
  repeat' (first
    | with_reducible exact Kept.rfl | with_reducible assumption | with_reducible apply State.wrN_kept
    | with_reducible apply Kept.foldl | with_reducible refine Kept.of_snd (by assumption) ?_ | intro _ | dsimp only
    | fail_if_no_progress with_reducible apply Kept.mk' | split)

theorem State.expectCopies_kept {z0 : State} (s : State) (k : Nat) (hz : Kept z0 s) : Kept z0 (State.expectCopies s k) := by
  refine hz.trans ?_
  unfold State.expectCopies
  repeat' (first
    | with_reducible exact Kept.rfl | with_reducible assumption | with_reducible apply State.showExpected_kept
    | with_reducible refine Kept.of_snd (by assumption) ?_ | intro _ | dsimp only
    | fail_if_no_progress with_reducible apply Kept.mk' | split)

theorem State.rebaseCopies_kept {z0 : State} (s : State) (old : Nat) (hz : Kept z0 s) : Kept z0 (State.rebaseCopies s old) := by
  refine hz.trans ?_
  unfold State.rebaseCopies
  repeat' (first
    | with_reducible exact Kept.rfl | with_reducible assumption | with_reducible apply State.showExpected_kept
    | with_reducible apply Kept.ite | with_reducible refine Kept.of_snd (by assumption) ?_ | intro _ | dsimp only
    | fail_if_no_progress with_reducible apply Kept.mk' | split)

theorem State.newPeriod_kept {z0 : State} (s : State) (p : Nat) (hz : Kept z0 s) : Kept z0 (State.newPeriod s p) := by
  refine hz.trans ?_
  unfold State.newPeriod
  repeat' (first
    | with_reducible exact Kept.rfl | with_reducible assumption | with_reducible apply State.admitTasks_kept
    | with_reducible apply State.calAbort_kept | with_reducible apply State.countCway_kept
    | with_reducible apply State.put_kept | with_reducible apply State.rebaseCopies_kept
    | with_reducible apply State.sweepEnd_kept | with_reducible refine Kept.of_snd (by assumption) ?_ | intro _
    | dsimp only | fail_if_no_progress with_reducible apply Kept.mk' | split)

theorem State.acquire_kept {z0 : State} (s : State) (hz : Kept z0 s) : Kept z0 (State.acquire s) := by
  refine hz.trans ?_
  unfold State.acquire
  repeat' (first
    | with_reducible exact Kept.rfl | with_reducible assumption | with_reducible apply State.put_kept
    | with_reducible apply Kept.ite | with_reducible refine Kept.of_snd (by assumption) ?_ | intro _ | dsimp only
    | fail_if_no_progress with_reducible apply Kept.mk' | split)

end Sys2Proof.Machine
end

