-- ==== Sys2Proof/Laws/KeptLink.lean ====
section
/-! SUPPORT. Every operation of Machine/Link.lean keeps what `Kept` says. -/

set_option linter.unusedTactic false
set_option linter.unreachableTactic false
set_option linter.unusedVariables false

namespace Sys2Proof.Machine

set_option Elab.async false

theorem State.takeUnits_kept {z0 : State} (s : State) (p q u : Nat) (hz : Kept z0 s) : Kept z0 (State.takeUnits s p q u) := by
  refine hz.trans ?_
  unfold State.takeUnits
  repeat' (first
    | with_reducible exact Kept.rfl | with_reducible assumption | with_reducible apply State.put_kept
    | with_reducible refine Kept.of_snd (by assumption) ?_ | intro _ | dsimp only
    | fail_if_no_progress with_reducible apply Kept.mk' | split)

theorem State.oweCredit_kept {z0 : State} (s : State) (p q : Nat) (hz : Kept z0 s) : Kept z0 (State.oweCredit s p q) := by
  refine hz.trans ?_
  unfold State.oweCredit
  repeat' (first
    | with_reducible exact Kept.rfl | with_reducible assumption | with_reducible apply State.fresh_kept
    | with_reducible apply State.onPort_kept | with_reducible apply Kept.ite
    | with_reducible refine Kept.of_snd (by assumption) ?_ | intro _ | dsimp only
    | fail_if_no_progress with_reducible apply Kept.mk' | split)

theorem State.freeUnits_kept {z0 : State} (s : State) (p q u : Nat) (hz : Kept z0 s) : Kept z0 (State.freeUnits s p q u) := by
  refine hz.trans ?_
  unfold State.freeUnits
  repeat' (first
    | with_reducible exact Kept.rfl | with_reducible assumption | with_reducible apply State.onPort_kept
    | with_reducible apply State.oweCredit_kept | with_reducible apply State.put_kept
    | with_reducible refine Kept.of_snd (by assumption) ?_ | intro _ | dsimp only
    | fail_if_no_progress with_reducible apply Kept.mk' | split)

theorem State.releaseItem_kept {z0 : State} (s : State) (it : TxItem) (hz : Kept z0 s) : Kept z0 (State.releaseItem s it) := by
  refine hz.trans ?_
  unfold State.releaseItem
  repeat' (first
    | with_reducible exact Kept.rfl | with_reducible assumption | with_reducible apply State.freeUnits_kept
    | with_reducible apply Kept.ite | with_reducible refine Kept.of_snd (by assumption) ?_ | intro _ | dsimp only
    | fail_if_no_progress with_reducible apply Kept.mk' | split)

theorem State.sendBytes_kept {z0 : State} (s : State) (n q u len fills : Nat) (l : List Byte) (eof : Bool) (hz : Kept z0 s) : Kept z0 (State.sendBytes s n q u len fills l eof) := by
  refine hz.trans ?_
  unfold State.sendBytes
  repeat' (first
    | with_reducible exact Kept.rfl | with_reducible assumption | with_reducible apply State.bump_kept
    | with_reducible apply State.emit_kept | with_reducible apply State.onPort_kept
    | with_reducible apply State.showCredit_kept | with_reducible apply State.wrap_kept
    | with_reducible apply Kept.ite | with_reducible refine Kept.of_snd (by assumption) ?_ | intro _ | dsimp only
    | fail_if_no_progress with_reducible apply Kept.mk' | split)

theorem State.sendFrame_kept {z0 : State} (s : State) (n : Nat) (f : Frame) (eof : Bool) (hz : Kept z0 s) : Kept z0 (State.sendFrame s n f eof) := by
  refine hz.trans ?_
  unfold State.sendFrame
  repeat' (first
    | with_reducible exact Kept.rfl | with_reducible assumption | with_reducible apply State.sendBytes_kept
    | with_reducible refine Kept.of_snd (by assumption) ?_ | intro _ | dsimp only
    | fail_if_no_progress with_reducible apply Kept.mk' | split)

theorem State.bufferError_kept {z0 : State} (s : State) (p : Nat) (hz : Kept z0 s) : Kept z0 (State.bufferError s p) := by
  refine hz.trans ?_
  unfold State.bufferError
  repeat' (first
    | with_reducible exact Kept.rfl | with_reducible assumption | with_reducible apply State.bump_kept
    | with_reducible apply State.fault_kept | with_reducible refine Kept.of_snd (by assumption) ?_ | intro _
    | dsimp only | fail_if_no_progress with_reducible apply Kept.mk' | split)

theorem State.sendHead_kept {z0 : State} (s : State) (n q : Nat) (hz : Kept z0 s) : Kept z0 (State.sendHead s n q) := by
  refine hz.trans ?_
  unfold State.sendHead
  repeat' (first
    | with_reducible exact Kept.rfl | with_reducible assumption | with_reducible apply State.bufferError_kept
    | with_reducible apply State.bump_kept | with_reducible apply State.onPort_kept
    | with_reducible apply State.releaseItem_kept | with_reducible apply State.sendFrame_kept
    | with_reducible apply State.showTxq_kept | with_reducible apply Kept.ite_else
    | with_reducible apply Kept.ite_then | with_reducible apply Kept.ite
    | with_reducible refine Kept.of_snd (by assumption) ?_ | intro _ | dsimp only
    | fail_if_no_progress with_reducible apply Kept.mk' | split)

theorem State.sendTimex_kept {z0 : State} (s : State) (n : Nat) (hz : Kept z0 s) : Kept z0 (State.sendTimex s n) := by
  refine hz.trans ?_
  unfold State.sendTimex
  repeat' (first
    | with_reducible exact Kept.rfl | with_reducible assumption | with_reducible apply State.emit_kept
    | with_reducible apply State.onPort_kept | with_reducible refine Kept.of_snd (by assumption) ?_ | intro _
    | dsimp only | fail_if_no_progress with_reducible apply Kept.mk' | split)

theorem State.transmit_kept {z0 : State} (s : State) (n : Nat) (stored : Bool) (hz : Kept z0 s) : Kept z0 (State.transmit s n stored) := by
  refine hz.trans ?_
  unfold State.transmit
  repeat' (first
    | with_reducible exact Kept.rfl | with_reducible assumption | with_reducible apply State.reach_kept
    | with_reducible apply State.sendHead_kept | with_reducible apply State.sendTimex_kept
    | with_reducible apply Kept.ite | with_reducible refine Kept.of_snd (by assumption) ?_ | intro _ | dsimp only
    | fail_if_no_progress with_reducible apply Kept.mk' | split)

theorem State.narrowsFirst_kept {z0 : State} (s : State) (n k : Nat) (hz : Kept z0 s) :
    Kept z0 (State.narrowsFirst s n k) := by
  induction k generalizing s with
  | zero => exact hz
  | succ k ih =>
    unfold State.narrowsFirst
    split
    · exact ih _ (State.sendHead_kept _ _ _ (State.reach_kept _ _ hz))
    · exact hz

theorem State.discard_kept {z0 : State} (s : State) (p c : Nat) (l : List Byte) (hz : Kept z0 s) : Kept z0 (State.discard s p c l) := by
  refine hz.trans ?_
  unfold State.discard
  repeat' (first
    | with_reducible exact Kept.rfl | with_reducible assumption | with_reducible apply State.bump_kept
    | with_reducible apply State.put_kept | with_reducible apply State.wrN_kept
    | with_reducible refine Kept.of_snd (by assumption) ?_ | intro _ | dsimp only
    | fail_if_no_progress with_reducible apply Kept.mk' | split)

theorem State.cutThrough_kept {z0 : State} (s : State) (n : Nat) (f : Frame) (w : HeardFrame) (good : Bool) (hz : Kept z0 s) : Kept z0 (State.cutThrough s n f w good) := by
  refine hz.trans ?_
  unfold State.cutThrough
  repeat' (first
    | with_reducible exact Kept.rfl | with_reducible assumption | with_reducible apply State.bump_kept
    | with_reducible apply State.fresh_kept | with_reducible apply State.put_kept
    | with_reducible apply State.sendBytes_kept | with_reducible apply Kept.ite_else
    | with_reducible apply Kept.ite_then | with_reducible apply Kept.ite
    | with_reducible refine Kept.of_snd (by assumption) ?_ | intro _ | dsimp only
    | fail_if_no_progress with_reducible apply Kept.mk' | split)

theorem State.accepted_kept {z0 : State} (s : State) (p : Nat) (f : Frame) (hz : Kept z0 s) : Kept z0 (State.accepted s p f) := by
  refine hz.trans ?_
  unfold State.accepted
  repeat' (first
    | with_reducible exact Kept.rfl | with_reducible assumption | with_reducible apply State.bump_kept
    | with_reducible apply State.wrap_kept | with_reducible refine Kept.of_snd (by assumption) ?_ | intro _
    | dsimp only | fail_if_no_progress with_reducible apply Kept.mk' | split)

theorem State.store_kept {z0 : State} (s : State) (p : Fin 4) (q : Nat) (f : Frame) (bad mine : Bool) (w : Way)
    (hz : Kept z0 s) : Kept z0 (State.store s p q f bad mine w) := by
  refine hz.trans ?_
  unfold State.store
  repeat' (first
    | with_reducible exact Kept.rfl | with_reducible apply State.freeUnits_kept | with_reducible apply State.drop_kept
    | with_reducible apply State.bufferError_kept | with_reducible apply State.enqueue_kept
    | with_reducible apply State.toAgents_kept | with_reducible apply State.deliver_kept
    | with_reducible apply Kept.foldl | with_reducible apply Kept.ite | intro _ | dsimp only | split)

theorem State.receiveBody_kept {z0 : State} (s : State) (p : Fin 4) (w : HeardFrame) (hz : Kept z0 s) :
    Kept z0 (State.receiveBody s p w) := by
  unfold State.receiveBody
  extract_lets f q u body way s bad s cut wrong deaf
  have h : Kept z0 s := Kept.ite (State.corrected_kept _ _ _ (State.bump_kept _ _ _ (State.takeUnits_kept _ _ _ _ hz)))
    (State.takeUnits_kept _ _ _ _ hz)
  refine h.trans ?_
  clear_value cut wrong deaf s bad way body u q f
  repeat' (first
    | with_reducible exact Kept.rfl | with_reducible apply State.freeUnits_kept | with_reducible apply State.drop_kept
    | with_reducible apply State.bufferError_kept | with_reducible apply State.store_kept
    | with_reducible apply State.discard_kept | with_reducible apply State.accepted_kept
    | with_reducible apply State.cutThrough_kept
    | with_reducible apply Kept.ite | intro _ | dsimp only | split)

theorem State.receive_kept {z0 : State} (s : State) (p : Fin 4) (w : HeardFrame) (hz : Kept z0 s) : Kept z0 (State.receive s p w) := by
  refine hz.trans ?_
  unfold State.receive
  repeat' (first
    | with_reducible exact Kept.rfl | with_reducible assumption | with_reducible apply State.bump_kept
    | with_reducible apply State.discard_kept | with_reducible apply State.fault_kept
    | with_reducible apply State.receiveBody_kept | with_reducible apply Kept.ite
    | with_reducible refine Kept.of_snd (by assumption) ?_ | intro _ | dsimp only
    | fail_if_no_progress with_reducible apply Kept.mk' | split)

theorem State.resetCredit_kept {z0 : State} (s : State) (n : Nat) (hz : Kept z0 s) : Kept z0 (State.resetCredit s n) := by
  refine hz.trans ?_
  unfold State.resetCredit
  repeat' (first
    | with_reducible exact Kept.rfl | with_reducible assumption | with_reducible apply State.onPort_kept
    | with_reducible apply State.put_kept | with_reducible apply State.showCredit_kept
    | with_reducible apply Kept.foldl | with_reducible refine Kept.of_snd (by assumption) ?_ | intro _ | dsimp only
    | fail_if_no_progress with_reducible apply Kept.mk' | split)

theorem State.dropQueued_kept {z0 : State} (s : State) (n : Nat) (hz : Kept z0 s) : Kept z0 (State.dropQueued s n) := by
  refine hz.trans ?_
  unfold State.dropQueued
  repeat' (first
    | with_reducible exact Kept.rfl | with_reducible assumption | with_reducible apply State.drop_kept
    | with_reducible apply State.onPort_kept | with_reducible apply State.releaseItem_kept
    | with_reducible apply State.showTxq_kept | with_reducible apply Kept.foldl
    | with_reducible refine Kept.of_snd (by assumption) ?_ | intro _ | dsimp only
    | fail_if_no_progress with_reducible apply Kept.mk' | split)

theorem State.forgetArrival_kept {z0 : State} (s : State) (n : Nat) (hz : Kept z0 s) : Kept z0 (State.forgetArrival s n) := by
  refine hz.trans ?_
  unfold State.forgetArrival
  repeat' (first
    | with_reducible exact Kept.rfl | with_reducible assumption | with_reducible apply Kept.ite_else
    | with_reducible apply Kept.ite_then | with_reducible apply Kept.ite
    | with_reducible refine Kept.of_snd (by assumption) ?_ | intro _ | dsimp only
    | fail_if_no_progress with_reducible apply Kept.mk' | split)

theorem State.cutShort_kept {z0 : State} (s : State) (n : Nat) (hz : Kept z0 s) : Kept z0 (State.cutShort s n) := by
  refine hz.trans ?_
  unfold State.cutShort
  repeat' (first
    | with_reducible exact Kept.rfl | with_reducible assumption | with_reducible apply State.bump_kept
    | with_reducible apply State.emit_kept | with_reducible apply State.put_kept | with_reducible apply Kept.ite_then
    | with_reducible apply Kept.ite | with_reducible refine Kept.of_snd (by assumption) ?_ | intro _ | dsimp only
    | fail_if_no_progress with_reducible apply Kept.mk' | split)

theorem State.dropLink_kept {z0 : State} (s : State) (n cause next : Nat) (hz : Kept z0 s) : Kept z0 (State.dropLink s n cause next) := by
  refine hz.trans ?_
  unfold State.dropLink
  repeat' (first
    | with_reducible exact Kept.rfl | with_reducible assumption | with_reducible apply State.bump_kept
    | with_reducible apply State.cutShort_kept | with_reducible apply State.dropQueued_kept
    | with_reducible apply State.forgetArrival_kept | with_reducible apply State.linkEvent_kept
    | with_reducible apply State.onPort_kept | with_reducible apply State.put_kept
    | with_reducible apply State.putB_kept | with_reducible apply State.resetCredit_kept
    | with_reducible apply State.setPort_kept | with_reducible refine Kept.of_snd (by assumption) ?_ | intro _
    | dsimp only | fail_if_no_progress with_reducible apply Kept.mk' | split)

theorem State.trainFail_kept {z0 : State} (s : State) (n cause : Nat) (hz : Kept z0 s) : Kept z0 (State.trainFail s n cause) := by
  refine hz.trans ?_
  unfold State.trainFail
  repeat' (first
    | with_reducible exact Kept.rfl | with_reducible assumption | with_reducible apply State.fault_kept
    | with_reducible apply State.onPort_kept | with_reducible apply State.put_kept
    | with_reducible apply State.setPort_kept | with_reducible apply Kept.ite_else
    | with_reducible apply Kept.ite_then | with_reducible apply Kept.ite
    | with_reducible refine Kept.of_snd (by assumption) ?_ | intro _ | dsimp only
    | fail_if_no_progress with_reducible apply Kept.mk' | split)

theorem State.linkDown_kept {z0 : State} (s : State) (n cause : Nat) (hz : Kept z0 s) : Kept z0 (State.linkDown s n cause) := by
  refine hz.trans ?_
  unfold State.linkDown
  repeat' (first
    | with_reducible exact Kept.rfl | with_reducible assumption | with_reducible apply State.dropLink_kept
    | with_reducible apply State.put_kept | with_reducible apply State.setPort_kept
    | with_reducible apply State.trainFail_kept | with_reducible apply Kept.ite
    | with_reducible refine Kept.of_snd (by assumption) ?_ | intro _ | dsimp only
    | fail_if_no_progress with_reducible apply Kept.mk' | split)

theorem State.beginTraining_kept {z0 : State} (s : State) (n : Nat) (hz : Kept z0 s) : Kept z0 (State.beginTraining s n) := by
  refine hz.trans ?_
  unfold State.beginTraining
  repeat' (first
    | with_reducible exact Kept.rfl | with_reducible assumption | with_reducible apply State.bump_kept
    | with_reducible apply State.onPort_kept | with_reducible apply State.put_kept
    | with_reducible apply State.setPort_kept | with_reducible refine Kept.of_snd (by assumption) ?_ | intro _
    | dsimp only | fail_if_no_progress with_reducible apply Kept.mk' | split)

theorem State.alignTraining_kept {z0 : State} (s : State) (n : Nat) (hz : Kept z0 s) : Kept z0 (State.alignTraining s n) := by
  refine hz.trans ?_
  unfold State.alignTraining
  repeat' (first
    | with_reducible exact Kept.rfl | with_reducible assumption | with_reducible apply State.emit_kept
    | with_reducible apply State.fresh_kept | with_reducible apply State.onPort_kept
    | with_reducible apply State.put_kept | with_reducible apply State.wrN_kept | with_reducible apply Kept.ite_else
    | with_reducible apply Kept.ite_then | with_reducible apply Kept.ite
    | with_reducible refine Kept.of_snd (by assumption) ?_ | intro _ | dsimp only
    | fail_if_no_progress with_reducible apply Kept.mk' | split)

theorem State.attempt_kept {z0 : State} (s : State) (n : Nat) (hz : Kept z0 s) : Kept z0 (State.attempt s n) := by
  refine hz.trans ?_
  unfold State.attempt
  repeat' (first
    | with_reducible exact Kept.rfl | with_reducible assumption | with_reducible apply State.beginTraining_kept
    | with_reducible apply State.emit_kept | with_reducible apply State.reach_kept | with_reducible apply Kept.ite
    | with_reducible refine Kept.of_snd (by assumption) ?_ | intro _ | dsimp only
    | fail_if_no_progress with_reducible apply Kept.mk' | split)

theorem State.takePeer_kept {z0 : State} (s : State) (n : Nat) (t : TrainSet) (hz : Kept z0 s) : Kept z0 (State.takePeer s n t) := by
  refine hz.trans ?_
  unfold State.takePeer
  repeat' (first
    | with_reducible exact Kept.rfl | with_reducible assumption | with_reducible apply State.put_kept
    | with_reducible apply State.put64_kept | with_reducible refine Kept.of_snd (by assumption) ?_ | intro _
    | dsimp only | fail_if_no_progress with_reducible apply Kept.mk' | split)

theorem State.linkUp_kept {z0 : State} (s : State) (n : Nat) (t : TrainSet) (hz : Kept z0 s) : Kept z0 (State.linkUp s n t) := by
  refine hz.trans ?_
  unfold State.linkUp
  repeat' (first
    | with_reducible exact Kept.rfl | with_reducible assumption | with_reducible apply State.acquire_kept
    | with_reducible apply State.endCond_kept | with_reducible apply State.linkEvent_kept
    | with_reducible apply State.onPort_kept | with_reducible apply State.promoteAll_kept
    | with_reducible apply State.put_kept | with_reducible apply State.resetCredit_kept
    | with_reducible apply State.sendCredit_kept | with_reducible apply State.setPort_kept
    | with_reducible apply State.showCredit_kept | with_reducible apply State.takePeer_kept
    | with_reducible apply Kept.ite_else | with_reducible apply Kept.ite_then | with_reducible apply Kept.ite
    | with_reducible apply Kept.foldl | with_reducible refine Kept.of_snd (by assumption) ?_ | intro _ | dsimp only
    | fail_if_no_progress with_reducible apply Kept.mk' | split)

theorem State.trainStep_kept {z0 : State} (s : State) (n : Nat) (t : TrainSet) (hz : Kept z0 s) : Kept z0 (State.trainStep s n t) := by
  refine hz.trans ?_
  unfold State.trainStep
  repeat' (first
    | with_reducible exact Kept.rfl | with_reducible assumption | with_reducible apply State.emit_kept
    | with_reducible apply State.linkUp_kept | with_reducible apply State.onPort_kept
    | with_reducible apply State.put_kept | with_reducible apply State.reach_kept | with_reducible apply Kept.ite_else
    | with_reducible apply Kept.ite_then | with_reducible apply Kept.ite
    | with_reducible refine Kept.of_snd (by assumption) ?_ | intro _ | dsimp only
    | fail_if_no_progress with_reducible apply Kept.mk' | split)

theorem State.train_kept {z0 : State} (s : State) (n : Nat) (t : TrainSet) (hz : Kept z0 s) : Kept z0 (State.train s n t) := by
  refine hz.trans ?_
  unfold State.train
  repeat' (first
    | with_reducible exact Kept.rfl | with_reducible assumption | with_reducible apply State.linkDown_kept
    | with_reducible apply State.onPort_kept | with_reducible apply State.trainStep_kept
    | with_reducible apply Kept.ite | with_reducible refine Kept.of_snd (by assumption) ?_ | intro _ | dsimp only
    | fail_if_no_progress with_reducible apply Kept.mk' | split)

theorem State.writePortCtrl_kept {z0 : State} (s : State) (n : Nat) (v : Word) (hz : Kept z0 s) : Kept z0 (State.writePortCtrl s n v) := by
  refine hz.trans ?_
  unfold State.writePortCtrl
  repeat' (first
    | with_reducible exact Kept.rfl | with_reducible assumption | with_reducible apply State.emit_kept
    | with_reducible apply State.linkDown_kept | with_reducible apply State.onPort_kept
    | with_reducible apply State.setPort_kept | with_reducible apply Kept.ite
    | with_reducible refine Kept.of_snd (by assumption) ?_ | intro _ | dsimp only
    | fail_if_no_progress with_reducible apply Kept.mk' | split)

theorem State.endPrbs_kept {z0 : State} (s : State) (n : Nat) (hz : Kept z0 s) : Kept z0 (State.endPrbs s n) := by
  refine hz.trans ?_
  unfold State.endPrbs
  repeat' (first
    | with_reducible exact Kept.rfl | with_reducible assumption | with_reducible apply State.bump_kept
    | with_reducible apply State.fresh_kept | with_reducible refine Kept.of_snd (by assumption) ?_ | intro _
    | dsimp only | fail_if_no_progress with_reducible apply Kept.mk' | split)

theorem State.writePortTest_kept {z0 : State} (s : State) (i : Initiator) (n : Nat) (v : Word) (hz : Kept z0 s) : Kept z0 (State.writePortTest s i n v) := by
  refine hz.trans ?_
  unfold State.writePortTest
  repeat' (first
    | with_reducible exact Kept.rfl | with_reducible assumption | with_reducible apply State.dropLink_kept
    | with_reducible apply State.endPrbs_kept | with_reducible apply State.fresh_kept
    | with_reducible apply State.plainWrite_kept | with_reducible apply State.setPort_kept
    | with_reducible apply Kept.ite | with_reducible refine Kept.of_snd (by assumption) ?_ | intro _ | dsimp only
    | fail_if_no_progress with_reducible apply Kept.mk' | split)

theorem State.followEnable_kept {z0 : State} (s : State) (n : Nat) (hz : Kept z0 s) : Kept z0 (State.followEnable s n) := by
  refine hz.trans ?_
  unfold State.followEnable
  repeat' (first
    | with_reducible exact Kept.rfl | with_reducible assumption | with_reducible apply State.linkDown_kept
    | with_reducible apply State.setPort_kept | with_reducible apply Kept.ite
    | with_reducible refine Kept.of_snd (by assumption) ?_ | intro _ | dsimp only
    | fail_if_no_progress with_reducible apply Kept.mk' | split)

theorem State.writePortCfg_kept {z0 : State} (s : State) (i : Initiator) (n : Nat) (v : Word) (hz : Kept z0 s) : Kept z0 (State.writePortCfg s i n v) := by
  refine hz.trans ?_
  unfold State.writePortCfg
  repeat' (first
    | with_reducible exact Kept.rfl | with_reducible assumption | with_reducible apply State.followEnable_kept
    | with_reducible apply State.plainWrite_kept | with_reducible apply State.put_kept
    | with_reducible apply Kept.ite_else | with_reducible apply Kept.ite_then | with_reducible apply Kept.ite
    | with_reducible refine Kept.of_snd (by assumption) ?_ | intro _ | dsimp only
    | fail_if_no_progress with_reducible apply Kept.mk' | split)

theorem State.writeFabCtrl_kept {z0 : State} (s : State) (i : Initiator) (v : Word) (hz : Kept z0 s) : Kept z0 (State.writeFabCtrl s i v) := by
  refine hz.trans ?_
  unfold State.writeFabCtrl
  repeat' (first
    | with_reducible exact Kept.rfl | with_reducible assumption | with_reducible apply State.followEnable_kept
    | with_reducible apply State.plainWrite_kept | with_reducible apply Kept.foldl
    | with_reducible refine Kept.of_snd (by assumption) ?_ | intro _ | dsimp only
    | fail_if_no_progress with_reducible apply Kept.mk' | split)

theorem execFrameReceive_kept (p : Fin 4) (w : WireFrame) (s : State) : KeptO s (execFrameReceive p w s) := by
  unfold execFrameReceive
  repeat' (first
    | with_reducible exact Kept.rfl | with_reducible assumption | with_reducible apply State.receive_kept
    | with_reducible apply KeptO.next | with_reducible apply KeptO.ite
    | with_reducible refine Kept.of_snd (by assumption) ?_ | intro _ | dsimp only
    | fail_if_no_progress with_reducible apply Kept.mk' | split)

theorem execStoreAndForward_kept (p : Fin 4) (s : State) : KeptO s (execStoreAndForward p s) := by
  unfold execStoreAndForward
  repeat' (first
    | with_reducible exact Kept.rfl | with_reducible assumption | with_reducible apply State.transmit_kept
    | with_reducible apply KeptO.next | with_reducible apply KeptO.ite
    | with_reducible refine Kept.of_snd (by assumption) ?_ | intro _ | dsimp only
    | fail_if_no_progress with_reducible apply Kept.mk' | split)

theorem execFrameTransmit_kept (p : Fin 4) (s : State) : KeptO s (execFrameTransmit p s) := by
  unfold execFrameTransmit
  repeat' (first
    | with_reducible exact Kept.rfl | with_reducible assumption | with_reducible apply State.transmit_kept
    | with_reducible apply KeptO.next | with_reducible apply KeptO.ite
    | with_reducible refine Kept.of_snd (by assumption) ?_ | intro _ | dsimp only
    | fail_if_no_progress with_reducible apply Kept.mk' | split)

theorem execCreditReceive_kept (p : Fin 4) (qb c : Byte) (s : State) : KeptO s (execCreditReceive p qb c s) := by
  unfold execCreditReceive
  repeat' (first
    | with_reducible exact Kept.rfl | with_reducible assumption | with_reducible apply State.bump_kept
    | with_reducible apply State.onPort_kept | with_reducible apply State.showCredit_kept
    | with_reducible apply KeptO.next | with_reducible apply KeptO.ite | with_reducible apply Kept.ite_else
    | with_reducible apply Kept.ite_then | with_reducible apply Kept.ite
    | with_reducible refine Kept.of_snd (by assumption) ?_ | intro _ | dsimp only
    | fail_if_no_progress with_reducible apply Kept.mk' | split)

theorem execCreditRefresh_kept (p : Fin 4) (s : State) : KeptO s (execCreditRefresh p s) := by
  unfold execCreditRefresh
  repeat' (first
    | with_reducible exact Kept.rfl | with_reducible assumption | with_reducible apply State.onPort_kept
    | with_reducible apply State.sendCredit_kept | with_reducible apply KeptO.next | with_reducible apply KeptO.ite
    | with_reducible apply Kept.foldl | with_reducible refine Kept.of_snd (by assumption) ?_ | intro _ | dsimp only
    | fail_if_no_progress with_reducible apply Kept.mk' | split)

theorem State.stall_kept {z0 : State} (s : State) (p : Nat) (hz : Kept z0 s) : Kept z0 (State.stall s p) := by
  refine hz.trans ?_
  unfold State.stall
  repeat' (first
    | with_reducible exact Kept.rfl | with_reducible assumption | with_reducible apply State.collect_kept
    | with_reducible apply State.linkDown_kept | with_reducible apply State.openShadow_kept
    | with_reducible apply Kept.ite_else | with_reducible apply Kept.ite_then | with_reducible apply Kept.ite
    | with_reducible refine Kept.of_snd (by assumption) ?_ | intro _ | dsimp only
    | fail_if_no_progress with_reducible apply Kept.mk' | split)

theorem execCreditStall_kept (p : Fin 4) (s : State) : KeptO s (execCreditStall p s) := by
  unfold execCreditStall
  repeat' (first
    | with_reducible exact Kept.rfl | with_reducible assumption | with_reducible apply State.reach_kept
    | with_reducible apply State.stall_kept | with_reducible apply KeptO.next | with_reducible apply KeptO.ite
    | with_reducible refine Kept.of_snd (by assumption) ?_ | intro _ | dsimp only
    | fail_if_no_progress with_reducible apply Kept.mk' | split)

theorem execHazardReceive_kept (src : HazardSource) (s : State) : KeptO s (execHazardReceive src s) := by
  unfold execHazardReceive
  repeat' (first
    | with_reducible exact Kept.rfl | with_reducible assumption | with_reducible apply State.bump_kept
    | with_reducible apply State.floodHazard_kept | with_reducible apply State.raiseHaz_kept
    | with_reducible apply KeptO.next | with_reducible apply KeptO.ite | with_reducible apply Kept.ite_else
    | with_reducible apply Kept.ite_then | with_reducible apply Kept.ite
    | with_reducible refine Kept.of_snd (by assumption) ?_ | intro _ | dsimp only
    | fail_if_no_progress with_reducible apply Kept.mk' | split)

theorem execHazardHoldExpiry_kept (s : State) : KeptO s (execHazardHoldExpiry s) := by
  unfold execHazardHoldExpiry
  repeat' (first
    | with_reducible exact Kept.rfl | with_reducible assumption | with_reducible apply State.putB_kept
    | with_reducible apply State.reach_kept | with_reducible apply KeptO.next | with_reducible apply KeptO.ite
    | with_reducible apply Kept.ite_else | with_reducible apply Kept.ite_then | with_reducible apply Kept.ite
    | with_reducible refine Kept.of_snd (by assumption) ?_ | intro _ | dsimp only
    | fail_if_no_progress with_reducible apply Kept.mk' | split)

theorem execLinkTraining_kept (p : Fin 4) (s : State) : KeptO s (execLinkTraining p s) := by
  unfold execLinkTraining
  repeat' (first
    | with_reducible exact Kept.rfl | with_reducible assumption | with_reducible apply State.attempt_kept
    | with_reducible apply State.beginTraining_kept | with_reducible apply State.reach_kept
    | with_reducible apply KeptO.next | with_reducible apply KeptO.ite | with_reducible apply Kept.ite
    | with_reducible refine Kept.of_snd (by assumption) ?_ | intro _ | dsimp only
    | fail_if_no_progress with_reducible apply Kept.mk' | split)

theorem execTrainReceive_kept (p : Fin 4) (l : List Byte) (s : State) : KeptO s (execTrainReceive p l s) := by
  unfold execTrainReceive
  repeat' (first
    | with_reducible exact Kept.rfl | with_reducible assumption | with_reducible apply State.train_kept
    | with_reducible apply KeptO.next | with_reducible apply KeptO.ite
    | with_reducible refine Kept.of_snd (by assumption) ?_ | intro _ | dsimp only
    | fail_if_no_progress with_reducible apply Kept.mk' | split)

theorem execTrainingTimeout_kept (p : Fin 4) (s : State) : KeptO s (execTrainingTimeout p s) := by
  unfold execTrainingTimeout
  repeat' (first
    | with_reducible exact Kept.rfl | with_reducible assumption | with_reducible apply State.linkDown_kept
    | with_reducible apply State.reach_kept | with_reducible apply KeptO.next | with_reducible apply KeptO.ite
    | with_reducible apply Kept.ite_else | with_reducible apply Kept.ite_then | with_reducible apply Kept.ite
    | with_reducible refine Kept.of_snd (by assumption) ?_ | intro _ | dsimp only
    | fail_if_no_progress with_reducible apply Kept.mk' | split)

theorem execTrainingRetry_kept (p : Fin 4) (s : State) : KeptO s (execTrainingRetry p s) := by
  unfold execTrainingRetry
  repeat' (first
    | with_reducible exact Kept.rfl | with_reducible assumption | with_reducible apply State.attempt_kept
    | with_reducible apply State.reach_kept | with_reducible apply KeptO.next | with_reducible apply KeptO.ite
    | with_reducible apply Kept.ite_else | with_reducible apply Kept.ite_then | with_reducible apply Kept.ite
    | with_reducible refine Kept.of_snd (by assumption) ?_ | intro _ | dsimp only
    | fail_if_no_progress with_reducible apply Kept.mk' | split)

theorem execLinkDown_kept (p : Fin 4) (cause : Fin 13) (s : State) : KeptO s (execLinkDown p cause s) := by
  unfold execLinkDown
  repeat' (first
    | with_reducible exact Kept.rfl | with_reducible assumption | with_reducible apply State.linkDown_kept
    | with_reducible apply KeptO.next | with_reducible apply KeptO.ite
    | with_reducible refine Kept.of_snd (by assumption) ?_ | intro _ | dsimp only
    | fail_if_no_progress with_reducible apply Kept.mk' | split)

theorem execPortRetrain_kept (p : Fin 4) (i : Initiator) (v : Word) (s : State) : KeptO s (execPortRetrain p i v s) := by
  unfold execPortRetrain
  repeat' (first
    | with_reducible exact Kept.rfl | with_reducible assumption | with_reducible apply State.writePortCtrl_kept
    | with_reducible apply State.writeRow_kept | with_reducible apply KeptO.next | with_reducible apply KeptO.ite
    | with_reducible refine Kept.of_snd (by assumption) ?_ | intro _ | dsimp only
    | fail_if_no_progress with_reducible apply Kept.mk' | split)

theorem execPortWake_kept (p : Fin 4) (i : Initiator) (v : Word) (s : State) : KeptO s (execPortWake p i v s) := by
  unfold execPortWake
  repeat' (first
    | with_reducible exact Kept.rfl | with_reducible assumption | with_reducible apply State.writePortCtrl_kept
    | with_reducible apply State.writeRow_kept | with_reducible apply KeptO.next | with_reducible apply KeptO.ite
    | with_reducible refine Kept.of_snd (by assumption) ?_ | intro _ | dsimp only
    | fail_if_no_progress with_reducible apply Kept.mk' | split)

theorem execPortLoopback_kept (p : Fin 4) (i : Initiator) (v : Word) (s : State) : KeptO s (execPortLoopback p i v s) := by
  unfold execPortLoopback
  repeat' (first
    | with_reducible exact Kept.rfl | with_reducible assumption | with_reducible apply State.writePortTest_kept
    | with_reducible apply State.writeRow_kept | with_reducible apply KeptO.next | with_reducible apply KeptO.ite
    | with_reducible refine Kept.of_snd (by assumption) ?_ | intro _ | dsimp only
    | fail_if_no_progress with_reducible apply Kept.mk' | split)

theorem execPortPrbs_kept (p : Fin 4) (i : Initiator) (v : Word) (s : State) : KeptO s (execPortPrbs p i v s) := by
  unfold execPortPrbs
  repeat' (first
    | with_reducible exact Kept.rfl | with_reducible assumption | with_reducible apply State.writePortTest_kept
    | with_reducible apply State.writeRow_kept | with_reducible apply KeptO.next | with_reducible apply KeptO.ite
    | with_reducible refine Kept.of_snd (by assumption) ?_ | intro _ | dsimp only
    | fail_if_no_progress with_reducible apply Kept.mk' | split)

theorem execCommaAlignment_kept (p : Fin 4) (s : State) : KeptO s (execCommaAlignment p s) := by
  unfold execCommaAlignment
  repeat' (first
    | with_reducible exact Kept.rfl | with_reducible assumption | with_reducible apply State.alignTraining_kept
    | with_reducible apply KeptO.next | with_reducible apply KeptO.ite
    | with_reducible refine Kept.of_snd (by assumption) ?_ | intro _ | dsimp only
    | fail_if_no_progress with_reducible apply Kept.mk' | split)

theorem execWakeToneDetect_kept (p : Fin 4) (s : State) : KeptO s (execWakeToneDetect p s) := by
  unfold execWakeToneDetect
  repeat' (first
    | with_reducible exact Kept.rfl | with_reducible assumption | with_reducible apply State.beginTraining_kept
    | with_reducible apply State.onPort_kept | with_reducible apply State.put_kept
    | with_reducible apply State.putBit_kept | with_reducible apply State.wakeRequest_kept
    | with_reducible apply KeptO.next | with_reducible apply KeptO.ite | with_reducible apply Kept.ite_else
    | with_reducible apply Kept.ite_then | with_reducible apply Kept.ite | with_reducible apply Kept.getD
    | with_reducible refine Kept.of_snd (by assumption) ?_ | intro _ | dsimp only
    | fail_if_no_progress with_reducible apply Kept.mk' | split)

theorem execWakeToneHeld_kept (p : Fin 4) (s : State) : KeptO s (execWakeToneHeld p s) := by
  unfold execWakeToneHeld
  repeat' (first
    | with_reducible exact Kept.rfl | with_reducible assumption | with_reducible apply State.onPort_kept
    | with_reducible apply State.putBit_kept | with_reducible apply State.reach_kept | with_reducible apply KeptO.next
    | with_reducible apply KeptO.ite | with_reducible refine Kept.of_snd (by assumption) ?_ | intro _ | dsimp only
    | fail_if_no_progress with_reducible apply Kept.mk' | split)

theorem execWakeToneAbsent_kept (p : Fin 4) (s : State) : KeptO s (execWakeToneAbsent p s) := by
  unfold execWakeToneAbsent
  repeat' (first
    | with_reducible exact Kept.rfl | with_reducible assumption | with_reducible apply State.onPort_kept
    | with_reducible apply KeptO.next | with_reducible apply KeptO.ite
    | with_reducible refine Kept.of_snd (by assumption) ?_ | intro _ | dsimp only
    | fail_if_no_progress with_reducible apply Kept.mk' | split)

end Sys2Proof.Machine
end

