-- ==== Sys2Proof/Laws/KeptSounding.lean ====
section
/-! SUPPORT. Every operation of Machine/Sounding.lean keeps what `Kept` says. -/

set_option linter.unusedTactic false
set_option linter.unreachableTactic false
set_option linter.unusedVariables false

namespace Sys2Proof.Machine

set_option Elab.async false

theorem State.leaveHarbour_kept {z0 : State} (s : State) (hz : Kept z0 s) : Kept z0 (State.leaveHarbour s) := by
  refine hz.trans ?_
  unfold State.leaveHarbour
  repeat' (first
    | with_reducible exact Kept.rfl | with_reducible assumption | with_reducible apply State.acquire_kept
    | with_reducible apply State.commit_kept | with_reducible apply State.put_kept
    | with_reducible refine Kept.of_snd (by assumption) ?_ | intro _ | dsimp only
    | fail_if_no_progress with_reducible apply Kept.mk' | split)

theorem State.demote_kept {z0 : State} (s : State) (hz : Kept z0 s) : Kept z0 (State.demote s) := by
  refine hz.trans ?_
  unfold State.demote
  repeat' (first
    | with_reducible exact Kept.rfl | with_reducible assumption | with_reducible apply State.fault_kept
    | with_reducible apply State.leaveHarbour_kept | with_reducible refine Kept.of_snd (by assumption) ?_ | intro _
    | dsimp only | fail_if_no_progress with_reducible apply Kept.mk' | split)

theorem State.joinStandby_kept {z0 : State} (s : State) (hz : Kept z0 s) : Kept z0 (State.joinStandby s) := by
  refine hz.trans ?_
  unfold State.joinStandby
  repeat' (first
    | with_reducible exact Kept.rfl | with_reducible assumption | with_reducible apply State.put_kept
    | with_reducible apply Kept.ite_else | with_reducible apply Kept.ite_then | with_reducible apply Kept.ite
    | with_reducible refine Kept.of_snd (by assumption) ?_ | intro _ | dsimp only
    | fail_if_no_progress with_reducible apply Kept.mk' | split)

theorem State.soundCheck_kept {z0 : State} (s : State) (p : Nat) (f : Frame) (hz : Kept z0 s) : Kept z0 (State.soundCheck s p f).2 := by
  refine hz.trans ?_
  unfold State.soundCheck
  repeat' (first
    | with_reducible exact Kept.rfl | with_reducible assumption | with_reducible apply State.bump_kept
    | with_reducible apply State.commit_kept | with_reducible apply State.demote_kept
    | with_reducible apply State.put_kept | with_reducible apply State.put64_kept | with_reducible apply Kept.ite_else
    | with_reducible apply Kept.ite_then | with_reducible apply Kept.ite | with_reducible apply Kept.pair_ite
    | with_reducible apply Kept.foldl | with_reducible refine Kept.of_snd (by assumption) ?_ | intro _ | dsimp only
    | fail_if_no_progress with_reducible apply Kept.mk' | split)

theorem State.relayFlood_kept {z0 : State} (s : State) (p : Nat) (f : Frame) (hz : Kept z0 s) : Kept z0 (State.relayFlood s p f) := by
  refine hz.trans ?_
  unfold State.relayFlood
  repeat' (first
    | with_reducible exact Kept.rfl | with_reducible assumption | with_reducible apply State.sendHop_kept
    | with_reducible apply Kept.foldl | with_reducible refine Kept.of_snd (by assumption) ?_ | intro _ | dsimp only
    | fail_if_no_progress with_reducible apply Kept.mk' | split)

theorem State.relayParent_kept {z0 : State} (s : State) (f : Frame) (m : Option Nat) (hz : Kept z0 s) : Kept z0 (State.relayParent s f m) := by
  refine hz.trans ?_
  unfold State.relayParent
  repeat' (first
    | with_reducible exact Kept.rfl | with_reducible assumption | with_reducible apply State.bump_kept
    | with_reducible apply State.sendHop_kept | with_reducible apply Kept.ite_else
    | with_reducible apply Kept.ite_then | with_reducible apply Kept.ite | with_reducible apply Kept.foldl
    | with_reducible refine Kept.of_snd (by assumption) ?_ | intro _ | dsimp only
    | fail_if_no_progress with_reducible apply Kept.mk' | split)

theorem State.flood_kept {z0 : State} (s : State) (p : Nat) (f : Frame) (hz : Kept z0 s) : Kept z0 (State.flood s p f) := by
  refine hz.trans ?_
  unfold State.flood
  repeat' (first
    | with_reducible exact Kept.rfl | with_reducible assumption | with_reducible apply State.bump_kept
    | with_reducible apply State.commit_kept | with_reducible apply State.joinStandby_kept
    | with_reducible apply State.put_kept | with_reducible apply State.putB_kept
    | with_reducible apply State.sendSound_kept | with_reducible apply State.soundCheck_kept
    | with_reducible apply Kept.ite | with_reducible apply Kept.foldl
    | with_reducible refine Kept.of_snd (by assumption) ?_ | intro _ | dsimp only
    | fail_if_no_progress with_reducible apply Kept.mk' | split)

theorem State.recordReport_kept {z0 : State} (s : State) (f : Frame) (hz : Kept z0 s) : Kept z0 (State.recordReport s f) := by
  refine hz.trans ?_
  unfold State.recordReport
  repeat' (first
    | with_reducible exact Kept.rfl | with_reducible assumption | with_reducible apply State.put_kept
    | with_reducible apply Kept.ite_else | with_reducible apply Kept.ite_then | with_reducible apply Kept.ite
    | with_reducible refine Kept.of_snd (by assumption) ?_ | intro _ | dsimp only
    | fail_if_no_progress with_reducible apply Kept.mk' | split)

theorem State.sendAssign_kept {z0 : State} (s : State) (a : Assign) (hz : Kept z0 s) : Kept z0 (State.sendAssign s a) := by
  refine hz.trans ?_
  unfold State.sendAssign
  repeat' (first
    | with_reducible exact Kept.rfl | with_reducible assumption | with_reducible apply State.sendSound_kept
    | with_reducible refine Kept.of_snd (by assumption) ?_ | intro _ | dsimp only
    | fail_if_no_progress with_reducible apply Kept.mk' | split)

theorem State.onRound_kept {z0 : State} (s : State) (f : RoundSt → RoundSt) (hz : Kept z0 s) : Kept z0 (State.onRound s f) := by
  refine hz.trans ?_
  unfold State.onRound
  repeat' (first
    | with_reducible exact Kept.rfl | with_reducible assumption | with_reducible refine Kept.of_snd (by assumption) ?_
    | intro _ | dsimp only | fail_if_no_progress with_reducible apply Kept.mk' | split)

theorem State.floodCommit_kept {z0 : State} (s : State) (hz : Kept z0 s) : Kept z0 (State.floodCommit s) := by
  refine hz.trans ?_
  unfold State.floodCommit
  repeat' (first
    | with_reducible exact Kept.rfl | with_reducible assumption | with_reducible apply State.commit_kept
    | with_reducible apply State.onRound_kept | with_reducible apply State.put_kept
    | with_reducible apply State.sendSound_kept | with_reducible apply Kept.foldl
    | with_reducible refine Kept.of_snd (by assumption) ?_ | intro _ | dsimp only
    | fail_if_no_progress with_reducible apply Kept.mk' | split)

theorem State.beginAssign_kept {z0 : State} (s : State) (m : List Report) (marks : List (Nat × Nat)) (hz : Kept z0 s) : Kept z0 (State.beginAssign s m marks) := by
  refine hz.trans ?_
  unfold State.beginAssign
  repeat' (first
    | with_reducible exact Kept.rfl | with_reducible assumption | with_reducible apply State.floodCommit_kept
    | with_reducible apply State.onRound_kept | with_reducible apply State.put_kept
    | with_reducible apply State.putB_kept | with_reducible apply State.sendAssign_kept
    | with_reducible apply Kept.ite_else | with_reducible apply Kept.ite_then | with_reducible apply Kept.ite
    | with_reducible apply Kept.foldl | with_reducible refine Kept.of_snd (by assumption) ?_ | intro _ | dsimp only
    | fail_if_no_progress with_reducible apply Kept.mk' | split)

theorem State.holdOff_kept {z0 : State} (s : State) (hz : Kept z0 s) : Kept z0 (State.holdOff s) := by
  refine hz.trans ?_
  unfold State.holdOff
  repeat' (first
    | with_reducible exact Kept.rfl | with_reducible assumption | with_reducible apply State.onRound_kept
    | with_reducible refine Kept.of_snd (by assumption) ?_ | intro _ | dsimp only
    | fail_if_no_progress with_reducible apply Kept.mk' | split)

theorem State.keepTables_kept {z0 : State} (s : State) (marks : List (Nat × Nat)) (hz : Kept z0 s) : Kept z0 (State.keepTables s marks) := by
  refine hz.trans ?_
  unfold State.keepTables
  repeat' (first
    | with_reducible exact Kept.rfl | with_reducible assumption | with_reducible apply State.onRound_kept
    | with_reducible apply State.put_kept | with_reducible apply State.putB_kept
    | with_reducible apply State.sendAssign_kept | with_reducible apply Kept.ite | with_reducible apply Kept.foldl
    | with_reducible refine Kept.of_snd (by assumption) ?_ | intro _ | dsimp only
    | fail_if_no_progress with_reducible apply Kept.mk' | split)

theorem State.settle_kept {z0 : State} (s : State) (hz : Kept z0 s) : Kept z0 (State.settle s) := by
  refine hz.trans ?_
  unfold State.settle
  repeat' (first
    | with_reducible exact Kept.rfl | with_reducible assumption | with_reducible apply State.beginAssign_kept
    | with_reducible apply State.bump_kept | with_reducible apply State.fault_kept
    | with_reducible apply State.holdOff_kept | with_reducible apply State.keepTables_kept
    | with_reducible apply State.put_kept | with_reducible refine Kept.of_snd (by assumption) ?_ | intro _
    | dsimp only | fail_if_no_progress with_reducible apply Kept.mk' | split)

theorem State.changedRound_kept {z0 : State} (s : State) (hz : Kept z0 s) : Kept z0 (State.changedRound s) := by
  refine hz.trans ?_
  unfold State.changedRound
  repeat' (first
    | with_reducible exact Kept.rfl | with_reducible assumption | with_reducible apply State.sendSound_kept
    | with_reducible apply State.settle_kept | with_reducible apply State.startRound_kept
    | with_reducible apply Kept.ite | with_reducible apply Kept.foldl
    | with_reducible refine Kept.of_snd (by assumption) ?_ | intro _ | dsimp only
    | fail_if_no_progress with_reducible apply Kept.mk' | split)

theorem State.finishAssign_kept {z0 : State} (s : State) (hz : Kept z0 s) : Kept z0 (State.finishAssign s) := by
  refine hz.trans ?_
  unfold State.finishAssign
  repeat' (first
    | with_reducible exact Kept.rfl | with_reducible assumption | with_reducible apply State.beginAssign_kept
    | with_reducible apply State.changedRound_kept | with_reducible apply State.floodCommit_kept
    | with_reducible apply Kept.ite | with_reducible refine Kept.of_snd (by assumption) ?_ | intro _ | dsimp only
    | fail_if_no_progress with_reducible apply Kept.mk' | split)

theorem State.closeCollection_kept {z0 : State} (s : State) (hz : Kept z0 s) : Kept z0 (State.closeCollection s) := by
  refine hz.trans ?_
  unfold State.closeCollection
  repeat' (first
    | with_reducible exact Kept.rfl | with_reducible assumption | with_reducible apply State.beginAssign_kept
    | with_reducible apply State.changedRound_kept | with_reducible apply State.onRound_kept
    | with_reducible apply State.put_kept | with_reducible apply State.reach_kept | with_reducible apply Kept.ite
    | with_reducible refine Kept.of_snd (by assumption) ?_ | intro _ | dsimp only
    | fail_if_no_progress with_reducible apply Kept.mk' | split)

theorem State.takeAssign_kept {z0 : State} (s : State) (p : Nat) (f : Frame) (hz : Kept z0 s) : Kept z0 (State.takeAssign s p f) := by
  refine hz.trans ?_
  unfold State.takeAssign
  repeat' (first
    | with_reducible exact Kept.rfl | with_reducible assumption | with_reducible apply State.bump_kept
    | with_reducible apply State.drop_kept | with_reducible apply State.sendHop_kept
    | with_reducible apply State.sendSound_kept | with_reducible apply State.soundCheck_kept
    | with_reducible apply Kept.ite | with_reducible refine Kept.of_snd (by assumption) ?_ | intro _ | dsimp only
    | fail_if_no_progress with_reducible apply Kept.mk' | split)

theorem State.takeAck_kept {z0 : State} (s : State) (f : Frame) (hz : Kept z0 s) : Kept z0 (State.takeAck s f) := by
  refine hz.trans ?_
  unfold State.takeAck
  repeat' (first
    | with_reducible exact Kept.rfl | with_reducible assumption | with_reducible apply State.finishAssign_kept
    | with_reducible apply State.onRound_kept | with_reducible apply Kept.ite_else
    | with_reducible apply Kept.ite_then | with_reducible apply Kept.ite
    | with_reducible refine Kept.of_snd (by assumption) ?_ | intro _ | dsimp only
    | fail_if_no_progress with_reducible apply Kept.mk' | split)

theorem State.takeCommit_kept {z0 : State} (s : State) (p : Nat) (f : Frame) (hz : Kept z0 s) : Kept z0 (State.takeCommit s p f) := by
  refine hz.trans ?_
  unfold State.takeCommit
  repeat' (first
    | with_reducible exact Kept.rfl | with_reducible assumption | with_reducible apply State.bump_kept
    | with_reducible apply State.commit_kept | with_reducible apply State.put_kept
    | with_reducible apply State.relayFlood_kept | with_reducible apply State.soundCheck_kept
    | with_reducible apply Kept.ite | with_reducible refine Kept.of_snd (by assumption) ?_ | intro _ | dsimp only
    | fail_if_no_progress with_reducible apply Kept.mk' | split)

theorem State.takeRestart_kept {z0 : State} (s : State) (p : Nat) (f : Frame) (hz : Kept z0 s) : Kept z0 (State.takeRestart s p f) := by
  refine hz.trans ?_
  unfold State.takeRestart
  repeat' (first
    | with_reducible exact Kept.rfl | with_reducible assumption | with_reducible apply State.commit_kept
    | with_reducible apply State.put_kept | with_reducible apply State.relayFlood_kept
    | with_reducible apply State.soundCheck_kept | with_reducible apply Kept.ite
    | with_reducible refine Kept.of_snd (by assumption) ?_ | intro _ | dsimp only
    | fail_if_no_progress with_reducible apply Kept.mk' | split)

theorem State.harbourAsk_kept {z0 : State} (s : State) (dst a op : Nat) (data : List Byte) (hz : Kept z0 s) : Kept z0 (State.harbourAsk s dst a op data) := by
  refine hz.trans ?_
  unfold State.harbourAsk
  repeat' (first
    | with_reducible exact Kept.rfl | with_reducible assumption | with_reducible refine Kept.of_snd (by assumption) ?_
    | intro _ | dsimp only | fail_if_no_progress with_reducible apply Kept.mk' | split)

theorem State.harbourWrite_kept {z0 : State} (s : State) (dst a w : Nat) (hz : Kept z0 s) : Kept z0 (State.harbourWrite s dst a w) := by
  refine hz.trans ?_
  unfold State.harbourWrite
  repeat' (first
    | with_reducible exact Kept.rfl | with_reducible assumption | with_reducible apply State.harbourAsk_kept
    | with_reducible refine Kept.of_snd (by assumption) ?_ | intro _ | dsimp only
    | fail_if_no_progress with_reducible apply Kept.mk' | split)

theorem State.imposeDecim_kept {z0 : State} (s : State) (d : Nat) (hz : Kept z0 s) : Kept z0 (State.imposeDecim s d) := by
  refine hz.trans ?_
  unfold State.imposeDecim
  repeat' (first
    | with_reducible exact Kept.rfl | with_reducible assumption | with_reducible apply State.harbourWrite_kept
    | with_reducible apply State.put_kept | with_reducible apply Kept.foldl | with_reducible apply Kept.foldl_snd
    | with_reducible refine Kept.of_snd (by assumption) ?_ | intro _ | dsimp only
    | fail_if_no_progress with_reducible apply Kept.mk' | split)

theorem State.snapshotPlan_kept {z0 : State} (s : State) (p : Nat) (hz : Kept z0 s) : Kept z0 (State.snapshotPlan s p) := by
  refine hz.trans ?_
  unfold State.snapshotPlan
  repeat' (first
    | with_reducible exact Kept.rfl | with_reducible assumption | with_reducible apply State.imposeDecim_kept
    | with_reducible apply State.wrN_kept | with_reducible apply Kept.ite
    | with_reducible refine Kept.of_snd (by assumption) ?_ | intro _ | dsimp only
    | fail_if_no_progress with_reducible apply Kept.mk' | split)

theorem State.askPeriod_kept {z0 : State} (s : State) (p : Nat) (hz : Kept z0 s) : Kept z0 (State.askPeriod s p) := by
  refine hz.trans ?_
  unfold State.askPeriod
  repeat' (first
    | with_reducible exact Kept.rfl | with_reducible assumption | with_reducible apply State.fresh_kept
    | with_reducible apply State.put_kept | with_reducible apply State.refused_kept
    | with_reducible apply State.snapshotPlan_kept | with_reducible apply State.wrN_kept
    | with_reducible apply Kept.ite | with_reducible refine Kept.of_snd (by assumption) ?_ | intro _ | dsimp only
    | fail_if_no_progress with_reducible apply Kept.mk' | split)

theorem State.ownPeriod_kept {z0 : State} (s : State) (hz : Kept z0 s) : Kept z0 (State.ownPeriod s) := by
  refine hz.trans ?_
  unfold State.ownPeriod
  repeat' (first
    | with_reducible exact Kept.rfl | with_reducible assumption | with_reducible apply State.askPeriod_kept
    | with_reducible apply Kept.ite | with_reducible refine Kept.of_snd (by assumption) ?_ | intro _ | dsimp only
    | fail_if_no_progress with_reducible apply Kept.mk' | split)

theorem State.writePlans_kept {z0 : State} (s : State) (l : List Nat) (hz : Kept z0 s) : Kept z0 (State.writePlans s l) := by
  refine hz.trans ?_
  unfold State.writePlans
  repeat' (first
    | with_reducible exact Kept.rfl | with_reducible assumption | with_reducible apply State.harbourAsk_kept
    | with_reducible apply State.harbourWrite_kept | with_reducible apply State.takePlan_kept
    | with_reducible apply Kept.foldl | with_reducible refine Kept.of_snd (by assumption) ?_ | intro _ | dsimp only
    | fail_if_no_progress with_reducible apply Kept.mk' | split)

theorem State.islandTopo_kept {z0 : State} (s : State) (a : Assign) (hz : Kept z0 s) : Kept z0 (State.islandTopo s a) := by
  refine hz.trans ?_
  unfold State.islandTopo
  repeat' (first
    | with_reducible exact Kept.rfl | with_reducible assumption | with_reducible apply State.fresh_kept
    | with_reducible apply State.put_kept | with_reducible apply Kept.ite
    | with_reducible refine Kept.of_snd (by assumption) ?_ | intro _ | dsimp only
    | fail_if_no_progress with_reducible apply Kept.mk' | split)

theorem State.installTables_kept {z0 : State} (s : State) (a : Assign) (hz : Kept z0 s) : Kept z0 (State.installTables s a) := by
  refine hz.trans ?_
  unfold State.installTables
  repeat' (first
    | with_reducible exact Kept.rfl | with_reducible assumption | with_reducible apply State.fresh_kept
    | with_reducible apply State.islandTopo_kept | with_reducible apply State.put_kept
    | with_reducible apply State.putB_kept | with_reducible apply State.wrN_kept | with_reducible apply Kept.ite
    | with_reducible apply Kept.foldl | with_reducible refine Kept.of_snd (by assumption) ?_ | intro _ | dsimp only
    | fail_if_no_progress with_reducible apply Kept.mk' | split)

theorem State.followUpstream_kept {z0 : State} (s : State) (was : Option Nat) (a : Assign) (hz : Kept z0 s) : Kept z0 (State.followUpstream s was a) := by
  refine hz.trans ?_
  unfold State.followUpstream
  repeat' (first
    | with_reducible exact Kept.rfl | with_reducible assumption | with_reducible apply State.acquire_kept
    | with_reducible apply State.put_kept | with_reducible apply State.putB_kept | with_reducible apply Kept.ite
    | with_reducible apply Kept.foldl | with_reducible refine Kept.of_snd (by assumption) ?_ | intro _ | dsimp only
    | fail_if_no_progress with_reducible apply Kept.mk' | split)

theorem State.harbourRecord_kept {z0 : State} (s : State) (own : Assign) (hz : Kept z0 s) : Kept z0 (State.harbourRecord s own) := by
  refine hz.trans ?_
  unfold State.harbourRecord
  repeat' (first
    | with_reducible exact Kept.rfl | with_reducible assumption | with_reducible apply State.put_kept
    | with_reducible apply State.wrN_kept | with_reducible apply Kept.ite_else | with_reducible apply Kept.ite_then
    | with_reducible apply Kept.ite | with_reducible apply Kept.foldl
    | with_reducible refine Kept.of_snd (by assumption) ?_ | intro _ | dsimp only
    | fail_if_no_progress with_reducible apply Kept.mk' | split)

theorem State.install_kept {z0 : State} (s : State) (k : Nat) (hz : Kept z0 s) : Kept z0 (State.install s k) := by
  refine hz.trans ?_
  unfold State.install
  repeat' (first
    | with_reducible exact Kept.rfl | with_reducible assumption | with_reducible apply State.admitTasks_kept
    | with_reducible apply State.commit_kept | with_reducible apply State.endCond_kept
    | with_reducible apply State.expectCopies_kept | with_reducible apply State.followUpstream_kept
    | with_reducible apply State.harbourRecord_kept | with_reducible apply State.installTables_kept
    | with_reducible apply State.logHw_kept | with_reducible apply State.newRound_kept
    | with_reducible apply State.onRound_kept | with_reducible apply State.ownPeriod_kept
    | with_reducible apply State.put_kept | with_reducible apply State.snapshotPlan_kept
    | with_reducible apply State.wrN_kept | with_reducible apply State.writePlans_kept | with_reducible apply Kept.ite
    | with_reducible refine Kept.of_snd (by assumption) ?_ | intro _ | dsimp only
    | fail_if_no_progress with_reducible apply Kept.mk' | split)

theorem State.takePeriod_kept {z0 : State} (s : State) (hz : Kept z0 s) : Kept z0 (State.takePeriod s) := by
  refine hz.trans ?_
  unfold State.takePeriod
  repeat' (first
    | with_reducible exact Kept.rfl | with_reducible assumption | with_reducible apply State.newPeriod_kept
    | with_reducible apply State.put_kept | with_reducible apply Kept.ite
    | with_reducible refine Kept.of_snd (by assumption) ?_ | intro _ | dsimp only
    | fail_if_no_progress with_reducible apply Kept.mk' | split)

theorem State.endHoldover_kept {z0 : State} (s : State) (hz : Kept z0 s) : Kept z0 (State.endHoldover s) := by
  refine hz.trans ?_
  unfold State.endHoldover
  repeat' (first
    | with_reducible exact Kept.rfl | with_reducible assumption | with_reducible apply State.endCond_kept
    | with_reducible apply Kept.foldl | with_reducible refine Kept.of_snd (by assumption) ?_ | intro _ | dsimp only
    | fail_if_no_progress with_reducible apply Kept.mk' | split)

theorem State.becomeHarbour_kept {z0 : State} (s : State) (hz : Kept z0 s) : Kept z0 (State.becomeHarbour s) := by
  refine hz.trans ?_
  unfold State.becomeHarbour
  repeat' (first
    | with_reducible exact Kept.rfl | with_reducible assumption | with_reducible apply State.commit_kept
    | with_reducible apply State.endHoldover_kept | with_reducible apply State.newRound_kept
    | with_reducible apply State.put_kept | with_reducible apply State.put64_kept
    | with_reducible apply State.putB_kept | with_reducible apply State.startTicks_kept
    | with_reducible apply State.takePeriod_kept | with_reducible apply State.wrN_kept | with_reducible apply Kept.ite
    | with_reducible apply Kept.foldl | with_reducible refine Kept.of_snd (by assumption) ?_ | intro _ | dsimp only
    | fail_if_no_progress with_reducible apply Kept.mk' | split)

theorem State.writeNetCtrl_kept {z0 : State} (s : State) (i : Initiator) (v : Word) (hz : Kept z0 s) : Kept z0 (State.writeNetCtrl s i v) := by
  refine hz.trans ?_
  unfold State.writeNetCtrl
  repeat' (first
    | with_reducible exact Kept.rfl | with_reducible assumption | with_reducible apply State.becomeHarbour_kept
    | with_reducible apply State.wantRound_kept | with_reducible apply Kept.ite_else
    | with_reducible apply Kept.ite_then | with_reducible apply Kept.ite
    | with_reducible refine Kept.of_snd (by assumption) ?_ | intro _ | dsimp only
    | fail_if_no_progress with_reducible apply Kept.mk' | split)

theorem State.ifSound_kept {z0 : State} (s : State) (f : State → State) (hz : Kept z0 s) (hf : ∀ t, Kept t (f t)) : Kept z0 (State.ifSound s f) := by
  refine hz.trans ?_
  unfold State.ifSound
  repeat' (first
    | with_reducible exact Kept.rfl | with_reducible assumption | with_reducible refine Kept.trans ?_ (hf _)
    | with_reducible apply Kept.ite_else | with_reducible apply Kept.ite_then | with_reducible apply Kept.ite
    | with_reducible refine Kept.of_snd (by assumption) ?_ | intro _ | dsimp only
    | fail_if_no_progress with_reducible apply Kept.mk' | split)

theorem execNetSound_kept (i : Initiator) (v : Word) (s : State) : KeptO s (execNetSound i v s) := by
  unfold execNetSound
  repeat' (first
    | with_reducible exact Kept.rfl | with_reducible assumption | with_reducible apply State.writeNetCtrl_kept
    | with_reducible apply State.writeRow_kept | with_reducible apply KeptO.next | with_reducible apply KeptO.ite
    | with_reducible refine Kept.of_snd (by assumption) ?_ | intro _ | dsimp only
    | fail_if_no_progress with_reducible apply Kept.mk' | split)

theorem execSoundFlood_kept (p : Fin 4) (f : Frame) (s : State) : KeptO s (execSoundFlood p f s) := by
  unfold execSoundFlood
  repeat' (first
    | with_reducible exact Kept.rfl | with_reducible assumption | with_reducible apply State.flood_kept
    | with_reducible apply State.ifSound_kept | with_reducible apply State.takeInbox_kept
    | with_reducible apply KeptO.next | with_reducible apply KeptO.ite
    | with_reducible refine Kept.of_snd (by assumption) ?_ | intro _ | dsimp only
    | fail_if_no_progress with_reducible apply Kept.mk' | split)

theorem execSoundReport_kept (p : Fin 4) (f : Frame) (s : State) : KeptO s (execSoundReport p f s) := by
  unfold execSoundReport
  repeat' (first
    | with_reducible exact Kept.rfl | with_reducible assumption | with_reducible apply State.recordReport_kept
    | with_reducible apply State.relayParent_kept | with_reducible apply State.soundCheck_kept
    | with_reducible apply State.takeInbox_kept | with_reducible apply KeptO.next | with_reducible apply KeptO.ite
    | with_reducible apply Kept.ite | with_reducible refine Kept.of_snd (by assumption) ?_ | intro _ | dsimp only
    | fail_if_no_progress with_reducible apply Kept.mk' | split)

theorem execCollectionClose_kept (s : State) : KeptO s (execCollectionClose s) := by
  unfold execCollectionClose
  repeat' (first
    | with_reducible exact Kept.rfl | with_reducible assumption | with_reducible apply State.closeCollection_kept
    | with_reducible apply State.ifSound_kept | with_reducible apply KeptO.next | with_reducible apply KeptO.ite
    | with_reducible refine Kept.of_snd (by assumption) ?_ | intro _ | dsimp only
    | fail_if_no_progress with_reducible apply Kept.mk' | split)

theorem execSoundAssign_kept (p : Fin 4) (f : Frame) (s : State) : KeptO s (execSoundAssign p f s) := by
  unfold execSoundAssign
  repeat' (first
    | with_reducible exact Kept.rfl | with_reducible assumption | with_reducible apply State.ifSound_kept
    | with_reducible apply State.takeAssign_kept | with_reducible apply State.takeInbox_kept
    | with_reducible apply KeptO.next | with_reducible apply KeptO.ite
    | with_reducible refine Kept.of_snd (by assumption) ?_ | intro _ | dsimp only
    | fail_if_no_progress with_reducible apply Kept.mk' | split)

theorem execSoundAck_kept (p : Fin 4) (f : Frame) (s : State) : KeptO s (execSoundAck p f s) := by
  unfold execSoundAck
  repeat' (first
    | with_reducible exact Kept.rfl | with_reducible assumption | with_reducible apply State.relayParent_kept
    | with_reducible apply State.soundCheck_kept | with_reducible apply State.takeAck_kept
    | with_reducible apply State.takeInbox_kept | with_reducible apply KeptO.next | with_reducible apply KeptO.ite
    | with_reducible apply Kept.ite | with_reducible refine Kept.of_snd (by assumption) ?_ | intro _ | dsimp only
    | fail_if_no_progress with_reducible apply Kept.mk' | split)

theorem execAssignTimeout_kept (addr : Fin 256) (s : State) : KeptO s (execAssignTimeout addr s) := by
  unfold execAssignTimeout
  repeat' (first
    | with_reducible exact Kept.rfl | with_reducible assumption | with_reducible apply State.finishAssign_kept
    | with_reducible apply State.onRound_kept | with_reducible apply State.put_kept
    | with_reducible apply State.reach_kept | with_reducible apply State.sendAssign_kept
    | with_reducible apply KeptO.next | with_reducible apply KeptO.ite | with_reducible apply Kept.ite_else
    | with_reducible apply Kept.ite_then | with_reducible apply Kept.ite
    | with_reducible refine Kept.of_snd (by assumption) ?_ | intro _ | dsimp only
    | fail_if_no_progress with_reducible apply Kept.mk' | split)

theorem execSoundCommit_kept (p : Fin 4) (f : Frame) (s : State) : KeptO s (execSoundCommit p f s) := by
  unfold execSoundCommit
  repeat' (first
    | with_reducible exact Kept.rfl | with_reducible assumption | with_reducible apply State.ifSound_kept
    | with_reducible apply State.takeCommit_kept | with_reducible apply State.takeInbox_kept
    | with_reducible apply KeptO.next | with_reducible apply KeptO.ite
    | with_reducible refine Kept.of_snd (by assumption) ?_ | intro _ | dsimp only
    | fail_if_no_progress with_reducible apply Kept.mk' | split)

theorem execTableInstall_kept (s : State) : KeptO s (execTableInstall s) := by
  unfold execTableInstall
  repeat' (first
    | with_reducible exact Kept.rfl | with_reducible assumption | with_reducible apply State.commit_kept
    | with_reducible apply State.install_kept | with_reducible apply State.reachFt_kept
    | with_reducible apply KeptO.next | with_reducible apply KeptO.ite
    | with_reducible refine Kept.of_snd (by assumption) ?_ | intro _ | dsimp only
    | fail_if_no_progress with_reducible apply Kept.mk' | split)

theorem execSoundLinkev_kept (p : Fin 4) (f : Frame) (s : State) : KeptO s (execSoundLinkev p f s) := by
  unfold execSoundLinkev
  repeat' (first
    | with_reducible exact Kept.rfl | with_reducible assumption | with_reducible apply State.relayParent_kept
    | with_reducible apply State.soundCheck_kept | with_reducible apply State.takeInbox_kept
    | with_reducible apply State.wantRound_kept | with_reducible apply KeptO.next | with_reducible apply KeptO.ite
    | with_reducible apply Kept.ite | with_reducible refine Kept.of_snd (by assumption) ?_ | intro _ | dsimp only
    | fail_if_no_progress with_reducible apply Kept.mk' | split)

theorem execSoundRestart_kept (p : Fin 4) (f : Frame) (s : State) : KeptO s (execSoundRestart p f s) := by
  unfold execSoundRestart
  repeat' (first
    | with_reducible exact Kept.rfl | with_reducible assumption | with_reducible apply State.ifSound_kept
    | with_reducible apply State.takeInbox_kept | with_reducible apply State.takeRestart_kept
    | with_reducible apply KeptO.next | with_reducible apply KeptO.ite
    | with_reducible refine Kept.of_snd (by assumption) ?_ | intro _ | dsimp only
    | fail_if_no_progress with_reducible apply Kept.mk' | split)

theorem execSoundingHoldoffEnd_kept (s : State) : KeptO s (execSoundingHoldoffEnd s) := by
  unfold execSoundingHoldoffEnd
  repeat' (first
    | with_reducible exact Kept.rfl | with_reducible assumption | with_reducible apply State.onRound_kept
    | with_reducible apply State.put_kept | with_reducible apply State.reach_kept
    | with_reducible apply State.wantRound_kept | with_reducible apply KeptO.next | with_reducible apply KeptO.ite
    | with_reducible apply Kept.ite_else | with_reducible apply Kept.ite_then | with_reducible apply Kept.ite
    | with_reducible refine Kept.of_snd (by assumption) ?_ | intro _ | dsimp only
    | fail_if_no_progress with_reducible apply Kept.mk' | split)

theorem execAddressHoldExpiry_kept (addr : Fin 256) (s : State) : KeptO s (execAddressHoldExpiry addr s) := by
  unfold execAddressHoldExpiry
  repeat' (first
    | with_reducible exact Kept.rfl | with_reducible assumption | with_reducible apply State.reach_kept
    | with_reducible apply KeptO.next | with_reducible apply KeptO.ite
    | with_reducible refine Kept.of_snd (by assumption) ?_ | intro _ | dsimp only
    | fail_if_no_progress with_reducible apply Kept.mk' | split)

theorem execAddressTableClear_kept (i : Initiator) (v : Word) (s : State) : KeptO s (execAddressTableClear i v s) := by
  unfold execAddressTableClear
  repeat' (first
    | with_reducible exact Kept.rfl | with_reducible assumption | with_reducible apply State.writeNetCtrl_kept
    | with_reducible apply State.writeRow_kept | with_reducible apply KeptO.next | with_reducible apply KeptO.ite
    | with_reducible refine Kept.of_snd (by assumption) ?_ | intro _ | dsimp only
    | fail_if_no_progress with_reducible apply Kept.mk' | split)

theorem execHarbourListenEnd_kept (s : State) : KeptO s (execHarbourListenEnd s) := by
  unfold execHarbourListenEnd
  repeat' (first
    | with_reducible exact Kept.rfl | with_reducible assumption | with_reducible apply State.becomeHarbour_kept
    | with_reducible apply State.reach_kept | with_reducible apply KeptO.next | with_reducible apply KeptO.ite
    | with_reducible refine Kept.of_snd (by assumption) ?_ | intro _ | dsimp only
    | fail_if_no_progress with_reducible apply Kept.mk' | split)

theorem execNetTakeover_kept (i : Initiator) (v : Word) (s : State) : KeptO s (execNetTakeover i v s) := by
  unfold execNetTakeover
  repeat' (first
    | with_reducible exact Kept.rfl | with_reducible assumption | with_reducible apply State.writeNetCtrl_kept
    | with_reducible apply State.writeRow_kept | with_reducible apply KeptO.next | with_reducible apply KeptO.ite
    | with_reducible refine Kept.of_snd (by assumption) ?_ | intro _ | dsimp only
    | fail_if_no_progress with_reducible apply Kept.mk' | split)

theorem execHarbourLoss_kept (s : State) : KeptO s (execHarbourLoss s) := by
  unfold execHarbourLoss
  repeat' (first
    | with_reducible exact Kept.rfl | with_reducible assumption | with_reducible apply State.becomeHarbour_kept
    | with_reducible apply State.reach_kept | with_reducible apply KeptO.next | with_reducible apply KeptO.ite
    | with_reducible apply Kept.ite_else | with_reducible apply Kept.ite_then | with_reducible apply Kept.ite
    | with_reducible refine Kept.of_snd (by assumption) ?_ | intro _ | dsimp only
    | fail_if_no_progress with_reducible apply Kept.mk' | split)

end Sys2Proof.Machine
end

