-- ==== Sys2Proof/Laws/KeptRemote.lean ====
section
/-! SUPPORT. Every operation of Machine/Remote.lean keeps what `Kept` says. -/

set_option linter.unusedTactic false
set_option linter.unreachableTactic false
set_option linter.unusedVariables false

namespace Sys2Proof.Machine

set_option Elab.async false

theorem State.setSlot_kept {z0 : State} (s : State) (k : Nat) (x : Option RaSlot) (hz : Kept z0 s) : Kept z0 (State.setSlot s k x) := by
  refine hz.trans ?_
  unfold State.setSlot
  repeat' (first
    | with_reducible exact Kept.rfl | with_reducible assumption | with_reducible refine Kept.of_snd (by assumption) ?_
    | intro _ | dsimp only | fail_if_no_progress with_reducible apply Kept.mk' | split)

theorem State.request_kept {z0 : State} (s : State) (f : Frame) (hz : Kept z0 s) : Kept z0 (State.request s f) := by
  refine hz.trans ?_
  unfold State.request
  repeat' (first
    | with_reducible exact Kept.rfl | with_reducible assumption | with_reducible apply State.inject_kept
    | with_reducible apply Kept.ite_else | with_reducible apply Kept.ite_then | with_reducible apply Kept.ite
    | with_reducible refine Kept.of_snd (by assumption) ?_ | intro _ | dsimp only
    | fail_if_no_progress with_reducible apply Kept.mk' | split)

theorem State.slotSend_kept {z0 : State} (s : State) (k : Nat) (r : RaSlot) (hz : Kept z0 s) : Kept z0 (State.slotSend s k r) := by
  refine hz.trans ?_
  unfold State.slotSend
  repeat' (first
    | with_reducible exact Kept.rfl | with_reducible assumption | with_reducible apply State.nextSeq_kept
    | with_reducible apply State.put_kept | with_reducible apply State.request_kept
    | with_reducible apply State.setSlot_kept | with_reducible refine Kept.of_snd (by assumption) ?_ | intro _
    | dsimp only | fail_if_no_progress with_reducible apply Kept.mk' | split)

theorem State.slotPump_kept {z0 : State} (s : State) (hz : Kept z0 s) : Kept z0 (State.slotPump s) := by
  refine hz.trans ?_
  unfold State.slotPump
  repeat' (first
    | with_reducible exact Kept.rfl | with_reducible assumption | with_reducible apply State.slotSend_kept
    | with_reducible apply Kept.ite_else | with_reducible apply Kept.ite_then | with_reducible apply Kept.ite
    | with_reducible apply Kept.foldl | with_reducible refine Kept.of_snd (by assumption) ?_ | intro _ | dsimp only
    | fail_if_no_progress with_reducible apply Kept.mk' | split)

theorem State.slotDone_kept {z0 : State} (s : State) (k code words : Nat) (hz : Kept z0 s) : Kept z0 (State.slotDone s k code words) := by
  refine hz.trans ?_
  unfold State.slotDone
  repeat' (first
    | with_reducible exact Kept.rfl | with_reducible assumption | with_reducible apply State.put_kept
    | with_reducible apply State.putBit_kept | with_reducible apply State.setSlot_kept
    | with_reducible apply State.slotPump_kept | with_reducible apply Kept.getD
    | with_reducible refine Kept.of_snd (by assumption) ?_ | intro _ | dsimp only
    | fail_if_no_progress with_reducible apply Kept.mk' | split)

theorem State.slotStore_kept {z0 : State} (s : State) (k off : Nat) (l : List Byte) (hz : Kept z0 s) : Kept z0 (State.slotStore s k off l).2 := by
  refine hz.trans ?_
  unfold State.slotStore
  repeat' (first
    | with_reducible exact Kept.rfl | with_reducible assumption | with_reducible apply State.busError_kept
    | with_reducible apply State.countRefused_kept | with_reducible apply State.memPut_kept
    | with_reducible apply Kept.ite_else | with_reducible apply Kept.ite_then | with_reducible apply Kept.ite
    | with_reducible apply Kept.pair_ite | with_reducible refine Kept.of_snd (by assumption) ?_ | intro _ | dsimp only
    | fail_if_no_progress with_reducible apply Kept.mk' | split)

theorem State.slotGo_kept {z0 : State} (s : State) (k : Nat) (hz : Kept z0 s) : Kept z0 (State.slotGo s k) := by
  refine hz.trans ?_
  unfold State.slotGo
  repeat' (first
    | with_reducible exact Kept.rfl | with_reducible assumption | with_reducible apply State.put_kept
    | with_reducible apply State.putBit_kept | with_reducible apply State.setSlot_kept
    | with_reducible apply State.slotDone_kept | with_reducible apply State.slotPump_kept
    | with_reducible apply State.wrN_kept | with_reducible apply Kept.ite
    | with_reducible refine Kept.of_snd (by assumption) ?_ | intro _ | dsimp only
    | fail_if_no_progress with_reducible apply Kept.mk' | split)

theorem State.writeRasCtrl_kept {z0 : State} (s : State) (i : Initiator) (k : Nat) (v : Word) (hz : Kept z0 s) : Kept z0 (State.writeRasCtrl s i k v) := by
  refine hz.trans ?_
  unfold State.writeRasCtrl
  repeat' (first
    | with_reducible exact Kept.rfl | with_reducible assumption | with_reducible apply State.plainWrite_kept
    | with_reducible apply State.slotGo_kept | with_reducible apply Kept.ite
    | with_reducible refine Kept.of_snd (by assumption) ?_ | intro _ | dsimp only
    | fail_if_no_progress with_reducible apply Kept.mk' | split)

theorem State.slotAnswer_kept {z0 : State} (s : State) (f : Frame) (hz : Kept z0 s) : Kept z0 (State.slotAnswer s f) := by
  refine hz.trans ?_
  unfold State.slotAnswer
  repeat' (first
    | with_reducible exact Kept.rfl | with_reducible assumption | with_reducible apply State.drop_kept
    | with_reducible apply State.slotDone_kept | with_reducible apply State.slotStore_kept
    | with_reducible apply State.wrN_kept | with_reducible apply Kept.ite
    | with_reducible refine Kept.of_snd (by assumption) ?_ | intro _ | dsimp only
    | fail_if_no_progress with_reducible apply Kept.mk' | split)

theorem State.slotAgain_kept {z0 : State} (s : State) (k : Nat) (r : RaSlot) (lo hi : Nat) (hz : Kept z0 s) : Kept z0 (State.slotAgain s k r lo hi) := by
  refine hz.trans ?_
  unfold State.slotAgain
  repeat' (first
    | with_reducible exact Kept.rfl | with_reducible assumption | with_reducible apply State.slotSend_kept
    | with_reducible refine Kept.of_snd (by assumption) ?_ | intro _ | dsimp only
    | fail_if_no_progress with_reducible apply Kept.mk' | split)

theorem State.slotData_kept {z0 : State} (s : State) (f : Frame) (hz : Kept z0 s) : Kept z0 (State.slotData s f) := by
  refine hz.trans ?_
  unfold State.slotData
  repeat' (first
    | with_reducible exact Kept.rfl | with_reducible assumption | with_reducible apply State.drop_kept
    | with_reducible apply State.setSlot_kept | with_reducible apply State.slotAgain_kept
    | with_reducible apply State.slotDone_kept | with_reducible apply State.slotStore_kept
    | with_reducible apply Kept.ite | with_reducible refine Kept.of_snd (by assumption) ?_ | intro _ | dsimp only
    | fail_if_no_progress with_reducible apply Kept.mk' | split)

theorem State.slotTimeout_kept {z0 : State} (s : State) (k : Nat) (hz : Kept z0 s) : Kept z0 (State.slotTimeout s k) := by
  refine hz.trans ?_
  unfold State.slotTimeout
  repeat' (first
    | with_reducible exact Kept.rfl | with_reducible assumption | with_reducible apply State.bump_kept
    | with_reducible apply State.put_kept | with_reducible apply State.reach_kept
    | with_reducible apply State.request_kept | with_reducible apply State.setSlot_kept
    | with_reducible apply State.slotDone_kept | with_reducible apply Kept.ite
    | with_reducible refine Kept.of_snd (by assumption) ?_ | intro _ | dsimp only
    | fail_if_no_progress with_reducible apply Kept.mk' | split)

theorem State.autoStep_kept {z0 : State} (s : State) (r : RaSlot) (hz : Kept z0 s) : Kept z0 (State.autoStep s r) := by
  refine hz.trans ?_
  unfold State.autoStep
  repeat' (first
    | with_reducible exact Kept.rfl | with_reducible assumption | with_reducible apply State.bump_kept
    | with_reducible apply State.nextSeq_kept | with_reducible apply State.request_kept
    | with_reducible apply Kept.ite | with_reducible refine Kept.of_snd (by assumption) ?_ | intro _ | dsimp only
    | fail_if_no_progress with_reducible apply Kept.mk' | split)

theorem State.autoTick_kept {z0 : State} (s : State) (hz : Kept z0 s) : Kept z0 (State.autoTick s) := by
  refine hz.trans ?_
  unfold State.autoTick
  repeat' (first
    | with_reducible exact Kept.rfl | with_reducible assumption | with_reducible apply State.autoStep_kept
    | with_reducible apply Kept.ite_else | with_reducible apply Kept.ite_then | with_reducible apply Kept.ite
    | with_reducible apply Kept.foldl | with_reducible refine Kept.of_snd (by assumption) ?_ | intro _ | dsimp only
    | fail_if_no_progress with_reducible apply Kept.mk' | split)

theorem State.answer_kept {z0 : State} (s : State) (p : Option (Fin 4)) (dst typ : Nat) (pay : List Byte) (hz : Kept z0 s) : Kept z0 (State.answer s p dst typ pay) := by
  refine hz.trans ?_
  unfold State.answer
  repeat' (first
    | with_reducible exact Kept.rfl | with_reducible assumption | with_reducible apply State.originate_kept
    | with_reducible apply State.sendHop_kept | with_reducible apply Kept.ite
    | with_reducible refine Kept.of_snd (by assumption) ?_ | intro _ | dsimp only
    | fail_if_no_progress with_reducible apply Kept.mk' | split)

theorem State.streamFrame_kept {z0 : State} (s : State) (x : Stream) (status : Nat) (last : Bool) (data : List Byte) (hz : Kept z0 s) : Kept z0 (State.streamFrame s x status last data) := by
  refine hz.trans ?_
  unfold State.streamFrame
  repeat' (first
    | with_reducible exact Kept.rfl | with_reducible assumption | with_reducible apply State.answer_kept
    | with_reducible refine Kept.of_snd (by assumption) ?_ | intro _ | dsimp only
    | fail_if_no_progress with_reducible apply Kept.mk' | split)

theorem State.openStream_kept {z0 : State} (s : State) (p : Fin 4) (f : Frame) (hz : Kept z0 s) : Kept z0 (State.openStream s p f) := by
  refine hz.trans ?_
  unfold State.openStream
  repeat' (first
    | with_reducible exact Kept.rfl | with_reducible assumption | with_reducible apply State.put_kept
    | with_reducible apply State.streamFrame_kept | with_reducible apply Kept.ite
    | with_reducible refine Kept.of_snd (by assumption) ?_ | intro _ | dsimp only
    | fail_if_no_progress with_reducible apply Kept.mk' | split)

theorem State.serveStream_kept {z0 : State} (n : Nat) (x : Stream) (s : State) (hz : Kept z0 s) :
    Kept z0 (State.serveStream n x s).2 := by
  induction n generalizing s x with
  | zero => exact hz
  | succ n ih =>
    unfold State.serveStream
    dsimp only
    split
    · exact State.streamFrame_kept _ _ _ _ _ hz
    · split
      · exact State.bump_kept _ _ _ (State.streamFrame_kept _ _ _ _ _ hz)
      · exact ih _ _ (State.streamFrame_kept _ _ _ _ _ hz)

theorem State.serveStreams_kept {z0 : State} (s : State) (hz : Kept z0 s) : Kept z0 (State.serveStreams s) := by
  refine hz.trans ?_
  unfold State.serveStreams
  repeat' (first
    | with_reducible exact Kept.rfl | with_reducible assumption | with_reducible apply State.put_kept
    | with_reducible apply State.serveStream_kept | with_reducible apply Kept.foldl
    | with_reducible refine Kept.of_snd (by assumption) ?_ | intro _ | dsimp only
    | fail_if_no_progress with_reducible apply Kept.mk' | split)

theorem State.fenceStreams_kept {z0 : State} (s : State) (hz : Kept z0 s) : Kept z0 (State.fenceStreams s) := by
  refine hz.trans ?_
  unfold State.fenceStreams
  repeat' (first
    | with_reducible exact Kept.rfl | with_reducible assumption | with_reducible apply State.put_kept
    | with_reducible apply State.streamFrame_kept | with_reducible apply Kept.foldl
    | with_reducible refine Kept.of_snd (by assumption) ?_ | intro _ | dsimp only
    | fail_if_no_progress with_reducible apply Kept.mk' | split)

theorem State.comparePlan_kept {z0 : State} (s : State) (r : RaSlot) (f : Frame) (hz : Kept z0 s) : Kept z0 (State.comparePlan s r f) := by
  refine hz.trans ?_
  unfold State.comparePlan
  repeat' (first
    | with_reducible exact Kept.rfl | with_reducible assumption | with_reducible apply State.harbourWrite_kept
    | with_reducible apply Kept.ite_else | with_reducible apply Kept.ite_then | with_reducible apply Kept.ite
    | with_reducible refine Kept.of_snd (by assumption) ?_ | intro _ | dsimp only
    | fail_if_no_progress with_reducible apply Kept.mk' | split)

theorem State.learnSnap_kept {z0 : State} (s : State) (r : RaSlot) (f : Frame) (hz : Kept z0 s) : Kept z0 (State.learnSnap s r f) := by
  refine hz.trans ?_
  unfold State.learnSnap
  repeat' (first
    | with_reducible exact Kept.rfl | with_reducible assumption | with_reducible apply State.snapshotPlan_kept
    | with_reducible apply Kept.ite | with_reducible refine Kept.of_snd (by assumption) ?_ | intro _ | dsimp only
    | fail_if_no_progress with_reducible apply Kept.mk' | split)

theorem State.autoAnswer_kept {z0 : State} (s : State) (f : Frame) (hz : Kept z0 s) : Kept z0 (State.autoAnswer s f) := by
  refine hz.trans ?_
  unfold State.autoAnswer
  repeat' (first
    | with_reducible exact Kept.rfl | with_reducible assumption | with_reducible apply State.comparePlan_kept
    | with_reducible apply State.learnSnap_kept | with_reducible apply Kept.foldl
    | with_reducible refine Kept.of_snd (by assumption) ?_ | intro _ | dsimp only
    | fail_if_no_progress with_reducible apply Kept.mk' | split)

theorem execRaResponse_kept (_p : Fin 4) (f : Frame) (s : State) : KeptO s (execRaResponse _p f s) := by
  unfold execRaResponse
  repeat' (first
    | with_reducible exact Kept.rfl | with_reducible assumption | with_reducible apply State.autoAnswer_kept
    | with_reducible apply State.slotAnswer_kept | with_reducible apply State.takeInbox_kept
    | with_reducible apply KeptO.next | with_reducible apply KeptO.ite
    | with_reducible refine Kept.of_snd (by assumption) ?_ | intro _ | dsimp only
    | fail_if_no_progress with_reducible apply Kept.mk' | split)

theorem execRaTimeout_kept (k : Fin 16) (s : State) : KeptO s (execRaTimeout k s) := by
  unfold execRaTimeout
  repeat' (first
    | with_reducible exact Kept.rfl | with_reducible assumption | with_reducible apply State.slotTimeout_kept
    | with_reducible apply KeptO.next | with_reducible apply KeptO.ite
    | with_reducible refine Kept.of_snd (by assumption) ?_ | intro _ | dsimp only
    | fail_if_no_progress with_reducible apply Kept.mk' | split)

theorem execRaSlotGo_kept (k : Fin 16) (i : Initiator) (v : Word) (s : State) : KeptO s (execRaSlotGo k i v s) := by
  unfold execRaSlotGo
  repeat' (first
    | with_reducible exact Kept.rfl | with_reducible assumption | with_reducible apply State.writeRasCtrl_kept
    | with_reducible apply State.writeRow_kept | with_reducible apply KeptO.next | with_reducible apply KeptO.ite
    | with_reducible refine Kept.of_snd (by assumption) ?_ | intro _ | dsimp only
    | fail_if_no_progress with_reducible apply Kept.mk' | split)

theorem execMemReadRequest_kept (p : Fin 4) (f : Frame) (s : State) : KeptO s (execMemReadRequest p f s) := by
  unfold execMemReadRequest
  repeat' (first
    | with_reducible exact Kept.rfl | with_reducible assumption | with_reducible apply State.openStream_kept
    | with_reducible apply State.takeInbox_kept | with_reducible apply KeptO.next | with_reducible apply KeptO.ite
    | with_reducible refine Kept.of_snd (by assumption) ?_ | intro _ | dsimp only
    | fail_if_no_progress with_reducible apply Kept.mk' | split)

theorem execMemReadData_kept (_p : Fin 4) (f : Frame) (s : State) : KeptO s (execMemReadData _p f s) := by
  unfold execMemReadData
  repeat' (first
    | with_reducible exact Kept.rfl | with_reducible assumption | with_reducible apply State.slotData_kept
    | with_reducible apply State.takeInbox_kept | with_reducible apply KeptO.next | with_reducible apply KeptO.ite
    | with_reducible refine Kept.of_snd (by assumption) ?_ | intro _ | dsimp only
    | fail_if_no_progress with_reducible apply Kept.mk' | split)

end Sys2Proof.Machine
end

