-- ==== Sys2Proof/Laws/KeptProtection.lean ====
section
/-! SUPPORT. Every operation of Machine/Protection.lean keeps what `Kept` says. -/

set_option linter.unusedTactic false
set_option linter.unreachableTactic false
set_option linter.unusedVariables false

namespace Sys2Proof.Machine

set_option Elab.async false

theorem State.onPsf_kept {z0 : State} (s : State) (f : PsfSt → PsfSt) (hz : Kept z0 s) : Kept z0 (State.onPsf s f) := by
  refine hz.trans ?_
  unfold State.onPsf
  repeat' (first
    | with_reducible exact Kept.rfl | with_reducible assumption | with_reducible refine Kept.of_snd (by assumption) ?_
    | intro _ | dsimp only | fail_if_no_progress with_reducible apply Kept.mk' | split)

theorem State.count_kept {z0 : State} (s : State) (k : Nat) (hit : Bool) (hz : Kept z0 s) : Kept z0 (State.count s k hit) := by
  refine hz.trans ?_
  unfold State.count
  repeat' (first
    | with_reducible exact Kept.rfl | with_reducible assumption | with_reducible apply State.onPsf_kept
    | with_reducible refine Kept.of_snd (by assumption) ?_ | intro _ | dsimp only
    | fail_if_no_progress with_reducible apply Kept.mk' | split)

theorem State.cellLimit_kept {z0 : State} (s : State) (src k qt : Nat) (beyond : Option Nat) (inside : Bool) (hz : Kept z0 s) : Kept z0 (State.cellLimit s src k qt beyond inside) := by
  refine hz.trans ?_
  unfold State.cellLimit
  repeat' (first
    | with_reducible exact Kept.rfl | with_reducible assumption | with_reducible apply State.count_kept
    | with_reducible apply State.raiseSrc_kept | with_reducible apply State.releaseSrc_kept
    | with_reducible apply Kept.ite | with_reducible refine Kept.of_snd (by assumption) ?_ | intro _ | dsimp only
    | fail_if_no_progress with_reducible apply Kept.mk' | split)

theorem State.compareCells_kept {z0 : State} (s : State) (hz : Kept z0 s) : Kept z0 (State.compareCells s) := by
  refine hz.trans ?_
  unfold State.compareCells
  repeat' (first
    | with_reducible exact Kept.rfl | with_reducible assumption | with_reducible apply State.cellLimit_kept
    | with_reducible refine Kept.of_snd (by assumption) ?_ | intro _ | dsimp only
    | fail_if_no_progress with_reducible apply Kept.mk' | split)

theorem State.currentLimit_kept {z0 : State} (s : State) (src k qt lim : Nat) (i : Int × Nat) (sgn : Int) (hz : Kept z0 s) : Kept z0 (State.currentLimit s src k qt lim i sgn) := by
  refine hz.trans ?_
  unfold State.currentLimit
  repeat' (first
    | with_reducible exact Kept.rfl | with_reducible assumption | with_reducible apply State.count_kept
    | with_reducible apply State.raiseSrc_kept | with_reducible apply State.releaseSrc_kept
    | with_reducible apply Kept.ite | with_reducible refine Kept.of_snd (by assumption) ?_ | intro _ | dsimp only
    | fail_if_no_progress with_reducible apply Kept.mk' | split)

theorem State.compareCurrent_kept {z0 : State} (s : State) (hz : Kept z0 s) : Kept z0 (State.compareCurrent s) := by
  refine hz.trans ?_
  unfold State.compareCurrent
  repeat' (first
    | with_reducible exact Kept.rfl | with_reducible assumption | with_reducible apply State.count_kept
    | with_reducible apply State.currentLimit_kept | with_reducible apply State.raiseSrc_kept
    | with_reducible apply Kept.ite | with_reducible refine Kept.of_snd (by assumption) ?_ | intro _ | dsimp only
    | fail_if_no_progress with_reducible apply Kept.mk' | split)

theorem State.followInput_kept {z0 : State} (s : State) (k : Nat) (hz : Kept z0 s) : Kept z0 (State.followInput s k) := by
  refine hz.trans ?_
  unfold State.followInput
  repeat' (first
    | with_reducible exact Kept.rfl | with_reducible assumption | with_reducible apply State.putB_kept
    | with_reducible apply State.raiseSrc_kept | with_reducible apply State.releaseSrc_kept
    | with_reducible apply Kept.ite | with_reducible refine Kept.of_snd (by assumption) ?_ | intro _ | dsimp only
    | fail_if_no_progress with_reducible apply Kept.mk' | split)

theorem State.followInputFault_kept {z0 : State} (s : State) (k was : Nat) (hz : Kept z0 s) : Kept z0 (State.followInputFault s k was) := by
  refine hz.trans ?_
  unfold State.followInputFault
  repeat' (first
    | with_reducible exact Kept.rfl | with_reducible assumption | with_reducible apply State.bump_kept
    | with_reducible apply State.endCond_kept | with_reducible apply State.faultU_kept
    | with_reducible apply State.followInput_kept | with_reducible apply State.raiseSrc_kept
    | with_reducible apply State.releaseSrc_kept | with_reducible apply Kept.ite
    | with_reducible refine Kept.of_snd (by assumption) ?_ | intro _ | dsimp only
    | fail_if_no_progress with_reducible apply Kept.mk' | split)

theorem State.endChat_kept {z0 : State} (s : State) (k : Nat) (hz : Kept z0 s) : Kept z0 (State.endChat s k) := by
  refine hz.trans ?_
  unfold State.endChat
  repeat' (first
    | with_reducible exact Kept.rfl | with_reducible assumption | with_reducible apply State.followInputFault_kept
    | with_reducible apply State.putB_kept | with_reducible apply State.reach_kept
    | with_reducible apply Kept.ite_else | with_reducible apply Kept.ite_then | with_reducible apply Kept.ite
    | with_reducible refine Kept.of_snd (by assumption) ?_ | intro _ | dsimp only
    | fail_if_no_progress with_reducible apply Kept.mk' | split)

theorem State.clearDemands_kept {z0 : State} (s : State) (v : Nat) (hz : Kept z0 s) : Kept z0 (State.clearDemands s v) := by
  refine hz.trans ?_
  unfold State.clearDemands
  repeat' (first
    | with_reducible exact Kept.rfl | with_reducible assumption | with_reducible apply State.clearTrip_kept
    | with_reducible apply State.withdraw_kept | with_reducible apply Kept.ite_else
    | with_reducible apply Kept.ite_then | with_reducible apply Kept.ite | with_reducible apply Kept.foldl
    | with_reducible refine Kept.of_snd (by assumption) ?_ | intro _ | dsimp only
    | fail_if_no_progress with_reducible apply Kept.mk' | split)

theorem State.writeOffreq_kept {z0 : State} (s : State) (i : Initiator) (v : Nat) (hz : Kept z0 s) : Kept z0 (State.writeOffreq s i v) := by
  refine hz.trans ?_
  unfold State.writeOffreq
  repeat' (first
    | with_reducible exact Kept.rfl | with_reducible assumption | with_reducible apply State.ifPrivileged_kept
    | with_reducible apply State.raiseSrc_kept | with_reducible apply State.releaseSrc_kept
    | with_reducible apply Kept.ite_else | with_reducible apply Kept.ite_then | with_reducible apply Kept.ite
    | with_reducible refine Kept.of_snd (by assumption) ?_ | intro _ | dsimp only
    | fail_if_no_progress with_reducible apply Kept.mk' | split)

theorem State.countTransition_kept {z0 : State} (s : State) (k : Nat) (hz : Kept z0 s) : Kept z0 (State.countTransition s k) := by
  refine hz.trans ?_
  unfold State.countTransition
  repeat' (first
    | with_reducible exact Kept.rfl | with_reducible assumption | with_reducible apply State.bump_kept
    | with_reducible apply State.onPsf_kept | with_reducible apply State.putB_kept
    | with_reducible apply Kept.ite_else | with_reducible apply Kept.ite_then | with_reducible apply Kept.ite
    | with_reducible refine Kept.of_snd (by assumption) ?_ | intro _ | dsimp only
    | fail_if_no_progress with_reducible apply Kept.mk' | split)

theorem State.ilkLevel_kept {z0 : State} (s : State) (closed : Bool) (hz : Kept z0 s) : Kept z0 (State.ilkLevel s closed) := by
  refine hz.trans ?_
  unfold State.ilkLevel
  repeat' (first
    | with_reducible exact Kept.rfl | with_reducible assumption | with_reducible apply State.onPsf_kept
    | with_reducible apply State.put_kept | with_reducible apply Kept.ite
    | with_reducible refine Kept.of_snd (by assumption) ?_ | intro _ | dsimp only
    | fail_if_no_progress with_reducible apply Kept.mk' | split)

theorem State.selfLevel_kept {z0 : State} (s : State) (closed : Bool) (t : Nat) (hz : Kept z0 s) : Kept z0 (State.selfLevel s closed t) := by
  refine hz.trans ?_
  unfold State.selfLevel
  repeat' (first
    | with_reducible exact Kept.rfl | with_reducible assumption | with_reducible apply State.onPsf_kept
    | with_reducible apply Kept.ite_else | with_reducible apply Kept.ite_then | with_reducible apply Kept.ite
    | with_reducible refine Kept.of_snd (by assumption) ?_ | intro _ | dsimp only
    | fail_if_no_progress with_reducible apply Kept.mk' | split)

theorem State.inputLevel_kept {z0 : State} (s : State) (k : Nat) (closed : Bool) (hz : Kept z0 s) : Kept z0 (State.inputLevel s k closed) := by
  refine hz.trans ?_
  unfold State.inputLevel
  repeat' (first
    | with_reducible exact Kept.rfl | with_reducible assumption | with_reducible apply State.countTransition_kept
    | with_reducible apply State.followInputFault_kept | with_reducible apply State.ilkLevel_kept
    | with_reducible apply State.onPsf_kept | with_reducible apply State.putB_kept
    | with_reducible apply State.reach_kept | with_reducible apply State.selfLevel_kept
    | with_reducible apply Kept.ite_else | with_reducible apply Kept.ite_then | with_reducible apply Kept.ite
    | with_reducible refine Kept.of_snd (by assumption) ?_ | intro _ | dsimp only
    | fail_if_no_progress with_reducible apply Kept.mk' | split)

theorem State.readback_kept {z0 : State} (s : State) (agree : Bool) (src ret : Nat) (hz : Kept z0 s) : Kept z0 (State.readback s agree src ret) := by
  refine hz.trans ?_
  unfold State.readback
  repeat' (first
    | with_reducible exact Kept.rfl | with_reducible assumption | with_reducible apply State.followInputFault_kept
    | with_reducible apply State.onPsf_kept | with_reducible apply State.put_kept
    | with_reducible apply State.putB_kept | with_reducible apply State.reach_kept | with_reducible apply Kept.ite
    | with_reducible refine Kept.of_snd (by assumption) ?_ | intro _ | dsimp only
    | fail_if_no_progress with_reducible apply Kept.mk' | split)

theorem State.takeFeedback_kept {z0 : State} (s : State) (fb : BitVec 3) (hz : Kept z0 s) : Kept z0 (State.takeFeedback s fb) := by
  refine hz.trans ?_
  unfold State.takeFeedback
  repeat' (first
    | with_reducible exact Kept.rfl | with_reducible assumption | with_reducible apply State.putB_kept
    | with_reducible apply Kept.foldl | with_reducible refine Kept.of_snd (by assumption) ?_ | intro _ | dsimp only
    | fail_if_no_progress with_reducible apply Kept.mk' | split)

theorem State.clearOn_kept {z0 : State} (s : State) (o : Nat) (hz : Kept z0 s) : Kept z0 (State.clearOn s o) := by
  refine hz.trans ?_
  unfold State.clearOn
  repeat' (first
    | with_reducible exact Kept.rfl | with_reducible assumption | with_reducible apply State.discard_kept
    | with_reducible apply State.onPsf_kept | with_reducible apply State.onPulse_kept
    | with_reducible apply State.putBit_kept | with_reducible apply Kept.ite_else | with_reducible apply Kept.ite_then
    | with_reducible apply Kept.ite | with_reducible refine Kept.of_snd (by assumption) ?_ | intro _ | dsimp only
    | fail_if_no_progress with_reducible apply Kept.mk' | split)

theorem State.setOn_kept {z0 : State} (s : State) (o : Nat) (hz : Kept z0 s) : Kept z0 (State.setOn s o) := by
  refine hz.trans ?_
  unfold State.setOn
  repeat' (first
    | with_reducible exact Kept.rfl | with_reducible assumption | with_reducible apply State.bump_kept
    | with_reducible apply State.clearOn_kept | with_reducible apply State.onPsf_kept
    | with_reducible apply State.putBit_kept | with_reducible apply Kept.ite
    | with_reducible refine Kept.of_snd (by assumption) ?_ | intro _ | dsimp only
    | fail_if_no_progress with_reducible apply Kept.mk' | split)

theorem State.writeOutCmd_kept {z0 : State} (s : State) (i : Initiator) (v : Nat) (hz : Kept z0 s) : Kept z0 (State.writeOutCmd s i v) := by
  refine hz.trans ?_
  unfold State.writeOutCmd
  repeat' (first
    | with_reducible exact Kept.rfl | with_reducible assumption | with_reducible apply State.clearOn_kept
    | with_reducible apply State.refuseRight_kept | with_reducible apply State.setOn_kept
    | with_reducible apply State.showOuts_kept | with_reducible apply Kept.ite | with_reducible apply Kept.foldl
    | with_reducible refine Kept.of_snd (by assumption) ?_ | intro _ | dsimp only
    | fail_if_no_progress with_reducible apply Kept.mk' | split)

theorem State.outputFault_kept {z0 : State} (s : State) (o cause : Nat) (hz : Kept z0 s) : Kept z0 (State.outputFault s o cause) := by
  refine hz.trans ?_
  unfold State.outputFault
  repeat' (first
    | with_reducible exact Kept.rfl | with_reducible assumption | with_reducible apply State.faultU_kept
    | with_reducible apply State.lockoutEnter_kept | with_reducible apply State.raiseSrc_kept
    | with_reducible refine Kept.of_snd (by assumption) ?_ | intro _ | dsimp only
    | fail_if_no_progress with_reducible apply Kept.mk' | split)

theorem State.judgeFeedback_kept {z0 : State} (s : State) (o : Nat) (above : Bool) (level : Nat) (hz : Kept z0 s) : Kept z0 (State.judgeFeedback s o above level) := by
  refine hz.trans ?_
  unfold State.judgeFeedback
  repeat' (first
    | with_reducible exact Kept.rfl | with_reducible assumption | with_reducible apply State.fbFrom_kept
    | with_reducible apply State.onPulse_kept | with_reducible apply State.outputFault_kept
    | with_reducible apply State.put_kept | with_reducible apply State.putB_kept
    | with_reducible apply State.reach_kept | with_reducible apply Kept.ite
    | with_reducible refine Kept.of_snd (by assumption) ?_ | intro _ | dsimp only
    | fail_if_no_progress with_reducible apply Kept.mk' | split)

theorem State.startPulse_kept {z0 : State} (s : State) (o : Nat) (hz : Kept z0 s) : Kept z0 (State.startPulse s o) := by
  refine hz.trans ?_
  unfold State.startPulse
  repeat' (first
    | with_reducible exact Kept.rfl | with_reducible assumption | with_reducible apply State.discard_kept
    | with_reducible apply State.fbFrom_kept | with_reducible apply State.onPulse_kept
    | with_reducible apply State.put_kept | with_reducible apply State.putB_kept
    | with_reducible apply State.reach_kept | with_reducible apply State.wrN_kept | with_reducible apply Kept.ite
    | with_reducible apply Kept.foldl | with_reducible refine Kept.of_snd (by assumption) ?_ | intro _ | dsimp only
    | fail_if_no_progress with_reducible apply Kept.mk' | split)

theorem State.applyLater_kept {z0 : State} (s : State) (hz : Kept z0 s) : Kept z0 (State.applyLater s) := by
  refine hz.trans ?_
  unfold State.applyLater
  repeat' (first
    | with_reducible exact Kept.rfl | with_reducible assumption | with_reducible apply State.onPsf_kept
    | with_reducible apply State.setOn_kept | with_reducible apply State.showOuts_kept
    | with_reducible apply Kept.foldl | with_reducible refine Kept.of_snd (by assumption) ?_ | intro _ | dsimp only
    | fail_if_no_progress with_reducible apply Kept.mk' | split)

theorem State.endPulse_kept {z0 : State} (s : State) (above : Bool) (level : Nat) (hz : Kept z0 s) : Kept z0 (State.endPulse s above level) := by
  refine hz.trans ?_
  unfold State.endPulse
  repeat' (first
    | with_reducible exact Kept.rfl | with_reducible assumption | with_reducible apply State.applyLater_kept
    | with_reducible apply State.bump_kept | with_reducible apply State.discard_kept
    | with_reducible apply State.drop_kept | with_reducible apply State.fbFrom_kept
    | with_reducible apply State.onPsf_kept | with_reducible apply State.onPulse_kept
    | with_reducible apply State.outputFault_kept | with_reducible apply State.put_kept
    | with_reducible apply State.putB_kept | with_reducible apply State.reach_kept | with_reducible apply Kept.ite
    | with_reducible refine Kept.of_snd (by assumption) ?_ | intro _ | dsimp only
    | fail_if_no_progress with_reducible apply Kept.mk' | split)

theorem State.armRefuse_kept {z0 : State} (s : State) (code : Nat) (hz : Kept z0 s) : Kept z0 (State.armRefuse s code) := by
  refine hz.trans ?_
  unfold State.armRefuse
  repeat' (first
    | with_reducible exact Kept.rfl | with_reducible assumption | with_reducible apply State.bump_kept
    | with_reducible apply State.psfEvent_kept | with_reducible apply State.put_kept
    | with_reducible refine Kept.of_snd (by assumption) ?_ | intro _ | dsimp only
    | fail_if_no_progress with_reducible apply Kept.mk' | split)

theorem State.armLast_kept {z0 : State} (s : State) (fb : BitVec 3) (hz : Kept z0 s) : Kept z0 (State.armLast s fb) := by
  refine hz.trans ?_
  unfold State.armLast
  repeat' (first
    | with_reducible exact Kept.rfl | with_reducible assumption | with_reducible apply State.armRefuse_kept
    | with_reducible apply State.psfEvent_kept | with_reducible apply State.put_kept
    | with_reducible apply State.takeFeedback_kept | with_reducible apply Kept.ite
    | with_reducible refine Kept.of_snd (by assumption) ?_ | intro _ | dsimp only
    | fail_if_no_progress with_reducible apply Kept.mk' | split)

theorem State.armRequest_kept {z0 : State} (s : State) (fb : BitVec 3) (hz : Kept z0 s) : Kept z0 (State.armRequest s fb) := by
  refine hz.trans ?_
  unfold State.armRequest
  repeat' (first
    | with_reducible exact Kept.rfl | with_reducible assumption | with_reducible apply State.armLast_kept
    | with_reducible apply State.armRefuse_kept | with_reducible apply State.followInput_kept
    | with_reducible apply State.onPsf_kept | with_reducible apply State.put_kept | with_reducible apply Kept.ite
    | with_reducible refine Kept.of_snd (by assumption) ?_ | intro _ | dsimp only
    | fail_if_no_progress with_reducible apply Kept.mk' | split)

theorem State.selfCycleEnd_kept {z0 : State} (s : State) (fb : BitVec 3) (hz : Kept z0 s) : Kept z0 (State.selfCycleEnd s fb) := by
  refine hz.trans ?_
  unfold State.selfCycleEnd
  repeat' (first
    | with_reducible exact Kept.rfl | with_reducible assumption | with_reducible apply State.armLast_kept
    | with_reducible apply State.armRefuse_kept | with_reducible apply State.followInput_kept
    | with_reducible apply State.onPsf_kept | with_reducible apply State.put_kept
    | with_reducible apply State.reach_kept | with_reducible apply Kept.ite
    | with_reducible refine Kept.of_snd (by assumption) ?_ | intro _ | dsimp only
    | fail_if_no_progress with_reducible apply Kept.mk' | split)

theorem State.writeArm_kept {z0 : State} (s : State) (i : Initiator) (v : Nat) (fb : BitVec 3) (hz : Kept z0 s) : Kept z0 (State.writeArm s i v fb) := by
  refine hz.trans ?_
  unfold State.writeArm
  repeat' (first
    | with_reducible exact Kept.rfl | with_reducible assumption | with_reducible apply State.armRequest_kept
    | with_reducible apply State.disarm_kept | with_reducible apply State.ifPrivileged_kept
    | with_reducible apply State.refuseRight_kept | with_reducible apply Kept.ite
    | with_reducible refine Kept.of_snd (by assumption) ?_ | intro _ | dsimp only
    | fail_if_no_progress with_reducible apply Kept.mk' | split)

theorem State.writeKey_kept {z0 : State} (s : State) (i : Initiator) (v : Nat) (hz : Kept z0 s) : Kept z0 (State.writeKey s i v) := by
  refine hz.trans ?_
  unfold State.writeKey
  repeat' (first
    | with_reducible exact Kept.rfl | with_reducible assumption | with_reducible apply State.bump_kept
    | with_reducible apply State.ifPrivileged_kept | with_reducible apply State.onPsf_kept
    | with_reducible apply State.put_kept | with_reducible apply Kept.ite
    | with_reducible refine Kept.of_snd (by assumption) ?_ | intro _ | dsimp only
    | fail_if_no_progress with_reducible apply Kept.mk' | split)

theorem State.leaveLockout_kept {z0 : State} (s : State) (hz : Kept z0 s) : Kept z0 (State.leaveLockout s) := by
  refine hz.trans ?_
  unfold State.leaveLockout
  repeat' (first
    | with_reducible exact Kept.rfl | with_reducible assumption | with_reducible apply State.onPsf_kept
    | with_reducible apply State.psfEvent_kept | with_reducible apply State.put_kept
    | with_reducible apply State.withdraw_kept | with_reducible refine Kept.of_snd (by assumption) ?_ | intro _
    | dsimp only | fail_if_no_progress with_reducible apply Kept.mk' | split)

theorem execDemandClear_kept (i : Initiator) (v : Word) (s : State) : KeptO s (execDemandClear i v s) := by
  unfold execDemandClear
  repeat' (first
    | with_reducible exact Kept.rfl | with_reducible assumption | with_reducible apply State.clearDemands_kept
    | with_reducible apply State.ifPrivileged_kept | with_reducible apply State.writeRow_kept
    | with_reducible apply KeptO.next | with_reducible apply KeptO.ite
    | with_reducible refine Kept.of_snd (by assumption) ?_ | intro _ | dsimp only
    | fail_if_no_progress with_reducible apply Kept.mk' | split)

theorem execOffreqSet_kept (i : Initiator) (v : Word) (s : State) : KeptO s (execOffreqSet i v s) := by
  unfold execOffreqSet
  repeat' (first
    | with_reducible exact Kept.rfl | with_reducible assumption | with_reducible apply State.writeOffreq_kept
    | with_reducible apply State.writeRow_kept | with_reducible apply KeptO.next | with_reducible apply KeptO.ite
    | with_reducible refine Kept.of_snd (by assumption) ?_ | intro _ | dsimp only
    | fail_if_no_progress with_reducible apply Kept.mk' | split)

theorem execOffreqClr_kept (i : Initiator) (v : Word) (s : State) : KeptO s (execOffreqClr i v s) := by
  unfold execOffreqClr
  repeat' (first
    | with_reducible exact Kept.rfl | with_reducible assumption | with_reducible apply State.writeOffreq_kept
    | with_reducible apply State.writeRow_kept | with_reducible apply KeptO.next | with_reducible apply KeptO.ite
    | with_reducible refine Kept.of_snd (by assumption) ?_ | intro _ | dsimp only
    | fail_if_no_progress with_reducible apply Kept.mk' | split)

theorem execSafetyInputChange_kept (k : Fin 2) (closed : Bool) (s : State) : KeptO s (execSafetyInputChange k closed s) := by
  unfold execSafetyInputChange
  repeat' (first
    | with_reducible exact Kept.rfl | with_reducible assumption | with_reducible apply State.inputLevel_kept
    | with_reducible apply KeptO.next | with_reducible apply KeptO.ite
    | with_reducible refine Kept.of_snd (by assumption) ?_ | intro _ | dsimp only
    | fail_if_no_progress with_reducible apply Kept.mk' | split)

theorem execDarkPulse_kept (s : State) : KeptO s (execDarkPulse s) := by
  unfold execDarkPulse
  repeat' (first
    | with_reducible exact Kept.rfl | with_reducible assumption | with_reducible apply State.onPsf_kept
    | with_reducible apply State.reach_kept | with_reducible apply KeptO.next | with_reducible apply KeptO.ite
    | with_reducible apply Kept.getD | with_reducible refine Kept.of_snd (by assumption) ?_ | intro _ | dsimp only
    | fail_if_no_progress with_reducible apply Kept.mk' | split)

theorem execDarkPulseEnd_kept (closed : Bool) (s : State) : KeptO s (execDarkPulseEnd closed s) := by
  unfold execDarkPulseEnd
  repeat' (first
    | with_reducible exact Kept.rfl | with_reducible assumption | with_reducible apply State.followInputFault_kept
    | with_reducible apply State.onPsf_kept | with_reducible apply State.putB_kept
    | with_reducible apply State.reach_kept | with_reducible apply KeptO.next | with_reducible apply KeptO.ite
    | with_reducible refine Kept.of_snd (by assumption) ?_ | intro _ | dsimp only
    | fail_if_no_progress with_reducible apply Kept.mk' | split)

theorem execIlkReadback_kept (src ret : BitVec 16) (s : State) : KeptO s (execIlkReadback src ret s) := by
  unfold execIlkReadback
  repeat' (first
    | with_reducible exact Kept.rfl | with_reducible assumption | with_reducible apply State.readback_kept
    | with_reducible apply KeptO.next | with_reducible apply KeptO.ite
    | with_reducible refine Kept.of_snd (by assumption) ?_ | intro _ | dsimp only
    | fail_if_no_progress with_reducible apply Kept.mk' | split)

theorem execReadbackAgreement_kept (src ret : BitVec 16) (s : State) : KeptO s (execReadbackAgreement src ret s) := by
  unfold execReadbackAgreement
  repeat' (first
    | with_reducible exact Kept.rfl | with_reducible assumption | with_reducible apply State.readback_kept
    | with_reducible apply KeptO.next | with_reducible apply KeptO.ite
    | with_reducible refine Kept.of_snd (by assumption) ?_ | intro _ | dsimp only
    | fail_if_no_progress with_reducible apply Kept.mk' | split)

theorem execChatterQuiet_kept (k : Fin 2) (s : State) : KeptO s (execChatterQuiet k s) := by
  unfold execChatterQuiet
  repeat' (first
    | with_reducible exact Kept.rfl | with_reducible assumption | with_reducible apply State.endChat_kept
    | with_reducible apply KeptO.next | with_reducible apply KeptO.ite
    | with_reducible refine Kept.of_snd (by assumption) ?_ | intro _ | dsimp only
    | fail_if_no_progress with_reducible apply Kept.mk' | split)

theorem execArmRequest_kept (i : Initiator) (v : Word) (fb : BitVec 3) (s : State) : KeptO s (execArmRequest i v fb s) := by
  unfold execArmRequest
  repeat' (first
    | with_reducible exact Kept.rfl | with_reducible assumption | with_reducible apply State.writeArm_kept
    | with_reducible apply State.writeRow_kept | with_reducible apply KeptO.next | with_reducible apply KeptO.ite
    | with_reducible refine Kept.of_snd (by assumption) ?_ | intro _ | dsimp only
    | fail_if_no_progress with_reducible apply Kept.mk' | split)

theorem execIlkSelfCycleEnd_kept (fb : BitVec 3) (s : State) : KeptO s (execIlkSelfCycleEnd fb s) := by
  unfold execIlkSelfCycleEnd
  repeat' (first
    | with_reducible exact Kept.rfl | with_reducible assumption | with_reducible apply State.selfCycleEnd_kept
    | with_reducible apply KeptO.next | with_reducible apply KeptO.ite
    | with_reducible refine Kept.of_snd (by assumption) ?_ | intro _ | dsimp only
    | fail_if_no_progress with_reducible apply Kept.mk' | split)

theorem execArmDisable_kept (i : Initiator) (v : Word) (s : State) : KeptO s (execArmDisable i v s) := by
  unfold execArmDisable
  repeat' (first
    | with_reducible exact Kept.rfl | with_reducible assumption | with_reducible apply State.fresh_kept
    | with_reducible apply State.writeArm_kept | with_reducible apply State.writeRow_kept
    | with_reducible apply KeptO.next | with_reducible apply KeptO.ite
    | with_reducible refine Kept.of_snd (by assumption) ?_ | intro _ | dsimp only
    | fail_if_no_progress with_reducible apply Kept.mk' | split)

theorem execOutputOnWrite_kept (i : Initiator) (v : Word) (s : State) : KeptO s (execOutputOnWrite i v s) := by
  unfold execOutputOnWrite
  repeat' (first
    | with_reducible exact Kept.rfl | with_reducible assumption | with_reducible apply State.writeOutCmd_kept
    | with_reducible apply State.writeRow_kept | with_reducible apply KeptO.next | with_reducible apply KeptO.ite
    | with_reducible refine Kept.of_snd (by assumption) ?_ | intro _ | dsimp only
    | fail_if_no_progress with_reducible apply Kept.mk' | split)

theorem execOutputOffWrite_kept (i : Initiator) (v : Word) (s : State) : KeptO s (execOutputOffWrite i v s) := by
  unfold execOutputOffWrite
  repeat' (first
    | with_reducible exact Kept.rfl | with_reducible assumption | with_reducible apply State.writeOutCmd_kept
    | with_reducible apply State.writeRow_kept | with_reducible apply KeptO.next | with_reducible apply KeptO.ite
    | with_reducible refine Kept.of_snd (by assumption) ?_ | intro _ | dsimp only
    | fail_if_no_progress with_reducible apply Kept.mk' | split)

theorem execOutputFault_kept (o : Fin 3) (above : Bool) (level : BitVec 16) (s : State) : KeptO s (execOutputFault o above level s) := by
  unfold execOutputFault
  repeat' (first
    | with_reducible exact Kept.rfl | with_reducible assumption | with_reducible apply State.judgeFeedback_kept
    | with_reducible apply KeptO.next | with_reducible apply KeptO.ite
    | with_reducible refine Kept.of_snd (by assumption) ?_ | intro _ | dsimp only
    | fail_if_no_progress with_reducible apply Kept.mk' | split)

theorem execOffPulse_kept (o : Fin 3) (s : State) : KeptO s (execOffPulse o s) := by
  unfold execOffPulse
  repeat' (first
    | with_reducible exact Kept.rfl | with_reducible assumption | with_reducible apply State.startPulse_kept
    | with_reducible apply KeptO.next | with_reducible apply KeptO.ite
    | with_reducible refine Kept.of_snd (by assumption) ?_ | intro _ | dsimp only
    | fail_if_no_progress with_reducible apply Kept.mk' | split)

theorem execOffPulseEnd_kept (above : Bool) (level : BitVec 16) (s : State) : KeptO s (execOffPulseEnd above level s) := by
  unfold execOffPulseEnd
  repeat' (first
    | with_reducible exact Kept.rfl | with_reducible assumption | with_reducible apply State.endPulse_kept
    | with_reducible apply KeptO.next | with_reducible apply KeptO.ite
    | with_reducible refine Kept.of_snd (by assumption) ?_ | intro _ | dsimp only
    | fail_if_no_progress with_reducible apply Kept.mk' | split)

theorem execLockoutKey_kept (i : Initiator) (v : Word) (s : State) : KeptO s (execLockoutKey i v s) := by
  unfold execLockoutKey
  repeat' (first
    | with_reducible exact Kept.rfl | with_reducible assumption | with_reducible apply State.writeKey_kept
    | with_reducible apply State.writeRow_kept | with_reducible apply KeptO.next | with_reducible apply KeptO.ite
    | with_reducible refine Kept.of_snd (by assumption) ?_ | intro _ | dsimp only
    | fail_if_no_progress with_reducible apply Kept.mk' | split)

theorem execLockoutExit_kept (fb : BitVec 3) (s : State) : KeptO s (execLockoutExit fb s) := by
  unfold execLockoutExit
  repeat' (first
    | with_reducible exact Kept.rfl | with_reducible assumption | with_reducible apply State.leaveLockout_kept
    | with_reducible apply State.takeFeedback_kept | with_reducible apply KeptO.next | with_reducible apply KeptO.ite
    | with_reducible refine Kept.of_snd (by assumption) ?_ | intro _ | dsimp only
    | fail_if_no_progress with_reducible apply Kept.mk' | split)

theorem execHeartbeatLost_kept (s : State) : KeptO s (execHeartbeatLost s) := by
  unfold execHeartbeatLost
  repeat' (first
    | with_reducible exact Kept.rfl | with_reducible assumption | with_reducible apply State.bump_kept
    | with_reducible apply State.put_kept | with_reducible apply State.raiseSrc_kept | with_reducible apply KeptO.next
    | with_reducible apply KeptO.ite | with_reducible apply Kept.ite_else | with_reducible apply Kept.ite_then
    | with_reducible apply Kept.ite | with_reducible refine Kept.of_snd (by assumption) ?_ | intro _ | dsimp only
    | fail_if_no_progress with_reducible apply Kept.mk' | split)

end Sys2Proof.Machine
end

