-- ==== Sys2Proof/Laws/KeptCauseway.lean ====
section
/-! SUPPORT. Every operation of Machine/Causeway.lean keeps what `Kept` says. -/

set_option linter.unusedTactic false
set_option linter.unreachableTactic false
set_option linter.unusedVariables false

namespace Sys2Proof.Machine

set_option Elab.async false

theorem State.capture_kept {z0 : State} (s : State) (k : Nat) (late : Bool) (hz : Kept z0 s) : Kept z0 (State.capture s k late) := by
  refine hz.trans ?_
  unfold State.capture
  repeat' (first
    | with_reducible exact Kept.rfl | with_reducible assumption | with_reducible apply State.onPsf_kept
    | with_reducible apply State.originate_kept | with_reducible apply State.putB_kept
    | with_reducible apply State.wrN_kept | with_reducible apply State.wrap_kept | with_reducible apply Kept.ite
    | with_reducible refine Kept.of_snd (by assumption) ?_ | intro _ | dsimp only
    | fail_if_no_progress with_reducible apply Kept.mk' | split)

theorem State.cwBit_kept {z0 : State} (s : State) (a addr : Nat) (b : Bool) (hz : Kept z0 s) : Kept z0 (State.cwBit s a addr b) := by
  refine hz.trans ?_
  unfold State.cwBit
  repeat' (first
    | with_reducible exact Kept.rfl | with_reducible assumption | with_reducible apply State.putBit_kept
    | with_reducible refine Kept.of_snd (by assumption) ?_ | intro _ | dsimp only
    | fail_if_no_progress with_reducible apply Kept.mk' | split)

theorem State.setPeer_kept {z0 : State} (s : State) (p : CwPeer) (hz : Kept z0 s) : Kept z0 (State.setPeer s p) := by
  refine hz.trans ?_
  unfold State.setPeer
  repeat' (first
    | with_reducible exact Kept.rfl | with_reducible assumption | with_reducible apply State.onPsf_kept
    | with_reducible apply Kept.ite_else | with_reducible apply Kept.ite_then | with_reducible apply Kept.ite
    | with_reducible refine Kept.of_snd (by assumption) ?_ | intro _ | dsimp only
    | fail_if_no_progress with_reducible apply Kept.mk' | split)

theorem State.cwBegin_kept {z0 : State} (s : State) (k : Nat) (hz : Kept z0 s) : Kept z0 (State.cwBegin s k) := by
  refine hz.trans ?_
  unfold State.cwBegin
  repeat' (first
    | with_reducible exact Kept.rfl | with_reducible assumption | with_reducible apply State.onPsf_kept
    | with_reducible apply State.showExpected_kept | with_reducible apply Kept.ite_else
    | with_reducible apply Kept.ite_then | with_reducible apply Kept.ite
    | with_reducible refine Kept.of_snd (by assumption) ?_ | intro _ | dsimp only
    | fail_if_no_progress with_reducible apply Kept.mk' | split)

theorem State.safeReaction_kept {z0 : State} (s : State) (addr reason : Nat) (hz : Kept z0 s) : Kept z0 (State.safeReaction s addr reason) := by
  refine hz.trans ?_
  unfold State.safeReaction
  repeat' (first
    | with_reducible exact Kept.rfl | with_reducible assumption | with_reducible apply State.bump_kept
    | with_reducible apply State.cwBit_kept | with_reducible apply State.onPsf_kept
    | with_reducible apply State.psfEvent_kept | with_reducible apply State.put_kept
    | with_reducible apply State.raiseSrc_kept | with_reducible apply Kept.ite_else
    | with_reducible apply Kept.ite_then | with_reducible apply Kept.ite
    | with_reducible refine Kept.of_snd (by assumption) ?_ | intro _ | dsimp only
    | fail_if_no_progress with_reducible apply Kept.mk' | split)

theorem State.cwDecide_kept {z0 : State} (s : State) (n : Nat) (p : CwPeer) (hz : Kept z0 s) : Kept z0 (State.cwDecide s n p) := by
  refine hz.trans ?_
  unfold State.cwDecide
  repeat' (first
    | with_reducible exact Kept.rfl | with_reducible assumption | with_reducible apply State.bump_kept
    | with_reducible apply State.count_kept | with_reducible apply State.cwBit_kept
    | with_reducible apply State.safeReaction_kept | with_reducible apply State.setPeer_kept
    | with_reducible apply Kept.ite_else | with_reducible apply Kept.ite_then | with_reducible apply Kept.ite
    | with_reducible refine Kept.of_snd (by assumption) ?_ | intro _ | dsimp only
    | fail_if_no_progress with_reducible apply Kept.mk' | split)

theorem State.takeCopy_kept {z0 : State} (s : State) (f : Frame) (hz : Kept z0 s) : Kept z0 (State.takeCopy s f) := by
  refine hz.trans ?_
  unfold State.takeCopy
  repeat' (first
    | with_reducible exact Kept.rfl | with_reducible assumption | with_reducible apply State.bump_kept
    | with_reducible apply State.cwBit_kept | with_reducible apply State.cwDecide_kept
    | with_reducible apply State.setPeer_kept | with_reducible apply Kept.ite
    | with_reducible refine Kept.of_snd (by assumption) ?_ | intro _ | dsimp only
    | fail_if_no_progress with_reducible apply Kept.mk' | split)

theorem execCausewayReceive_kept (_p : Fin 4) (f : Frame) (s : State) : KeptO s (execCausewayReceive _p f s) := by
  unfold execCausewayReceive
  repeat' (first
    | with_reducible exact Kept.rfl | with_reducible assumption | with_reducible apply State.takeCopy_kept
    | with_reducible apply State.takeInbox_kept | with_reducible apply KeptO.next | with_reducible apply KeptO.ite
    | with_reducible refine Kept.of_snd (by assumption) ?_ | intro _ | dsimp only
    | fail_if_no_progress with_reducible apply Kept.mk' | split)

theorem execCausewayDecision_kept (s : State) : KeptO s (execCausewayDecision s) := by
  unfold execCausewayDecision
  repeat' (first
    | with_reducible exact Kept.rfl | with_reducible assumption | with_reducible apply State.cwDecide_kept
    | with_reducible apply State.reachFt_kept | with_reducible apply KeptO.next | with_reducible apply KeptO.ite
    | with_reducible apply Kept.ite_else | with_reducible apply Kept.ite_then | with_reducible apply Kept.ite
    | with_reducible apply Kept.foldl | with_reducible refine Kept.of_snd (by assumption) ?_ | intro _ | dsimp only
    | fail_if_no_progress with_reducible apply Kept.mk' | split)

end Sys2Proof.Machine
end

