-- ==== Sys2Proof/Laws/KeptCalCore.lean ====
section
/-! SUPPORT. Every operation of Machine/CalCore.lean keeps what `Kept` says. -/

set_option linter.unusedTactic false
set_option linter.unreachableTactic false
set_option linter.unusedVariables false

namespace Sys2Proof.Machine

set_option Elab.async false

theorem State.showCalSlots_kept {z0 : State} (s : State) (hz : Kept z0 s) : Kept z0 (State.showCalSlots s) := by
  refine hz.trans ?_
  unfold State.showCalSlots
  repeat' (first
    | with_reducible exact Kept.rfl | with_reducible assumption | with_reducible apply State.putB_kept
    | with_reducible refine Kept.of_snd (by assumption) ?_ | intro _ | dsimp only
    | fail_if_no_progress with_reducible apply Kept.mk' | split)

theorem State.calCommit_kept {z0 : State} (s : State) (kind procs : Nat) (ts : Int) (terms : List (Nat × Int)) (src : Nat → Nat) (stored : Bool) (hz : Kept z0 s) : Kept z0 (State.calCommit s kind procs ts terms src stored) := by
  refine hz.trans ?_
  unfold State.calCommit
  repeat' (first
    | with_reducible exact Kept.rfl | with_reducible assumption | with_reducible apply State.endCond_kept
    | with_reducible apply State.fault_kept | with_reducible apply State.memPut_kept
    | with_reducible apply State.put_kept | with_reducible apply State.put64_kept
    | with_reducible apply State.showCalSlots_kept | with_reducible apply State.wrN_kept
    | with_reducible apply Kept.ite | with_reducible refine Kept.of_snd (by assumption) ?_ | intro _ | dsimp only
    | fail_if_no_progress with_reducible apply Kept.mk' | split)

theorem State.factoryTrims_kept {z0 : State} (s : State) (hz : Kept z0 s) : Kept z0 (State.factoryTrims s) := by
  refine hz.trans ?_
  unfold State.factoryTrims
  repeat' (first
    | with_reducible exact Kept.rfl | with_reducible assumption | with_reducible apply State.put_kept
    | with_reducible apply State.put64_kept | with_reducible apply State.wrN_kept | with_reducible apply Kept.foldl
    | with_reducible apply Kept.foldl_snd | with_reducible refine Kept.of_snd (by assumption) ?_ | intro _
    | dsimp only | fail_if_no_progress with_reducible apply Kept.mk' | split)

theorem State.loadTrims_kept {z0 : State} (s : State) (hz : Kept z0 s) : Kept z0 (State.loadTrims s) := by
  refine hz.trans ?_
  unfold State.loadTrims
  repeat' (first
    | with_reducible exact Kept.rfl | with_reducible assumption | with_reducible apply State.factoryTrims_kept
    | with_reducible apply State.fault_kept | with_reducible apply State.put_kept
    | with_reducible apply State.put64_kept | with_reducible apply State.showCalSlots_kept
    | with_reducible apply State.wrN_kept | with_reducible apply Kept.foldl | with_reducible apply Kept.foldl_snd
    | with_reducible refine Kept.of_snd (by assumption) ?_ | intro _ | dsimp only
    | fail_if_no_progress with_reducible apply Kept.mk' | split)

theorem State.calTick_kept {z0 : State} (s : State) (hz : Kept z0 s) : Kept z0 (State.calTick s) := by
  refine hz.trans ?_
  unfold State.calTick
  repeat' (first
    | with_reducible exact Kept.rfl | with_reducible assumption | with_reducible apply State.calAbort_kept
    | with_reducible apply Kept.ite | with_reducible refine Kept.of_snd (by assumption) ?_ | intro _ | dsimp only
    | fail_if_no_progress with_reducible apply Kept.mk' | split)

theorem State.calBoundary_kept {z0 : State} (s : State) (hz : Kept z0 s) : Kept z0 (State.calBoundary s) := by
  refine hz.trans ?_
  unfold State.calBoundary
  repeat' (first
    | with_reducible exact Kept.rfl | with_reducible assumption | with_reducible apply State.wrN_kept
    | with_reducible apply Kept.ite_else | with_reducible apply Kept.ite_then | with_reducible apply Kept.ite
    | with_reducible apply Kept.foldl | with_reducible apply Kept.foldl_snd
    | with_reducible refine Kept.of_snd (by assumption) ?_ | intro _ | dsimp only
    | fail_if_no_progress with_reducible apply Kept.mk' | split)

end Sys2Proof.Machine
end

