-- ==== Sys2Proof/Laws/KeptLifeCore.lean ====
section
/-! SUPPORT. Every operation of Machine/LifeCore.lean keeps what `Kept` says. -/

set_option linter.unusedTactic false
set_option linter.unreachableTactic false
set_option linter.unusedVariables false

namespace Sys2Proof.Machine

set_option Elab.async false

theorem State.onLife_kept {z0 : State} (s : State) (f : LifeSt → LifeSt) (hz : Kept z0 s) : Kept z0 (State.onLife s f) := by
  refine hz.trans ?_
  unfold State.onLife
  repeat' (first
    | with_reducible exact Kept.rfl | with_reducible assumption | with_reducible refine Kept.of_snd (by assumption) ?_
    | intro _ | dsimp only | fail_if_no_progress with_reducible apply Kept.mk' | split)

theorem State.lifeCell_kept {z0 : State} (s : State) (dt c : Nat) (hz : Kept z0 s) : Kept z0 (State.lifeCell s dt c) := by
  refine hz.trans ?_
  unfold State.lifeCell
  repeat' (first
    | with_reducible exact Kept.rfl | with_reducible assumption | with_reducible apply State.onLife_kept
    | with_reducible apply Kept.ite_else | with_reducible apply Kept.ite_then | with_reducible apply Kept.ite
    | with_reducible refine Kept.of_snd (by assumption) ?_ | intro _ | dsimp only
    | fail_if_no_progress with_reducible apply Kept.mk' | split)

theorem State.lifeBin_kept {z0 : State} (s : State) (hz : Kept z0 s) : Kept z0 (State.lifeBin s).2 := by
  refine hz.trans ?_
  unfold State.lifeBin
  repeat' (first
    | with_reducible exact Kept.rfl | with_reducible assumption | with_reducible apply State.fresh_kept
    | with_reducible apply Kept.ite_else | with_reducible apply Kept.ite_then | with_reducible apply Kept.ite
    | with_reducible apply Kept.pair_ite | with_reducible refine Kept.of_snd (by assumption) ?_ | intro _ | dsimp only
    | fail_if_no_progress with_reducible apply Kept.mk' | split)

theorem State.lifeTherm_kept {z0 : State} (s : State) (i : Nat) (hz : Kept z0 s) : Kept z0 (State.lifeTherm s i) := by
  refine hz.trans ?_
  unfold State.lifeTherm
  repeat' (first
    | with_reducible exact Kept.rfl | with_reducible assumption | with_reducible apply State.onLife_kept
    | with_reducible refine Kept.of_snd (by assumption) ?_ | intro _ | dsimp only
    | fail_if_no_progress with_reducible apply Kept.mk' | split)

theorem State.lifeAdvance_kept {z0 : State} (s : State) (dt : Nat) (hz : Kept z0 s) : Kept z0 (State.lifeAdvance s dt) := by
  refine hz.trans ?_
  unfold State.lifeAdvance
  repeat' (first
    | with_reducible exact Kept.rfl | with_reducible assumption | with_reducible apply State.lifeBin_kept
    | with_reducible apply State.lifeCell_kept | with_reducible apply State.lifeTherm_kept
    | with_reducible apply State.onLife_kept | with_reducible apply Kept.ite | with_reducible apply Kept.foldl
    | with_reducible refine Kept.of_snd (by assumption) ?_ | intro _ | dsimp only
    | fail_if_no_progress with_reducible apply Kept.mk' | split)

theorem State.keepTotals_kept {z0 : State} (s : State) (hz : Kept z0 s) : Kept z0 (State.keepTotals s) := by
  refine hz.trans ?_
  unfold State.keepTotals
  repeat' (first
    | with_reducible exact Kept.rfl | with_reducible assumption | with_reducible apply State.onLife_kept
    | with_reducible refine Kept.of_snd (by assumption) ?_ | intro _ | dsimp only
    | fail_if_no_progress with_reducible apply Kept.mk' | split)

theorem State.trendFlush_kept {z0 : State} (s : State) (hz : Kept z0 s) : Kept z0 (State.trendFlush s) := by
  refine hz.trans ?_
  unfold State.trendFlush
  repeat' (first
    | with_reducible exact Kept.rfl | with_reducible assumption | with_reducible apply State.memPut_kept
    | with_reducible apply State.onLife_kept | with_reducible apply Kept.ite
    | with_reducible refine Kept.of_snd (by assumption) ?_ | intro _ | dsimp only
    | fail_if_no_progress with_reducible apply Kept.mk' | split)

theorem State.lifeFlush_kept {z0 : State} (s : State) (stored : Bool) (hz : Kept z0 s) : Kept z0 (State.lifeFlush s stored) := by
  refine hz.trans ?_
  unfold State.lifeFlush
  repeat' (first
    | with_reducible exact Kept.rfl | with_reducible assumption | with_reducible apply State.bump_kept
    | with_reducible apply State.fault_kept | with_reducible apply State.memPut_kept
    | with_reducible apply State.onLife_kept | with_reducible apply State.put_kept
    | with_reducible apply State.put64_kept | with_reducible apply State.trendFlush_kept
    | with_reducible apply State.wrN_kept | with_reducible apply State.wrap_kept | with_reducible apply Kept.ite
    | with_reducible refine Kept.of_snd (by assumption) ?_ | intro _ | dsimp only
    | fail_if_no_progress with_reducible apply Kept.mk' | split)

theorem State.sealIdentity_kept {z0 : State} (s : State) (hz : Kept z0 s) : Kept z0 (State.sealIdentity s) := by
  refine hz.trans ?_
  unfold State.sealIdentity
  repeat' (first
    | with_reducible exact Kept.rfl | with_reducible assumption | with_reducible apply State.memPut_kept
    | with_reducible refine Kept.of_snd (by assumption) ?_ | intro _ | dsimp only
    | fail_if_no_progress with_reducible apply Kept.mk' | split)

theorem State.countClear_kept {z0 : State} (s : State) (hz : Kept z0 s) : Kept z0 (State.countClear s) := by
  refine hz.trans ?_
  unfold State.countClear
  repeat' (first
    | with_reducible exact Kept.rfl | with_reducible assumption | with_reducible apply State.memPut_kept
    | with_reducible apply State.sealIdentity_kept | with_reducible refine Kept.of_snd (by assumption) ?_ | intro _
    | dsimp only | fail_if_no_progress with_reducible apply Kept.mk' | split)

theorem State.ensureIdentity_kept {z0 : State} (s : State) (hz : Kept z0 s) : Kept z0 (State.ensureIdentity s) := by
  refine hz.trans ?_
  unfold State.ensureIdentity
  repeat' (first
    | with_reducible exact Kept.rfl | with_reducible assumption | with_reducible apply State.memPut_kept
    | with_reducible apply State.sealIdentity_kept | with_reducible apply Kept.ite
    | with_reducible refine Kept.of_snd (by assumption) ?_ | intro _ | dsimp only
    | fail_if_no_progress with_reducible apply Kept.mk' | split)

theorem State.bankLearned_kept {z0 : State} (s : State) (b : Nat) (hz : Kept z0 s) : Kept z0 (State.bankLearned s b) := by
  refine hz.trans ?_
  unfold State.bankLearned
  repeat' (first
    | with_reducible exact Kept.rfl | with_reducible assumption | with_reducible apply State.count_kept
    | with_reducible apply State.relearn_kept | with_reducible apply State.wrN_kept | with_reducible apply Kept.ite
    | with_reducible refine Kept.of_snd (by assumption) ?_ | intro _ | dsimp only
    | fail_if_no_progress with_reducible apply Kept.mk' | split)

theorem State.loadLife_kept {z0 : State} (s : State) (hz : Kept z0 s) : Kept z0 (State.loadLife s) := by
  refine hz.trans ?_
  unfold State.loadLife
  repeat' (first
    | with_reducible exact Kept.rfl | with_reducible assumption | with_reducible apply State.archive_kept
    | with_reducible apply State.bankLearned_kept | with_reducible apply State.countClear_kept
    | with_reducible apply State.ensureIdentity_kept | with_reducible apply State.put_kept
    | with_reducible apply State.put64_kept | with_reducible apply State.wrN_kept
    | with_reducible refine Kept.of_snd (by assumption) ?_ | intro _ | dsimp only
    | fail_if_no_progress with_reducible apply Kept.mk' | split)

theorem State.lifeClear_kept {z0 : State} (s : State) (hz : Kept z0 s) : Kept z0 (State.lifeClear s) := by
  refine hz.trans ?_
  unfold State.lifeClear
  repeat' (first
    | with_reducible exact Kept.rfl | with_reducible assumption | with_reducible apply State.countClear_kept
    | with_reducible apply State.memDrop_kept | with_reducible refine Kept.of_snd (by assumption) ?_ | intro _
    | dsimp only | fail_if_no_progress with_reducible apply Kept.mk' | split)

end Sys2Proof.Machine
end

