-- ==== Sys2Proof/Laws/KeptSnapshot.lean ====
section
/-! SUPPORT. Every operation of Machine/Snapshot.lean keeps what `Kept` says. -/

set_option linter.unusedTactic false
set_option linter.unreachableTactic false
set_option linter.unusedVariables false

namespace Sys2Proof.Machine

set_option Elab.async false

theorem State.estFields_kept {z0 : State} (s : State) (k : Nat) (hz : Kept z0 s) : Kept z0 (State.estFields s k).2 := by
  refine hz.trans ?_
  unfold State.estFields
  repeat' (first
    | with_reducible exact Kept.rfl | with_reducible assumption | with_reducible apply State.fresh_kept
    | with_reducible apply Kept.ite_else | with_reducible apply Kept.ite_then | with_reducible apply Kept.ite
    | with_reducible apply Kept.pair_ite | with_reducible refine Kept.of_snd (by assumption) ?_ | intro _ | dsimp only
    | fail_if_no_progress with_reducible apply Kept.mk' | split)

theorem State.snapRing_kept {z0 : State} (s : State) (full : List Byte) (ft : Nat) (hz : Kept z0 s) : Kept z0 (State.snapRing s full ft) := by
  refine hz.trans ?_
  unfold State.snapRing
  repeat' (first
    | with_reducible exact Kept.rfl | with_reducible assumption | with_reducible apply State.put_kept
    | with_reducible apply State.ringPut_kept | with_reducible apply KeptM.ite | with_reducible apply KeptM.none
    | with_reducible apply State.ringPut_kept | with_reducible refine Kept.of_snd (by assumption) ?_
    | with_reducible refine Kept.of_some (by assumption) ?_ | intro _ | dsimp only
    | fail_if_no_progress with_reducible apply Kept.mk' | split)

theorem State.sendSnapshot_kept {z0 : State} (s : State) (k fl : Nat) (mid est : List Byte) (hz : Kept z0 s) : Kept z0 (State.sendSnapshot s k fl mid est) := by
  refine hz.trans ?_
  unfold State.sendSnapshot
  repeat' (first
    | with_reducible exact Kept.rfl | with_reducible assumption | with_reducible apply State.originate_kept
    | with_reducible apply Kept.ite_else | with_reducible apply Kept.ite_then | with_reducible apply Kept.ite
    | with_reducible refine Kept.of_snd (by assumption) ?_ | intro _ | dsimp only
    | fail_if_no_progress with_reducible apply Kept.mk' | split)

theorem State.snapshot_kept {z0 : State} (s : State) (k : Nat) (late : Bool) (hz : Kept z0 s) : Kept z0 (State.snapshot s k late) := by
  refine hz.trans ?_
  unfold State.snapshot
  repeat' (first
    | with_reducible exact Kept.rfl | with_reducible assumption | with_reducible apply State.estFields_kept
    | with_reducible apply State.sendSnapshot_kept | with_reducible apply State.snapRing_kept
    | with_reducible apply Kept.ite | with_reducible refine Kept.of_snd (by assumption) ?_ | intro _ | dsimp only
    | fail_if_no_progress with_reducible apply Kept.mk' | split)

end Sys2Proof.Machine
end

