-- ==== Sys2Proof/Laws/KeptTick.lean ====
section
/-! SUPPORT. Every operation of Machine/Tick.lean keeps what `Kept` says. -/

set_option linter.unusedTactic false
set_option linter.unreachableTactic false
set_option linter.unusedVariables false

namespace Sys2Proof.Machine

set_option Elab.async false

theorem State.portSample_kept {z0 : State} (s : State) (x : StrobeSample) (n : Nat) (hz : Kept z0 s) : Kept z0 (State.portSample s x n) := by
  refine hz.trans ?_
  unfold State.portSample
  repeat' (first
    | with_reducible exact Kept.rfl | with_reducible assumption | with_reducible apply State.memPutWord_kept
    | with_reducible apply State.onEng_kept | with_reducible apply Kept.foldl
    | with_reducible refine Kept.of_snd (by assumption) ?_ | intro _ | dsimp only
    | fail_if_no_progress with_reducible apply Kept.mk' | split)

theorem State.strobe_kept {z0 : State} (s : State) (x : StrobeSample) (hz : Kept z0 s) : Kept z0 (State.strobe s x) := by
  refine hz.trans ?_
  unfold State.strobe
  repeat' (first
    | with_reducible exact Kept.rfl | with_reducible assumption | with_reducible apply State.ferryStrobe_kept
    | with_reducible apply State.owCutoff_kept | with_reducible apply State.portSample_kept
    | with_reducible apply State.sweepLimits_kept | with_reducible apply State.sweepSample_kept
    | with_reducible apply State.takeSample_kept | with_reducible apply Kept.foldl
    | with_reducible refine Kept.of_snd (by assumption) ?_ | intro _ | dsimp only
    | fail_if_no_progress with_reducible apply Kept.mk' | split)

theorem execBaseRateStrobe_kept (x : StrobeSample) (s : State) : KeptO s (execBaseRateStrobe x s) := by
  unfold execBaseRateStrobe
  repeat' (first
    | with_reducible exact Kept.rfl | with_reducible assumption | with_reducible apply State.reach_kept
    | with_reducible apply State.reachFt_kept | with_reducible apply State.regather_kept
    | with_reducible apply State.strobe_kept | with_reducible apply KeptO.next | with_reducible apply KeptO.ite
    | with_reducible apply Kept.ite_else | with_reducible apply Kept.ite_then | with_reducible apply Kept.ite
    | with_reducible refine Kept.of_snd (by assumption) ?_ | intro _ | dsimp only
    | fail_if_no_progress with_reducible apply Kept.mk' | split)

theorem State.pushLog_kept {z0 : State} (n : Nat) (s : State) (hz : Kept z0 s) : Kept z0 (State.pushLog n s) := by
  induction n generalizing s with
  | zero => exact hz
  | succ n ih =>
    unfold State.pushLog
    dsimp only
    split
    · exact hz
    · exact ih _ (Kept.mk' (State.originate_kept _ _ _ _ (hz := hz)))

theorem State.logTick_kept {z0 : State} (s : State) (hz : Kept z0 s) : Kept z0 (State.logTick s) := by
  refine hz.trans ?_
  unfold State.logTick
  repeat' (first
    | with_reducible exact Kept.rfl | with_reducible assumption | with_reducible apply State.pushLog_kept
    | with_reducible apply Kept.ite | with_reducible refine Kept.of_snd (by assumption) ?_ | intro _ | dsimp only
    | fail_if_no_progress with_reducible apply Kept.mk' | split)

theorem State.newWindows_kept {z0 : State} (s : State) (hz : Kept z0 s) : Kept z0 (State.newWindows s) := by
  refine hz.trans ?_
  unfold State.newWindows
  repeat' (first
    | with_reducible exact Kept.rfl | with_reducible assumption | with_reducible apply State.latchFilter_kept
    | with_reducible apply State.put_kept | with_reducible apply Kept.ite_else | with_reducible apply Kept.ite_then
    | with_reducible apply Kept.ite | with_reducible refine Kept.of_snd (by assumption) ?_ | intro _ | dsimp only
    | fail_if_no_progress with_reducible apply Kept.mk' | split)

theorem State.engineClock_kept {z0 : State} (s : State) (hz : Kept z0 s) : Kept z0 (State.engineClock s) := by
  refine hz.trans ?_
  unfold State.engineClock
  repeat' (first
    | with_reducible exact Kept.rfl | with_reducible assumption | with_reducible apply State.put_kept
    | with_reducible apply State.syncAll_kept | with_reducible apply Kept.foldl
    | with_reducible refine Kept.of_snd (by assumption) ?_ | intro _ | dsimp only
    | fail_if_no_progress with_reducible apply Kept.mk' | split)

theorem execSampleInstant_kept (s : State) : KeptO s (execSampleInstant s) := by
  unfold execSampleInstant
  repeat' (first
    | with_reducible exact Kept.rfl | with_reducible assumption | with_reducible apply State.accepted_kept
    | with_reducible apply State.activate_kept | with_reducible apply State.autoTick_kept
    | with_reducible apply State.calBoundary_kept | with_reducible apply State.closeTick_kept
    | with_reducible apply State.cwBegin_kept | with_reducible apply State.engineClock_kept
    | with_reducible apply State.ferryTick_kept | with_reducible apply State.lateRound_kept
    | with_reducible apply State.logTick_kept | with_reducible apply State.newWindows_kept
    | with_reducible apply State.put64_kept | with_reducible apply State.reachFt_kept
    | with_reducible apply State.serveStreams_kept | with_reducible apply State.settleTick_kept
    | with_reducible apply State.sweepRequests_kept | with_reducible apply State.triggerAll_kept
    | with_reducible apply KeptO.next | with_reducible apply KeptO.ite | with_reducible apply Kept.ite_else
    | with_reducible apply Kept.ite_then | with_reducible apply Kept.ite | with_reducible apply Kept.foldl
    | with_reducible refine Kept.of_snd (by assumption) ?_ | intro _ | dsimp only
    | fail_if_no_progress with_reducible apply Kept.mk' | split)

theorem State.switchBank_kept {z0 : State} (s : State) (late : Nat) (hz : Kept z0 s) : Kept z0 (State.switchBank s late) := by
  refine hz.trans ?_
  unfold State.switchBank
  repeat' (first
    | with_reducible exact Kept.rfl | with_reducible assumption | with_reducible apply State.bankAux_kept
    | with_reducible apply State.bankCells_kept | with_reducible apply State.bankCurrent_kept
    | with_reducible apply State.bankFerry_kept | with_reducible apply State.calTick_kept
    | with_reducible apply State.capture_kept | with_reducible apply State.compareCells_kept
    | with_reducible apply State.compareCurrent_kept | with_reducible apply State.lifeAdvance_kept
    | with_reducible apply State.rateEval_kept | with_reducible apply State.showThot_kept
    | with_reducible apply State.snapshot_kept | with_reducible apply State.sweepTick_kept
    | with_reducible apply State.tempHistory_kept | with_reducible apply State.tempLimits_kept
    | with_reducible apply State.triggerAll_kept | with_reducible refine Kept.of_snd (by assumption) ?_ | intro _
    | dsimp only | fail_if_no_progress with_reducible apply Kept.mk' | split)

theorem execBankSwitch_kept (s : State) : KeptO s (execBankSwitch s) := by
  unfold execBankSwitch
  repeat' (first
    | with_reducible exact Kept.rfl | with_reducible assumption | with_reducible apply State.switchBank_kept
    | with_reducible apply KeptO.next | with_reducible apply KeptO.ite | with_reducible apply Kept.ite_else
    | with_reducible apply Kept.ite_then | with_reducible apply Kept.ite
    | with_reducible refine Kept.of_snd (by assumption) ?_ | intro _ | dsimp only
    | fail_if_no_progress with_reducible apply Kept.mk' | split)

theorem execBankSwitchDeadline_kept (s : State) : KeptO s (execBankSwitchDeadline s) := by
  unfold execBankSwitchDeadline
  repeat' (first
    | with_reducible exact Kept.rfl | with_reducible assumption | with_reducible apply State.fault_kept
    | with_reducible apply State.put_kept | with_reducible apply State.reachFt_kept
    | with_reducible apply State.switchBank_kept | with_reducible apply KeptO.next | with_reducible apply KeptO.ite
    | with_reducible apply Kept.ite_else | with_reducible apply Kept.ite_then | with_reducible apply Kept.ite
    | with_reducible refine Kept.of_snd (by assumption) ?_ | intro _ | dsimp only
    | fail_if_no_progress with_reducible apply Kept.mk' | split)

theorem State.sendTick_kept {z0 : State} (d : Nat) (s : State) (n : Nat) (hz : Kept z0 s) : Kept z0 (State.sendTick d s n) := by
  refine hz.trans ?_
  unfold State.sendTick
  repeat' (first
    | with_reducible exact Kept.rfl | with_reducible assumption | with_reducible apply State.bump_kept
    | with_reducible apply State.emit_kept | with_reducible apply State.onPort_kept | with_reducible apply Kept.ite
    | with_reducible refine Kept.of_snd (by assumption) ?_ | intro _ | dsimp only
    | fail_if_no_progress with_reducible apply Kept.mk' | split)

theorem execTickOriginate_kept (s : State) : KeptO s (execTickOriginate s) := by
  unfold execTickOriginate
  repeat' (first
    | with_reducible exact Kept.rfl | with_reducible assumption | with_reducible apply State.accepted_kept
    | with_reducible apply State.reachFt_kept | with_reducible apply State.sendTick_kept
    | with_reducible apply KeptO.next | with_reducible apply KeptO.ite | with_reducible apply Kept.ite_else
    | with_reducible apply Kept.ite_then | with_reducible apply Kept.ite | with_reducible apply Kept.foldl
    | with_reducible refine Kept.of_snd (by assumption) ?_ | intro _ | dsimp only
    | fail_if_no_progress with_reducible apply Kept.mk' | split)

theorem State.stepFt_kept {z0 : State} (s : State) (d : Int) (hz : Kept z0 s) : Kept z0 (State.stepFt s d) := by
  refine hz.trans ?_
  unfold State.stepFt
  repeat' (first
    | with_reducible exact Kept.rfl | with_reducible assumption | with_reducible refine Kept.of_snd (by assumption) ?_
    | intro _ | dsimp only | fail_if_no_progress with_reducible apply Kept.mk' | split)

theorem State.lock_kept {z0 : State} (s : State) (hz : Kept z0 s) : Kept z0 (State.lock s) := by
  refine hz.trans ?_
  unfold State.lock
  repeat' (first
    | with_reducible exact Kept.rfl | with_reducible assumption | with_reducible apply State.accepted_kept
    | with_reducible apply State.endHoldover_kept | with_reducible apply State.put_kept
    | with_reducible refine Kept.of_snd (by assumption) ?_ | intro _ | dsimp only
    | fail_if_no_progress with_reducible apply Kept.mk' | split)

theorem State.acquireTick_kept {z0 : State} (s : State) (k : Nat) (err : Int) (hz : Kept z0 s) : Kept z0 (State.acquireTick s k err) := by
  refine hz.trans ?_
  unfold State.acquireTick
  repeat' (first
    | with_reducible exact Kept.rfl | with_reducible assumption | with_reducible apply State.lock_kept
    | with_reducible apply State.put64_kept | with_reducible apply State.regather_kept
    | with_reducible apply State.stepFt_kept | with_reducible apply Kept.ite
    | with_reducible refine Kept.of_snd (by assumption) ?_ | intro _ | dsimp only
    | fail_if_no_progress with_reducible apply Kept.mk' | split)

theorem State.servo_kept {z0 : State} (s : State) (stamp : Nat) (hz : Kept z0 s) : Kept z0 (State.servo s stamp) := by
  unfold State.servo
  extract_lets ofs k err s
  have h : Kept z0 s := State.put_kept _ _ _ hz
  clear_value s err k
  refine Kept.ite (State.acquireTick_kept _ _ _ h) (Kept.ite (State.bump_kept _ _ _ h) ?_)
  exact Kept.ite (Kept.mk' h) (Kept.ite (State.lock_kept _ (Kept.mk' h)) (Kept.mk' (Kept.mk' h)))

theorem execTickAccept_kept (port : Fin 4) (stamp : Nat) (s : State) : KeptO s (execTickAccept port stamp s) := by
  unfold execTickAccept
  repeat' (first
    | with_reducible exact Kept.rfl | with_reducible assumption | with_reducible apply State.bump_kept
    | with_reducible apply State.reachFt_kept | with_reducible apply State.sendTick_kept
    | with_reducible apply State.servo_kept | with_reducible apply KeptO.next | with_reducible apply KeptO.ite
    | with_reducible apply Kept.ite_else | with_reducible apply Kept.ite_then | with_reducible apply Kept.ite
    | with_reducible apply Kept.foldl | with_reducible refine Kept.of_snd (by assumption) ?_ | intro _ | dsimp only
    | fail_if_no_progress with_reducible apply Kept.mk' | split)

theorem execTickMissing_kept (s : State) : KeptO s (execTickMissing s) := by
  unfold execTickMissing
  repeat' (first
    | with_reducible exact Kept.rfl | with_reducible assumption | with_reducible apply State.accepted_kept
    | with_reducible apply State.bump_kept | with_reducible apply State.put_kept
    | with_reducible apply State.reachFt_kept | with_reducible apply KeptO.next | with_reducible apply KeptO.ite
    | with_reducible apply Kept.ite_else | with_reducible apply Kept.ite_then | with_reducible apply Kept.ite
    | with_reducible refine Kept.of_snd (by assumption) ?_ | intro _ | dsimp only
    | fail_if_no_progress with_reducible apply Kept.mk' | split)

theorem execHoldoverExceeded_kept (s : State) : KeptO s (execHoldoverExceeded s) := by
  unfold execHoldoverExceeded
  repeat' (first
    | with_reducible exact Kept.rfl | with_reducible assumption | with_reducible apply State.fault_kept
    | with_reducible apply State.put_kept | with_reducible apply KeptO.next | with_reducible apply KeptO.ite
    | with_reducible apply Kept.ite_else | with_reducible apply Kept.ite_then | with_reducible apply Kept.ite
    | with_reducible refine Kept.of_snd (by assumption) ?_ | intro _ | dsimp only
    | fail_if_no_progress with_reducible apply Kept.mk' | split)

theorem State.discardExchange_kept {z0 : State} (s : State) (p : Nat) (hz : Kept z0 s) : Kept z0 (State.discardExchange s p) := by
  refine hz.trans ?_
  unfold State.discardExchange
  repeat' (first
    | with_reducible exact Kept.rfl | with_reducible assumption | with_reducible apply State.bump_kept
    | with_reducible apply State.onPort_kept | with_reducible refine Kept.of_snd (by assumption) ?_ | intro _
    | dsimp only | fail_if_no_progress with_reducible apply Kept.mk' | split)

theorem execTimexRequestSend_kept (port : Fin 4) (s : State) : KeptO s (execTimexRequestSend port s) := by
  unfold execTimexRequestSend
  repeat' (first
    | with_reducible exact Kept.rfl | with_reducible assumption | with_reducible apply State.narrowsFirst_kept
    | with_reducible apply State.reach_kept | with_reducible apply State.reachFt_kept
    | with_reducible apply State.sendTimex_kept | with_reducible apply KeptO.next | with_reducible apply KeptO.ite
    | with_reducible refine Kept.of_snd (by assumption) ?_ | intro _ | dsimp only
    | fail_if_no_progress with_reducible apply Kept.mk' | split)

theorem State.sendReply_kept {z0 : State} (s : State) (n : Nat) (r : TimexReply) (hz : Kept z0 s) : Kept z0 (State.sendReply s n r) := by
  refine hz.trans ?_
  unfold State.sendReply
  repeat' (first
    | with_reducible exact Kept.rfl | with_reducible assumption | with_reducible apply State.emit_kept
    | with_reducible apply State.onPort_kept | with_reducible refine Kept.of_snd (by assumption) ?_ | intro _
    | dsimp only | fail_if_no_progress with_reducible apply Kept.mk' | split)

theorem execTimexRequest_kept (port : Fin 4) (seq nseq : Byte) (turn : Fin 32001) (s : State) : KeptO s (execTimexRequest port seq nseq turn s) := by
  unfold execTimexRequest
  repeat' (first
    | with_reducible exact Kept.rfl | with_reducible assumption | with_reducible apply State.bump_kept
    | with_reducible apply State.narrowsFirst_kept | with_reducible apply State.reach_kept
    | with_reducible apply State.sendReply_kept | with_reducible apply KeptO.next | with_reducible apply KeptO.ite
    | with_reducible apply Kept.ite_else | with_reducible apply Kept.ite_then | with_reducible apply Kept.ite
    | with_reducible refine Kept.of_snd (by assumption) ?_ | intro _ | dsimp only
    | fail_if_no_progress with_reducible apply Kept.mk' | split)

theorem State.takeDelay_kept {z0 : State} (s : State) (p : Nat) (d : Int) (hz : Kept z0 s) : Kept z0 (State.takeDelay s p d).2 := by
  refine hz.trans ?_
  unfold State.takeDelay
  repeat' (first
    | with_reducible exact Kept.rfl | with_reducible assumption | with_reducible apply State.bump_kept
    | with_reducible apply State.discardExchange_kept | with_reducible apply State.onPort_kept
    | with_reducible apply State.put_kept | with_reducible apply Kept.ite | with_reducible apply Kept.pair_ite
    | with_reducible refine Kept.of_snd (by assumption) ?_ | intro _ | dsimp only
    | fail_if_no_progress with_reducible apply Kept.mk' | split)

theorem State.setPeriod_kept {z0 : State} (s : State) (p : Nat) (hz : Kept z0 s) : Kept z0 (State.setPeriod s p) := by
  refine hz.trans ?_
  unfold State.setPeriod
  repeat' (first
    | with_reducible exact Kept.rfl | with_reducible assumption | with_reducible apply State.put_kept
    | with_reducible refine Kept.of_snd (by assumption) ?_ | intro _ | dsimp only
    | fail_if_no_progress with_reducible apply Kept.mk' | split)

theorem State.followReply_kept {z0 : State} (s : State) (p : Nat) (r : TimexReply) (t4 : Nat) (hz : Kept z0 s) : Kept z0 (State.followReply s p r t4) := by
  refine hz.trans ?_
  unfold State.followReply
  repeat' (first
    | with_reducible exact Kept.rfl | with_reducible assumption | with_reducible apply State.acquire_kept
    | with_reducible apply State.newPeriod_kept | with_reducible apply State.put_kept
    | with_reducible apply State.put64_kept | with_reducible apply State.stepFt_kept | with_reducible apply Kept.ite
    | with_reducible refine Kept.of_snd (by assumption) ?_ | intro _ | dsimp only
    | fail_if_no_progress with_reducible apply Kept.mk' | split)

theorem State.hearReply_kept {z0 : State} (s : State) (p : Nat) (r : TimexReply) (t4 : Nat) (hz : Kept z0 s) : Kept z0 (State.hearReply s p r t4) := by
  refine hz.trans ?_
  unfold State.hearReply
  repeat' (first
    | with_reducible exact Kept.rfl | with_reducible assumption | with_reducible apply State.demote_kept
    | with_reducible apply State.joinStandby_kept | with_reducible apply State.stepFt_kept
    | with_reducible apply Kept.ite | with_reducible refine Kept.of_snd (by assumption) ?_ | intro _ | dsimp only
    | fail_if_no_progress with_reducible apply Kept.mk' | split)

theorem execTimexReply_kept (port : Fin 4) (l : List Byte) (t4 : Nat) (s : State) : KeptO s (execTimexReply port l t4 s) := by
  unfold execTimexReply
  repeat' (first
    | with_reducible exact Kept.rfl | with_reducible assumption | with_reducible apply State.bump_kept
    | with_reducible apply State.discardExchange_kept | with_reducible apply State.followReply_kept
    | with_reducible apply State.hearReply_kept | with_reducible apply State.onPort_kept
    | with_reducible apply State.reachFt_kept | with_reducible apply State.takeDelay_kept
    | with_reducible apply KeptO.next | with_reducible apply KeptO.ite | with_reducible apply Kept.ite_else
    | with_reducible apply Kept.ite_then | with_reducible apply Kept.ite
    | with_reducible refine Kept.of_snd (by assumption) ?_ | intro _ | dsimp only
    | fail_if_no_progress with_reducible apply Kept.mk' | split)

theorem execTimexReplyTimeout_kept (port : Fin 4) (s : State) : KeptO s (execTimexReplyTimeout port s) := by
  unfold execTimexReplyTimeout
  repeat' (first
    | with_reducible exact Kept.rfl | with_reducible assumption | with_reducible apply State.discardExchange_kept
    | with_reducible apply State.reachFt_kept | with_reducible apply KeptO.next | with_reducible apply KeptO.ite
    | with_reducible refine Kept.of_snd (by assumption) ?_ | intro _ | dsimp only
    | fail_if_no_progress with_reducible apply Kept.mk' | split)

theorem State.writeTmgCtrl_kept {z0 : State} (s : State) (i : Initiator) (v : Nat) (hz : Kept z0 s) : Kept z0 (State.writeTmgCtrl s i v) := by
  refine hz.trans ?_
  unfold State.writeTmgCtrl
  repeat' (first
    | with_reducible exact Kept.rfl | with_reducible assumption | with_reducible apply State.acquire_kept
    | with_reducible apply State.plainWrite_kept | with_reducible apply Kept.ite_else
    | with_reducible apply Kept.ite_then | with_reducible apply Kept.ite
    | with_reducible refine Kept.of_snd (by assumption) ?_ | intro _ | dsimp only
    | fail_if_no_progress with_reducible apply Kept.mk' | split)

theorem execTmgEnable_kept (i : Initiator) (v : Word) (s : State) : KeptO s (execTmgEnable i v s) := by
  unfold execTmgEnable
  repeat' (first
    | with_reducible exact Kept.rfl | with_reducible assumption | with_reducible apply State.writeRow_kept
    | with_reducible apply State.writeTmgCtrl_kept | with_reducible apply KeptO.next | with_reducible apply KeptO.ite
    | with_reducible refine Kept.of_snd (by assumption) ?_ | intro _ | dsimp only
    | fail_if_no_progress with_reducible apply Kept.mk' | split)

theorem execForceAcq_kept (i : Initiator) (v : Word) (s : State) : KeptO s (execForceAcq i v s) := by
  unfold execForceAcq
  repeat' (first
    | with_reducible exact Kept.rfl | with_reducible assumption | with_reducible apply State.writeRow_kept
    | with_reducible apply State.writeTmgCtrl_kept | with_reducible apply KeptO.next | with_reducible apply KeptO.ite
    | with_reducible refine Kept.of_snd (by assumption) ?_ | intro _ | dsimp only
    | fail_if_no_progress with_reducible apply Kept.mk' | split)

theorem execPeriodSwitch_kept (s : State) : KeptO s (execPeriodSwitch s) := by
  unfold execPeriodSwitch
  repeat' (first
    | with_reducible exact Kept.rfl | with_reducible assumption | with_reducible apply State.commit_kept
    | with_reducible apply State.newPeriod_kept | with_reducible apply State.ownPeriod_kept
    | with_reducible apply State.put_kept | with_reducible apply State.put64_kept
    | with_reducible apply State.reachFt_kept | with_reducible apply KeptO.next | with_reducible apply KeptO.ite
    | with_reducible apply Kept.ite_else | with_reducible apply Kept.ite_then | with_reducible apply Kept.ite
    | with_reducible refine Kept.of_snd (by assumption) ?_ | intro _ | dsimp only
    | fail_if_no_progress with_reducible apply Kept.mk' | split)

end Sys2Proof.Machine
end

