-- ==== Sys2Proof/Laws/KeptSlots.lean ====
section
/-! SUPPORT. Every operation of Machine/Slots.lean keeps what `Kept` says. -/

set_option linter.unusedTactic false
set_option linter.unreachableTactic false
set_option linter.unusedVariables false

namespace Sys2Proof.Machine

set_option Elab.async false

theorem State.loadBits_kept {z0 : State} (s : State) (a m v : Nat) (hz : Kept z0 s) : Kept z0 (State.loadBits s a m v) := by
  refine hz.trans ?_
  unfold State.loadBits
  repeat' (first
    | with_reducible exact Kept.rfl | with_reducible assumption | with_reducible apply State.takeField_kept
    | with_reducible apply Kept.ite | with_reducible apply Kept.foldl
    | with_reducible refine Kept.of_snd (by assumption) ?_ | intro _ | dsimp only
    | fail_if_no_progress with_reducible apply Kept.mk' | split)

theorem State.applyRecord_kept {z0 : State} (s : State) (c : CfgRec) (hz : Kept z0 s) : Kept z0 (State.applyRecord s c) := by
  cases c with
  | reg a ws => exact Kept.foldl (fun t x => State.loadBits_kept _ _ _ _ Kept.rfl) hz
  | field a m v => exact State.loadBits_kept _ _ _ _ hz
  | data o l => exact State.memPut_kept hz _ _
  | task e t c => exact State.put_kept _ _ _ hz

theorem State.revertConfig_kept {z0 : State} (s : State) (hz : Kept z0 s) : Kept z0 (State.revertConfig s) := by
  unfold State.revertConfig
  refine Kept.foldl (fun t e => Kept.foldl (fun u x => State.put_kept _ _ _ Kept.rfl) Kept.rfl) ?_
  refine Kept.stores hz (fun w => sparseMap_wf w _ ?_) id id
  intro e x hx
  dsimp only at hx
  split at hx
  · cases hx
  · cases hx; exact ⟨Eq.refl _, by assumption⟩

theorem State.clipAll_kept {z0 : State} (s : State) (hz : Kept z0 s) : Kept z0 (State.clipAll s) := by
  refine hz.trans ?_
  unfold State.clipAll
  repeat' (first
    | with_reducible exact Kept.rfl | with_reducible assumption | with_reducible apply State.bump_kept
    | with_reducible apply State.put_kept | with_reducible apply Kept.ite | with_reducible apply Kept.foldl
    | with_reducible refine Kept.of_snd (by assumption) ?_ | intro _ | dsimp only
    | fail_if_no_progress with_reducible apply Kept.mk' | split)

theorem State.clipComparators_kept {z0 : State} (s : State) (hz : Kept z0 s) : Kept z0 (State.clipComparators s) := by
  refine hz.trans ?_
  unfold State.clipComparators
  repeat' (first
    | with_reducible exact Kept.rfl | with_reducible assumption | with_reducible apply State.put_kept
    | with_reducible apply Kept.foldl | with_reducible refine Kept.of_snd (by assumption) ?_ | intro _ | dsimp only
    | fail_if_no_progress with_reducible apply Kept.mk' | split)

theorem State.applyConfig_kept {z0 : State} (s : State) (img : Nat) (hz : Kept z0 s) : KeptM z0 (State.applyConfig s img) :=
  KeptM.map fun _ => State.clipAll_kept _ (Kept.foldl (fun t c => State.applyRecord_kept t c Kept.rfl)
    (State.revertConfig_kept _ (State.syncScrub_kept _ hz)))

theorem State.trial_kept {z0 : State} (s : State) (own : Bool) (img : Nat) (hz : Kept z0 s) :
    KeptM z0 (State.trial s own img) := by
  refine ⟨fun u e => ?_⟩
  unfold State.trial at e
  have h := State.applyConfig_kept s img hz
  cases hc : s.applyConfig img with
  | none => rw [hc] at e; cases e
  | some t =>
    rw [hc] at e
    cases e
    exact Kept.ite (State.setPeriod_kept _ _ (h.some_kept t hc)) (h.some_kept t hc)

theorem State.showSlot_kept {z0 : State} (s : State) (i code : Nat) (hz : Kept z0 s) : Kept z0 (State.showSlot s i code) := by
  refine hz.trans ?_
  unfold State.showSlot
  repeat' (first
    | with_reducible exact Kept.rfl | with_reducible assumption | with_reducible apply State.put64_kept
    | with_reducible apply State.wrN_kept | with_reducible apply Kept.ite_else | with_reducible apply Kept.ite_then
    | with_reducible apply Kept.ite | with_reducible refine Kept.of_snd (by assumption) ?_ | intro _ | dsimp only
    | fail_if_no_progress with_reducible apply Kept.mk' | split)

theorem State.readSlot_kept {z0 : State} (s : State) (i : Nat) (hz : Kept z0 s) : Kept z0 (State.readSlot s i) := by
  refine hz.trans ?_
  unfold State.readSlot
  repeat' (first
    | with_reducible exact Kept.rfl | with_reducible assumption | with_reducible apply State.memPut_kept
    | with_reducible apply Kept.ite_else | with_reducible apply Kept.ite_then | with_reducible apply Kept.ite
    | with_reducible refine Kept.of_snd (by assumption) ?_ | intro _ | dsimp only
    | fail_if_no_progress with_reducible apply Kept.mk' | split)

theorem State.checkSlot_kept {z0 : State} (s : State) (i : Nat) (hz : Kept z0 s) : Kept z0 (State.checkSlot s i) := by
  refine hz.trans ?_
  unfold State.checkSlot
  repeat' (first
    | with_reducible exact Kept.rfl | with_reducible assumption | with_reducible apply State.fault_kept
    | with_reducible apply State.showSlot_kept | with_reducible apply Kept.ite
    | with_reducible refine Kept.of_snd (by assumption) ?_ | intro _ | dsimp only
    | fail_if_no_progress with_reducible apply Kept.mk' | split)

theorem State.putInForce_kept {z0 : State} (s : State) (i : Nat) (hz : Kept z0 s) : Kept z0 (State.putInForce s i) := by
  refine hz.trans ?_
  unfold State.putInForce
  repeat' (first
    | with_reducible exact Kept.rfl | with_reducible assumption | with_reducible apply State.countProbation_kept
    | with_reducible apply State.put_kept | with_reducible apply State.putB_kept
    | with_reducible apply State.putBit_kept | with_reducible apply Kept.ite_else | with_reducible apply Kept.ite_then
    | with_reducible apply Kept.ite | with_reducible refine Kept.of_snd (by assumption) ?_ | intro _ | dsimp only
    | fail_if_no_progress with_reducible apply Kept.mk' | split)

theorem State.takeFirmware_kept {z0 : State} (s : State) (i : Nat) (forced : Bool) (hz : Kept z0 s) : Kept z0 (State.takeFirmware s i forced) := by
  refine hz.trans ?_
  unfold State.takeFirmware
  repeat' (first
    | with_reducible exact Kept.rfl | with_reducible assumption | with_reducible apply State.installImage_kept
    | with_reducible apply State.logSlot_kept | with_reducible apply State.put_kept
    | with_reducible apply State.putB_kept | with_reducible apply State.putInForce_kept
    | with_reducible apply State.wrN_kept | with_reducible apply Kept.foldl
    | with_reducible refine Kept.of_snd (by assumption) ?_ | intro _ | dsimp only
    | fail_if_no_progress with_reducible apply Kept.mk' | split)

theorem State.adoptFirmware_kept {z0 : State} (s : State) (hz : Kept z0 s) : Kept z0 (State.adoptFirmware s).2 := by
  refine hz.trans ?_
  unfold State.adoptFirmware
  repeat' (first
    | with_reducible exact Kept.rfl | with_reducible assumption | with_reducible apply State.logSlot_kept
    | with_reducible apply State.takeFirmware_kept | with_reducible apply Kept.pair_ite
    | with_reducible refine Kept.of_snd (by assumption) ?_ | intro _ | dsimp only
    | fail_if_no_progress with_reducible apply Kept.mk' | split)

theorem State.sealConfig_kept {z0 : State} (s : State) (hz : Kept z0 s) : Kept z0 (State.sealConfig s) := by
  refine hz.trans ?_
  unfold State.sealConfig
  repeat' (first
    | with_reducible exact Kept.rfl | with_reducible assumption | with_reducible apply State.countCway_kept
    | with_reducible apply State.putB_kept | with_reducible apply Kept.foldl
    | with_reducible refine Kept.of_snd (by assumption) ?_ | intro _ | dsimp only
    | fail_if_no_progress with_reducible apply Kept.mk' | split)

theorem State.baseDuty_kept {z0 : State} (s : State) (hz : Kept z0 s) : Kept z0 (State.baseDuty s) := by
  refine hz.trans ?_
  unfold State.baseDuty
  repeat' (first
    | with_reducible exact Kept.rfl | with_reducible assumption | with_reducible apply State.clipAll_kept
    | with_reducible apply State.put_kept | with_reducible apply State.revertConfig_kept
    | with_reducible apply State.sealConfig_kept | with_reducible refine Kept.of_snd (by assumption) ?_ | intro _
    | dsimp only | fail_if_no_progress with_reducible apply Kept.mk' | split)

theorem State.takeConfig_kept {z0 : State} (t : State) (i : Nat) (hz : Kept z0 t) : Kept z0 (State.takeConfig t i) := by
  refine hz.trans ?_
  unfold State.takeConfig
  repeat' (first
    | with_reducible exact Kept.rfl | with_reducible assumption | with_reducible apply State.put_kept
    | with_reducible apply State.putB_kept | with_reducible apply State.putInForce_kept
    | with_reducible apply State.sealConfig_kept | with_reducible refine Kept.of_snd (by assumption) ?_ | intro _
    | dsimp only | fail_if_no_progress with_reducible apply Kept.mk' | split)

theorem State.adoptConfig_kept {z0 : State} (own : Bool) (n : Nat) (first : Bool) (s : State) (hz : Kept z0 s) :
    Kept z0 (State.adoptConfig own n first s) := by
  induction n generalizing s first with
  | zero => exact State.baseDuty_kept _ hz
  | succ n ih =>
    unfold State.adoptConfig
    dsimp only
    split
    · split
      · exact State.baseDuty_kept _ hz
      · rename_i t ht
        have ht : Kept z0 t := Kept.of_some ht (State.trial_kept _ _ _ hz)
        split
        · exact State.logSlot_kept _ _ _ (State.takeConfig_kept _ _ (State.admitTasks_kept _ _ ht))
        · exact ih _ _ (State.logSlot_kept _ _ _ (State.rejectSlot_kept _ _ (State.wrN_kept _ _ _ hz)))
    · exact State.logSlot_kept _ _ _ (State.put_kept _ _ _ (State.put_kept _ _ _ (State.baseDuty_kept _ hz)))
    · exact State.baseDuty_kept _ hz

theorem State.askSwitch_kept {z0 : State} (s : State) (i version ksw : Nat) (hz : Kept z0 s) : Kept z0 (State.askSwitch s i version ksw).2 := by
  refine hz.trans ?_
  unfold State.askSwitch
  repeat' (first
    | with_reducible exact Kept.rfl | with_reducible assumption | with_reducible apply State.applyConfig_kept
    | with_reducible apply State.put_kept | with_reducible apply State.wrN_kept | with_reducible apply KeptM.ite
    | with_reducible apply KeptM.none | with_reducible apply State.applyConfig_kept
    | with_reducible apply Kept.ite_else | with_reducible apply Kept.ite_then | with_reducible apply Kept.ite
    | with_reducible apply Kept.pair_ite | with_reducible refine Kept.of_snd (by assumption) ?_
    | with_reducible refine Kept.of_some (by assumption) ?_ | intro _ | dsimp only
    | fail_if_no_progress with_reducible apply Kept.mk' | split)

theorem State.writeCfgSwitch_kept {z0 : State} (s : State) (i : Initiator) (v : Nat) (hz : Kept z0 s) : Kept z0 (State.writeCfgSwitch s i v) := by
  refine hz.trans ?_
  unfold State.writeCfgSwitch
  repeat' (first
    | with_reducible exact Kept.rfl | with_reducible assumption | with_reducible apply State.askSwitch_kept
    | with_reducible apply State.ifPrivileged_kept | with_reducible apply State.put_kept
    | with_reducible apply State.put64_kept | with_reducible apply Kept.ite
    | with_reducible refine Kept.of_snd (by assumption) ?_ | intro _ | dsimp only
    | fail_if_no_progress with_reducible apply Kept.mk' | split)

theorem execCfgSwitchRequest_kept (i : Initiator) (v : Word) (s : State) : KeptO s (execCfgSwitchRequest i v s) := by
  unfold execCfgSwitchRequest
  repeat' (first
    | with_reducible exact Kept.rfl | with_reducible assumption | with_reducible apply State.writeCfgSwitch_kept
    | with_reducible apply State.writeRow_kept | with_reducible apply KeptO.next | with_reducible apply KeptO.ite
    | with_reducible refine Kept.of_snd (by assumption) ?_ | intro _ | dsimp only
    | fail_if_no_progress with_reducible apply Kept.mk' | split)

theorem execCfgSwitchFrame_kept (port : Fin 4) (f : Frame) (s : State) : KeptO s (execCfgSwitchFrame port f s) := by
  unfold execCfgSwitchFrame
  repeat' (first
    | with_reducible exact Kept.rfl | with_reducible assumption | with_reducible apply State.answer_kept
    | with_reducible apply State.askSwitch_kept | with_reducible apply State.drop_kept
    | with_reducible apply State.put_kept | with_reducible apply State.put64_kept
    | with_reducible apply State.takeInbox_kept | with_reducible apply KeptO.next | with_reducible apply KeptO.ite
    | with_reducible apply Kept.ite_else | with_reducible apply Kept.ite_then | with_reducible apply Kept.ite
    | with_reducible refine Kept.of_snd (by assumption) ?_ | intro _ | dsimp only
    | fail_if_no_progress with_reducible apply Kept.mk' | split)

theorem execCfgSwitchApply_kept (s : State) : KeptO s (execCfgSwitchApply s) := by
  unfold execCfgSwitchApply
  repeat' (first
    | with_reducible exact Kept.rfl | with_reducible assumption | with_reducible apply State.admitTasks_kept
    | with_reducible apply State.applyConfig_kept | with_reducible apply State.askPeriod_kept
    | with_reducible apply State.bump_kept | with_reducible apply State.disarm_kept
    | with_reducible apply State.followEnable_kept | with_reducible apply State.followSwb_kept
    | with_reducible apply State.logSlot_kept | with_reducible apply State.onEng_kept
    | with_reducible apply State.put_kept | with_reducible apply State.reachFt_kept
    | with_reducible apply State.rebaseCopies_kept | with_reducible apply State.relearn_kept
    | with_reducible apply State.showVaux_kept | with_reducible apply State.sweepEnd_kept
    | with_reducible apply State.takeConfig_kept | with_reducible apply KeptM.ite | with_reducible apply KeptM.none
    | with_reducible apply State.applyConfig_kept | with_reducible apply KeptO.next | with_reducible apply KeptO.ite
    | with_reducible apply Kept.ite | with_reducible apply Kept.foldl
    | with_reducible refine Kept.of_snd (by assumption) ?_ | with_reducible refine Kept.of_some (by assumption) ?_
    | intro _ | dsimp only | fail_if_no_progress with_reducible apply Kept.mk' | split)

theorem execProbationPassed_kept (slot : Fin 4) (s : State) : KeptO s (execProbationPassed slot s) := by
  unfold execProbationPassed
  repeat' (first
    | with_reducible exact Kept.rfl | with_reducible assumption | with_reducible apply State.countProbation_kept
    | with_reducible apply State.flashPut_kept | with_reducible apply State.logSlot_kept
    | with_reducible apply State.put_kept | with_reducible apply State.putBit_kept
    | with_reducible apply State.reach_kept | with_reducible apply KeptO.next | with_reducible apply KeptO.ite
    | with_reducible apply Kept.ite_else | with_reducible apply Kept.ite_then | with_reducible apply Kept.ite
    | with_reducible refine Kept.of_snd (by assumption) ?_ | intro _ | dsimp only
    | fail_if_no_progress with_reducible apply Kept.mk' | split)

theorem State.writeSlotCtrl_kept {z0 : State} (s : State) (i : Initiator) (v : Nat) (hz : Kept z0 s) : Kept z0 (State.writeSlotCtrl s i v) := by
  refine hz.trans ?_
  unfold State.writeSlotCtrl
  repeat' (first
    | with_reducible exact Kept.rfl | with_reducible assumption | with_reducible apply State.ifPrivileged_kept
    | with_reducible apply State.logSlot_kept | with_reducible apply State.rejectSlot_kept
    | with_reducible apply Kept.ite | with_reducible apply Kept.foldl
    | with_reducible refine Kept.of_snd (by assumption) ?_ | intro _ | dsimp only
    | fail_if_no_progress with_reducible apply Kept.mk' | split)

theorem execSlotReject_kept (i : Initiator) (v : Word) (s : State) : KeptO s (execSlotReject i v s) := by
  unfold execSlotReject
  repeat' (first
    | with_reducible exact Kept.rfl | with_reducible assumption | with_reducible apply State.writeRow_kept
    | with_reducible apply State.writeSlotCtrl_kept | with_reducible apply KeptO.next | with_reducible apply KeptO.ite
    | with_reducible refine Kept.of_snd (by assumption) ?_ | intro _ | dsimp only
    | fail_if_no_progress with_reducible apply Kept.mk' | split)

end Sys2Proof.Machine
end

