-- ==== Sys2Proof/Laws/KeptCalibration.lean ====
section
/-! SUPPORT. Every operation of Machine/Calibration.lean keeps what `Kept` says. -/

set_option linter.unusedTactic false
set_option linter.unreachableTactic false
set_option linter.unusedVariables false

namespace Sys2Proof.Machine

set_option Elab.async false

theorem State.showRun_kept {z0 : State} (s : State) (hz : Kept z0 s) : Kept z0 (State.showRun s) := by
  refine hz.trans ?_
  unfold State.showRun
  repeat' (first
    | with_reducible exact Kept.rfl | with_reducible assumption | with_reducible apply State.put_kept
    | with_reducible apply Kept.ite_else | with_reducible apply Kept.ite_then | with_reducible apply Kept.ite
    | with_reducible refine Kept.of_snd (by assumption) ?_ | intro _ | dsimp only
    | fail_if_no_progress with_reducible apply Kept.mk' | split)

theorem State.showRefCheck_kept {z0 : State} (s : State) (refDev : Int) (hz : Kept z0 s) : Kept z0 (State.showRefCheck s refDev) := by
  refine hz.trans ?_
  unfold State.showRefCheck
  repeat' (first
    | with_reducible exact Kept.rfl | with_reducible assumption | with_reducible apply State.putB_kept
    | with_reducible apply State.putI_kept | with_reducible refine Kept.of_snd (by assumption) ?_ | intro _
    | dsimp only | fail_if_no_progress with_reducible apply Kept.mk' | split)

theorem State.trimCheck_kept {z0 : State} (s : State) (refDev : Int) (hz : Kept z0 s) : Kept z0 (State.trimCheck s refDev).2 := by
  refine hz.trans ?_
  unfold State.trimCheck
  repeat' (first
    | with_reducible exact Kept.rfl | with_reducible assumption | with_reducible apply State.showRefCheck_kept
    | with_reducible apply Kept.ite_else | with_reducible apply Kept.ite_then | with_reducible apply Kept.ite
    | with_reducible apply Kept.pair_ite | with_reducible refine Kept.of_snd (by assumption) ?_ | intro _ | dsimp only
    | fail_if_no_progress with_reducible apply Kept.mk' | split)

theorem State.calBegin_kept {z0 : State} (s : State) (hz : Kept z0 s) : Kept z0 (State.calBegin s) := by
  refine hz.trans ?_
  unfold State.calBegin
  repeat' (first
    | with_reducible exact Kept.rfl | with_reducible assumption | with_reducible apply State.bump_kept
    | with_reducible apply State.calEnd_kept | with_reducible apply State.put_kept
    | with_reducible apply State.showRun_kept | with_reducible apply Kept.ite
    | with_reducible refine Kept.of_snd (by assumption) ?_ | intro _ | dsimp only
    | fail_if_no_progress with_reducible apply Kept.mk' | split)

theorem State.calFinish_kept {z0 : State} (s : State) (r : CalRun) (stored : Bool) (hz : Kept z0 s) : Kept z0 (State.calFinish s r stored) := by
  refine hz.trans ?_
  unfold State.calFinish
  repeat' (first
    | with_reducible exact Kept.rfl | with_reducible assumption | with_reducible apply State.bump_kept
    | with_reducible apply State.calAbort_kept | with_reducible apply State.calCommit_kept
    | with_reducible apply State.calEnd_kept | with_reducible apply State.put_kept
    | with_reducible apply State.reach_kept | with_reducible apply State.setSrc_kept | with_reducible apply Kept.ite
    | with_reducible apply Kept.foldl | with_reducible apply Kept.foldl_snd
    | with_reducible refine Kept.of_snd (by assumption) ?_ | intro _ | dsimp only
    | fail_if_no_progress with_reducible apply Kept.mk' | split)

theorem State.pointDone_kept {z0 : State} (s : State) (r : CalRun) (ch proc : Nat) (sum : Int) (stored : Bool) (hz : Kept z0 s) : Kept z0 (State.pointDone s r ch proc sum stored) := by
  refine hz.trans ?_
  unfold State.pointDone
  repeat' (first
    | with_reducible exact Kept.rfl | with_reducible assumption | with_reducible apply State.calAbort_kept
    | with_reducible apply State.calFinish_kept | with_reducible apply State.drop_kept
    | with_reducible apply State.showRun_kept | with_reducible apply Kept.ite
    | with_reducible refine Kept.of_snd (by assumption) ?_ | intro _ | dsimp only
    | fail_if_no_progress with_reducible apply Kept.mk' | split)

theorem State.runRefCheck_kept {z0 : State} (s : State) (r : CalRun) (proc : Nat) (refDev : Int) (hz : Kept z0 s) : Kept z0 (State.runRefCheck s r proc refDev).2 := by
  refine hz.trans ?_
  unfold State.runRefCheck
  repeat' (first
    | with_reducible exact Kept.rfl | with_reducible assumption | with_reducible apply State.calAbort_kept
    | with_reducible apply State.showRefCheck_kept | with_reducible apply Kept.ite_then
    | with_reducible apply Kept.ite | with_reducible apply Kept.pair_ite
    | with_reducible refine Kept.of_snd (by assumption) ?_ | intro _ | dsimp only
    | fail_if_no_progress with_reducible apply Kept.mk' | split)

theorem execCalPointComplete_kept (point : CalPoint) (stored : Bool) (s : State) : KeptO s (execCalPointComplete point stored s) := by
  unfold execCalPointComplete
  repeat' (first
    | with_reducible exact Kept.rfl | with_reducible assumption | with_reducible apply State.pointDone_kept
    | with_reducible apply State.runRefCheck_kept | with_reducible apply KeptO.next | with_reducible apply KeptO.ite
    | with_reducible apply Kept.ite_else | with_reducible apply Kept.ite_then | with_reducible apply Kept.ite
    | with_reducible refine Kept.of_snd (by assumption) ?_ | intro _ | dsimp only
    | fail_if_no_progress with_reducible apply Kept.mk' | split)

theorem State.writeCalCtrl_kept {z0 : State} (s : State) (i : Initiator) (v : Nat) (stored : Bool) (hz : Kept z0 s) : Kept z0 (State.writeCalCtrl s i v stored) := by
  refine hz.trans ?_
  unfold State.writeCalCtrl
  repeat' (first
    | with_reducible exact Kept.rfl | with_reducible assumption | with_reducible apply State.calAbort_kept
    | with_reducible apply State.calCommit_kept | with_reducible apply State.plainWrite_kept
    | with_reducible apply Kept.ite | with_reducible refine Kept.of_snd (by assumption) ?_ | intro _ | dsimp only
    | fail_if_no_progress with_reducible apply Kept.mk' | split)

theorem execCalAbort_kept (i : Initiator) (v : Word) (s : State) : KeptO s (execCalAbort i v s) := by
  unfold execCalAbort
  repeat' (first
    | with_reducible exact Kept.rfl | with_reducible assumption | with_reducible apply State.writeCalCtrl_kept
    | with_reducible apply State.writeRow_kept | with_reducible apply KeptO.next | with_reducible apply KeptO.ite
    | with_reducible refine Kept.of_snd (by assumption) ?_ | intro _ | dsimp only
    | fail_if_no_progress with_reducible apply Kept.mk' | split)

theorem execCalStore_kept (i : Initiator) (v : Word) (stored : Bool) (s : State) : KeptO s (execCalStore i v stored s) := by
  unfold execCalStore
  repeat' (first
    | with_reducible exact Kept.rfl | with_reducible assumption | with_reducible apply State.writeCalCtrl_kept
    | with_reducible apply State.writeRow_kept | with_reducible apply KeptO.next | with_reducible apply KeptO.ite
    | with_reducible refine Kept.of_snd (by assumption) ?_ | intro _ | dsimp only
    | fail_if_no_progress with_reducible apply Kept.mk' | split)

theorem State.shortTerm_kept {z0 : State} (s : State) (ch : Nat) (hz : Kept z0 s) : Kept z0 (State.shortTerm s ch).2 := by
  refine hz.trans ?_
  unfold State.shortTerm
  repeat' (first
    | with_reducible exact Kept.rfl | with_reducible assumption | with_reducible apply State.fresh_kept
    | with_reducible apply Kept.ite_else | with_reducible apply Kept.ite_then | with_reducible apply Kept.ite
    | with_reducible apply Kept.pair_ite | with_reducible refine Kept.of_snd (by assumption) ?_ | intro _ | dsimp only
    | fail_if_no_progress with_reducible apply Kept.mk' | split)

theorem State.shortTerms_kept {z0 : State} (s : State) (l : List Nat) (hz : Kept z0 s) : Kept z0 (State.shortTerms s l).2 := by
  induction l generalizing s with
  | nil => exact hz
  | cons ch l ih =>
    unfold State.shortTerms
    exact ih _ (State.shortTerm_kept _ _ hz)

theorem State.shortProc_kept {z0 : State} (s : State) (on : Bool) (chs : List Nat) (pre : Nat) (hz : Kept z0 s) : Kept z0 (State.shortProc s on chs pre).2 := by
  refine hz.trans ?_
  unfold State.shortProc
  repeat' (first
    | with_reducible exact Kept.rfl | with_reducible assumption | with_reducible apply State.fresh_kept
    | with_reducible apply State.shortTerms_kept | with_reducible apply Kept.ite_else | with_reducible apply Kept.ite
    | with_reducible apply Kept.pair_ite | with_reducible refine Kept.of_snd (by assumption) ?_ | intro _ | dsimp only
    | fail_if_no_progress with_reducible apply Kept.mk' | split)

theorem State.shortCommit_kept {z0 : State} (s : State) (procs : Nat) (done : List Nat) (terms : List (Nat × Int)) (hz : Kept z0 s) : Kept z0 (State.shortCommit s procs done terms) := by
  refine hz.trans ?_
  unfold State.shortCommit
  repeat' (first
    | with_reducible exact Kept.rfl | with_reducible assumption | with_reducible apply State.calCommit_kept
    | with_reducible apply State.setSrc_kept | with_reducible apply Kept.ite_else | with_reducible apply Kept.ite_then
    | with_reducible apply Kept.ite | with_reducible apply Kept.foldl
    | with_reducible refine Kept.of_snd (by assumption) ?_ | intro _ | dsimp only
    | fail_if_no_progress with_reducible apply Kept.mk' | split)

theorem State.shortTrim_kept {z0 : State} (s : State) (hz : Kept z0 s) : Kept z0 (State.shortTrim s) := by
  refine hz.trans ?_
  unfold State.shortTrim
  repeat' (first
    | with_reducible exact Kept.rfl | with_reducible assumption | with_reducible apply State.calCommit_kept
    | with_reducible apply State.fresh_kept | with_reducible apply State.put_kept
    | with_reducible apply State.shortCommit_kept | with_reducible apply State.shortProc_kept
    | with_reducible apply State.wrN_kept | with_reducible apply Kept.ite
    | with_reducible refine Kept.of_snd (by assumption) ?_ | intro _ | dsimp only
    | fail_if_no_progress with_reducible apply Kept.mk' | split)

end Sys2Proof.Machine
end

