-- ==== Sys2Proof/Laws/KeptBoot.lean ====
section
/-! SUPPORT. Every operation of Machine/Boot.lean keeps what `Kept` says. -/

set_option linter.unusedTactic false
set_option linter.unreachableTactic false
set_option linter.unusedVariables false

namespace Sys2Proof.Machine

set_option Elab.async false

theorem State.monitor_kept {z0 : State} (s : State) (src code inst : Nat) (hz : Kept z0 s) : Kept z0 (State.monitor s src code inst) := by
  refine hz.trans ?_
  unfold State.monitor
  repeat' (first
    | with_reducible exact Kept.rfl | with_reducible assumption | with_reducible apply State.fault_kept
    | with_reducible apply Kept.ite | with_reducible refine Kept.of_snd (by assumption) ?_ | intro _ | dsimp only
    | fail_if_no_progress with_reducible apply Kept.mk' | split)

theorem State.monitorEnd_kept {z0 : State} (s : State) (src code inst : Nat) (hz : Kept z0 s) : Kept z0 (State.monitorEnd s src code inst) := by
  refine hz.trans ?_
  unfold State.monitorEnd
  repeat' (first
    | with_reducible exact Kept.rfl | with_reducible assumption | with_reducible apply State.endCond_kept
    | with_reducible refine Kept.of_snd (by assumption) ?_ | intro _ | dsimp only
    | fail_if_no_progress with_reducible apply Kept.mk' | split)

theorem State.endShip_kept {z0 : State} (s : State) (hz : Kept z0 s) : Kept z0 (State.endShip s) := by
  refine hz.trans ?_
  unfold State.endShip
  repeat' (first
    | with_reducible exact Kept.rfl | with_reducible assumption | with_reducible apply State.fresh_kept
    | with_reducible apply State.put_kept | with_reducible apply Kept.ite
    | with_reducible refine Kept.of_snd (by assumption) ?_ | intro _ | dsimp only
    | fail_if_no_progress with_reducible apply Kept.mk' | split)

theorem resetMem_wf {m : List Host.Cell} (w : Memory.wf m) (k : Bool) : Memory.wf (resetMem m k) := by
  have h := sparseDrop_wf (sparseDrop_wf (sparseDrop_wf w 0x400000 0x600000) 0xE00000 0xE88000) 0x100000000 0x100010000
  unfold resetMem
  cases k
  · exact sparseDrop_wf h _ _
  · exact h

theorem State.resetLogic_kept {z0 : State} (s : State) (lagoonKept : Bool) (hz : Kept z0 s) :
    Kept z0 (State.resetLogic s lagoonKept) := by
  unfold State.resetLogic
  refine State.showVaux_kept _ (State.allOff_kept _ (State.disarm_kept _ (State.put_kept _ _ _ ?_)))
  refine Kept.stores (State.endShip_kept s hz) (fun w => sparseMap_wf w _ ?_) (fun w => resetMem_wf w _) id
  intro e x hx
  dsimp only at hx
  split at hx
  · cases hx
  · cases hx; exact ⟨Eq.refl _, by assumption⟩

theorem State.bootStep_kept {z0 : State} (s : State) (n t0 at_ : Nat) (hz : Kept z0 s) : Kept z0 (State.bootStep s n t0 at_) := by
  refine hz.trans ?_
  unfold State.bootStep
  repeat' (first
    | with_reducible exact Kept.rfl | with_reducible assumption | with_reducible apply State.put_kept
    | with_reducible apply State.reach_kept | with_reducible refine Kept.of_snd (by assumption) ?_ | intro _
    | dsimp only | fail_if_no_progress with_reducible apply Kept.mk' | split)

theorem State.logicUp_kept {z0 : State} (s : State) (hz : Kept z0 s) : Kept z0 (State.logicUp s) := by
  refine hz.trans ?_
  unfold State.logicUp
  repeat' (first
    | with_reducible exact Kept.rfl | with_reducible assumption | with_reducible apply State.put_kept
    | with_reducible apply State.put64_kept | with_reducible apply State.wrN_kept | with_reducible apply Kept.foldl
    | with_reducible refine Kept.of_snd (by assumption) ?_ | intro _ | dsimp only
    | fail_if_no_progress with_reducible apply Kept.mk' | split)

theorem State.readSlots_kept {z0 : State} (s : State) (hz : Kept z0 s) : Kept z0 (State.readSlots s) := by
  refine hz.trans ?_
  unfold State.readSlots
  repeat' (first
    | with_reducible exact Kept.rfl | with_reducible assumption | with_reducible apply State.bump_kept
    | with_reducible apply State.emit_kept | with_reducible apply State.fault_kept
    | with_reducible apply State.flashRead_kept | with_reducible apply State.fresh_kept
    | with_reducible apply State.memPut_kept | with_reducible apply State.put_kept
    | with_reducible apply State.readSlot_kept | with_reducible apply Kept.ite | with_reducible apply Kept.foldl
    | with_reducible refine Kept.of_snd (by assumption) ?_ | intro _ | dsimp only
    | fail_if_no_progress with_reducible apply Kept.mk' | split)

theorem State.loadEngine_kept {z0 : State} (s : State) (e : Nat) (hz : Kept z0 s) : Kept z0 (State.loadEngine s e) := by
  refine hz.trans ?_
  unfold State.loadEngine
  repeat' (first
    | with_reducible exact Kept.rfl | with_reducible assumption | with_reducible apply State.clearEngine_kept
    | with_reducible apply State.loadCode_kept | with_reducible apply State.onEng_kept
    | with_reducible apply State.put_kept | with_reducible apply State.setEng_kept | with_reducible apply Kept.ite
    | with_reducible refine Kept.of_snd (by assumption) ?_ | intro _ | dsimp only
    | fail_if_no_progress with_reducible apply Kept.mk' | split)

theorem State.configure_kept {z0 : State} (s : State) (hz : Kept z0 s) : Kept z0 (State.configure s) := by
  refine hz.trans ?_
  unfold State.configure
  repeat' (first
    | with_reducible exact Kept.rfl | with_reducible assumption | with_reducible apply State.adoptConfig_kept
    | with_reducible apply State.loadEngine_kept | with_reducible apply State.setPeriod_kept
    | with_reducible apply State.showVaux_kept | with_reducible apply Kept.foldl
    | with_reducible refine Kept.of_snd (by assumption) ?_ | intro _ | dsimp only
    | fail_if_no_progress with_reducible apply Kept.mk' | split)

theorem State.recovery_kept {z0 : State} (s : State) (hz : Kept z0 s) : Kept z0 (State.recovery s) := by
  refine hz.trans ?_
  unfold State.recovery
  repeat' (first
    | with_reducible exact Kept.rfl | with_reducible assumption | with_reducible apply State.followEnable_kept
    | with_reducible apply State.put_kept | with_reducible apply Kept.foldl
    | with_reducible refine Kept.of_snd (by assumption) ?_ | intro _ | dsimp only
    | fail_if_no_progress with_reducible apply Kept.mk' | split)

theorem State.followVio_kept {z0 : State} (s : State) (hz : Kept z0 s) : Kept z0 (State.followVio s) := by
  refine hz.trans ?_
  unfold State.followVio
  repeat' (first
    | with_reducible exact Kept.rfl | with_reducible assumption | with_reducible refine Kept.of_snd (by assumption) ?_
    | intro _ | dsimp only | fail_if_no_progress with_reducible apply Kept.mk' | split)

theorem State.bootSupplies_kept {z0 : State} (s : State) (t0 : Nat) (hz : Kept z0 s) : Kept z0 (State.bootSupplies s t0) := by
  refine hz.trans ?_
  unfold State.bootSupplies
  repeat' (first
    | with_reducible exact Kept.rfl | with_reducible assumption | with_reducible apply State.bootStep_kept
    | with_reducible apply State.followVio_kept | with_reducible apply State.put_kept
    | with_reducible apply State.showVaux_kept | with_reducible refine Kept.of_snd (by assumption) ?_ | intro _
    | dsimp only | fail_if_no_progress with_reducible apply Kept.mk' | split)

theorem State.bootLogic_kept {z0 : State} (s : State) (t0 o : Nat) (hz : Kept z0 s) : Kept z0 (State.bootLogic s t0 o) := by
  refine hz.trans ?_
  unfold State.bootLogic
  repeat' (first
    | with_reducible exact Kept.rfl | with_reducible assumption | with_reducible apply State.checkSlot_kept
    | with_reducible apply State.logicUp_kept | with_reducible apply State.put_kept
    | with_reducible apply State.reach_kept | with_reducible apply State.readSlots_kept
    | with_reducible refine Kept.of_snd (by assumption) ?_ | intro _ | dsimp only
    | fail_if_no_progress with_reducible apply Kept.mk' | split)

theorem State.bootConfig_kept {z0 : State} (s : State) (t0 o : Nat) (hz : Kept z0 s) : Kept z0 (State.bootConfig s t0 o) := by
  refine hz.trans ?_
  unfold State.bootConfig
  repeat' (first
    | with_reducible exact Kept.rfl | with_reducible assumption | with_reducible apply State.configure_kept
    | with_reducible apply State.loadLife_kept | with_reducible apply State.loadTrims_kept
    | with_reducible apply State.put_kept | with_reducible apply State.reach_kept
    | with_reducible apply State.shortTrim_kept | with_reducible refine Kept.of_snd (by assumption) ?_ | intro _
    | dsimp only | fail_if_no_progress with_reducible apply Kept.mk' | split)

theorem State.boot_kept {z0 : State} (s : State) (first : Bool) (hz : Kept z0 s) : Kept z0 (State.boot s first) := by
  refine hz.trans ?_
  unfold State.boot
  repeat' (first
    | with_reducible exact Kept.rfl | with_reducible assumption | with_reducible apply State.adoptFirmware_kept
    | with_reducible apply State.bootConfig_kept | with_reducible apply State.bootLogic_kept
    | with_reducible apply State.bootSupplies_kept | with_reducible apply State.checkSlot_kept
    | with_reducible apply State.recovery_kept | with_reducible apply State.wrN_kept | with_reducible apply Kept.ite
    | with_reducible refine Kept.of_snd (by assumption) ?_ | intro _ | dsimp only
    | fail_if_no_progress with_reducible apply Kept.mk' | split)

theorem State.stopTicks_kept {z0 : State} (s : State) (hz : Kept z0 s) : Kept z0 (State.stopTicks s) := by
  refine hz.trans ?_
  unfold State.stopTicks
  repeat' (first
    | with_reducible exact Kept.rfl | with_reducible assumption | with_reducible apply State.accepted_kept
    | with_reducible apply State.acquire_kept | with_reducible apply State.regather_kept
    | with_reducible apply Kept.ite | with_reducible refine Kept.of_snd (by assumption) ?_ | intro _ | dsimp only
    | fail_if_no_progress with_reducible apply Kept.mk' | split)

theorem State.loseEngine_kept {z0 : State} (s : State) (e : Nat) (hz : Kept z0 s) : Kept z0 (State.loseEngine s e) := by
  refine hz.trans ?_
  unfold State.loseEngine
  repeat' (first
    | with_reducible exact Kept.rfl | with_reducible assumption | with_reducible apply State.memDrop_kept
    | with_reducible apply State.onEng_kept | with_reducible apply State.setEng_kept
    | with_reducible apply State.showMail_kept | with_reducible refine Kept.of_snd (by assumption) ?_ | intro _
    | dsimp only | fail_if_no_progress with_reducible apply Kept.mk' | split)

theorem State.watchDomains_kept {z0 : State} (s : State) (hz : Kept z0 s) : Kept z0 (State.watchDomains s) := by
  refine hz.trans ?_
  unfold State.watchDomains
  repeat' (first
    | with_reducible exact Kept.rfl | with_reducible assumption | with_reducible apply State.fenceStreams_kept
    | with_reducible apply State.loseEngine_kept | with_reducible apply State.memDrop_kept
    | with_reducible apply State.put_kept | with_reducible apply State.setEng_kept
    | with_reducible apply Kept.ite_else | with_reducible apply Kept.ite_then | with_reducible apply Kept.ite
    | with_reducible apply Kept.foldl | with_reducible refine Kept.of_snd (by assumption) ?_ | intro _ | dsimp only
    | fail_if_no_progress with_reducible apply Kept.mk' | split)

theorem State.enterWatch_kept {z0 : State} (s : State) (hz : Kept z0 s) : Kept z0 (State.enterWatch s) := by
  refine hz.trans ?_
  unfold State.enterWatch
  repeat' (first
    | with_reducible exact Kept.rfl | with_reducible assumption | with_reducible apply State.enterMode_kept
    | with_reducible apply State.lifeFlush_kept | with_reducible apply State.linkDown_kept
    | with_reducible apply State.stopTicks_kept | with_reducible apply State.syncAll_kept
    | with_reducible apply State.watchDomains_kept | with_reducible apply Kept.foldl
    | with_reducible refine Kept.of_snd (by assumption) ?_ | intro _ | dsimp only
    | fail_if_no_progress with_reducible apply Kept.mk' | split)

theorem State.relatchFatal_kept {z0 : State} (s : State) (hz : Kept z0 s) : Kept z0 (State.relatchFatal s) := by
  refine hz.trans ?_
  unfold State.relatchFatal
  repeat' (first
    | with_reducible exact Kept.rfl | with_reducible assumption | with_reducible apply State.endCond_kept
    | with_reducible apply State.fault_kept | with_reducible apply State.fresh_kept | with_reducible apply Kept.ite
    | with_reducible refine Kept.of_snd (by assumption) ?_ | intro _ | dsimp only
    | fail_if_no_progress with_reducible apply Kept.mk' | split)

theorem State.latchHeld_kept {z0 : State} (s : State) (hz : Kept z0 s) : Kept z0 (State.latchHeld s) := by
  refine hz.trans ?_
  unfold State.latchHeld
  repeat' (first
    | with_reducible exact Kept.rfl | with_reducible assumption | with_reducible apply State.endCond_kept
    | with_reducible apply State.fault_kept | with_reducible apply Kept.ite_else | with_reducible apply Kept.ite_then
    | with_reducible apply Kept.ite | with_reducible apply Kept.foldl
    | with_reducible refine Kept.of_snd (by assumption) ?_ | intro _ | dsimp only
    | fail_if_no_progress with_reducible apply Kept.mk' | split)

theorem State.relatchInputs_kept {z0 : State} (s : State) (hz : Kept z0 s) : Kept z0 (State.relatchInputs s) := by
  refine hz.trans ?_
  unfold State.relatchInputs
  repeat' (first
    | with_reducible exact Kept.rfl | with_reducible assumption | with_reducible apply State.faultU_kept
    | with_reducible apply Kept.ite_else | with_reducible apply Kept.ite_then | with_reducible apply Kept.ite
    | with_reducible apply Kept.foldl | with_reducible refine Kept.of_snd (by assumption) ?_ | intro _ | dsimp only
    | fail_if_no_progress with_reducible apply Kept.mk' | split)

theorem State.holdAgain_kept {z0 : State} (s : State) (hz : Kept z0 s) : Kept z0 (State.holdAgain s) := by
  refine hz.trans ?_
  unfold State.holdAgain
  repeat' (first
    | with_reducible exact Kept.rfl | with_reducible assumption | with_reducible apply State.enterActive_kept
    | with_reducible apply State.lockoutEnter_kept | with_reducible apply State.openShadow_kept
    | with_reducible apply State.raiseSrc_kept | with_reducible apply State.relatchFatal_kept
    | with_reducible refine Kept.of_snd (by assumption) ?_ | intro _ | dsimp only
    | fail_if_no_progress with_reducible apply Kept.mk' | split)

theorem State.finishBoot_kept {z0 : State} (s : State) (hz : Kept z0 s) : Kept z0 (State.finishBoot s) := by
  refine hz.trans ?_
  unfold State.finishBoot
  repeat' (first
    | with_reducible exact Kept.rfl | with_reducible assumption | with_reducible apply State.bump_kept
    | with_reducible apply State.enterActive_kept | with_reducible apply State.enterWatch_kept
    | with_reducible apply State.holdAgain_kept | with_reducible apply State.latchHeld_kept
    | with_reducible apply State.onLife_kept | with_reducible apply State.put_kept
    | with_reducible apply State.relatchInputs_kept | with_reducible apply Kept.ite
    | with_reducible refine Kept.of_snd (by assumption) ?_ | intro _ | dsimp only
    | fail_if_no_progress with_reducible apply Kept.mk' | split)

end Sys2Proof.Machine
end

