-- ==== Sys2Proof/Laws/KeptPower.lean ====
section
/-! SUPPORT. Every operation of Machine/Power.lean keeps what `Kept` says. -/

set_option linter.unusedTactic false
set_option linter.unreachableTactic false
set_option linter.unusedVariables false

namespace Sys2Proof.Machine

set_option Elab.async false

theorem flashCell_wf {m : List Host.Cell} (e : Nat × Byte) (w : sparseWf flashDefault m = true) :
    sparseWf flashDefault (flashCell m e) = true := by
  unfold flashCell
  split
  · exact sparseSet_wf w _ _
  · exact w

theorem otpCell_wf {m : List Host.Cell} (e : Nat × Byte) (w : Memory.wf m) : Memory.wf (otpCell m e) := by
  unfold otpCell
  split
  · exact sparseSet_wf w _ _
  · exact w

theorem State.adoptFlash_kept {z0 : State} (s : State) (b : Board) (hz : Kept z0 s) : Kept z0 (State.adoptFlash s b) := by
  unfold State.adoptFlash
  split
  · exact Kept.stores hz id id fun _ => sparseFold_wf _ (fun _ e w => flashCell_wf e w) _ (Eq.refl true)
  · exact hz

theorem State.adoptOtp_kept {z0 : State} (s : State) (b : Board) (hz : Kept z0 s) : Kept z0 (State.adoptOtp s b) := by
  unfold State.adoptOtp
  split
  · exact Kept.stores hz id (fun w => sparseFold_wf _ (fun _ e w => otpCell_wf e w) _ (sparseDrop_wf w _ _)) id
  · exact hz

theorem State.mirrorOtp_kept {z0 : State} (s : State) (hz : Kept z0 s) : Kept z0 (State.mirrorOtp s) := by
  refine hz.trans ?_
  unfold State.mirrorOtp
  repeat' (first
    | with_reducible exact Kept.rfl | with_reducible assumption | with_reducible apply State.wrN_kept
    | with_reducible apply Kept.foldl | with_reducible refine Kept.of_snd (by assumption) ?_ | intro _ | dsimp only
    | fail_if_no_progress with_reducible apply Kept.mk' | split)

theorem execPowerOnResetRelease_kept (b : Board) (s : State) : KeptO s (execPowerOnResetRelease b s) := by
  unfold execPowerOnResetRelease
  repeat' (first
    | with_reducible exact Kept.rfl | with_reducible assumption | with_reducible apply State.adoptFlash_kept
    | with_reducible apply State.adoptOtp_kept | with_reducible apply State.boot_kept
    | with_reducible apply State.clipComparators_kept | with_reducible apply State.fresh_kept
    | with_reducible apply State.mirrorOtp_kept | with_reducible apply State.put_kept
    | with_reducible apply State.putB_kept | with_reducible apply State.wr_kept | with_reducible apply KeptO.next
    | with_reducible apply KeptO.ite | with_reducible apply Kept.ite_then | with_reducible apply Kept.ite
    | with_reducible refine Kept.of_snd (by assumption) ?_ | intro _ | dsimp only
    | fail_if_no_progress with_reducible apply Kept.mk' | split)

theorem execPowerOnReset_kept (s : State) : KeptO s (execPowerOnReset s) :=
  KeptO.next (Kept.stores Kept.rfl (fun _ => Eq.refl true) (fun w => sparseFilter_wf w _) id)

theorem execStartUpComplete_kept (s : State) : KeptO s (execStartUpComplete s) := by
  unfold execStartUpComplete
  repeat' (first
    | with_reducible exact Kept.rfl | with_reducible assumption | with_reducible apply State.finishBoot_kept
    | with_reducible apply State.reach_kept | with_reducible apply KeptO.next | with_reducible apply KeptO.ite
    | with_reducible apply Kept.ite_else | with_reducible apply Kept.ite_then | with_reducible apply Kept.ite
    | with_reducible refine Kept.of_snd (by assumption) ?_ | intro _ | dsimp only
    | fail_if_no_progress with_reducible apply Kept.mk' | split)

theorem State.recordReset_kept {z0 : State} (s : State) (c : Nat) (hz : Kept z0 s) : Kept z0 (State.recordReset s c) := by
  refine hz.trans ?_
  unfold State.recordReset
  repeat' (first
    | with_reducible exact Kept.rfl | with_reducible assumption | with_reducible apply State.bump_kept
    | with_reducible apply State.put_kept | with_reducible apply State.wrN_kept | with_reducible apply Kept.ite_else
    | with_reducible apply Kept.ite_then | with_reducible apply Kept.ite
    | with_reducible refine Kept.of_snd (by assumption) ?_ | intro _ | dsimp only
    | fail_if_no_progress with_reducible apply Kept.mk' | split)

theorem State.warmReset_kept {z0 : State} (s : State) (cs : List Nat) (hz : Kept z0 s) : Kept z0 (State.warmReset s cs) := by
  refine hz.trans ?_
  unfold State.warmReset
  repeat' (first
    | with_reducible exact Kept.rfl | with_reducible assumption | with_reducible apply State.boot_kept
    | with_reducible apply State.recordReset_kept | with_reducible apply State.resetLogic_kept
    | with_reducible apply Kept.ite | with_reducible apply Kept.foldl
    | with_reducible refine Kept.of_snd (by assumption) ?_ | intro _ | dsimp only
    | fail_if_no_progress with_reducible apply Kept.mk' | split)

theorem State.suspendFlash_kept {z0 : State} (s : State) (hz : Kept z0 s) : Kept z0 (State.suspendFlash s) := by
  refine hz.trans ?_
  unfold State.suspendFlash
  repeat' (first
    | with_reducible exact Kept.rfl | with_reducible assumption | with_reducible apply State.bump_kept
    | with_reducible apply State.emit_kept | with_reducible apply State.fresh_kept
    | with_reducible apply State.put_kept | with_reducible refine Kept.of_snd (by assumption) ?_ | intro _
    | dsimp only | fail_if_no_progress with_reducible apply Kept.mk' | split)

theorem State.queueReset_kept {z0 : State} (s : State) (c : Nat) (hz : Kept z0 s) : Kept z0 (State.queueReset s c) := by
  refine hz.trans ?_
  unfold State.queueReset
  repeat' (first
    | with_reducible exact Kept.rfl | with_reducible assumption | with_reducible refine Kept.of_snd (by assumption) ?_
    | intro _ | dsimp only | fail_if_no_progress with_reducible apply Kept.mk' | split)

theorem State.dueReset_kept {z0 : State} (s : State) (c : Nat) (hz : Kept z0 s) : Kept z0 (State.dueReset s c) := by
  refine hz.trans ?_
  unfold State.dueReset
  repeat' (first
    | with_reducible exact Kept.rfl | with_reducible assumption | with_reducible apply State.queueReset_kept
    | with_reducible apply State.recordReset_kept | with_reducible apply State.suspendFlash_kept
    | with_reducible apply State.warmReset_kept | with_reducible apply Kept.ite
    | with_reducible refine Kept.of_snd (by assumption) ?_ | intro _ | dsimp only
    | fail_if_no_progress with_reducible apply Kept.mk' | split)

theorem State.shutOff_kept {z0 : State} (s : State) (hz : Kept z0 s) : Kept z0 (State.shutOff s) := by
  refine hz.trans ?_
  unfold State.shutOff
  repeat' (first
    | with_reducible exact Kept.rfl | with_reducible assumption | with_reducible apply State.recordReset_kept
    | with_reducible apply State.resetLogic_kept | with_reducible apply Kept.foldl
    | with_reducible refine Kept.of_snd (by assumption) ?_ | intro _ | dsimp only
    | fail_if_no_progress with_reducible apply Kept.mk' | split)

theorem State.afterSuspend_kept {z0 : State} (s : State) (hz : Kept z0 s) : Kept z0 (State.afterSuspend s) := by
  refine hz.trans ?_
  unfold State.afterSuspend
  repeat' (first
    | with_reducible exact Kept.rfl | with_reducible assumption | with_reducible apply State.shutOff_kept
    | with_reducible apply State.warmReset_kept | with_reducible apply Kept.ite
    | with_reducible refine Kept.of_snd (by assumption) ?_ | intro _ | dsimp only
    | fail_if_no_progress with_reducible apply Kept.mk' | split)

theorem execFlashSuspendComplete_kept (s : State) : KeptO s (execFlashSuspendComplete s) := by
  unfold execFlashSuspendComplete
  repeat' (first
    | with_reducible exact Kept.rfl | with_reducible assumption | with_reducible apply State.afterSuspend_kept
    | with_reducible apply KeptO.next | with_reducible apply KeptO.ite
    | with_reducible refine Kept.of_snd (by assumption) ?_ | intro _ | dsimp only
    | fail_if_no_progress with_reducible apply Kept.mk' | split)

theorem execRstNLow_kept (s : State) : KeptO s (execRstNLow s) := by
  unfold execRstNLow
  repeat' (first
    | with_reducible exact Kept.rfl | with_reducible assumption | with_reducible apply State.dueReset_kept
    | with_reducible apply State.reach_kept | with_reducible apply KeptO.next | with_reducible apply KeptO.ite
    | with_reducible apply Kept.ite_else | with_reducible apply Kept.ite_then | with_reducible apply Kept.ite
    | with_reducible refine Kept.of_snd (by assumption) ?_ | intro _ | dsimp only
    | fail_if_no_progress with_reducible apply Kept.mk' | split)

theorem execRstNRelease_kept (s : State) : KeptO s (execRstNRelease s) := by
  unfold execRstNRelease
  repeat' (first
    | with_reducible exact Kept.rfl | with_reducible assumption | with_reducible apply State.boot_kept
    | with_reducible apply KeptO.next | with_reducible apply KeptO.ite | with_reducible apply Kept.ite
    | with_reducible refine Kept.of_snd (by assumption) ?_ | intro _ | dsimp only
    | fail_if_no_progress with_reducible apply Kept.mk' | split)

theorem State.ignoreRstN_kept {z0 : State} (s : State) (hz : Kept z0 s) : Kept z0 (State.ignoreRstN s) := by
  refine hz.trans ?_
  unfold State.ignoreRstN
  repeat' (first
    | with_reducible exact Kept.rfl | with_reducible assumption | with_reducible apply State.bump_kept
    | with_reducible apply State.put_kept | with_reducible refine Kept.of_snd (by assumption) ?_ | intro _
    | dsimp only | fail_if_no_progress with_reducible apply Kept.mk' | split)

theorem execRstNFailedClosed_kept (s : State) : KeptO s (execRstNFailedClosed s) := by
  unfold execRstNFailedClosed
  repeat' (first
    | with_reducible exact Kept.rfl | with_reducible assumption | with_reducible apply State.boot_kept
    | with_reducible apply State.ignoreRstN_kept | with_reducible apply State.reach_kept
    | with_reducible apply State.warmReset_kept | with_reducible apply KeptO.next | with_reducible apply KeptO.ite
    | with_reducible apply Kept.ite | with_reducible refine Kept.of_snd (by assumption) ?_ | intro _ | dsimp only
    | fail_if_no_progress with_reducible apply Kept.mk' | split)

theorem execRstNHighSeen_kept (s : State) : KeptO s (execRstNHighSeen s) := by
  unfold execRstNHighSeen
  repeat' (first
    | with_reducible exact Kept.rfl | with_reducible assumption | with_reducible apply State.endCond_kept
    | with_reducible apply State.reach_kept | with_reducible apply KeptO.next | with_reducible apply KeptO.ite
    | with_reducible apply Kept.ite_else | with_reducible apply Kept.ite_then | with_reducible apply Kept.ite
    | with_reducible refine Kept.of_snd (by assumption) ?_ | intro _ | dsimp only
    | fail_if_no_progress with_reducible apply Kept.mk' | split)

theorem State.writeSwrst_kept {z0 : State} (s : State) (i : Initiator) (v : Nat) (hz : Kept z0 s) : Kept z0 (State.writeSwrst s i v) := by
  refine hz.trans ?_
  unfold State.writeSwrst
  repeat' (first
    | with_reducible exact Kept.rfl | with_reducible assumption | with_reducible apply State.dueReset_kept
    | with_reducible apply State.ifPrivileged_kept | with_reducible apply State.reach_kept
    | with_reducible apply Kept.ite_else | with_reducible apply Kept.ite_then | with_reducible apply Kept.ite
    | with_reducible refine Kept.of_snd (by assumption) ?_ | intro _ | dsimp only
    | fail_if_no_progress with_reducible apply Kept.mk' | split)

theorem execSoftwareReset_kept (i : Initiator) (v : Word) (s : State) : KeptO s (execSoftwareReset i v s) := by
  unfold execSoftwareReset
  repeat' (first
    | with_reducible exact Kept.rfl | with_reducible assumption | with_reducible apply State.writeRow_kept
    | with_reducible apply State.writeSwrst_kept | with_reducible apply KeptO.next | with_reducible apply KeptO.ite
    | with_reducible refine Kept.of_snd (by assumption) ?_ | intro _ | dsimp only
    | fail_if_no_progress with_reducible apply Kept.mk' | split)

theorem State.tripSeen_kept {z0 : State} (s : State) (d : Fin 6) (hz : Kept z0 s) : Kept z0 (State.tripSeen s d) := by
  refine hz.trans ?_
  unfold State.tripSeen
  repeat' (first
    | with_reducible exact Kept.rfl | with_reducible assumption | with_reducible apply State.put_kept
    | with_reducible refine Kept.of_snd (by assumption) ?_ | intro _ | dsimp only
    | fail_if_no_progress with_reducible apply Kept.mk' | split)

theorem execThermalShutdown_kept (d : Fin 6) (s : State) : KeptO s (execThermalShutdown d s) := by
  unfold execThermalShutdown
  repeat' (first
    | with_reducible exact Kept.rfl | with_reducible assumption | with_reducible apply State.bump_kept
    | with_reducible apply State.put_kept | with_reducible apply State.raiseSrc_kept
    | with_reducible apply State.reach_kept | with_reducible apply State.shutOff_kept
    | with_reducible apply State.stopFerry_kept | with_reducible apply State.suspendFlash_kept
    | with_reducible apply State.tripSeen_kept | with_reducible apply KeptO.next | with_reducible apply KeptO.ite
    | with_reducible apply Kept.ite | with_reducible refine Kept.of_snd (by assumption) ?_ | intro _ | dsimp only
    | fail_if_no_progress with_reducible apply Kept.mk' | split)

theorem execThermalShutdownRelease_kept (s : State) : KeptO s (execThermalShutdownRelease s) := by
  unfold execThermalShutdownRelease
  repeat' (first
    | with_reducible exact Kept.rfl | with_reducible assumption | with_reducible apply State.boot_kept
    | with_reducible apply State.bump_kept | with_reducible apply State.put_kept
    | with_reducible apply State.reach_kept | with_reducible apply State.withdraw_kept
    | with_reducible apply KeptO.next | with_reducible apply KeptO.ite | with_reducible apply Kept.ite
    | with_reducible apply Kept.foldl | with_reducible refine Kept.of_snd (by assumption) ?_ | intro _ | dsimp only
    | fail_if_no_progress with_reducible apply Kept.mk' | split)

theorem State.acceptMode_kept {z0 : State} (s : State) (m : Nat) (hz : Kept z0 s) : Kept z0 (State.acceptMode s m) := by
  refine hz.trans ?_
  unfold State.acceptMode
  repeat' (first
    | with_reducible exact Kept.rfl | with_reducible assumption | with_reducible apply State.disarm_kept
    | with_reducible apply State.put_kept | with_reducible apply Kept.ite_else | with_reducible apply Kept.ite_then
    | with_reducible apply Kept.ite | with_reducible refine Kept.of_snd (by assumption) ?_ | intro _ | dsimp only
    | fail_if_no_progress with_reducible apply Kept.mk' | split)

theorem State.writeModeReq_kept {z0 : State} (s : State) (i : Initiator) (v : Nat) (refDev : Int) (hz : Kept z0 s) : Kept z0 (State.writeModeReq s i v refDev) := by
  refine hz.trans ?_
  unfold State.writeModeReq
  repeat' (first
    | with_reducible exact Kept.rfl | with_reducible assumption | with_reducible apply State.acceptMode_kept
    | with_reducible apply State.put_kept | with_reducible apply State.refuseRight_kept
    | with_reducible apply State.trimCheck_kept | with_reducible apply Kept.ite
    | with_reducible refine Kept.of_snd (by assumption) ?_ | intro _ | dsimp only
    | fail_if_no_progress with_reducible apply Kept.mk' | split)

theorem execModeReqShip_kept (i : Initiator) (v : Word) (s : State) : KeptO s (execModeReqShip i v s) := by
  unfold execModeReqShip
  repeat' (first
    | with_reducible exact Kept.rfl | with_reducible assumption | with_reducible apply State.writeModeReq_kept
    | with_reducible apply State.writeRow_kept | with_reducible apply KeptO.next | with_reducible apply KeptO.ite
    | with_reducible refine Kept.of_snd (by assumption) ?_ | intro _ | dsimp only
    | fail_if_no_progress with_reducible apply Kept.mk' | split)

theorem execModeReqWatch_kept (i : Initiator) (v : Word) (s : State) : KeptO s (execModeReqWatch i v s) := by
  unfold execModeReqWatch
  repeat' (first
    | with_reducible exact Kept.rfl | with_reducible assumption | with_reducible apply State.writeModeReq_kept
    | with_reducible apply State.writeRow_kept | with_reducible apply KeptO.next | with_reducible apply KeptO.ite
    | with_reducible refine Kept.of_snd (by assumption) ?_ | intro _ | dsimp only
    | fail_if_no_progress with_reducible apply Kept.mk' | split)

theorem execModeReqRun_kept (i : Initiator) (v : Word) (s : State) : KeptO s (execModeReqRun i v s) := by
  unfold execModeReqRun
  repeat' (first
    | with_reducible exact Kept.rfl | with_reducible assumption | with_reducible apply State.writeModeReq_kept
    | with_reducible apply State.writeRow_kept | with_reducible apply KeptO.next | with_reducible apply KeptO.ite
    | with_reducible refine Kept.of_snd (by assumption) ?_ | intro _ | dsimp only
    | fail_if_no_progress with_reducible apply Kept.mk' | split)

theorem execModeReqTrim_kept (i : Initiator) (v : Word) (refDev : Int) (s : State) : KeptO s (execModeReqTrim i v refDev s) := by
  unfold execModeReqTrim
  repeat' (first
    | with_reducible exact Kept.rfl | with_reducible assumption | with_reducible apply State.writeModeReq_kept
    | with_reducible apply State.writeRow_kept | with_reducible apply KeptO.next | with_reducible apply KeptO.ite
    | with_reducible refine Kept.of_snd (by assumption) ?_ | intro _ | dsimp only
    | fail_if_no_progress with_reducible apply Kept.mk' | split)

theorem execModeReqService_kept (i : Initiator) (v : Word) (s : State) : KeptO s (execModeReqService i v s) := by
  unfold execModeReqService
  repeat' (first
    | with_reducible exact Kept.rfl | with_reducible assumption | with_reducible apply State.writeModeReq_kept
    | with_reducible apply State.writeRow_kept | with_reducible apply KeptO.next | with_reducible apply KeptO.ite
    | with_reducible refine Kept.of_snd (by assumption) ?_ | intro _ | dsimp only
    | fail_if_no_progress with_reducible apply Kept.mk' | split)

theorem State.writeModeKey_kept {z0 : State} (s : State) (i : Initiator) (v : Nat) (hz : Kept z0 s) : Kept z0 (State.writeModeKey s i v) := by
  refine hz.trans ?_
  unfold State.writeModeKey
  repeat' (first
    | with_reducible exact Kept.rfl | with_reducible assumption | with_reducible apply State.ifPrivileged_kept
    | with_reducible apply Kept.ite_else | with_reducible apply Kept.ite_then | with_reducible apply Kept.ite
    | with_reducible refine Kept.of_snd (by assumption) ?_ | intro _ | dsimp only
    | fail_if_no_progress with_reducible apply Kept.mk' | split)

theorem execModeKey_kept (i : Initiator) (v : Word) (s : State) : KeptO s (execModeKey i v s) := by
  unfold execModeKey
  repeat' (first
    | with_reducible exact Kept.rfl | with_reducible assumption | with_reducible apply State.writeModeKey_kept
    | with_reducible apply State.writeRow_kept | with_reducible apply KeptO.next | with_reducible apply KeptO.ite
    | with_reducible refine Kept.of_snd (by assumption) ?_ | intro _ | dsimp only
    | fail_if_no_progress with_reducible apply Kept.mk' | split)

theorem execServiceTimeout_kept (s : State) : KeptO s (execServiceTimeout s) := by
  unfold execServiceTimeout
  repeat' (first
    | with_reducible exact Kept.rfl | with_reducible assumption | with_reducible apply State.put_kept
    | with_reducible apply State.reach_kept | with_reducible apply KeptO.next | with_reducible apply KeptO.ite
    | with_reducible apply Kept.ite_else | with_reducible apply Kept.ite_then | with_reducible apply Kept.ite
    | with_reducible refine Kept.of_snd (by assumption) ?_ | intro _ | dsimp only
    | fail_if_no_progress with_reducible apply Kept.mk' | split)

theorem State.toBoundary_kept {z0 : State} (s : State) (hz : Kept z0 s) : Kept z0 (State.toBoundary s) := by
  refine hz.trans ?_
  unfold State.toBoundary
  repeat' (first
    | with_reducible exact Kept.rfl | with_reducible assumption | with_reducible apply State.reachFt_kept
    | with_reducible apply Kept.ite | with_reducible refine Kept.of_snd (by assumption) ?_ | intro _ | dsimp only
    | fail_if_no_progress with_reducible apply Kept.mk' | split)

theorem State.wakeAgain_kept {z0 : State} (s : State) (tgt : Nat) (hz : Kept z0 s) : Kept z0 (State.wakeAgain s tgt) := by
  refine hz.trans ?_
  unfold State.wakeAgain
  repeat' (first
    | with_reducible exact Kept.rfl | with_reducible assumption | with_reducible apply State.put_kept
    | with_reducible apply Kept.ite_else | with_reducible apply Kept.ite_then | with_reducible apply Kept.ite
    | with_reducible refine Kept.of_snd (by assumption) ?_ | intro _ | dsimp only
    | fail_if_no_progress with_reducible apply Kept.mk' | split)

theorem State.recordWake_kept {z0 : State} (s : State) (hz : Kept z0 s) : Kept z0 (State.recordWake s) := by
  refine hz.trans ?_
  unfold State.recordWake
  repeat' (first
    | with_reducible exact Kept.rfl | with_reducible assumption | with_reducible apply State.bump_kept
    | with_reducible apply State.put_kept | with_reducible refine Kept.of_snd (by assumption) ?_ | intro _
    | dsimp only | fail_if_no_progress with_reducible apply Kept.mk' | split)

theorem State.toWatch_kept {z0 : State} (s : State) (hz : Kept z0 s) : Kept z0 (State.toWatch s) := by
  refine hz.trans ?_
  unfold State.toWatch
  repeat' (first
    | with_reducible exact Kept.rfl | with_reducible assumption | with_reducible apply State.disarm_kept
    | with_reducible apply State.enterWatch_kept | with_reducible apply State.reach_kept
    | with_reducible apply State.sweepEnd_kept | with_reducible apply State.toBoundary_kept
    | with_reducible apply State.wakeAgain_kept | with_reducible refine Kept.of_snd (by assumption) ?_ | intro _
    | dsimp only | fail_if_no_progress with_reducible apply Kept.mk' | split)

theorem State.toShip_kept {z0 : State} (s : State) (hz : Kept z0 s) : Kept z0 (State.toShip s) := by
  refine hz.trans ?_
  unfold State.toShip
  repeat' (first
    | with_reducible exact Kept.rfl | with_reducible assumption | with_reducible apply State.bump_kept
    | with_reducible apply State.disarm_kept | with_reducible apply State.enterMode_kept
    | with_reducible apply State.lifeFlush_kept | with_reducible apply State.linkDown_kept
    | with_reducible apply State.memDrop_kept | with_reducible apply State.put_kept
    | with_reducible apply State.reach_kept | with_reducible apply State.showVaux_kept
    | with_reducible apply State.stopTicks_kept | with_reducible apply State.sweepEnd_kept
    | with_reducible apply State.syncAll_kept | with_reducible apply State.wakeAgain_kept
    | with_reducible apply Kept.getD | with_reducible apply Kept.foldl
    | with_reducible refine Kept.of_snd (by assumption) ?_ | intro _ | dsimp only
    | fail_if_no_progress with_reducible apply Kept.mk' | split)

theorem State.fromShip_kept {z0 : State} (s : State) (hz : Kept z0 s) : Kept z0 (State.fromShip s) := by
  refine hz.trans ?_
  unfold State.fromShip
  repeat' (first
    | with_reducible exact Kept.rfl | with_reducible assumption | with_reducible apply State.boot_kept
    | with_reducible apply State.put_kept | with_reducible apply State.recordWake_kept
    | with_reducible apply State.resetLogic_kept | with_reducible apply Kept.ite_else
    | with_reducible apply Kept.ite_then | with_reducible apply Kept.ite
    | with_reducible refine Kept.of_snd (by assumption) ?_ | intro _ | dsimp only
    | fail_if_no_progress with_reducible apply Kept.mk' | split)

theorem State.refillLagoon_kept {z0 : State} (s : State) (hz : Kept z0 s) : Kept z0 (State.refillLagoon s) := by
  refine hz.trans ?_
  unfold State.refillLagoon
  repeat' (first
    | with_reducible exact Kept.rfl | with_reducible assumption | with_reducible apply State.memPut_kept
    | with_reducible apply State.readSlot_kept | with_reducible apply Kept.ite | with_reducible apply Kept.foldl
    | with_reducible refine Kept.of_snd (by assumption) ?_ | intro _ | dsimp only
    | fail_if_no_progress with_reducible apply Kept.mk' | split)

theorem State.refillLost_kept {z0 : State} (s : State) (hz : Kept z0 s) : Kept z0 (State.refillLost s) := by
  refine hz.trans ?_
  unfold State.refillLost
  repeat' (first
    | with_reducible exact Kept.rfl | with_reducible assumption | with_reducible apply State.refillLagoon_kept
    | with_reducible apply Kept.ite_else | with_reducible apply Kept.ite_then | with_reducible apply Kept.ite
    | with_reducible refine Kept.of_snd (by assumption) ?_ | intro _ | dsimp only
    | fail_if_no_progress with_reducible apply Kept.mk' | split)

theorem State.fromWatch_kept {z0 : State} (s : State) (hz : Kept z0 s) : Kept z0 (State.fromWatch s) := by
  refine hz.trans ?_
  unfold State.fromWatch
  repeat' (first
    | with_reducible exact Kept.rfl | with_reducible assumption | with_reducible apply State.enterActive_kept
    | with_reducible apply State.leaveWatch_kept | with_reducible apply State.put_kept
    | with_reducible apply State.reach_kept | with_reducible apply State.recordWake_kept
    | with_reducible apply State.refillLost_kept | with_reducible refine Kept.of_snd (by assumption) ?_ | intro _
    | dsimp only | fail_if_no_progress with_reducible apply Kept.mk' | split)

theorem State.leaveHold_kept {z0 : State} (s : State) (hz : Kept z0 s) : Kept z0 (State.leaveHold s) := by
  refine hz.trans ?_
  unfold State.leaveHold
  repeat' (first
    | with_reducible exact Kept.rfl | with_reducible assumption | with_reducible apply State.enterMode_kept
    | with_reducible apply State.promoteAll_kept | with_reducible apply State.put_kept
    | with_reducible apply State.releaseSrc_kept | with_reducible apply State.wrN_kept
    | with_reducible refine Kept.of_snd (by assumption) ?_ | intro _ | dsimp only
    | fail_if_no_progress with_reducible apply Kept.mk' | split)

theorem State.reconfigure_kept {z0 : State} (s : State) (hz : Kept z0 s) : Kept z0 (State.reconfigure s).2 := by
  refine hz.trans ?_
  unfold State.reconfigure
  repeat' (first
    | with_reducible exact Kept.rfl | with_reducible assumption | with_reducible apply State.adoptConfig_kept
    | with_reducible apply State.followEnable_kept | with_reducible apply State.loadEngine_kept
    | with_reducible apply State.loadTrims_kept | with_reducible apply State.relearn_kept
    | with_reducible apply State.shortTrim_kept | with_reducible apply State.showVaux_kept
    | with_reducible apply Kept.pair_ite | with_reducible apply Kept.foldl
    | with_reducible refine Kept.of_snd (by assumption) ?_ | intro _ | dsimp only
    | fail_if_no_progress with_reducible apply Kept.mk' | split)

theorem State.fromHold_kept {z0 : State} (s : State) (hz : Kept z0 s) : Kept z0 (State.fromHold s) := by
  refine hz.trans ?_
  unfold State.fromHold
  repeat' (first
    | with_reducible exact Kept.rfl | with_reducible assumption | with_reducible apply State.askPeriod_kept
    | with_reducible apply State.leaveHold_kept | with_reducible apply State.reach_kept
    | with_reducible apply State.reconfigure_kept | with_reducible apply State.refillLost_kept
    | with_reducible apply Kept.ite | with_reducible refine Kept.of_snd (by assumption) ?_ | intro _ | dsimp only
    | fail_if_no_progress with_reducible apply Kept.mk' | split)

theorem State.clearService_kept {z0 : State} (s : State) (hz : Kept z0 s) : Kept z0 (State.clearService s) := by
  refine hz.trans ?_
  unfold State.clearService
  repeat' (first
    | with_reducible exact Kept.rfl | with_reducible assumption | with_reducible apply State.applyPhase_kept
    | with_reducible apply State.deselect_kept | with_reducible apply State.endPrbs_kept
    | with_reducible apply State.onPhase_kept | with_reducible apply State.phasesBack_kept
    | with_reducible apply State.put_kept | with_reducible apply State.setEng_kept
    | with_reducible apply State.wrN_kept | with_reducible apply Kept.ite_else | with_reducible apply Kept.ite_then
    | with_reducible apply Kept.ite | with_reducible apply Kept.foldl
    | with_reducible refine Kept.of_snd (by assumption) ?_ | intro _ | dsimp only
    | fail_if_no_progress with_reducible apply Kept.mk' | split)

theorem execModeTransitionComplete_kept (s : State) : KeptO s (execModeTransitionComplete s) := by
  unfold execModeTransitionComplete
  repeat' (first
    | with_reducible exact Kept.rfl | with_reducible assumption | with_reducible apply State.calBegin_kept
    | with_reducible apply State.clearService_kept | with_reducible apply State.enterMode_kept
    | with_reducible apply State.fromHold_kept | with_reducible apply State.fromShip_kept
    | with_reducible apply State.fromWatch_kept | with_reducible apply State.sweepEnd_kept
    | with_reducible apply State.toBoundary_kept | with_reducible apply State.toShip_kept
    | with_reducible apply State.toWatch_kept | with_reducible apply KeptO.next | with_reducible apply KeptO.ite
    | with_reducible apply Kept.ite | with_reducible refine Kept.of_snd (by assumption) ?_ | intro _ | dsimp only
    | fail_if_no_progress with_reducible apply Kept.mk' | split)

theorem State.burstOver_kept {z0 : State} (s : State) (hz : Kept z0 s) : Kept z0 (State.burstOver s) := by
  refine hz.trans ?_
  unfold State.burstOver
  repeat' (first
    | with_reducible exact Kept.rfl | with_reducible assumption | with_reducible apply State.reach_kept
    | with_reducible apply State.syncAll_kept | with_reducible apply State.watchDomains_kept
    | with_reducible apply Kept.ite_else | with_reducible apply Kept.ite_then | with_reducible apply Kept.ite
    | with_reducible refine Kept.of_snd (by assumption) ?_ | intro _ | dsimp only
    | fail_if_no_progress with_reducible apply Kept.mk' | split)

theorem execWatchBurst_kept (s : State) : KeptO s (execWatchBurst s) := by
  unfold execWatchBurst
  repeat' (first
    | with_reducible exact Kept.rfl | with_reducible assumption | with_reducible apply State.burstOver_kept
    | with_reducible apply State.clocksOn_kept | with_reducible apply State.put_kept
    | with_reducible apply State.reach_kept | with_reducible apply State.regather_kept
    | with_reducible apply KeptO.next | with_reducible apply KeptO.ite | with_reducible apply Kept.ite_else
    | with_reducible apply Kept.ite_then | with_reducible apply Kept.ite
    | with_reducible refine Kept.of_snd (by assumption) ?_ | intro _ | dsimp only
    | fail_if_no_progress with_reducible apply Kept.mk' | split)

theorem State.burstWindow_kept {z0 : State} (s : State) (hz : Kept z0 s) : Kept z0 (State.burstWindow s) := by
  refine hz.trans ?_
  unfold State.burstWindow
  repeat' (first
    | with_reducible exact Kept.rfl | with_reducible assumption | with_reducible refine Kept.of_snd (by assumption) ?_
    | intro _ | dsimp only | fail_if_no_progress with_reducible apply Kept.mk' | split)

theorem State.burstSnapshot_kept {z0 : State} (s : State) (hz : Kept z0 s) : Kept z0 (State.burstSnapshot s) := by
  refine hz.trans ?_
  unfold State.burstSnapshot
  repeat' (first
    | with_reducible exact Kept.rfl | with_reducible assumption | with_reducible apply State.estFields_kept
    | with_reducible apply State.fresh_kept | with_reducible apply State.snapRing_kept
    | with_reducible refine Kept.of_snd (by assumption) ?_ | intro _ | dsimp only
    | fail_if_no_progress with_reducible apply Kept.mk' | split)

theorem State.burstSwitch_kept {z0 : State} (s : State) (hz : Kept z0 s) : Kept z0 (State.burstSwitch s) := by
  refine hz.trans ?_
  unfold State.burstSwitch
  repeat' (first
    | with_reducible exact Kept.rfl | with_reducible assumption | with_reducible apply State.bankAux_kept
    | with_reducible apply State.bankCells_kept | with_reducible apply State.bankCurrent_kept
    | with_reducible apply State.burstSnapshot_kept | with_reducible apply State.burstWindow_kept
    | with_reducible apply State.calBoundary_kept | with_reducible apply State.compareCells_kept
    | with_reducible apply State.compareCurrent_kept | with_reducible apply State.lifeAdvance_kept
    | with_reducible apply State.rateEval_kept | with_reducible apply State.tempLimits_kept
    | with_reducible apply Kept.ite_else | with_reducible apply Kept.ite_then | with_reducible apply Kept.ite
    | with_reducible refine Kept.of_snd (by assumption) ?_ | intro _ | dsimp only
    | fail_if_no_progress with_reducible apply Kept.mk' | split)

theorem execWatchBurstEnd_kept (s : State) : KeptO s (execWatchBurstEnd s) := by
  unfold execWatchBurstEnd
  repeat' (first
    | with_reducible exact Kept.rfl | with_reducible assumption | with_reducible apply State.burstSwitch_kept
    | with_reducible apply State.triggerAll_kept | with_reducible apply KeptO.next | with_reducible apply KeptO.ite
    | with_reducible apply Kept.ite_else | with_reducible apply Kept.ite_then | with_reducible apply Kept.ite
    | with_reducible refine Kept.of_snd (by assumption) ?_ | intro _ | dsimp only
    | fail_if_no_progress with_reducible apply Kept.mk' | split)

theorem execWakePin_kept (s : State) : KeptO s (execWakePin s) := by
  unfold execWakePin
  repeat' (first
    | with_reducible exact Kept.rfl | with_reducible assumption | with_reducible apply State.wakeRequest_kept
    | with_reducible apply KeptO.next | with_reducible apply KeptO.ite | with_reducible apply Kept.ite_else
    | with_reducible apply Kept.ite_then | with_reducible apply Kept.ite
    | with_reducible refine Kept.of_snd (by assumption) ?_ | intro _ | dsimp only
    | fail_if_no_progress with_reducible apply Kept.mk' | split)

theorem execWakePinStuck_kept (s : State) : KeptO s (execWakePinStuck s) := by
  unfold execWakePinStuck
  repeat' (first
    | with_reducible exact Kept.rfl | with_reducible assumption | with_reducible apply State.monitor_kept
    | with_reducible apply State.put_kept | with_reducible apply KeptO.next | with_reducible apply KeptO.ite
    | with_reducible apply Kept.ite_else | with_reducible apply Kept.ite_then | with_reducible apply Kept.ite
    | with_reducible refine Kept.of_snd (by assumption) ?_ | intro _ | dsimp only
    | fail_if_no_progress with_reducible apply Kept.mk' | split)

theorem execWakePinRelease_kept (s : State) : KeptO s (execWakePinRelease s) := by
  unfold execWakePinRelease
  repeat' (first
    | with_reducible exact Kept.rfl | with_reducible assumption | with_reducible apply State.endCond_kept
    | with_reducible apply KeptO.next | with_reducible apply KeptO.ite | with_reducible apply Kept.ite_else
    | with_reducible apply Kept.ite_then | with_reducible apply Kept.ite
    | with_reducible refine Kept.of_snd (by assumption) ?_ | intro _ | dsimp only
    | fail_if_no_progress with_reducible apply Kept.mk' | split)

theorem State.takeSupply_kept {z0 : State} (s : State) (f : Fld) (level : Nat) (hz : Kept z0 s) : Kept z0 (State.takeSupply s f level) := by
  refine hz.trans ?_
  unfold State.takeSupply
  repeat' (first
    | with_reducible exact Kept.rfl | with_reducible assumption | with_reducible apply State.put_kept
    | with_reducible apply State.wr_kept | with_reducible refine Kept.of_snd (by assumption) ?_ | intro _ | dsimp only
    | fail_if_no_progress with_reducible apply Kept.mk' | split)

theorem execVstkOutOfRange_kept (level : BitVec 16) (s : State) : KeptO s (execVstkOutOfRange level s) := by
  unfold execVstkOutOfRange
  repeat' (first
    | with_reducible exact Kept.rfl | with_reducible assumption | with_reducible apply State.monitor_kept
    | with_reducible apply State.takeSupply_kept | with_reducible apply KeptO.next | with_reducible apply KeptO.ite
    | with_reducible apply Kept.ite_else | with_reducible apply Kept.ite_then | with_reducible apply Kept.ite
    | with_reducible refine Kept.of_snd (by assumption) ?_ | intro _ | dsimp only
    | fail_if_no_progress with_reducible apply Kept.mk' | split)

theorem execVstkInRange_kept (level : BitVec 16) (s : State) : KeptO s (execVstkInRange level s) := by
  unfold execVstkInRange
  repeat' (first
    | with_reducible exact Kept.rfl | with_reducible assumption | with_reducible apply State.monitorEnd_kept
    | with_reducible apply State.takeSupply_kept | with_reducible apply KeptO.next | with_reducible apply KeptO.ite
    | with_reducible apply Kept.ite_else | with_reducible apply Kept.ite_then | with_reducible apply Kept.ite
    | with_reducible refine Kept.of_snd (by assumption) ?_ | intro _ | dsimp only
    | fail_if_no_progress with_reducible apply Kept.mk' | split)

theorem execRailOutOfTolerance_kept (s : State) : KeptO s (execRailOutOfTolerance s) := by
  unfold execRailOutOfTolerance
  repeat' (first
    | with_reducible exact Kept.rfl | with_reducible assumption | with_reducible apply State.followVio_kept
    | with_reducible apply State.monitor_kept | with_reducible apply KeptO.next | with_reducible apply KeptO.ite
    | with_reducible apply Kept.ite_else | with_reducible apply Kept.ite_then | with_reducible apply Kept.ite
    | with_reducible refine Kept.of_snd (by assumption) ?_ | intro _ | dsimp only
    | fail_if_no_progress with_reducible apply Kept.mk' | split)

theorem execRailInTolerance_kept (s : State) : KeptO s (execRailInTolerance s) := by
  unfold execRailInTolerance
  repeat' (first
    | with_reducible exact Kept.rfl | with_reducible assumption | with_reducible apply State.followVio_kept
    | with_reducible apply State.monitorEnd_kept | with_reducible apply KeptO.next | with_reducible apply KeptO.ite
    | with_reducible refine Kept.of_snd (by assumption) ?_ | intro _ | dsimp only
    | fail_if_no_progress with_reducible apply Kept.mk' | split)

theorem execVauxLoss_kept (level : BitVec 16) (s : State) : KeptO s (execVauxLoss level s) := by
  unfold execVauxLoss
  repeat' (first
    | with_reducible exact Kept.rfl | with_reducible assumption | with_reducible apply State.monitor_kept
    | with_reducible apply State.showVaux_kept | with_reducible apply State.takeSupply_kept
    | with_reducible apply KeptO.next | with_reducible apply KeptO.ite | with_reducible apply Kept.ite_else
    | with_reducible apply Kept.ite_then | with_reducible apply Kept.ite
    | with_reducible refine Kept.of_snd (by assumption) ?_ | intro _ | dsimp only
    | fail_if_no_progress with_reducible apply Kept.mk' | split)

theorem execVauxReturn_kept (level : BitVec 16) (s : State) : KeptO s (execVauxReturn level s) := by
  unfold execVauxReturn
  repeat' (first
    | with_reducible exact Kept.rfl | with_reducible assumption | with_reducible apply State.monitorEnd_kept
    | with_reducible apply State.showVaux_kept | with_reducible apply State.takeSupply_kept
    | with_reducible apply KeptO.next | with_reducible apply KeptO.ite | with_reducible apply Kept.ite_else
    | with_reducible apply Kept.ite_then | with_reducible apply Kept.ite
    | with_reducible refine Kept.of_snd (by assumption) ?_ | intro _ | dsimp only
    | fail_if_no_progress with_reducible apply Kept.mk' | split)

theorem execVioOverload_kept (s : State) : KeptO s (execVioOverload s) := by
  unfold execVioOverload
  repeat' (first
    | with_reducible exact Kept.rfl | with_reducible assumption | with_reducible apply State.monitor_kept
    | with_reducible apply KeptO.next | with_reducible apply KeptO.ite | with_reducible apply Kept.ite_else
    | with_reducible apply Kept.ite_then | with_reducible apply Kept.ite
    | with_reducible refine Kept.of_snd (by assumption) ?_ | intro _ | dsimp only
    | fail_if_no_progress with_reducible apply Kept.mk' | split)

theorem execVioLoadNormal_kept (s : State) : KeptO s (execVioLoadNormal s) := by
  unfold execVioLoadNormal
  repeat' (first
    | with_reducible exact Kept.rfl | with_reducible assumption | with_reducible apply State.monitorEnd_kept
    | with_reducible apply KeptO.next | with_reducible apply KeptO.ite
    | with_reducible refine Kept.of_snd (by assumption) ?_ | intro _ | dsimp only
    | fail_if_no_progress with_reducible apply Kept.mk' | split)

theorem execOscillatorDeviation_kept (s : State) : KeptO s (execOscillatorDeviation s) := by
  unfold execOscillatorDeviation
  repeat' (first
    | with_reducible exact Kept.rfl | with_reducible assumption | with_reducible apply State.monitor_kept
    | with_reducible apply KeptO.next | with_reducible apply KeptO.ite | with_reducible apply Kept.ite_else
    | with_reducible apply Kept.ite_then | with_reducible apply Kept.ite
    | with_reducible refine Kept.of_snd (by assumption) ?_ | intro _ | dsimp only
    | fail_if_no_progress with_reducible apply Kept.mk' | split)

theorem execOscillatorAgreement_kept (s : State) : KeptO s (execOscillatorAgreement s) := by
  unfold execOscillatorAgreement
  repeat' (first
    | with_reducible exact Kept.rfl | with_reducible assumption | with_reducible apply State.monitorEnd_kept
    | with_reducible apply KeptO.next | with_reducible apply KeptO.ite
    | with_reducible refine Kept.of_snd (by assumption) ?_ | intro _ | dsimp only
    | fail_if_no_progress with_reducible apply Kept.mk' | split)

theorem execPd0OscillatorStopped_kept (s : State) : KeptO s (execPd0OscillatorStopped s) := by
  unfold execPd0OscillatorStopped
  repeat' (first
    | with_reducible exact Kept.rfl | with_reducible assumption | with_reducible apply State.monitor_kept
    | with_reducible apply KeptO.next | with_reducible apply KeptO.ite | with_reducible apply Kept.ite_else
    | with_reducible apply Kept.ite_then | with_reducible apply Kept.ite
    | with_reducible refine Kept.of_snd (by assumption) ?_ | intro _ | dsimp only
    | fail_if_no_progress with_reducible apply Kept.mk' | split)

theorem execPd0OscillatorRunning_kept (s : State) : KeptO s (execPd0OscillatorRunning s) := by
  unfold execPd0OscillatorRunning
  repeat' (first
    | with_reducible exact Kept.rfl | with_reducible assumption | with_reducible apply State.monitorEnd_kept
    | with_reducible apply KeptO.next | with_reducible apply KeptO.ite
    | with_reducible refine Kept.of_snd (by assumption) ?_ | intro _ | dsimp only
    | fail_if_no_progress with_reducible apply Kept.mk' | split)

theorem execHeartbeatRestored_kept (s : State) : KeptO s (execHeartbeatRestored s) := by
  unfold execHeartbeatRestored
  repeat' (first
    | with_reducible exact Kept.rfl | with_reducible assumption | with_reducible apply State.faultU_kept
    | with_reducible apply State.put_kept | with_reducible apply State.releaseSrc_kept
    | with_reducible apply KeptO.next | with_reducible apply KeptO.ite | with_reducible apply Kept.ite_else
    | with_reducible apply Kept.ite_then | with_reducible apply Kept.ite
    | with_reducible refine Kept.of_snd (by assumption) ?_ | intro _ | dsimp only
    | fail_if_no_progress with_reducible apply Kept.mk' | split)

end Sys2Proof.Machine
end

