-- ==== Sys2Proof/Laws/KeptManagement.lean ====
section
/-! SUPPORT. Every operation of Machine/Management.lean keeps what `Kept` says. -/

set_option linter.unusedTactic false
set_option linter.unreachableTactic false
set_option linter.unusedVariables false

namespace Sys2Proof.Machine

set_option Elab.async false

theorem State.setUpd_kept {z0 : State} (s : State) (u : Option UpdSt) (st : Nat) (hz : Kept z0 s) : Kept z0 (State.setUpd s u st) := by
  refine hz.trans ?_
  unfold State.setUpd
  repeat' (first
    | with_reducible exact Kept.rfl | with_reducible assumption | with_reducible apply State.put_kept
    | with_reducible apply Kept.ite_else | with_reducible apply Kept.ite_then | with_reducible apply Kept.ite
    | with_reducible refine Kept.of_snd (by assumption) ?_ | intro _ | dsimp only
    | fail_if_no_progress with_reducible apply Kept.mk' | split)

theorem State.clearStaging_kept {z0 : State} (s : State) (hz : Kept z0 s) : Kept z0 (State.clearStaging s) := by
  refine hz.trans ?_
  unfold State.clearStaging
  repeat' (first
    | with_reducible exact Kept.rfl | with_reducible assumption | with_reducible apply State.memDrop_kept
    | with_reducible refine Kept.of_snd (by assumption) ?_ | intro _ | dsimp only
    | fail_if_no_progress with_reducible apply Kept.mk' | split)

theorem State.stage_kept {z0 : State} (s : State) (o : Nat) (l : List Byte) (hz : Kept z0 s) : KeptM z0 (State.stage s o l) := by
  refine KeptM.after hz ?_
  unfold State.stage
  repeat' (first
    | with_reducible exact Kept.rfl | with_reducible assumption | with_reducible apply State.memPut_kept
    | with_reducible apply State.setUpd_kept | with_reducible apply KeptM.some | with_reducible apply KeptM.none
    | with_reducible apply KeptM.ite | with_reducible apply Kept.ite_else | with_reducible apply Kept.ite_then
    | with_reducible apply Kept.ite | with_reducible refine Kept.of_snd (by assumption) ?_ | intro _ | dsimp only
    | fail_if_no_progress with_reducible apply Kept.mk' | split)

theorem execImageFrame_kept (_port : Fin 4) (f : Frame) (s : State) : KeptO s (execImageFrame _port f s) := by
  unfold execImageFrame
  repeat' (first
    | with_reducible exact Kept.rfl | with_reducible assumption | with_reducible apply State.bump_kept
    | with_reducible apply State.drop_kept | with_reducible apply State.stage_kept
    | with_reducible apply State.takeInbox_kept | with_reducible apply KeptM.ite | with_reducible apply KeptM.none
    | with_reducible apply State.stage_kept | with_reducible apply KeptO.next | with_reducible apply KeptO.ite
    | with_reducible apply Kept.ite_then | with_reducible apply Kept.ite
    | with_reducible refine Kept.of_snd (by assumption) ?_ | with_reducible refine Kept.of_some (by assumption) ?_
    | intro _ | dsimp only | fail_if_no_progress with_reducible apply Kept.mk' | split)

theorem State.updOpen_kept {z0 : State} (s : State) (hz : Kept z0 s) : Kept z0 (State.updOpen s) := by
  refine hz.trans ?_
  unfold State.updOpen
  repeat' (first
    | with_reducible exact Kept.rfl | with_reducible assumption | with_reducible apply State.clearStaging_kept
    | with_reducible apply State.setUpd_kept | with_reducible apply Kept.ite
    | with_reducible refine Kept.of_snd (by assumption) ?_ | intro _ | dsimp only
    | fail_if_no_progress with_reducible apply Kept.mk' | split)

theorem State.updClose_kept {z0 : State} (s : State) (hz : Kept z0 s) : Kept z0 (State.updClose s) := by
  refine hz.trans ?_
  unfold State.updClose
  repeat' (first
    | with_reducible exact Kept.rfl | with_reducible assumption | with_reducible apply State.clearStaging_kept
    | with_reducible apply State.setUpd_kept | with_reducible apply Kept.ite
    | with_reducible refine Kept.of_snd (by assumption) ?_ | intro _ | dsimp only
    | fail_if_no_progress with_reducible apply Kept.mk' | split)

theorem State.updVerify_kept {z0 : State} (s : State) (hz : Kept z0 s) : Kept z0 (State.updVerify s) := by
  refine hz.trans ?_
  unfold State.updVerify
  repeat' (first
    | with_reducible exact Kept.rfl | with_reducible assumption | with_reducible apply State.clearStaging_kept
    | with_reducible apply State.fault_kept | with_reducible apply State.fresh_kept
    | with_reducible apply State.logHw_kept | with_reducible apply State.put_kept
    | with_reducible apply State.setUpd_kept | with_reducible apply Kept.ite
    | with_reducible refine Kept.of_snd (by assumption) ?_ | intro _ | dsimp only
    | fail_if_no_progress with_reducible apply Kept.mk' | split)

theorem State.updWrite_kept {z0 : State} (s : State) (hz : Kept z0 s) : Kept z0 (State.updWrite s) := by
  refine hz.trans ?_
  unfold State.updWrite
  repeat' (first
    | with_reducible exact Kept.rfl | with_reducible assumption | with_reducible apply State.bump_kept
    | with_reducible apply State.emit_kept | with_reducible apply State.flashErase_kept
    | with_reducible apply State.flashPut_kept | with_reducible apply State.fresh_kept
    | with_reducible apply State.put_kept | with_reducible apply State.setUpd_kept
    | with_reducible apply Kept.ite_then | with_reducible apply Kept.ite
    | with_reducible refine Kept.of_snd (by assumption) ?_ | intro _ | dsimp only
    | fail_if_no_progress with_reducible apply Kept.mk' | split)

theorem State.writeUpdCtrl_kept {z0 : State} (s : State) (i : Initiator) (v : Nat) (hz : Kept z0 s) : Kept z0 (State.writeUpdCtrl s i v) := by
  refine hz.trans ?_
  unfold State.writeUpdCtrl
  repeat' (first
    | with_reducible exact Kept.rfl | with_reducible assumption | with_reducible apply State.ifPrivileged_kept
    | with_reducible apply State.plainWrite_kept | with_reducible apply State.updClose_kept
    | with_reducible apply State.updOpen_kept | with_reducible apply State.updVerify_kept
    | with_reducible apply State.updWrite_kept | with_reducible apply Kept.ite_else
    | with_reducible apply Kept.ite_then | with_reducible apply Kept.ite
    | with_reducible refine Kept.of_snd (by assumption) ?_ | intro _ | dsimp only
    | fail_if_no_progress with_reducible apply Kept.mk' | split)

theorem execUpdateOpen_kept (i : Initiator) (v : Word) (s : State) : KeptO s (execUpdateOpen i v s) := by
  unfold execUpdateOpen
  repeat' (first
    | with_reducible exact Kept.rfl | with_reducible assumption | with_reducible apply State.writeRow_kept
    | with_reducible apply State.writeUpdCtrl_kept | with_reducible apply KeptO.next | with_reducible apply KeptO.ite
    | with_reducible refine Kept.of_snd (by assumption) ?_ | intro _ | dsimp only
    | fail_if_no_progress with_reducible apply Kept.mk' | split)

theorem execUpdateVerify_kept (i : Initiator) (v : Word) (s : State) : KeptO s (execUpdateVerify i v s) := by
  unfold execUpdateVerify
  repeat' (first
    | with_reducible exact Kept.rfl | with_reducible assumption | with_reducible apply State.writeRow_kept
    | with_reducible apply State.writeUpdCtrl_kept | with_reducible apply KeptO.next | with_reducible apply KeptO.ite
    | with_reducible refine Kept.of_snd (by assumption) ?_ | intro _ | dsimp only
    | fail_if_no_progress with_reducible apply Kept.mk' | split)

theorem execUpdateWrite_kept (i : Initiator) (v : Word) (s : State) : KeptO s (execUpdateWrite i v s) := by
  unfold execUpdateWrite
  repeat' (first
    | with_reducible exact Kept.rfl | with_reducible assumption | with_reducible apply State.writeRow_kept
    | with_reducible apply State.writeUpdCtrl_kept | with_reducible apply KeptO.next | with_reducible apply KeptO.ite
    | with_reducible refine Kept.of_snd (by assumption) ?_ | intro _ | dsimp only
    | fail_if_no_progress with_reducible apply Kept.mk' | split)

theorem execUpdateClose_kept (i : Initiator) (v : Word) (s : State) : KeptO s (execUpdateClose i v s) := by
  unfold execUpdateClose
  repeat' (first
    | with_reducible exact Kept.rfl | with_reducible assumption | with_reducible apply State.writeRow_kept
    | with_reducible apply State.writeUpdCtrl_kept | with_reducible apply KeptO.next | with_reducible apply KeptO.ite
    | with_reducible refine Kept.of_snd (by assumption) ?_ | intro _ | dsimp only
    | fail_if_no_progress with_reducible apply Kept.mk' | split)

theorem State.slotWritten_kept {z0 : State} (s : State) (i : Nat) (hz : Kept z0 s) : Kept z0 (State.slotWritten s i) := by
  refine hz.trans ?_
  unfold State.slotWritten
  repeat' (first
    | with_reducible exact Kept.rfl | with_reducible assumption | with_reducible apply State.emit_kept
    | with_reducible apply State.flashPut_kept | with_reducible apply State.logSlot_kept
    | with_reducible apply State.put_kept | with_reducible apply State.readSlot_kept
    | with_reducible apply State.showSlot_kept | with_reducible refine Kept.of_snd (by assumption) ?_ | intro _
    | dsimp only | fail_if_no_progress with_reducible apply Kept.mk' | split)

theorem State.probeWritten_kept {z0 : State} (s : State) (i : Nat) (hz : Kept z0 s) : Kept z0 (State.probeWritten s i) := by
  refine hz.trans ?_
  unfold State.probeWritten
  repeat' (first
    | with_reducible exact Kept.rfl | with_reducible assumption | with_reducible apply State.countProbation_kept
    | with_reducible apply State.putBit_kept | with_reducible apply Kept.ite_else | with_reducible apply Kept.ite_then
    | with_reducible apply Kept.ite | with_reducible refine Kept.of_snd (by assumption) ?_ | intro _ | dsimp only
    | fail_if_no_progress with_reducible apply Kept.mk' | split)

theorem execUpdateWriteComplete_kept (r : FlashOutcome) (s : State) : KeptO s (execUpdateWriteComplete r s) := by
  unfold execUpdateWriteComplete
  repeat' (first
    | with_reducible exact Kept.rfl | with_reducible assumption | with_reducible apply State.bump_kept
    | with_reducible apply State.probeWritten_kept | with_reducible apply State.put_kept
    | with_reducible apply State.setUpd_kept | with_reducible apply State.slotWritten_kept
    | with_reducible apply State.warmReset_kept | with_reducible apply KeptO.next | with_reducible apply KeptO.ite
    | with_reducible apply Kept.ite_else | with_reducible apply Kept.ite_then | with_reducible apply Kept.ite
    | with_reducible refine Kept.of_snd (by assumption) ?_ | intro _ | dsimp only
    | fail_if_no_progress with_reducible apply Kept.mk' | split)

theorem State.writeOtpKey_kept {z0 : State} (s : State) (i : Initiator) (v : Nat) (hz : Kept z0 s) : Kept z0 (State.writeOtpKey s i v) := by
  refine hz.trans ?_
  unfold State.writeOtpKey
  repeat' (first
    | with_reducible exact Kept.rfl | with_reducible assumption | with_reducible apply State.ifPrivileged_kept
    | with_reducible apply Kept.ite_else | with_reducible apply Kept.ite_then | with_reducible apply Kept.ite
    | with_reducible refine Kept.of_snd (by assumption) ?_ | intro _ | dsimp only
    | fail_if_no_progress with_reducible apply Kept.mk' | split)

theorem execOtpKey_kept (i : Initiator) (v : Word) (s : State) : KeptO s (execOtpKey i v s) := by
  unfold execOtpKey
  repeat' (first
    | with_reducible exact Kept.rfl | with_reducible assumption | with_reducible apply State.writeOtpKey_kept
    | with_reducible apply State.writeRow_kept | with_reducible apply KeptO.next | with_reducible apply KeptO.ite
    | with_reducible refine Kept.of_snd (by assumption) ?_ | intro _ | dsimp only
    | fail_if_no_progress with_reducible apply Kept.mk' | split)

theorem State.otpBytes_kept {z0 : State} (s : State) (good : Bool) (hz : Kept z0 s) : Kept z0 (State.otpBytes s good).2 := by
  refine hz.trans ?_
  unfold State.otpBytes
  repeat' (first
    | with_reducible exact Kept.rfl | with_reducible assumption | with_reducible apply State.fresh_kept
    | with_reducible apply Kept.ite_else | with_reducible apply Kept.ite_then | with_reducible apply Kept.ite
    | with_reducible apply Kept.pair_ite | with_reducible refine Kept.of_snd (by assumption) ?_ | intro _ | dsimp only
    | fail_if_no_progress with_reducible apply Kept.mk' | split)

theorem State.otpProgram_kept {z0 : State} (s : State) (tgt : Nat) (good : Bool) (hz : Kept z0 s) : Kept z0 (State.otpProgram s tgt good) := by
  refine hz.trans ?_
  unfold State.otpProgram
  repeat' (first
    | with_reducible exact Kept.rfl | with_reducible assumption | with_reducible apply State.clipAll_kept
    | with_reducible apply State.fresh_kept | with_reducible apply State.memPut_kept
    | with_reducible apply State.mirrorOtp_kept | with_reducible apply State.otpBytes_kept
    | with_reducible apply State.put_kept | with_reducible apply State.reach_kept | with_reducible apply Kept.ite
    | with_reducible refine Kept.of_snd (by assumption) ?_ | intro _ | dsimp only
    | fail_if_no_progress with_reducible apply Kept.mk' | split)

theorem State.writeOtpCtrl_kept {z0 : State} (s : State) (i : Initiator) (v : Nat) (fb : BitVec 3) (good : Bool) (hz : Kept z0 s) : Kept z0 (State.writeOtpCtrl s i v fb good) := by
  refine hz.trans ?_
  unfold State.writeOtpCtrl
  repeat' (first
    | with_reducible exact Kept.rfl | with_reducible assumption | with_reducible apply State.fresh_kept
    | with_reducible apply State.ifPrivileged_kept | with_reducible apply State.otpProgram_kept
    | with_reducible apply State.put_kept | with_reducible apply Kept.ite
    | with_reducible refine Kept.of_snd (by assumption) ?_ | intro _ | dsimp only
    | fail_if_no_progress with_reducible apply Kept.mk' | split)

theorem execOtpProgram_kept (i : Initiator) (v : Word) (fb : BitVec 3) (readback : Bool) (s : State) : KeptO s (execOtpProgram i v fb readback s) := by
  unfold execOtpProgram
  repeat' (first
    | with_reducible exact Kept.rfl | with_reducible assumption | with_reducible apply State.readback_kept
    | with_reducible apply State.takeFeedback_kept | with_reducible apply State.writeOtpCtrl_kept
    | with_reducible apply State.writeRow_kept | with_reducible apply KeptO.next | with_reducible apply KeptO.ite
    | with_reducible refine Kept.of_snd (by assumption) ?_ | intro _ | dsimp only
    | fail_if_no_progress with_reducible apply Kept.mk' | split)

theorem State.writeLogWr_kept {z0 : State} (s : State) (i : Initiator) (k : Nat) (v : Word) (hz : Kept z0 s) : Kept z0 (State.writeLogWr s i k v) := by
  refine hz.trans ?_
  unfold State.writeLogWr
  repeat' (first
    | with_reducible exact Kept.rfl | with_reducible assumption | with_reducible refine Kept.of_snd (by assumption) ?_
    | intro _ | dsimp only | fail_if_no_progress with_reducible apply Kept.mk' | split)

theorem State.writeLogPost_kept {z0 : State} (s : State) (i : Initiator) (hz : Kept z0 s) : Kept z0 (State.writeLogPost s i) := by
  refine hz.trans ?_
  unfold State.writeLogPost
  repeat' (first
    | with_reducible exact Kept.rfl | with_reducible assumption | with_reducible apply State.fresh_kept
    | with_reducible apply State.logEntry_kept | with_reducible refine Kept.of_snd (by assumption) ?_ | intro _
    | dsimp only | fail_if_no_progress with_reducible apply Kept.mk' | split)

theorem execLogPost_kept (i : Initiator) (_v : Word) (s : State) : KeptO s (execLogPost i _v s) := by
  unfold execLogPost
  repeat' (first
    | with_reducible exact Kept.rfl | with_reducible assumption | with_reducible apply State.writeLogPost_kept
    | with_reducible apply State.writeRow_kept | with_reducible apply KeptO.next | with_reducible apply KeptO.ite
    | with_reducible refine Kept.of_snd (by assumption) ?_ | intro _ | dsimp only
    | fail_if_no_progress with_reducible apply Kept.mk' | split)

theorem execLifetimeFlush_kept (stored : Bool) (s : State) : KeptO s (execLifetimeFlush stored s) := by
  unfold execLifetimeFlush
  repeat' (first
    | with_reducible exact Kept.rfl | with_reducible assumption | with_reducible apply State.lifeFlush_kept
    | with_reducible apply State.reach_kept | with_reducible apply KeptO.next | with_reducible apply KeptO.ite
    | with_reducible apply Kept.ite_else | with_reducible apply Kept.ite_then | with_reducible apply Kept.ite
    | with_reducible refine Kept.of_snd (by assumption) ?_ | intro _ | dsimp only
    | fail_if_no_progress with_reducible apply Kept.mk' | split)

theorem State.writeLtCtrl_kept {z0 : State} (s : State) (i : Initiator) (v : Nat) (stored : Bool) (hz : Kept z0 s) : Kept z0 (State.writeLtCtrl s i v stored) := by
  refine hz.trans ?_
  unfold State.writeLtCtrl
  repeat' (first
    | with_reducible exact Kept.rfl | with_reducible assumption | with_reducible apply State.ifPrivileged_kept
    | with_reducible apply State.lifeClear_kept | with_reducible apply State.lifeFlush_kept
    | with_reducible apply Kept.ite_else | with_reducible apply Kept.ite_then | with_reducible apply Kept.ite
    | with_reducible refine Kept.of_snd (by assumption) ?_ | intro _ | dsimp only
    | fail_if_no_progress with_reducible apply Kept.mk' | split)

theorem execLifetimeFlushNow_kept (i : Initiator) (v : Word) (stored : Bool) (s : State) : KeptO s (execLifetimeFlushNow i v stored s) := by
  unfold execLifetimeFlushNow
  repeat' (first
    | with_reducible exact Kept.rfl | with_reducible assumption | with_reducible apply State.writeLtCtrl_kept
    | with_reducible apply State.writeRow_kept | with_reducible apply KeptO.next | with_reducible apply KeptO.ite
    | with_reducible refine Kept.of_snd (by assumption) ?_ | intro _ | dsimp only
    | fail_if_no_progress with_reducible apply Kept.mk' | split)

theorem State.writeLtKey_kept {z0 : State} (s : State) (i : Initiator) (v : Nat) (hz : Kept z0 s) : Kept z0 (State.writeLtKey s i v) := by
  refine hz.trans ?_
  unfold State.writeLtKey
  repeat' (first
    | with_reducible exact Kept.rfl | with_reducible assumption | with_reducible apply State.ifPrivileged_kept
    | with_reducible apply Kept.ite_else | with_reducible apply Kept.ite_then | with_reducible apply Kept.ite
    | with_reducible refine Kept.of_snd (by assumption) ?_ | intro _ | dsimp only
    | fail_if_no_progress with_reducible apply Kept.mk' | split)

theorem execLifetimeKey_kept (i : Initiator) (v : Word) (s : State) : KeptO s (execLifetimeKey i v s) := by
  unfold execLifetimeKey
  repeat' (first
    | with_reducible exact Kept.rfl | with_reducible assumption | with_reducible apply State.writeLtKey_kept
    | with_reducible apply State.writeRow_kept | with_reducible apply KeptO.next | with_reducible apply KeptO.ite
    | with_reducible refine Kept.of_snd (by assumption) ?_ | intro _ | dsimp only
    | fail_if_no_progress with_reducible apply Kept.mk' | split)

theorem execLifetimeClear_kept (i : Initiator) (v : Word) (s : State) : KeptO s (execLifetimeClear i v s) := by
  unfold execLifetimeClear
  repeat' (first
    | with_reducible exact Kept.rfl | with_reducible assumption | with_reducible apply State.writeLtCtrl_kept
    | with_reducible apply State.writeRow_kept | with_reducible apply KeptO.next | with_reducible apply KeptO.ite
    | with_reducible refine Kept.of_snd (by assumption) ?_ | intro _ | dsimp only
    | fail_if_no_progress with_reducible apply Kept.mk' | split)

end Sys2Proof.Machine
end

