-- ==== Sys2Proof/Laws/KeptInterfaces.lean ====
section
/-! SUPPORT. Every operation of Machine/Interfaces.lean keeps what `Kept` says. -/

set_option linter.unusedTactic false
set_option linter.unreachableTactic false
set_option linter.unusedVariables false

namespace Sys2Proof.Machine

set_option Elab.async false

theorem State.writeNotifySend_kept {z0 : State} (s : State) (i : Initiator) (v : Nat) (hz : Kept z0 s) : Kept z0 (State.writeNotifySend s i v) := by
  refine hz.trans ?_
  unfold State.writeNotifySend
  repeat' (first
    | with_reducible exact Kept.rfl | with_reducible assumption | with_reducible apply State.ifPrivileged_kept
    | with_reducible apply State.notifyQueue_kept | with_reducible refine Kept.of_snd (by assumption) ?_ | intro _
    | dsimp only | fail_if_no_progress with_reducible apply Kept.mk' | split)

theorem execNotifySend_kept (i : Initiator) (v : Word) (s : State) : KeptO s (execNotifySend i v s) := by
  unfold execNotifySend
  repeat' (first
    | with_reducible exact Kept.rfl | with_reducible assumption | with_reducible apply State.writeNotifySend_kept
    | with_reducible apply State.writeRow_kept | with_reducible apply KeptO.next | with_reducible apply KeptO.ite
    | with_reducible refine Kept.of_snd (by assumption) ?_ | intro _ | dsimp only
    | fail_if_no_progress with_reducible apply Kept.mk' | split)

theorem State.notifyPop_kept {z0 : State} (s : State) (hz : Kept z0 s) : Kept z0 (State.notifyPop s) := by
  refine hz.trans ?_
  unfold State.notifyPop
  repeat' (first
    | with_reducible exact Kept.rfl | with_reducible assumption | with_reducible apply State.put_kept
    | with_reducible apply State.wr_kept | with_reducible apply State.wrN_kept | with_reducible apply Kept.foldl
    | with_reducible refine Kept.of_snd (by assumption) ?_ | intro _ | dsimp only
    | fail_if_no_progress with_reducible apply Kept.mk' | split)

theorem State.notifyGiveUp_kept {z0 : State} (s : State) (evt info : Nat) (hz : Kept z0 s) : Kept z0 (State.notifyGiveUp s evt info) := by
  refine hz.trans ?_
  unfold State.notifyGiveUp
  repeat' (first
    | with_reducible exact Kept.rfl | with_reducible assumption | with_reducible apply State.notifyPend_kept
    | with_reducible apply State.notifyPop_kept | with_reducible apply State.originate_kept
    | with_reducible apply Kept.ite_else | with_reducible apply Kept.ite_then | with_reducible apply Kept.ite
    | with_reducible refine Kept.of_snd (by assumption) ?_ | intro _ | dsimp only
    | fail_if_no_progress with_reducible apply Kept.mk' | split)

theorem execHostNotifyAttempt_kept (r : NotifyResult) (s : State) : KeptO s (execHostNotifyAttempt r s) := by
  unfold execHostNotifyAttempt
  repeat' (first
    | with_reducible exact Kept.rfl | with_reducible assumption | with_reducible apply State.bump_kept
    | with_reducible apply State.emit_kept | with_reducible apply State.notifyGiveUp_kept
    | with_reducible apply State.notifyPop_kept | with_reducible apply State.reach_kept
    | with_reducible apply KeptO.next | with_reducible apply KeptO.ite | with_reducible apply Kept.ite
    | with_reducible refine Kept.of_snd (by assumption) ?_ | intro _ | dsimp only
    | fail_if_no_progress with_reducible apply Kept.mk' | split)

theorem State.swbSend_kept {z0 : State} (s : State) (n kind : Nat) (hz : Kept z0 s) : Kept z0 (State.swbSend s n kind) := by
  refine hz.trans ?_
  unfold State.swbSend
  repeat' (first
    | with_reducible exact Kept.rfl | with_reducible assumption | with_reducible apply State.bump_kept
    | with_reducible apply State.emit_kept | with_reducible apply State.onSwb_kept
    | with_reducible apply State.put_kept | with_reducible apply State.reach_kept | with_reducible apply Kept.ite_else
    | with_reducible apply Kept.ite_then | with_reducible apply Kept.ite
    | with_reducible refine Kept.of_snd (by assumption) ?_ | intro _ | dsimp only
    | fail_if_no_progress with_reducible apply Kept.mk' | split)

theorem execSwbTrigger_kept (n : Fin 2) (s : State) : KeptO s (execSwbTrigger n s) := by
  unfold execSwbTrigger
  repeat' (first
    | with_reducible exact Kept.rfl | with_reducible assumption | with_reducible apply State.onSwb_kept
    | with_reducible apply State.reach_kept | with_reducible apply State.swbSend_kept
    | with_reducible apply KeptO.next | with_reducible apply KeptO.ite | with_reducible apply Kept.ite_else
    | with_reducible apply Kept.ite_then | with_reducible apply Kept.ite | with_reducible apply Kept.foldl
    | with_reducible apply Kept.foldl_snd | with_reducible refine Kept.of_snd (by assumption) ?_ | intro _
    | dsimp only | fail_if_no_progress with_reducible apply Kept.mk' | split)

theorem State.writeSwbCtrl_kept {z0 : State} (s : State) (n v : Nat) (hz : Kept z0 s) : Kept z0 (State.writeSwbCtrl s n v) := by
  refine hz.trans ?_
  unfold State.writeSwbCtrl
  repeat' (first
    | with_reducible exact Kept.rfl | with_reducible assumption | with_reducible apply State.onSwb_kept
    | with_reducible apply State.swbSend_kept | with_reducible apply Kept.ite
    | with_reducible refine Kept.of_snd (by assumption) ?_ | intro _ | dsimp only
    | fail_if_no_progress with_reducible apply Kept.mk' | split)

theorem execSwbManualTrigger_kept (n : Fin 2) (i : Initiator) (v : Word) (s : State) : KeptO s (execSwbManualTrigger n i v s) := by
  unfold execSwbManualTrigger
  repeat' (first
    | with_reducible exact Kept.rfl | with_reducible assumption | with_reducible apply State.writeRow_kept
    | with_reducible apply State.writeSwbCtrl_kept | with_reducible apply KeptO.next | with_reducible apply KeptO.ite
    | with_reducible refine Kept.of_snd (by assumption) ?_ | intro _ | dsimp only
    | fail_if_no_progress with_reducible apply Kept.mk' | split)

theorem State.swbFree_kept {z0 : State} (s : State) (n : Nat) (hz : Kept z0 s) : Kept z0 (State.swbFree s n) := by
  refine hz.trans ?_
  unfold State.swbFree
  repeat' (first
    | with_reducible exact Kept.rfl | with_reducible assumption | with_reducible apply State.onSwb_kept
    | with_reducible apply State.put_kept | with_reducible refine Kept.of_snd (by assumption) ?_ | intro _
    | dsimp only | fail_if_no_progress with_reducible apply Kept.mk' | split)

theorem State.swbFail_kept {z0 : State} (s : State) (n kind code : Nat) (hz : Kept z0 s) : Kept z0 (State.swbFail s n kind code) := by
  refine hz.trans ?_
  unfold State.swbFail
  repeat' (first
    | with_reducible exact Kept.rfl | with_reducible assumption | with_reducible apply State.bump_kept
    | with_reducible apply State.fault_kept | with_reducible apply State.onSwb_kept
    | with_reducible apply State.put_kept | with_reducible apply Kept.ite
    | with_reducible refine Kept.of_snd (by assumption) ?_ | intro _ | dsimp only
    | fail_if_no_progress with_reducible apply Kept.mk' | split)

theorem State.swbStore_kept {z0 : State} (s : State) (n kind : Nat) (serr : Bool) (pay : List Byte) (hz : Kept z0 s) : Kept z0 (State.swbStore s n kind serr pay) := by
  refine hz.trans ?_
  unfold State.swbStore
  repeat' (first
    | with_reducible exact Kept.rfl | with_reducible assumption | with_reducible apply State.bump_kept
    | with_reducible apply State.fresh_kept | with_reducible apply State.logHw_kept
    | with_reducible apply State.onSwb_kept | with_reducible apply State.put_kept
    | with_reducible apply State.put64_kept | with_reducible apply State.wrN_kept | with_reducible apply Kept.ite
    | with_reducible refine Kept.of_snd (by assumption) ?_ | intro _ | dsimp only
    | fail_if_no_progress with_reducible apply Kept.mk' | split)

theorem State.swbGood_kept {z0 : State} (s : State) (n : Nat) (serr : Bool) (hz : Kept z0 s) : Kept z0 (State.swbGood s n serr) := by
  refine hz.trans ?_
  unfold State.swbGood
  repeat' (first
    | with_reducible exact Kept.rfl | with_reducible assumption | with_reducible apply State.bump_kept
    | with_reducible apply State.endCond_kept | with_reducible apply State.onSwb_kept
    | with_reducible apply State.put_kept | with_reducible apply Kept.ite_else | with_reducible apply Kept.ite_then
    | with_reducible apply Kept.ite | with_reducible refine Kept.of_snd (by assumption) ?_ | intro _ | dsimp only
    | fail_if_no_progress with_reducible apply Kept.mk' | split)

theorem execSwbResponse_kept (n : Fin 2) (r : SwbReply) (s : State) : KeptO s (execSwbResponse n r s) := by
  unfold execSwbResponse
  repeat' (first
    | with_reducible exact Kept.rfl | with_reducible assumption | with_reducible apply State.drop_kept
    | with_reducible apply State.put_kept | with_reducible apply State.reach_kept
    | with_reducible apply State.swbFail_kept | with_reducible apply State.swbFree_kept
    | with_reducible apply State.swbGood_kept | with_reducible apply State.swbStore_kept
    | with_reducible apply State.wrN_kept | with_reducible apply KeptO.next | with_reducible apply KeptO.ite
    | with_reducible apply Kept.ite | with_reducible apply Kept.foldl
    | with_reducible refine Kept.of_snd (by assumption) ?_ | intro _ | dsimp only
    | fail_if_no_progress with_reducible apply Kept.mk' | split)

theorem execSwbResponseTimeout_kept (n : Fin 2) (s : State) : KeptO s (execSwbResponseTimeout n s) := by
  unfold execSwbResponseTimeout
  repeat' (first
    | with_reducible exact Kept.rfl | with_reducible assumption | with_reducible apply State.reach_kept
    | with_reducible apply State.swbFail_kept | with_reducible apply State.swbFree_kept
    | with_reducible apply KeptO.next | with_reducible apply KeptO.ite
    | with_reducible refine Kept.of_snd (by assumption) ?_ | intro _ | dsimp only
    | fail_if_no_progress with_reducible apply Kept.mk' | split)

theorem execSwbPowerError_kept (n : Fin 2) (s : State) : KeptO s (execSwbPowerError n s) := by
  unfold execSwbPowerError
  repeat' (first
    | with_reducible exact Kept.rfl | with_reducible assumption | with_reducible apply State.bump_kept
    | with_reducible apply State.followSwb_kept | with_reducible apply State.onSwb_kept
    | with_reducible apply State.put_kept | with_reducible apply State.swbFail_kept | with_reducible apply KeptO.next
    | with_reducible apply KeptO.ite | with_reducible apply Kept.ite_else | with_reducible apply Kept.ite_then
    | with_reducible apply Kept.ite | with_reducible refine Kept.of_snd (by assumption) ?_ | intro _ | dsimp only
    | fail_if_no_progress with_reducible apply Kept.mk' | split)

theorem execSwpPowerRetry_kept (n : Fin 2) (s : State) : KeptO s (execSwpPowerRetry n s) := by
  unfold execSwpPowerRetry
  repeat' (first
    | with_reducible exact Kept.rfl | with_reducible assumption | with_reducible apply State.followSwb_kept
    | with_reducible apply State.onSwb_kept | with_reducible apply State.reach_kept | with_reducible apply KeptO.next
    | with_reducible apply KeptO.ite | with_reducible refine Kept.of_snd (by assumption) ?_ | intro _ | dsimp only
    | fail_if_no_progress with_reducible apply Kept.mk' | split)

theorem execSwbPowerUp_kept (n : Fin 2) (s : State) : KeptO s (execSwbPowerUp n s) := by
  unfold execSwbPowerUp
  repeat' (first
    | with_reducible exact Kept.rfl | with_reducible assumption | with_reducible apply State.onSwb_kept
    | with_reducible apply State.put_kept | with_reducible apply State.reach_kept
    | with_reducible apply State.swbSend_kept | with_reducible apply KeptO.next | with_reducible apply KeptO.ite
    | with_reducible apply Kept.ite | with_reducible refine Kept.of_snd (by assumption) ?_ | intro _ | dsimp only
    | fail_if_no_progress with_reducible apply Kept.mk' | split)

theorem State.writeSwbCfg_kept {z0 : State} (s : State) (i : Initiator) (n v : Nat) (hz : Kept z0 s) : Kept z0 (State.writeSwbCfg s i n v) := by
  refine hz.trans ?_
  unfold State.writeSwbCfg
  repeat' (first
    | with_reducible exact Kept.rfl | with_reducible assumption | with_reducible apply State.followSwb_kept
    | with_reducible apply State.plainWrite_kept | with_reducible refine Kept.of_snd (by assumption) ?_ | intro _
    | dsimp only | fail_if_no_progress with_reducible apply Kept.mk' | split)

theorem execFlashTimeout_kept (s : State) : KeptO s (execFlashTimeout s) := by
  unfold execFlashTimeout
  repeat' (first
    | with_reducible exact Kept.rfl | with_reducible assumption | with_reducible apply State.afterSuspend_kept
    | with_reducible apply State.bump_kept | with_reducible apply State.fault_kept
    | with_reducible apply State.put_kept | with_reducible apply State.setUpd_kept | with_reducible apply KeptO.next
    | with_reducible apply KeptO.ite | with_reducible apply Kept.ite_else | with_reducible apply Kept.ite_then
    | with_reducible apply Kept.ite | with_reducible refine Kept.of_snd (by assumption) ?_ | intro _ | dsimp only
    | fail_if_no_progress with_reducible apply Kept.mk' | split)

theorem State.crcState_kept {z0 : State} (s : State) (u x : Nat) (hz : Kept z0 s) : Kept z0 (State.crcState s u x) := by
  refine hz.trans ?_
  unfold State.crcState
  repeat' (first
    | with_reducible exact Kept.rfl | with_reducible assumption | with_reducible apply State.wrN_kept
    | with_reducible refine Kept.of_snd (by assumption) ?_ | intro _ | dsimp only
    | fail_if_no_progress with_reducible apply Kept.mk' | split)

theorem State.crcByte_kept {z0 : State} (s : State) (u : Nat) (b : Byte) (hz : Kept z0 s) : Kept z0 (State.crcByte s u b) := by
  refine hz.trans ?_
  unfold State.crcByte
  repeat' (first
    | with_reducible exact Kept.rfl | with_reducible assumption | with_reducible apply State.crcState_kept
    | with_reducible apply State.wrN_kept | with_reducible apply Kept.ite_else | with_reducible apply Kept.ite_then
    | with_reducible apply Kept.ite | with_reducible refine Kept.of_snd (by assumption) ?_ | intro _ | dsimp only
    | fail_if_no_progress with_reducible apply Kept.mk' | split)

theorem State.crcHold_kept {z0 : State} (s : State) (u : Nat) (l : List Nat) (hz : Kept z0 s) : Kept z0 (State.crcHold s u l) := by
  refine hz.trans ?_
  unfold State.crcHold
  repeat' (first
    | with_reducible exact Kept.rfl | with_reducible assumption | with_reducible apply State.wrN_kept
    | with_reducible refine Kept.of_snd (by assumption) ?_ | intro _ | dsimp only
    | fail_if_no_progress with_reducible apply Kept.mk' | split)

theorem State.crcFeed_kept {z0 : State} (s : State) (u b : Nat) (hz : Kept z0 s) : Kept z0 (State.crcFeed s u b) := by
  refine hz.trans ?_
  unfold State.crcFeed
  repeat' (first
    | with_reducible exact Kept.rfl | with_reducible assumption | with_reducible apply State.crcByte_kept
    | with_reducible apply State.crcHold_kept | with_reducible apply State.drop_kept | with_reducible apply Kept.ite
    | with_reducible refine Kept.of_snd (by assumption) ?_ | intro _ | dsimp only
    | fail_if_no_progress with_reducible apply Kept.mk' | split)

theorem State.byOwner_kept {z0 : State} (s : State) (i : Initiator) (u a : Nat) (act : State → State) (hz : Kept z0 s) (hact : ∀ t, Kept t (act t)) : Kept z0 (State.byOwner s i u a act) := by
  refine hz.trans ?_
  unfold State.byOwner
  repeat' (first
    | with_reducible exact Kept.rfl | with_reducible assumption | with_reducible refine Kept.trans ?_ (hact _)
    | with_reducible apply State.refuseRight_kept | with_reducible apply Kept.ite
    | with_reducible refine Kept.of_snd (by assumption) ?_ | intro _ | dsimp only
    | fail_if_no_progress with_reducible apply Kept.mk' | split)

theorem State.crcStart_kept {z0 : State} (s : State) (u : Nat) (hz : Kept z0 s) : Kept z0 (State.crcStart s u) := by
  refine hz.trans ?_
  unfold State.crcStart
  repeat' (first
    | with_reducible exact Kept.rfl | with_reducible assumption | with_reducible apply State.crcHold_kept
    | with_reducible apply State.crcState_kept | with_reducible apply State.put_kept
    | with_reducible apply State.wrN_kept | with_reducible refine Kept.of_snd (by assumption) ?_ | intro _
    | dsimp only | fail_if_no_progress with_reducible apply Kept.mk' | split)

theorem State.crcEnd_kept {z0 : State} (s : State) (u : Nat) (hz : Kept z0 s) : Kept z0 (State.crcEnd s u) := by
  refine hz.trans ?_
  unfold State.crcEnd
  repeat' (first
    | with_reducible exact Kept.rfl | with_reducible assumption | with_reducible apply State.bump_kept
    | with_reducible apply State.put_kept | with_reducible apply State.putB_kept | with_reducible apply Kept.ite
    | with_reducible refine Kept.of_snd (by assumption) ?_ | intro _ | dsimp only
    | fail_if_no_progress with_reducible apply Kept.mk' | split)

theorem State.writeCrcCtrl_kept {z0 : State} (s : State) (u : Nat) (i : Initiator) (v : Nat) (hz : Kept z0 s) : Kept z0 (State.writeCrcCtrl s u i v) := by
  refine hz.trans ?_
  unfold State.writeCrcCtrl
  repeat' (first
    | with_reducible exact Kept.rfl | with_reducible assumption | with_reducible apply State.byOwner_kept
    | with_reducible apply State.crcEnd_kept | with_reducible apply State.crcStart_kept
    | with_reducible apply State.plainWrite_kept | with_reducible apply State.put_kept
    | with_reducible apply Kept.ite_else | with_reducible apply Kept.ite_then | with_reducible apply Kept.ite
    | with_reducible refine Kept.of_snd (by assumption) ?_ | intro _ | dsimp only
    | fail_if_no_progress with_reducible apply Kept.mk' | split)

theorem State.writeCrcData_kept {z0 : State} (s : State) (u : Nat) (i : Initiator) (v n : Nat) (hz : Kept z0 s) : Kept z0 (State.writeCrcData s u i v n) := by
  refine hz.trans ?_
  unfold State.writeCrcData
  repeat' (first
    | with_reducible exact Kept.rfl | with_reducible assumption | with_reducible apply State.byOwner_kept
    | with_reducible apply State.crcFeed_kept | with_reducible apply Kept.foldl
    | with_reducible refine Kept.of_snd (by assumption) ?_ | intro _ | dsimp only
    | fail_if_no_progress with_reducible apply Kept.mk' | split)

theorem State.writeCrcState_kept {z0 : State} (s : State) (u : Nat) (i : Initiator) (v : Nat) (hz : Kept z0 s) : Kept z0 (State.writeCrcState s u i v) := by
  refine hz.trans ?_
  unfold State.writeCrcState
  repeat' (first
    | with_reducible exact Kept.rfl | with_reducible assumption | with_reducible apply State.byOwner_kept
    | with_reducible apply State.crcState_kept | with_reducible refine Kept.of_snd (by assumption) ?_ | intro _
    | dsimp only | fail_if_no_progress with_reducible apply Kept.mk' | split)

theorem execCrcStart_kept (u : Fin 4) (i : Initiator) (v : Word) (s : State) : KeptO s (execCrcStart u i v s) := by
  unfold execCrcStart
  repeat' (first
    | with_reducible exact Kept.rfl | with_reducible assumption | with_reducible apply State.writeCrcCtrl_kept
    | with_reducible apply State.writeRow_kept | with_reducible apply KeptO.next | with_reducible apply KeptO.ite
    | with_reducible refine Kept.of_snd (by assumption) ?_ | intro _ | dsimp only
    | fail_if_no_progress with_reducible apply Kept.mk' | split)

theorem execCrcData_kept (u : Fin 4) (i : Initiator) (v : Word) (size : Fin 3) (s : State) : KeptO s (execCrcData u i v size s) := by
  unfold execCrcData
  repeat' (first
    | with_reducible exact Kept.rfl | with_reducible assumption | with_reducible apply State.writeCrcData_kept
    | with_reducible apply State.writeRow_kept | with_reducible apply KeptO.next | with_reducible apply KeptO.ite
    | with_reducible refine Kept.of_snd (by assumption) ?_ | intro _ | dsimp only
    | fail_if_no_progress with_reducible apply Kept.mk' | split)

theorem execCrcEnd_kept (u : Fin 4) (i : Initiator) (v : Word) (s : State) : KeptO s (execCrcEnd u i v s) := by
  unfold execCrcEnd
  repeat' (first
    | with_reducible exact Kept.rfl | with_reducible assumption | with_reducible apply State.writeCrcCtrl_kept
    | with_reducible apply State.writeRow_kept | with_reducible apply KeptO.next | with_reducible apply KeptO.ite
    | with_reducible refine Kept.of_snd (by assumption) ?_ | intro _ | dsimp only
    | fail_if_no_progress with_reducible apply Kept.mk' | split)

theorem execCrcClaim_kept (u : Fin 4) (i : Initiator) (v : Word) (s : State) : KeptO s (execCrcClaim u i v s) := by
  unfold execCrcClaim
  repeat' (first
    | with_reducible exact Kept.rfl | with_reducible assumption | with_reducible apply State.writeCrcCtrl_kept
    | with_reducible apply State.writeRow_kept | with_reducible apply KeptO.next | with_reducible apply KeptO.ite
    | with_reducible refine Kept.of_snd (by assumption) ?_ | intro _ | dsimp only
    | fail_if_no_progress with_reducible apply Kept.mk' | split)

theorem execCrcRelease_kept (u : Fin 4) (i : Initiator) (v : Word) (s : State) : KeptO s (execCrcRelease u i v s) := by
  unfold execCrcRelease
  repeat' (first
    | with_reducible exact Kept.rfl | with_reducible assumption | with_reducible apply State.writeCrcCtrl_kept
    | with_reducible apply State.writeRow_kept | with_reducible apply KeptO.next | with_reducible apply KeptO.ite
    | with_reducible refine Kept.of_snd (by assumption) ?_ | intro _ | dsimp only
    | fail_if_no_progress with_reducible apply Kept.mk' | split)

theorem execCrcStateWrite_kept (u : Fin 4) (i : Initiator) (v : Word) (s : State) : KeptO s (execCrcStateWrite u i v s) := by
  unfold execCrcStateWrite
  repeat' (first
    | with_reducible exact Kept.rfl | with_reducible assumption | with_reducible apply State.writeCrcState_kept
    | with_reducible apply State.writeRow_kept | with_reducible apply KeptO.next | with_reducible apply KeptO.ite
    | with_reducible refine Kept.of_snd (by assumption) ?_ | intro _ | dsimp only
    | fail_if_no_progress with_reducible apply Kept.mk' | split)

end Sys2Proof.Machine
end

