-- ==== Sys2Proof/Laws/KeptFaultForce.lean ====
section
/-! SUPPORT. Every operation of Machine/FaultForce.lean keeps what `Kept` says. -/

set_option linter.unusedTactic false
set_option linter.unreachableTactic false
set_option linter.unusedVariables false

namespace Sys2Proof.Machine

set_option Elab.async false

theorem State.forcedDetail_kept {z0 : State} (s : State) (src code inst : Nat) (hz : Kept z0 s) : Kept z0 (State.forcedDetail s src code inst).2 := by
  refine hz.trans ?_
  unfold State.forcedDetail
  repeat' (first
    | with_reducible exact Kept.rfl | with_reducible assumption | with_reducible apply State.fresh_kept
    | with_reducible apply Kept.ite_else | with_reducible apply Kept.ite_then | with_reducible apply Kept.ite
    | with_reducible apply Kept.pair_ite | with_reducible refine Kept.of_snd (by assumption) ?_ | intro _ | dsimp only
    | fail_if_no_progress with_reducible apply Kept.mk' | split)

theorem State.forcedAccess_kept {z0 : State} (s : State) (code inst : Nat) (hz : Kept z0 s) : Kept z0 (State.forcedAccess s code inst).2 := by
  refine hz.trans ?_
  unfold State.forcedAccess
  repeat' (first
    | with_reducible exact Kept.rfl | with_reducible assumption | with_reducible apply State.fresh_kept
    | with_reducible apply Kept.ite_else | with_reducible apply Kept.ite_then | with_reducible apply Kept.ite
    | with_reducible apply Kept.pair_ite | with_reducible refine Kept.of_snd (by assumption) ?_ | intro _ | dsimp only
    | fail_if_no_progress with_reducible apply Kept.mk' | split)

theorem State.forceFence_kept {z0 : State} (s : State) (src code e st : Nat) (slot : Option Nat) (hz : Kept z0 s) : Kept z0 (State.forceFence s src code e st slot) := by
  refine hz.trans ?_
  unfold State.forceFence
  repeat' (first
    | with_reducible exact Kept.rfl | with_reducible assumption | with_reducible apply State.openShadow_kept
    | with_reducible apply State.stopEngine_kept | with_reducible apply State.stopPhases_kept
    | with_reducible refine Kept.of_snd (by assumption) ?_ | intro _ | dsimp only
    | fail_if_no_progress with_reducible apply Kept.mk' | split)

theorem State.forceEngine_kept {z0 : State} (s : State) (src code e : Nat) (slot : Option Nat) (hz : Kept z0 s) : Kept z0 (State.forceEngine s src code e slot) := by
  refine hz.trans ?_
  unfold State.forceEngine
  repeat' (first
    | with_reducible exact Kept.rfl | with_reducible assumption | with_reducible apply State.abandon_kept
    | with_reducible apply State.forceFence_kept | with_reducible apply State.putBit_kept
    | with_reducible apply Kept.ite | with_reducible refine Kept.of_snd (by assumption) ?_ | intro _ | dsimp only
    | fail_if_no_progress with_reducible apply Kept.mk' | split)

theorem State.forceDemand_kept {z0 : State} (s : State) (src code inst : Nat) (hz : Kept z0 s) : Kept z0 (State.forceDemand s src code inst) := by
  refine hz.trans ?_
  unfold State.forceDemand
  repeat' (first
    | with_reducible exact Kept.rfl | with_reducible assumption | with_reducible apply State.lockoutEnter_kept
    | with_reducible apply State.raiseSrc_kept | with_reducible apply Kept.ite
    | with_reducible refine Kept.of_snd (by assumption) ?_ | intro _ | dsimp only
    | fail_if_no_progress with_reducible apply Kept.mk' | split)

theorem State.forceFallback_kept {z0 : State} (s : State) (inst : Nat) (hz : Kept z0 s) : Kept z0 (State.forceFallback s inst) := by
  refine hz.trans ?_
  unfold State.forceFallback
  repeat' (first
    | with_reducible exact Kept.rfl | with_reducible assumption | with_reducible apply State.askSwitch_kept
    | with_reducible apply State.put64_kept | with_reducible apply Kept.ite_else | with_reducible apply Kept.ite_then
    | with_reducible apply Kept.ite | with_reducible refine Kept.of_snd (by assumption) ?_ | intro _ | dsimp only
    | fail_if_no_progress with_reducible apply Kept.mk' | split)

theorem State.invalidate_kept {z0 : State} (s : State) (i : Nat) (hz : Kept z0 s) : Kept z0 (State.invalidate s i) := by
  refine hz.trans ?_
  unfold State.invalidate
  repeat' (first
    | with_reducible exact Kept.rfl | with_reducible assumption | with_reducible apply State.drop_kept
    | with_reducible apply State.put_kept | with_reducible apply Kept.ite_else | with_reducible apply Kept.ite_then
    | with_reducible apply Kept.ite | with_reducible refine Kept.of_snd (by assumption) ?_ | intro _ | dsimp only
    | fail_if_no_progress with_reducible apply Kept.mk' | split)

theorem State.forceTick_kept {z0 : State} (s : State) (code : Nat) (hz : Kept z0 s) : Kept z0 (State.forceTick s code) := by
  refine hz.trans ?_
  unfold State.forceTick
  repeat' (first
    | with_reducible exact Kept.rfl | with_reducible assumption | with_reducible apply State.put_kept
    | with_reducible apply Kept.ite | with_reducible refine Kept.of_snd (by assumption) ?_ | intro _ | dsimp only
    | fail_if_no_progress with_reducible apply Kept.mk' | split)

theorem State.forceSensor_kept {z0 : State} (s : State) (d : Nat) (hz : Kept z0 s) : Kept z0 (State.forceSensor s d) := by
  refine hz.trans ?_
  unfold State.forceSensor
  repeat' (first
    | with_reducible exact Kept.rfl | with_reducible assumption | with_reducible apply State.sensorFailed_kept
    | with_reducible apply Kept.ite_else | with_reducible apply Kept.ite_then | with_reducible apply Kept.ite
    | with_reducible refine Kept.of_snd (by assumption) ?_ | intro _ | dsimp only
    | fail_if_no_progress with_reducible apply Kept.mk' | split)

theorem State.forceReact_kept {z0 : State} (s : State) (src code inst : Nat) (slot : Option Nat) (hz : Kept z0 s) : Kept z0 (State.forceReact s src code inst slot) := by
  refine hz.trans ?_
  unfold State.forceReact
  repeat' (first
    | with_reducible exact Kept.rfl | with_reducible assumption | with_reducible apply State.factoryTrims_kept
    | with_reducible apply State.fencePhase_kept | with_reducible apply State.forceDemand_kept
    | with_reducible apply State.forceEngine_kept | with_reducible apply State.forceFallback_kept
    | with_reducible apply State.forceSensor_kept | with_reducible apply State.forceTick_kept
    | with_reducible apply State.fresh_kept | with_reducible apply State.holdOff_kept
    | with_reducible apply State.invalidate_kept | with_reducible apply State.leaveHarbour_kept
    | with_reducible apply State.linkDown_kept | with_reducible apply State.openShadow_kept
    | with_reducible apply State.showVaux_kept | with_reducible apply State.updClose_kept
    | with_reducible apply Kept.ite | with_reducible refine Kept.of_snd (by assumption) ?_ | intro _ | dsimp only
    | fail_if_no_progress with_reducible apply Kept.mk' | split)

theorem State.forceOne_kept {z0 : State} (s : State) (src : Nat) (hz : Kept z0 s) : Kept z0 (State.forceOne s src) := by
  refine hz.trans ?_
  unfold State.forceOne
  repeat' (first
    | with_reducible exact Kept.rfl | with_reducible assumption | with_reducible apply State.collect_kept
    | with_reducible apply State.forceReact_kept | with_reducible apply State.forcedAccess_kept
    | with_reducible apply State.forcedDetail_kept | with_reducible apply Kept.ite_else
    | with_reducible apply Kept.ite_then | with_reducible apply Kept.ite
    | with_reducible refine Kept.of_snd (by assumption) ?_ | intro _ | dsimp only
    | fail_if_no_progress with_reducible apply Kept.mk' | split)

theorem State.writeForce_kept {z0 : State} (s : State) (i : Initiator) (v : Nat) (hz : Kept z0 s) : Kept z0 (State.writeForce s i v) := by
  refine hz.trans ?_
  unfold State.writeForce
  repeat' (first
    | with_reducible exact Kept.rfl | with_reducible assumption | with_reducible apply State.forceOne_kept
    | with_reducible apply State.refuseAccess_kept | with_reducible apply State.refuseRight_kept
    | with_reducible apply Kept.ite | with_reducible apply Kept.foldl
    | with_reducible refine Kept.of_snd (by assumption) ?_ | intro _ | dsimp only
    | fail_if_no_progress with_reducible apply Kept.mk' | split)

theorem execFaultForce_kept (i : Initiator) (v : Word) (s : State) : KeptO s (execFaultForce i v s) := by
  unfold execFaultForce
  repeat' (first
    | with_reducible exact Kept.rfl | with_reducible assumption | with_reducible apply State.writeForce_kept
    | with_reducible apply State.writeRow_kept | with_reducible apply KeptO.next | with_reducible apply KeptO.ite
    | with_reducible refine Kept.of_snd (by assumption) ?_ | intro _ | dsimp only
    | fail_if_no_progress with_reducible apply Kept.mk' | split)

end Sys2Proof.Machine
end

