-- ==== Sys2Proof/Laws/KeptFaultCmds.lean ====
section
/-! SUPPORT. Every operation of Machine/FaultCmds.lean keeps what `Kept` says. -/

set_option linter.unusedTactic false
set_option linter.unreachableTactic false
set_option linter.unusedVariables false

namespace Sys2Proof.Machine

set_option Elab.async false

theorem State.endFatals_kept {z0 : State} (s : State) (hz : Kept z0 s) : Kept z0 (State.endFatals s) := by
  refine hz.trans ?_
  unfold State.endFatals
  repeat' (first
    | with_reducible exact Kept.rfl | with_reducible assumption | with_reducible apply State.beginRestart_kept
    | with_reducible apply State.put_kept | with_reducible apply State.putBit_kept
    | with_reducible apply Kept.ite_else | with_reducible apply Kept.ite_then | with_reducible apply Kept.ite
    | with_reducible apply Kept.foldl | with_reducible refine Kept.of_snd (by assumption) ?_ | intro _ | dsimp only
    | fail_if_no_progress with_reducible apply Kept.mk' | split)

theorem State.ackFatal_kept {z0 : State} (s : State) (hz : Kept z0 s) : Kept z0 (State.ackFatal s) := by
  refine hz.trans ?_
  unfold State.ackFatal
  repeat' (first
    | with_reducible exact Kept.rfl | with_reducible assumption | with_reducible apply State.endFatals_kept
    | with_reducible apply State.fresh_kept | with_reducible apply State.notify_kept
    | with_reducible apply State.put_kept | with_reducible apply Kept.ite
    | with_reducible refine Kept.of_snd (by assumption) ?_ | intro _ | dsimp only
    | fail_if_no_progress with_reducible apply Kept.mk' | split)

theorem State.freeEntry_kept {z0 : State} (s : State) (i : Nat) (hz : Kept z0 s) : Kept z0 (State.freeEntry s i) := by
  refine hz.trans ?_
  unfold State.freeEntry
  repeat' (first
    | with_reducible exact Kept.rfl | with_reducible assumption | with_reducible apply State.notify_kept
    | with_reducible apply State.put_kept | with_reducible refine Kept.of_snd (by assumption) ?_ | intro _
    | dsimp only | fail_if_no_progress with_reducible apply Kept.mk' | split)

theorem State.ackSource_kept {z0 : State} (s : State) (k : Nat) (hz : Kept z0 s) : Kept z0 (State.ackSource s k) := by
  refine hz.trans ?_
  unfold State.ackSource
  repeat' (first
    | with_reducible exact Kept.rfl | with_reducible assumption | with_reducible apply State.freeEntry_kept
    | with_reducible apply State.putBit_kept | with_reducible apply Kept.ite | with_reducible apply Kept.foldl
    | with_reducible refine Kept.of_snd (by assumption) ?_ | intro _ | dsimp only
    | fail_if_no_progress with_reducible apply Kept.mk' | split)

theorem State.writeAck_kept {z0 : State} (s : State) (i : Initiator) (v : Nat) (hz : Kept z0 s) : Kept z0 (State.writeAck s i v) := by
  refine hz.trans ?_
  unfold State.writeAck
  repeat' (first
    | with_reducible exact Kept.rfl | with_reducible assumption | with_reducible apply State.ackFatal_kept
    | with_reducible apply State.ackSource_kept | with_reducible apply State.ifPrivileged_kept
    | with_reducible apply Kept.ite_else | with_reducible apply Kept.ite_then | with_reducible apply Kept.ite
    | with_reducible apply Kept.foldl | with_reducible refine Kept.of_snd (by assumption) ?_ | intro _ | dsimp only
    | fail_if_no_progress with_reducible apply Kept.mk' | split)

theorem State.writeFbInfo_kept {z0 : State} (s : State) (i : Initiator) (v : Nat) (hz : Kept z0 s) : Kept z0 (State.writeFbInfo s i v) := by
  refine hz.trans ?_
  unfold State.writeFbInfo
  repeat' (first
    | with_reducible exact Kept.rfl | with_reducible assumption | with_reducible apply State.plainWrite_kept
    | with_reducible apply State.put_kept | with_reducible apply Kept.ite
    | with_reducible refine Kept.of_snd (by assumption) ?_ | intro _ | dsimp only
    | fail_if_no_progress with_reducible apply Kept.mk' | split)

theorem State.releaseFor_kept {z0 : State} (s : State) (f : Standing) (bus : Vector (BitVec 16) 8) (hz : Kept z0 s) : Kept z0 (State.releaseFor s f bus) := by
  refine hz.trans ?_
  unfold State.releaseFor
  repeat' (first
    | with_reducible exact Kept.rfl | with_reducible assumption | with_reducible apply State.beginRestart_kept
    | with_reducible apply State.onEng_kept | with_reducible apply State.putBit_kept
    | with_reducible apply State.releasePhase_kept | with_reducible apply State.restartEngine_kept
    | with_reducible apply Kept.ite | with_reducible refine Kept.of_snd (by assumption) ?_ | intro _ | dsimp only
    | fail_if_no_progress with_reducible apply Kept.mk' | split)

theorem State.takeUpset_kept {z0 : State} (s : State) (u : Nat × Word) (hz : Kept z0 s) : Kept z0 (State.takeUpset s u) := by
  refine hz.trans ?_
  unfold State.takeUpset
  repeat' (first
    | with_reducible exact Kept.rfl | with_reducible assumption | with_reducible apply State.wr_kept
    | with_reducible apply Kept.ite | with_reducible refine Kept.of_snd (by assumption) ?_ | intro _ | dsimp only
    | fail_if_no_progress with_reducible apply Kept.mk' | split)

theorem execConfigIntegrityCheck_kept (upsets : List (Nat × Word)) (s : State) : KeptO s (execConfigIntegrityCheck upsets s) := by
  unfold execConfigIntegrityCheck
  repeat' (first
    | with_reducible exact Kept.rfl | with_reducible assumption | with_reducible apply State.fault_kept
    | with_reducible apply State.reach_kept | with_reducible apply State.takeUpset_kept
    | with_reducible apply KeptO.next | with_reducible apply KeptO.ite | with_reducible apply Kept.getD
    | with_reducible apply Kept.foldl | with_reducible refine Kept.of_snd (by assumption) ?_ | intro _ | dsimp only
    | fail_if_no_progress with_reducible apply Kept.mk' | split)

theorem execOtpMirrorCheck_kept (reread : List (Nat × Word)) (s : State) : KeptO s (execOtpMirrorCheck reread s) := by
  unfold execOtpMirrorCheck
  repeat' (first
    | with_reducible exact Kept.rfl | with_reducible assumption | with_reducible apply State.fault_kept
    | with_reducible apply State.reach_kept | with_reducible apply KeptO.next | with_reducible apply KeptO.ite
    | with_reducible apply Kept.ite_else | with_reducible apply Kept.ite_then | with_reducible apply Kept.ite
    | with_reducible apply Kept.getD | with_reducible apply Kept.foldl
    | with_reducible refine Kept.of_snd (by assumption) ?_ | intro _ | dsimp only
    | fail_if_no_progress with_reducible apply Kept.mk' | split)

theorem execFaultAck_kept (i : Initiator) (v : Word) (s : State) : KeptO s (execFaultAck i v s) := by
  unfold execFaultAck
  repeat' (first
    | with_reducible exact Kept.rfl | with_reducible assumption | with_reducible apply State.writeAck_kept
    | with_reducible apply State.writeRow_kept | with_reducible apply KeptO.next | with_reducible apply KeptO.ite
    | with_reducible refine Kept.of_snd (by assumption) ?_ | intro _ | dsimp only
    | fail_if_no_progress with_reducible apply Kept.mk' | split)

theorem execFatalAck_kept (i : Initiator) (v : Word) (s : State) : KeptO s (execFatalAck i v s) := by
  unfold execFatalAck
  repeat' (first
    | with_reducible exact Kept.rfl | with_reducible assumption | with_reducible apply State.writeAck_kept
    | with_reducible apply State.writeRow_kept | with_reducible apply KeptO.next | with_reducible apply KeptO.ite
    | with_reducible refine Kept.of_snd (by assumption) ?_ | intro _ | dsimp only
    | fail_if_no_progress with_reducible apply Kept.mk' | split)

theorem execFaultRecovery_kept (src : Fin 16) (code inst : Byte) (bus : Vector (BitVec 16) 8) (s : State) : KeptO s (execFaultRecovery src code inst bus s) := by
  unfold execFaultRecovery
  repeat' (first
    | with_reducible exact Kept.rfl | with_reducible assumption | with_reducible apply State.reach_kept
    | with_reducible apply State.recover_kept | with_reducible apply State.releaseFor_kept
    | with_reducible apply KeptO.next | with_reducible apply KeptO.ite
    | with_reducible refine Kept.of_snd (by assumption) ?_ | intro _ | dsimp only
    | fail_if_no_progress with_reducible apply Kept.mk' | split)

theorem execShadowWindowClose_kept (s : State) : KeptO s (execShadowWindowClose s) := by
  unfold execShadowWindowClose
  repeat' (first
    | with_reducible exact Kept.rfl | with_reducible assumption | with_reducible apply State.reach_kept
    | with_reducible apply KeptO.next | with_reducible apply KeptO.ite | with_reducible apply Kept.foldl
    | with_reducible refine Kept.of_snd (by assumption) ?_ | intro _ | dsimp only
    | fail_if_no_progress with_reducible apply Kept.mk' | split)

end Sys2Proof.Machine
end

