-- ==== Sys2Proof/Laws/KeptBus.lean ====
section
/-! SUPPORT. Every operation of Machine/Bus.lean keeps what `Kept` says. -/

set_option linter.unusedTactic false
set_option linter.unreachableTactic false
set_option linter.unusedVariables false

namespace Sys2Proof.Machine

set_option Elab.async false

theorem State.actCrc_kept {z0 : State} (s : State) (i : Initiator) (a : Nat) (v : Word) (hz : Kept z0 s) : Kept z0 (State.actCrc s i a v) := by
  refine hz.trans ?_
  unfold State.actCrc
  repeat' (first
    | with_reducible exact Kept.rfl | with_reducible assumption | with_reducible apply State.plainWrite_kept
    | with_reducible apply State.writeCrcCtrl_kept | with_reducible apply State.writeCrcData_kept
    | with_reducible apply State.writeCrcState_kept | with_reducible refine Kept.of_snd (by assumption) ?_ | intro _
    | dsimp only | fail_if_no_progress with_reducible apply Kept.mk' | split)

theorem State.actLocal_kept {z0 : State} (s : State) (i : Initiator) (a : Nat) (v : Word) (hz : Kept z0 s) : Kept z0 (State.actLocal s i a v) := by
  refine hz.trans ?_
  unfold State.actLocal
  repeat' (first
    | with_reducible exact Kept.rfl | with_reducible assumption | with_reducible apply State.actCrc_kept
    | with_reducible apply State.writeLogWr_kept | with_reducible apply State.writeSwbCfg_kept
    | with_reducible apply State.writeSwbCtrl_kept | with_reducible refine Kept.of_snd (by assumption) ?_ | intro _
    | dsimp only | fail_if_no_progress with_reducible apply Kept.mk' | split)

theorem State.actMgt_kept {z0 : State} (s : State) (i : Initiator) (a : Nat) (v : Word) (hz : Kept z0 s) : Kept z0 (State.actMgt s i a v) := by
  refine hz.trans ?_
  unfold State.actMgt
  repeat' (first
    | with_reducible exact Kept.rfl | with_reducible assumption | with_reducible apply State.actLocal_kept
    | with_reducible apply State.fresh_kept | with_reducible apply State.ifPrivileged_kept
    | with_reducible apply State.plainWrite_kept | with_reducible apply State.writeCalCtrl_kept
    | with_reducible apply State.writeCfgSwitch_kept | with_reducible apply State.writeLogPost_kept
    | with_reducible apply State.writeModeKey_kept | with_reducible apply State.writeModeReq_kept
    | with_reducible apply State.writeNotifySend_kept | with_reducible apply State.writeOtpCtrl_kept
    | with_reducible apply State.writeOtpKey_kept | with_reducible apply State.writeSlotCtrl_kept
    | with_reducible apply State.writeSwrst_kept | with_reducible apply State.writeUpdCtrl_kept
    | with_reducible apply Kept.ite | with_reducible refine Kept.of_snd (by assumption) ?_ | intro _ | dsimp only
    | fail_if_no_progress with_reducible apply Kept.mk' | split)

theorem State.actCell_kept {z0 : State} (s : State) (i : Initiator) (a : Nat) (v : Word) (hz : Kept z0 s) : Kept z0 (State.actCell s i a v) := by
  refine hz.trans ?_
  unfold State.actCell
  repeat' (first
    | with_reducible exact Kept.rfl | with_reducible assumption | with_reducible apply State.plainWrite_kept
    | with_reducible apply State.writeCmfTest_kept | with_reducible apply State.writeImpCtrl_kept
    | with_reducible apply State.writeImpPlan_kept | with_reducible apply State.writeImpStat_kept
    | with_reducible apply State.writeQctrl_kept | with_reducible apply Kept.ite
    | with_reducible refine Kept.of_snd (by assumption) ?_ | intro _ | dsimp only
    | fail_if_no_progress with_reducible apply Kept.mk' | split)

theorem State.actBal_kept {z0 : State} (s : State) (i : Initiator) (a : Nat) (v : Word) (hz : Kept z0 s) : Kept z0 (State.actBal s i a v) := by
  refine hz.trans ?_
  unfold State.actBal
  repeat' (first
    | with_reducible exact Kept.rfl | with_reducible assumption | with_reducible apply State.ferryRefresh_kept
    | with_reducible apply State.plainWrite_kept | with_reducible apply State.writePhaseTest_kept
    | with_reducible apply State.writeTarget_kept | with_reducible apply Kept.ite
    | with_reducible refine Kept.of_snd (by assumption) ?_ | intro _ | dsimp only
    | fail_if_no_progress with_reducible apply Kept.mk' | split)

theorem State.actPsf_kept {z0 : State} (s : State) (i : Initiator) (a : Nat) (v : Word) (hz : Kept z0 s) : Kept z0 (State.actPsf s i a v) := by
  refine hz.trans ?_
  unfold State.actPsf
  repeat' (first
    | with_reducible exact Kept.rfl | with_reducible assumption | with_reducible apply State.clearDemands_kept
    | with_reducible apply State.clearTrip_kept | with_reducible apply State.countCway_kept
    | with_reducible apply State.fresh_kept | with_reducible apply State.ifPrivileged_kept
    | with_reducible apply State.plainWrite_kept | with_reducible apply State.rebaseCopies_kept
    | with_reducible apply State.writeArm_kept | with_reducible apply State.writeKey_kept
    | with_reducible apply State.writeOffreq_kept | with_reducible apply State.writeOutCmd_kept
    | with_reducible apply Kept.ite | with_reducible refine Kept.of_snd (by assumption) ?_ | intro _ | dsimp only
    | fail_if_no_progress with_reducible apply Kept.mk' | split)

theorem State.actFab_kept {z0 : State} (s : State) (i : Initiator) (a : Nat) (v : Word) (hz : Kept z0 s) : Kept z0 (State.actFab s i a v) := by
  refine hz.trans ?_
  unfold State.actFab
  repeat' (first
    | with_reducible exact Kept.rfl | with_reducible assumption | with_reducible apply State.plainWrite_kept
    | with_reducible apply State.writeFabCtrl_kept | with_reducible apply State.writeNetCtrl_kept
    | with_reducible apply State.writePortCfg_kept | with_reducible apply State.writePortCtrl_kept
    | with_reducible apply State.writePortTest_kept | with_reducible apply State.writeRasCtrl_kept
    | with_reducible apply Kept.ite | with_reducible refine Kept.of_snd (by assumption) ?_ | intro _ | dsimp only
    | fail_if_no_progress with_reducible apply Kept.mk' | split)

theorem State.actEngine_kept {z0 : State} (s : State) (i : Initiator) (e a : Nat) (v : Word) (hz : Kept z0 s) : Kept z0 (State.actEngine s i e a v) := by
  refine hz.trans ?_
  unfold State.actEngine
  repeat' (first
    | with_reducible exact Kept.rfl | with_reducible assumption | with_reducible apply State.plainWrite_kept
    | with_reducible apply State.popMail_kept | with_reducible apply State.syncEng_kept
    | with_reducible apply State.writeEngCtrl_kept | with_reducible apply State.writeEngDbg_kept
    | with_reducible apply State.writeTxHdr_kept | with_reducible apply State.writeTxPay_kept
    | with_reducible apply Kept.ite | with_reducible refine Kept.of_snd (by assumption) ?_ | intro _ | dsimp only
    | fail_if_no_progress with_reducible apply Kept.mk' | split)

theorem State.actEng_kept {z0 : State} (s : State) (i : Initiator) (a : Nat) (v : Word) (hz : Kept z0 s) : Kept z0 (State.actEng s i a v) := by
  refine hz.trans ?_
  unfold State.actEng
  repeat' (first
    | with_reducible exact Kept.rfl | with_reducible assumption | with_reducible apply State.actEngine_kept
    | with_reducible apply State.plainWrite_kept | with_reducible apply State.writeEngRestart_kept
    | with_reducible apply State.writeEngUpd_kept | with_reducible apply State.writeSem_kept
    | with_reducible apply Kept.ite | with_reducible refine Kept.of_snd (by assumption) ?_ | intro _ | dsimp only
    | fail_if_no_progress with_reducible apply Kept.mk' | split)

theorem State.actFcr_kept {z0 : State} (s : State) (i : Initiator) (a : Nat) (v : Word) (hz : Kept z0 s) : Kept z0 (State.actFcr s i a v) := by
  refine hz.trans ?_
  unfold State.actFcr
  repeat' (first
    | with_reducible exact Kept.rfl | with_reducible assumption | with_reducible apply State.plainWrite_kept
    | with_reducible apply State.writeAck_kept | with_reducible apply State.writeFbInfo_kept
    | with_reducible apply State.writeForce_kept | with_reducible apply Kept.ite
    | with_reducible refine Kept.of_snd (by assumption) ?_ | intro _ | dsimp only
    | fail_if_no_progress with_reducible apply Kept.mk' | split)

theorem State.act_kept {z0 : State} (s : State) (i : Initiator) (a : Nat) (v : Word) (hz : Kept z0 s) : Kept z0 (State.act s i a v) := by
  refine hz.trans ?_
  unfold State.act
  repeat' (first
    | with_reducible exact Kept.rfl | with_reducible assumption | with_reducible apply State.actBal_kept
    | with_reducible apply State.actCell_kept | with_reducible apply State.actEng_kept
    | with_reducible apply State.actFab_kept | with_reducible apply State.actFcr_kept
    | with_reducible apply State.actMgt_kept | with_reducible apply State.actPsf_kept
    | with_reducible apply State.fresh_kept | with_reducible apply State.plainWrite_kept
    | with_reducible apply State.writeLtCtrl_kept | with_reducible apply State.writeLtKey_kept
    | with_reducible apply State.writeThrCtrl_kept | with_reducible apply State.writeTmgCtrl_kept
    | with_reducible apply Kept.ite | with_reducible refine Kept.of_snd (by assumption) ?_ | intro _ | dsimp only
    | fail_if_no_progress with_reducible apply Kept.mk' | split)

theorem State.memWrite_kept {z0 : State} (s : State) (i : Initiator) (pa : Nat) (v : Word) (hz : Kept z0 s) : Kept z0 (State.memWrite s i pa v) := by
  refine hz.trans ?_
  unfold State.memWrite
  repeat' (first
    | with_reducible exact Kept.rfl | with_reducible assumption | with_reducible apply State.memPutWord_kept
    | with_reducible apply State.sealIdentity_kept | with_reducible apply State.stage_kept
    | with_reducible apply State.unverify_kept | with_reducible apply KeptM.ite | with_reducible apply KeptM.none
    | with_reducible apply State.stage_kept | with_reducible apply Kept.ite
    | with_reducible refine Kept.of_snd (by assumption) ?_ | with_reducible refine Kept.of_some (by assumption) ?_
    | intro _ | dsimp only | fail_if_no_progress with_reducible apply Kept.mk' | split)

theorem State.dropResv_kept {z0 : State} (s : State) (i : Initiator) (pa : Nat) (hz : Kept z0 s) : Kept z0 (State.dropResv s i pa) := by
  refine hz.trans ?_
  unfold State.dropResv
  repeat' (first
    | with_reducible exact Kept.rfl | with_reducible assumption | with_reducible apply State.onEng_kept
    | with_reducible apply Kept.ite | with_reducible refine Kept.of_snd (by assumption) ?_ | intro _ | dsimp only
    | fail_if_no_progress with_reducible apply Kept.mk' | split)

theorem State.busWrite_kept {z0 : State} (s : State) (i : Initiator) (a : Nat) (v : Word) (hz : Kept z0 s) : Kept z0 (State.busWrite s i a v).2 := by
  refine hz.trans ?_
  unfold State.busWrite
  repeat' (first
    | with_reducible exact Kept.rfl | with_reducible assumption | with_reducible apply State.act_kept
    | with_reducible apply State.countAccess_kept | with_reducible apply State.dropResv_kept
    | with_reducible apply State.guarded_kept | with_reducible apply State.memWrite_kept
    | with_reducible apply State.refused_kept | with_reducible apply State.stageWrite_kept
    | with_reducible apply State.writePhaseCmd_kept | with_reducible apply Kept.ite_else
    | with_reducible apply Kept.ite_then | with_reducible apply Kept.ite | with_reducible apply Kept.pair_ite
    | with_reducible refine Kept.of_snd (by assumption) ?_ | intro _ | dsimp only
    | fail_if_no_progress with_reducible apply Kept.mk' | split)

end Sys2Proof.Machine
end

