-- ==== Sys2Proof/Laws/KeptHart.lean ====
section
/-! SUPPORT. Every operation of Machine/Hart.lean keeps what `Kept` says. -/

set_option linter.unusedTactic false
set_option linter.unreachableTactic false
set_option linter.unusedVariables false

namespace Sys2Proof.Machine

set_option Elab.async false

theorem State.done_kept {z0 : State} (s : State) (e n : Nat) (hz : Kept z0 s) : Kept z0 (State.done s e n) := by
  refine hz.trans ?_
  unfold State.done
  repeat' (first
    | with_reducible exact Kept.rfl | with_reducible assumption | with_reducible apply State.onEng_kept
    | with_reducible apply State.pmc_kept | with_reducible apply Kept.ite_else | with_reducible apply Kept.ite_then
    | with_reducible apply Kept.ite | with_reducible refine Kept.of_snd (by assumption) ?_ | intro _ | dsimp only
    | fail_if_no_progress with_reducible apply Kept.mk' | split)

theorem State.doneAt_kept {z0 : State} (s : State) (e : Nat) (pc : Word) (hz : Kept z0 s) : Kept z0 (State.doneAt s e pc) := by
  refine hz.trans ?_
  unfold State.doneAt
  repeat' (first
    | with_reducible exact Kept.rfl | with_reducible assumption | with_reducible apply State.onEng_kept
    | with_reducible apply State.pmc_kept | with_reducible refine Kept.of_snd (by assumption) ?_ | intro _
    | dsimp only | fail_if_no_progress with_reducible apply Kept.mk' | split)

theorem State.illegalWord_kept {z0 : State} (s : State) (e : Nat) (hz : Kept z0 s) : Kept z0 (State.illegalWord s e) := by
  refine hz.trans ?_
  unfold State.illegalWord
  repeat' (first
    | with_reducible exact Kept.rfl | with_reducible assumption | with_reducible apply State.illegal_kept
    | with_reducible refine Kept.of_snd (by assumption) ?_ | intro _ | dsimp only
    | fail_if_no_progress with_reducible apply Kept.mk' | split)

theorem extWord_kept (e : Fin 16) (w : Nat) (s : State) : KeptO s (extWord e w s) := by
  unfold extWord
  repeat' (first
    | with_reducible exact Kept.rfl | with_reducible assumption | with_reducible apply execYdAccrh_kept
    | with_reducible apply execYdAccrl_kept | with_reducible apply execYdAccrs_kept
    | with_reducible apply execYdAccw_kept | with_reducible apply execYdAccz_kept
    | with_reducible apply execYdDft_kept | with_reducible apply execYdDfta_kept
    | with_reducible apply execYdMac1_kept | with_reducible apply execYdMac2_kept
    | with_reducible apply execYdMci_kept | with_reducible apply execYdMcr_kept | with_reducible apply execYdMsu2_kept
    | with_reducible apply execYdPks_kept | with_reducible apply execYdSat_kept | with_reducible apply execYdUpkh_kept
    | with_reducible apply execYdUpkl_kept | with_reducible apply execYtPost_kept
    | with_reducible apply execYtTask_kept | with_reducible apply execYtWft_kept
    | with_reducible apply State.illegalWord_kept | with_reducible apply KeptO.next | with_reducible apply KeptO.ite
    | with_reducible apply Kept.ite_else | with_reducible apply Kept.ite_then | with_reducible apply Kept.ite
    | with_reducible refine Kept.of_snd (by assumption) ?_ | intro _ | dsimp only
    | fail_if_no_progress with_reducible apply Kept.mk' | split)

theorem State.hartLoad_kept {z0 : State} (s : State) (e : Fin 16) (a n : Nat) (hz : Kept z0 s) : Kept z0 (State.hartLoad s e a n).2 := by
  refine hz.trans ?_
  unfold State.hartLoad
  repeat' (first
    | with_reducible exact Kept.rfl | with_reducible assumption | with_reducible apply State.busRead_kept
    | with_reducible apply State.fresh_kept | with_reducible apply State.takeTrap_kept
    | with_reducible apply State.wrN_kept | with_reducible apply Kept.ite_else | with_reducible apply Kept.ite_then
    | with_reducible apply Kept.ite | with_reducible apply Kept.pair_ite
    | with_reducible refine Kept.of_snd (by assumption) ?_ | intro _ | dsimp only
    | fail_if_no_progress with_reducible apply Kept.mk' | split)

theorem State.hartStore_kept {z0 : State} (s : State) (e : Fin 16) (a n : Nat) (v : Word) (hz : Kept z0 s) : Kept z0 (State.hartStore s e a n v) := by
  refine hz.trans ?_
  unfold State.hartStore
  repeat' (first
    | with_reducible exact Kept.rfl | with_reducible assumption | with_reducible apply State.busWrite_kept
    | with_reducible apply State.takeTrap_kept | with_reducible apply State.wrN_kept | with_reducible apply Kept.ite
    | with_reducible refine Kept.of_snd (by assumption) ?_ | intro _ | dsimp only
    | fail_if_no_progress with_reducible apply Kept.mk' | split)

theorem State.hartCsr_kept {z0 : State} (s : State) (e : Fin 16) (w : Nat) (hz : Kept z0 s) : Kept z0 (State.hartCsr s e w) := by
  refine hz.trans ?_
  unfold State.hartCsr
  repeat' (first
    | with_reducible exact Kept.rfl | with_reducible assumption | with_reducible apply State.done_kept
    | with_reducible apply State.illegalWord_kept | with_reducible apply State.readCsr_kept
    | with_reducible apply State.setX_kept | with_reducible apply State.writeCsr_kept | with_reducible apply Kept.ite
    | with_reducible refine Kept.of_snd (by assumption) ?_ | intro _ | dsimp only
    | fail_if_no_progress with_reducible apply Kept.mk' | split)

theorem State.hartSystem_kept {z0 : State} (s : State) (e : Fin 16) (w len : Nat) (hz : Kept z0 s) : Kept z0 (State.hartSystem s e w len) := by
  refine hz.trans ?_
  unfold State.hartSystem
  repeat' (first
    | with_reducible exact Kept.rfl | with_reducible assumption | with_reducible apply State.done_kept
    | with_reducible apply State.fresh_kept | with_reducible apply State.hartCsr_kept
    | with_reducible apply State.illegalWord_kept | with_reducible apply State.leaveHandler_kept
    | with_reducible apply State.pmc_kept | with_reducible apply State.takeTrap_kept | with_reducible apply Kept.ite
    | with_reducible refine Kept.of_snd (by assumption) ?_ | intro _ | dsimp only
    | fail_if_no_progress with_reducible apply Kept.mk' | split)

theorem State.hartAtomic_kept {z0 : State} (s : State) (e : Fin 16) (w : Nat) (hz : Kept z0 s) : Kept z0 (State.hartAtomic s e w) := by
  refine hz.trans ?_
  unfold State.hartAtomic
  repeat' (first
    | with_reducible exact Kept.rfl | with_reducible assumption | with_reducible apply State.done_kept
    | with_reducible apply State.hartLoad_kept | with_reducible apply State.hartStore_kept
    | with_reducible apply State.illegalWord_kept | with_reducible apply State.onEng_kept
    | with_reducible apply State.refused_kept | with_reducible apply State.setX_kept
    | with_reducible apply State.takeTrap_kept | with_reducible apply Kept.ite
    | with_reducible refine Kept.of_snd (by assumption) ?_ | intro _ | dsimp only
    | fail_if_no_progress with_reducible apply Kept.mk' | split)

theorem State.hartLoads_kept {z0 : State} (s : State) (e : Fin 16) (w len : Nat) (hz : Kept z0 s) : Kept z0 (State.hartLoads s e w len) := by
  refine hz.trans ?_
  unfold State.hartLoads
  repeat' (first
    | with_reducible exact Kept.rfl | with_reducible assumption | with_reducible apply State.done_kept
    | with_reducible apply State.hartLoad_kept | with_reducible apply State.illegalWord_kept
    | with_reducible apply State.put_kept | with_reducible apply State.setX_kept
    | with_reducible refine Kept.of_snd (by assumption) ?_ | intro _ | dsimp only
    | fail_if_no_progress with_reducible apply Kept.mk' | split)

theorem State.hartExec_kept {z0 : State} (s : State) (e : Fin 16) (w len : Nat) (hz : Kept z0 s) :
    Kept z0 (State.hartExec s e w len) := by
  refine hz.trans ?_
  unfold State.hartExec
  repeat' (first
    | with_reducible exact Kept.rfl | with_reducible apply State.done_kept | with_reducible apply State.doneAt_kept
    | with_reducible apply State.hartAtomic_kept | with_reducible apply State.hartLoads_kept
    | with_reducible apply State.hartStore_kept | with_reducible apply State.hartSystem_kept
    | with_reducible apply State.illegalWord_kept | with_reducible apply State.pmc_kept
    | with_reducible apply State.setX_kept | with_reducible exact (extWord_kept _ _ _).next_kept _ (by assumption)
    | with_reducible apply Kept.ite | intro _ | dsimp only | split)

theorem State.codeHalf_kept {z0 : State} (s : State) (e : Fin 16) (pc : Nat) (hz : Kept z0 s) : Kept z0 (State.codeHalf s e pc).2 := by
  refine hz.trans ?_
  unfold State.codeHalf
  repeat' (first
    | with_reducible exact Kept.rfl | with_reducible assumption | with_reducible apply State.boot_kept
    | with_reducible apply State.fresh_kept | with_reducible apply Kept.ite_else | with_reducible apply Kept.ite_then
    | with_reducible apply Kept.ite | with_reducible apply Kept.pair_ite
    | with_reducible refine Kept.of_snd (by assumption) ?_ | intro _ | dsimp only
    | fail_if_no_progress with_reducible apply Kept.mk' | split)

theorem State.hartStep_kept {z0 : State} (s : State) (e : Fin 16) (hz : Kept z0 s) : Kept z0 (State.hartStep s e) := by
  refine hz.trans ?_
  unfold State.hartStep
  repeat' (first
    | with_reducible exact Kept.rfl | with_reducible assumption | with_reducible apply State.codeHalf_kept
    | with_reducible apply State.hartExec_kept | with_reducible apply State.illegalWord_kept
    | with_reducible apply State.takeTrap_kept | with_reducible apply Kept.ite
    | with_reducible refine Kept.of_snd (by assumption) ?_ | intro _ | dsimp only
    | fail_if_no_progress with_reducible apply Kept.mk' | split)

theorem State.stepEngine_kept {z0 : State} (s : State) (e : Nat) (hz : Kept z0 s) : Kept z0 (State.stepEngine s e) := by
  refine hz.trans ?_
  unfold State.stepEngine
  repeat' (first
    | with_reducible exact Kept.rfl | with_reducible assumption | with_reducible apply State.hartStep_kept
    | with_reducible apply State.setEng_kept | with_reducible apply Kept.ite
    | with_reducible refine Kept.of_snd (by assumption) ?_ | intro _ | dsimp only
    | fail_if_no_progress with_reducible apply Kept.mk' | split)

theorem State.runStep_kept {z0 : State} (s : State) (e : Nat) (hz : Kept z0 s) : Kept z0 (State.runStep s e) := by
  refine hz.trans ?_
  unfold State.runStep
  repeat' (first
    | with_reducible exact Kept.rfl | with_reducible assumption | with_reducible apply State.onEng_kept
    | with_reducible apply State.stepEngine_kept | with_reducible apply Kept.ite_else
    | with_reducible apply Kept.ite_then | with_reducible apply Kept.ite
    | with_reducible refine Kept.of_snd (by assumption) ?_ | intro _ | dsimp only
    | fail_if_no_progress with_reducible apply Kept.mk' | split)

theorem State.stepsGo_kept {z0 : State} (s : State) (n : Nat) (hz : Kept z0 s) : Kept z0 (State.stepsGo s n) := by
  induction n generalizing s with
  | zero => exact hz
  | succ n ih =>
    unfold State.stepsGo
    split
    · exact ih _ (Kept.foldl (fun t e => State.runStep_kept t e Kept.rfl) hz)
    · exact hz

theorem State.runSteps_kept {z0 : State} (s : State) (hz : Kept z0 s) : Kept z0 (State.runSteps s) := by
  refine hz.trans ?_
  unfold State.runSteps
  repeat' (first
    | with_reducible exact Kept.rfl | with_reducible assumption | with_reducible apply State.stepsGo_kept
    | with_reducible refine Kept.of_snd (by assumption) ?_ | intro _ | dsimp only
    | fail_if_no_progress with_reducible apply Kept.mk' | split)

end Sys2Proof.Machine
end

