-- ==== Sys2Proof/Laws/KeptAgent.lean ====
section
/-! SUPPORT. Every operation of Machine/Agent.lean keeps what `Kept` says. -/

set_option linter.unusedTactic false
set_option linter.unreachableTactic false
set_option linter.unusedVariables false

namespace Sys2Proof.Machine

set_option Elab.async false

theorem State.writeAny_kept {z0 : State} (s : State) (i : Initiator) (a : Nat) (v : Word) (hz : Kept z0 s) : Kept z0 (State.writeAny s i a v) := by
  refine hz.trans ?_
  unfold State.writeAny
  repeat' (first
    | with_reducible exact Kept.rfl | with_reducible assumption | with_reducible apply State.busWrite_kept
    | with_reducible apply State.emit_kept | with_reducible refine Kept.of_snd (by assumption) ?_ | intro _
    | dsimp only | fail_if_no_progress with_reducible apply Kept.mk' | split)

theorem execEngineHalt_kept (e : Fin 16) (i : Initiator) (v : Word) (s : State) : KeptO s (execEngineHalt e i v s) := by
  unfold execEngineHalt
  repeat' (first
    | with_reducible exact Kept.rfl | with_reducible assumption | with_reducible apply State.runSteps_kept
    | with_reducible apply State.writeEngDbg_kept | with_reducible apply State.writeRow_kept
    | with_reducible apply KeptO.next | with_reducible apply KeptO.ite
    | with_reducible refine Kept.of_snd (by assumption) ?_ | intro _ | dsimp only
    | fail_if_no_progress with_reducible apply Kept.mk' | split)

theorem execEngineStep_kept (e : Fin 16) (i : Initiator) (v : Word) (s : State) : KeptO s (execEngineStep e i v s) := by
  unfold execEngineStep
  repeat' (first
    | with_reducible exact Kept.rfl | with_reducible assumption | with_reducible apply State.runSteps_kept
    | with_reducible apply State.writeEngDbg_kept | with_reducible apply State.writeRow_kept
    | with_reducible apply KeptO.next | with_reducible apply KeptO.ite
    | with_reducible refine Kept.of_snd (by assumption) ?_ | intro _ | dsimp only
    | fail_if_no_progress with_reducible apply Kept.mk' | split)

theorem execRegisterWrite_kept (i : Initiator) (a : Nat) (v : Word) (s : State) : KeptO s (execRegisterWrite i a v s) := by
  unfold execRegisterWrite
  repeat' (first
    | with_reducible exact Kept.rfl | with_reducible assumption | with_reducible apply State.runSteps_kept
    | with_reducible apply State.writeAny_kept | with_reducible apply KeptO.next | with_reducible apply KeptO.ite
    | with_reducible refine Kept.of_snd (by assumption) ?_ | intro _ | dsimp only
    | fail_if_no_progress with_reducible apply Kept.mk' | split)

theorem execStagedWrite_kept (e : Fin 16) (a : Nat) (v : Word) (s : State) : KeptO s (execStagedWrite e a v s) := by
  unfold execStagedWrite
  repeat' (first
    | with_reducible exact Kept.rfl | with_reducible assumption | with_reducible apply State.runSteps_kept
    | with_reducible apply State.writeAny_kept | with_reducible apply KeptO.next | with_reducible apply KeptO.ite
    | with_reducible refine Kept.of_snd (by assumption) ?_ | intro _ | dsimp only
    | fail_if_no_progress with_reducible apply Kept.mk' | split)

theorem execLowWordRead_kept (i : Initiator) (a : Nat) (s : State) : KeptO s (execLowWordRead i a s) := by
  unfold execLowWordRead
  repeat' (first
    | with_reducible exact Kept.rfl | with_reducible assumption | with_reducible apply State.readRow_kept
    | with_reducible apply KeptO.next | with_reducible apply KeptO.ite
    | with_reducible refine Kept.of_snd (by assumption) ?_ | intro _ | dsimp only
    | fail_if_no_progress with_reducible apply Kept.mk' | split)

theorem execReadClearRegister_kept (i : Initiator) (a : Nat) (s : State) : KeptO s (execReadClearRegister i a s) := by
  unfold execReadClearRegister
  repeat' (first
    | with_reducible exact Kept.rfl | with_reducible assumption | with_reducible apply State.readRow_kept
    | with_reducible apply KeptO.next | with_reducible apply KeptO.ite
    | with_reducible refine Kept.of_snd (by assumption) ?_ | intro _ | dsimp only
    | fail_if_no_progress with_reducible apply Kept.mk' | split)

theorem execExtremeRegisterRead_kept (i : Initiator) (a : Nat) (s : State) : KeptO s (execExtremeRegisterRead i a s) := by
  unfold execExtremeRegisterRead
  repeat' (first
    | with_reducible exact Kept.rfl | with_reducible assumption | with_reducible apply State.readRow_kept
    | with_reducible apply KeptO.next | with_reducible apply KeptO.ite
    | with_reducible refine Kept.of_snd (by assumption) ?_ | intro _ | dsimp only
    | fail_if_no_progress with_reducible apply Kept.mk' | split)

theorem State.serveReads_kept {z0 : State} (s : State) (i : Initiator) (n a : Nat) (l : List Byte) (hz : Kept z0 s) :
    Kept z0 (State.serveReads s i n a l).2 := by
  induction n generalizing s a l with
  | zero => exact hz
  | succ n ih =>
    unfold State.serveReads
    dsimp only
    split
    · exact ih _ _ _ (State.busRead_kept _ _ _ hz)
    · exact State.busRead_kept _ _ _ hz

theorem State.serveWrites_kept {z0 : State} (s : State) (i : Initiator) (l : List Word) (a k : Nat) (hz : Kept z0 s) :
    Kept z0 (State.serveWrites s i l a k).2 := by
  induction l generalizing s a k with
  | nil => exact hz
  | cons v l ih =>
    unfold State.serveWrites
    dsimp only
    split
    · exact ih _ _ _ (State.busWrite_kept _ _ _ _ hz)
    · exact State.busWrite_kept _ _ _ _ hz

theorem State.perform_kept {z0 : State} (s : State) (p : Fin 4) (i : Initiator) (f : Frame) (hz : Kept z0 s) : Kept z0 (State.perform s p i f).2 := by
  refine hz.trans ?_
  unfold State.perform
  repeat' (first
    | with_reducible exact Kept.rfl | with_reducible assumption | with_reducible apply State.serveReads_kept
    | with_reducible apply State.serveWrites_kept | with_reducible apply Kept.ite_else
    | with_reducible apply Kept.ite_then | with_reducible apply Kept.ite | with_reducible apply Kept.pair_ite
    | with_reducible refine Kept.of_snd (by assumption) ?_ | intro _ | dsimp only
    | fail_if_no_progress with_reducible apply Kept.mk' | split)

theorem State.keepAnswer_kept {z0 : State} (s : State) (src : Nat) (host : Bool) (seq : Nat) (rsp : List Byte) (hz : Kept z0 s) : Kept z0 (State.keepAnswer s src host seq rsp) := by
  refine hz.trans ?_
  unfold State.keepAnswer
  repeat' (first
    | with_reducible exact Kept.rfl | with_reducible assumption | with_reducible refine Kept.of_snd (by assumption) ?_
    | intro _ | dsimp only | fail_if_no_progress with_reducible apply Kept.mk' | split)

theorem State.serveNew_kept {z0 : State} (s : State) (p : Fin 4) (f : Frame) (hz : Kept z0 s) : Kept z0 (State.serveNew s p f) := by
  refine hz.trans ?_
  unfold State.serveNew
  repeat' (first
    | with_reducible exact Kept.rfl | with_reducible assumption | with_reducible apply State.answer_kept
    | with_reducible apply State.bump_kept | with_reducible apply State.drop_kept
    | with_reducible apply State.keepAnswer_kept | with_reducible apply State.perform_kept
    | with_reducible apply Kept.ite | with_reducible refine Kept.of_snd (by assumption) ?_ | intro _ | dsimp only
    | fail_if_no_progress with_reducible apply Kept.mk' | split)

theorem State.serveAgain_kept {z0 : State} (s : State) (p : Fin 4) (f : Frame) (hz : Kept z0 s) : Kept z0 (State.serveAgain s p f) := by
  refine hz.trans ?_
  unfold State.serveAgain
  repeat' (first
    | with_reducible exact Kept.rfl | with_reducible assumption | with_reducible apply State.answer_kept
    | with_reducible apply State.bump_kept | with_reducible apply State.drop_kept
    | with_reducible refine Kept.of_snd (by assumption) ?_ | intro _ | dsimp only
    | fail_if_no_progress with_reducible apply Kept.mk' | split)

theorem execRaRequest_kept (p : Fin 4) (f : Frame) (s : State) : KeptO s (execRaRequest p f s) := by
  unfold execRaRequest
  repeat' (first
    | with_reducible exact Kept.rfl | with_reducible assumption | with_reducible apply State.runSteps_kept
    | with_reducible apply State.serveAgain_kept | with_reducible apply State.serveNew_kept
    | with_reducible apply State.takeInbox_kept | with_reducible apply KeptO.next | with_reducible apply KeptO.ite
    | with_reducible apply Kept.ite | with_reducible refine Kept.of_snd (by assumption) ?_ | intro _ | dsimp only
    | fail_if_no_progress with_reducible apply Kept.mk' | split)

end Sys2Proof.Machine
end

