-- ==== Sys2Proof/Laws/KeptTwoWire.lean ====
section
/-! SUPPORT. Every operation of Machine/TwoWire.lean keeps what `Kept` says. -/

set_option linter.unusedTactic false
set_option linter.unreachableTactic false
set_option linter.unusedVariables false

namespace Sys2Proof.Machine

set_option Elab.async false

theorem State.twFail_kept {z0 : State} (s : State) (c : Ended) (a : Nat) (keep : Bool) (hz : Kept z0 s) : Kept z0 (State.twFail s c a keep) := by
  refine hz.trans ?_
  unfold State.twFail
  repeat' (first
    | with_reducible exact Kept.rfl | with_reducible assumption | with_reducible apply State.bump_kept
    | with_reducible apply State.put_kept | with_reducible apply State.wrN_kept | with_reducible apply Kept.ite
    | with_reducible refine Kept.of_snd (by assumption) ?_ | intro _ | dsimp only
    | fail_if_no_progress with_reducible apply Kept.mk' | split)

theorem State.twStep_kept {z0 : State} (s : State) (fix : Bool) (hz : Kept z0 s) : Kept z0 (State.twStep s fix) := by
  refine hz.trans ?_
  unfold State.twStep
  repeat' (first
    | with_reducible exact Kept.rfl | with_reducible assumption | with_reducible apply State.wrN_kept
    | with_reducible apply Kept.ite | with_reducible refine Kept.of_snd (by assumption) ?_ | intro _ | dsimp only
    | fail_if_no_progress with_reducible apply Kept.mk' | split)

theorem State.twPut_kept {z0 : State} (s : State) (v : Word) (fix keep : Bool) (hz : Kept z0 s) : Kept z0 (State.twPut s v fix keep).2 := by
  refine hz.trans ?_
  unfold State.twPut
  repeat' (first
    | with_reducible exact Kept.rfl | with_reducible assumption | with_reducible apply State.busWrite_kept
    | with_reducible apply State.twFail_kept | with_reducible apply State.twStep_kept
    | with_reducible apply Kept.ite_else | with_reducible apply Kept.ite_then | with_reducible apply Kept.ite
    | with_reducible apply Kept.pair_ite | with_reducible refine Kept.of_snd (by assumption) ?_ | intro _ | dsimp only
    | fail_if_no_progress with_reducible apply Kept.mk' | split)

theorem State.twGet_kept {z0 : State} (s : State) (fix : Bool) (hz : Kept z0 s) : Kept z0 (State.twGet s fix).2 := by
  refine hz.trans ?_
  unfold State.twGet
  repeat' (first
    | with_reducible exact Kept.rfl | with_reducible assumption | with_reducible apply State.busRead_kept
    | with_reducible apply State.twFail_kept | with_reducible apply State.twStep_kept
    | with_reducible apply Kept.ite_else | with_reducible apply Kept.ite_then | with_reducible apply Kept.ite
    | with_reducible apply Kept.pair_ite | with_reducible refine Kept.of_snd (by assumption) ?_ | intro _ | dsimp only
    | fail_if_no_progress with_reducible apply Kept.mk' | split)

theorem State.twPlain_kept {z0 : State} (s : State) (fix : Bool) (l : List Byte) (hz : Kept z0 s) :
    Kept z0 (State.twPlain s fix l).2 := by
  fun_induction State.twPlain s fix l
  · rename_i e ih; exact ih (Kept.of_snd e (State.twPut_kept _ _ _ _ hz))
  · rename_i e _; first | exact Kept.of_snd (by assumption) (State.twPut_kept _ _ _ _ hz)
  · exact hz
  · exact State.put_kept _ _ _ hz

theorem State.twBuffered_kept {z0 : State} (s : State) (fix failed : Bool) (l : List Byte) (hz : Kept z0 s) :
    Kept z0 (State.twBuffered s fix failed l) := by
  fun_induction State.twBuffered s fix failed l
  · rename_i e ih; exact ih (Kept.of_snd e (State.twPut_kept _ _ _ _ hz))
  · exact hz
  · exact hz
  · exact State.put_kept _ _ _ hz

theorem State.twWords_kept {z0 : State} (s : State) (fix : Bool) (n : Nat) (l : List Byte) (hz : Kept z0 s) :
    Kept z0 (State.twWords s fix n l).2 := by
  induction n generalizing s l with
  | zero => exact hz
  | succ n ih => exact ih _ _ (State.twGet_kept _ _ hz)

theorem State.twNack_kept {z0 : State} (s : State) (n err : Nat) (hz : Kept z0 s) : Kept z0 (State.twNack s n err) := by
  refine hz.trans ?_
  unfold State.twNack
  repeat' (first
    | with_reducible exact Kept.rfl | with_reducible assumption | with_reducible apply State.bump_kept
    | with_reducible apply State.put_kept | with_reducible refine Kept.of_snd (by assumption) ?_ | intro _
    | dsimp only | fail_if_no_progress with_reducible apply Kept.mk' | split)

theorem State.twMatch_kept {z0 : State} (s : State) (hz : Kept z0 s) : Kept z0 (State.twMatch s) := by
  refine hz.trans ?_
  unfold State.twMatch
  repeat' (first
    | with_reducible exact Kept.rfl | with_reducible assumption | with_reducible apply State.bump_kept
    | with_reducible apply State.put_kept | with_reducible apply State.putBit_kept
    | with_reducible apply State.reach_kept | with_reducible apply State.wakeRequest_kept
    | with_reducible apply Kept.ite | with_reducible refine Kept.of_snd (by assumption) ?_ | intro _ | dsimp only
    | fail_if_no_progress with_reducible apply Kept.mk' | split)

theorem State.twReach_kept {z0 : State} (s : State) (hz : Kept z0 s) : Kept z0 (State.twReach s).2 := by
  refine hz.trans ?_
  unfold State.twReach
  repeat' (first
    | with_reducible exact Kept.rfl | with_reducible assumption | with_reducible apply State.twMatch_kept
    | with_reducible apply Kept.ite_else | with_reducible apply Kept.ite_then | with_reducible apply Kept.ite
    | with_reducible apply Kept.pair_ite | with_reducible refine Kept.of_snd (by assumption) ?_ | intro _ | dsimp only
    | fail_if_no_progress with_reducible apply Kept.mk' | split)

theorem State.twServeWrite_kept {z0 : State} (s : State) (t : TwWrite) (hz : Kept z0 s) : Kept z0 (State.twServeWrite s t) := by
  refine hz.trans ?_
  unfold State.twServeWrite
  repeat' (first
    | with_reducible exact Kept.rfl | with_reducible assumption | with_reducible apply State.bump_kept
    | with_reducible apply State.emit_kept | with_reducible apply State.twBuffered_kept
    | with_reducible apply State.twNack_kept | with_reducible apply State.twPlain_kept
    | with_reducible apply State.wr_kept | with_reducible apply Kept.ite
    | with_reducible refine Kept.of_snd (by assumption) ?_ | intro _ | dsimp only
    | fail_if_no_progress with_reducible apply Kept.mk' | split)

theorem State.twServeRead_kept {z0 : State} (s : State) (t : TwRead) (hz : Kept z0 s) : Kept z0 (State.twServeRead s t) := by
  refine hz.trans ?_
  unfold State.twServeRead
  repeat' (first
    | with_reducible exact Kept.rfl | with_reducible assumption | with_reducible apply State.bump_kept
    | with_reducible apply State.emit_kept | with_reducible apply State.twNack_kept
    | with_reducible apply State.twWords_kept | with_reducible apply State.wr_kept | with_reducible apply Kept.ite
    | with_reducible refine Kept.of_snd (by assumption) ?_ | intro _ | dsimp only
    | fail_if_no_progress with_reducible apply Kept.mk' | split)

theorem State.twRefuse_kept {z0 : State} (s : State) (k words : Nat) (read : Bool) (hz : Kept z0 s) : Kept z0 (State.twRefuse s k words read) := by
  refine hz.trans ?_
  unfold State.twRefuse
  repeat' (first
    | with_reducible exact Kept.rfl | with_reducible assumption | with_reducible apply State.emit_kept
    | with_reducible apply Kept.ite | with_reducible refine Kept.of_snd (by assumption) ?_ | intro _ | dsimp only
    | fail_if_no_progress with_reducible apply Kept.mk' | split)

theorem execTwWrite_kept (t : TwWrite) (s : State) : KeptO s (execTwWrite t s) := by
  unfold execTwWrite
  repeat' (first
    | with_reducible exact Kept.rfl | with_reducible assumption | with_reducible apply State.runSteps_kept
    | with_reducible apply State.twReach_kept | with_reducible apply State.twRefuse_kept
    | with_reducible apply State.twServeWrite_kept | with_reducible apply KeptO.next | with_reducible apply KeptO.ite
    | with_reducible refine Kept.of_snd (by assumption) ?_ | intro _ | dsimp only
    | fail_if_no_progress with_reducible apply Kept.mk' | split)

theorem execTwRead_kept (t : TwRead) (s : State) : KeptO s (execTwRead t s) := by
  unfold execTwRead
  repeat' (first
    | with_reducible exact Kept.rfl | with_reducible assumption | with_reducible apply State.twReach_kept
    | with_reducible apply State.twRefuse_kept | with_reducible apply State.twServeRead_kept
    | with_reducible apply KeptO.next | with_reducible apply KeptO.ite
    | with_reducible refine Kept.of_snd (by assumption) ?_ | intro _ | dsimp only
    | fail_if_no_progress with_reducible apply Kept.mk' | split)

theorem execTwCurrentRead_kept (words : Nat) (s : State) : KeptO s (execTwCurrentRead words s) := by
  unfold execTwCurrentRead
  repeat' (first
    | with_reducible exact Kept.rfl | with_reducible assumption | with_reducible apply State.bump_kept
    | with_reducible apply State.emit_kept | with_reducible apply State.twReach_kept
    | with_reducible apply State.twRefuse_kept | with_reducible apply State.twWords_kept
    | with_reducible apply KeptO.next | with_reducible apply KeptO.ite | with_reducible apply Kept.ite_else
    | with_reducible apply Kept.ite_then | with_reducible apply Kept.ite
    | with_reducible refine Kept.of_snd (by assumption) ?_ | intro _ | dsimp only
    | fail_if_no_progress with_reducible apply Kept.mk' | split)

theorem execTwTimeout_kept (sclLow : Bool) (s : State) : KeptO s (execTwTimeout sclLow s) := by
  unfold execTwTimeout
  repeat' (first
    | with_reducible exact Kept.rfl | with_reducible assumption | with_reducible apply State.bump_kept
    | with_reducible apply State.fault_kept | with_reducible apply State.put_kept
    | with_reducible apply State.reach_kept | with_reducible apply KeptO.next | with_reducible apply KeptO.ite
    | with_reducible apply Kept.ite_else | with_reducible apply Kept.ite_then | with_reducible apply Kept.ite
    | with_reducible refine Kept.of_snd (by assumption) ?_ | intro _ | dsimp only
    | fail_if_no_progress with_reducible apply Kept.mk' | split)

theorem execTwWakeMatch_kept (s : State) : KeptO s (execTwWakeMatch s) := by
  unfold execTwWakeMatch
  repeat' (first
    | with_reducible exact Kept.rfl | with_reducible assumption | with_reducible apply State.emit_kept
    | with_reducible apply State.twMatch_kept | with_reducible apply KeptO.next | with_reducible apply KeptO.ite
    | with_reducible apply Kept.ite_else | with_reducible apply Kept.ite_then | with_reducible apply Kept.ite
    | with_reducible refine Kept.of_snd (by assumption) ?_ | intro _ | dsimp only
    | fail_if_no_progress with_reducible apply Kept.mk' | split)

end Sys2Proof.Machine
end

