-- ==== Sys2Proof/Laws/Ops.lean ====
section
/-! SUPPORT. Laws of the named operations: registers, fields, memories, free values, on states in canonical form. -/

namespace Sys2Proof.Machine

set_option Elab.async false

variable {s : State}

/-! ## Registers -/

theorem State.wr_canon (h : s.Canon) (a : Nat) (v : Word) : (s.wr a v).Canon := (State.wr_kept Kept.rfl a v).canon h

theorem State.wrN_canon (h : s.Canon) (a v : Nat) : (s.wrN a v).Canon := State.wr_canon h _ _

theorem State.put_canon (h : s.Canon) (f : Fld) (v : Nat) : (s.put f v).Canon := State.wr_canon h _ _

theorem State.putB_canon (h : s.Canon) (f : Fld) (b : Bool) : (s.putB f b).Canon := State.put_canon h _ _

theorem State.bump_canon (h : s.Canon) (f : Fld) (n : Nat) : (s.bump f n).Canon := State.put_canon h _ _

/-- The register written reads as written. -/
theorem State.rd_wr_same (h : s.Canon) (a : Nat) (v : Word) : (s.wr a v).rd a = v := sparseGet_set_same h.1 a v

/-- Every other register reads as before. -/
theorem State.rd_wr_ne (h : s.Canon) {a b : Nat} (n : b ≠ a) (v : Word) : (s.wr a v).rd b = s.rd b :=
  sparseGet_set_ne h.1 n v

theorem State.rdN_wrN_same (h : s.Canon) (a v : Nat) : (s.wrN a v).rdN a = v % 2 ^ 32 := by
  simp only [State.rdN, State.wrN, State.rd_wr_same h, BitVec.toNat_ofNat]

theorem State.rdN_wrN_ne (h : s.Canon) {a b : Nat} (n : b ≠ a) (v : Nat) : (s.wrN a v).rdN b = s.rdN b := by
  simp only [State.rdN, State.wrN, State.rd_wr_ne h n]

theorem State.rdN_put_same (h : s.Canon) (f : Fld) (v : Nat) (w : f.lo + f.width ≤ 32) :
    (s.put f v).rdN f.addr = withField (s.rdN f.addr) f.lo f.width v := by
  unfold State.put
  rw [State.rdN_wrN_same h]
  exact Nat.mod_eq_of_lt (withField_lt (s.rd f.addr).isLt w)

theorem State.rdN_put_ne (h : s.Canon) (f : Fld) (v : Nat) {a : Nat} (n : a ≠ f.addr) : (s.put f v).rdN a = s.rdN a :=
  State.rdN_wrN_ne h n _

/-! ## Fields -/

/-- The field written reads as written, as far as it is wide. -/
theorem State.get_put_same (h : s.Canon) (f : Fld) (v : Nat) (w : f.lo + f.width ≤ 32) :
    (s.put f v).get f = v % 2 ^ f.width := by
  simp only [State.get, State.rdN_put_same h f v w, fieldOf_withField_same]

/-- Fields of other registers read as before. -/
theorem State.get_put_reg (h : s.Canon) (f g : Fld) (v : Nat) (n : g.addr ≠ f.addr) : (s.put f v).get g = s.get g := by
  simp only [State.get, State.rdN_put_ne h f v n]

/-- A field below the one written reads as before. -/
theorem State.get_put_below (h : s.Canon) (f g : Fld) (v : Nat) (w : f.lo + f.width ≤ 32) (b : g.lo + g.width ≤ f.lo) :
    (s.put f v).get g = s.get g := by
  by_cases n : g.addr = f.addr
  · simp only [State.get, n, State.rdN_put_same h f v w]
    exact fieldOf_withField_below _ _ _ _ b
  · exact State.get_put_reg h f g v n

/-- A field above the one written reads as before. -/
theorem State.get_put_above (h : s.Canon) (f g : Fld) (v : Nat) (w : f.lo + f.width ≤ 32) (b : f.lo + f.width ≤ g.lo) :
    (s.put f v).get g = s.get g := by
  by_cases n : g.addr = f.addr
  · simp only [State.get, n, State.rdN_put_same h f v w]
    exact fieldOf_withField_above _ _ _ _ b
  · exact State.get_put_reg h f g v n

/-- A field that shares no bit with the one written reads as before. -/
theorem State.get_put_ne (h : s.Canon) (f g : Fld) (v : Nat) (w : f.lo + f.width ≤ 32)
    (d : g.addr ≠ f.addr ∨ g.lo + g.width ≤ f.lo ∨ f.lo + f.width ≤ g.lo) : (s.put f v).get g = s.get g := by
  rcases d with d | d | d
  · exact State.get_put_reg h f g v d
  · exact State.get_put_below h f g v w d
  · exact State.get_put_above h f g v w d

theorem State.get_lt (s : State) (f : Fld) : s.get f < 2 ^ f.width := fieldOf_lt _ _ _

/-- A counter advanced by one below its end. -/
theorem State.get_bump_same (h : s.Canon) (f : Fld) (n : Nat) (w : f.lo + f.width ≤ 32) :
    (s.bump f n).get f = min (s.get f + n) (2 ^ f.width - 1) := by
  unfold State.bump
  rw [State.get_put_same h f _ w]
  exact Nat.mod_eq_of_lt (Nat.lt_of_le_of_lt (Nat.min_le_right _ _) (Nat.sub_lt (by positivity) Nat.one_pos))

theorem State.get_putB_same (h : s.Canon) (f : Fld) (b : Bool) (w : f.lo + f.width ≤ 32) (p : 0 < f.width) :
    (s.putB f b).get f = b2n b := by
  unfold State.putB
  rw [State.get_put_same h f _ w]
  have : 2 ^ 1 ≤ 2 ^ f.width := Nat.pow_le_pow_right (by decide) p
  exact Nat.mod_eq_of_lt (by have := b2n_le b; omega)

/-- Only the registers change when a field is written. -/
theorem State.put_regs_only (s : State) (f : Fld) (v : Nat) : { s.put f v with regs := s.regs } = s := Eq.refl s

/-! ## Memories -/

theorem State.memPut_canon (h : s.Canon) (a : Nat) (l : List Byte) : (s.memPut a l).Canon :=
  (State.memPut_kept Kept.rfl a l).canon h

/-- The bytes stored are read back. -/
theorem State.memBytes_memPut (h : s.Canon) (a : Nat) (l : List Byte) : (s.memPut a l).memBytes a l.length = l :=
  bytesAt_putBytes h.2.1 a l

/-- A byte outside those stored reads as before. -/
theorem State.memByte_memPut_out (h : s.Canon) (a : Nat) (l : List Byte) {x : Nat} (o : x < a ∨ a + l.length ≤ x) :
    sparseGet memDefault (s.memPut a l).mem x = sparseGet memDefault s.mem x := sparseGet_putBytes_out h.2.1 a l o

/-- A word stored is read back. -/
theorem State.memLE_memPutWord (h : s.Canon) (a : Nat) (w : Word) : (s.memPutWord a w).memLE a 4 = w.toNat := by
  have e := State.memBytes_memPut h a (leBytes 4 w.toNat)
  rw [leBytes_length] at e
  unfold State.memLE State.memPutWord
  unfold State.memBytes at e
  rw [e, ofLE_leBytes]
  exact Nat.mod_eq_of_lt w.isLt

/-! ## Engines and Straits -/

theorem State.engine_onEng_same (s : State) (e : Nat) (f : EngSt → EngSt) (h : e < 16) :
    (s.onEng e f).engine e = f (s.engine e) := vget_vset_same _ _ _ h

theorem State.engine_onEng_ne (s : State) {e d : Nat} (f : EngSt → EngSt) (h : d ≠ e) :
    (s.onEng e f).engine d = s.engine d := vget_vset_ne _ _ _ h

theorem State.strait_onPort_same (s : State) (n : Nat) (f : PortSt → PortSt) (h : n < 4) :
    (s.onPort n f).strait n = f (s.strait n) := vget_vset_same _ _ _ h

theorem State.strait_onPort_ne (s : State) {n m : Nat} (f : PortSt → PortSt) (h : m ≠ n) :
    (s.onPort n f).strait m = s.strait m := vget_vset_ne _ _ _ h

end Sys2Proof.Machine
end

