-- ==== Sys2Proof/Laws/State.lean ====
section
/-! SUPPORT. Which field of the state each named update leaves alone: one lemma per field and update. -/

namespace Sys2Proof.Machine

set_option Elab.async false

variable (s : State)

@[simp] theorem State.wr_pending (a : Nat) (v : Word) : (s.wr a v).pending = s.pending := rfl
@[simp] theorem State.wr_now (a : Nat) (v : Word) : (s.wr a v).now = s.now := rfl
@[simp] theorem State.wr_ftOfs (a : Nat) (v : Word) : (s.wr a v).ftOfs = s.ftOfs := rfl
@[simp] theorem State.wr_mem (a : Nat) (v : Word) : (s.wr a v).mem = s.mem := rfl
@[simp] theorem State.wr_flash (a : Nat) (v : Word) : (s.wr a v).flash = s.flash := rfl
@[simp] theorem State.wr_free (a : Nat) (v : Word) : (s.wr a v).free = s.free := rfl
@[simp] theorem State.wr_sent (a : Nat) (v : Word) : (s.wr a v).sent = s.sent := rfl
@[simp] theorem State.wr_latches (a : Nat) (v : Word) : (s.wr a v).latches = s.latches := rfl
@[simp] theorem State.wr_sealed (a : Nat) (v : Word) : (s.wr a v).sealed = s.sealed := rfl
@[simp] theorem State.wr_sealRec (a : Nat) (v : Word) : (s.wr a v).sealRec = s.sealRec := rfl
@[simp] theorem State.wr_loaderRw (a : Nat) (v : Word) : (s.wr a v).loaderRw = s.loaderRw := rfl
@[simp] theorem State.wr_privAt (a : Nat) (v : Word) : (s.wr a v).privAt = s.privAt := rfl
@[simp] theorem State.wr_turned (a : Nat) (v : Word) : (s.wr a v).turned = s.turned := rfl
@[simp] theorem State.wr_wakeHeld (a : Nat) (v : Word) : (s.wr a v).wakeHeld = s.wakeHeld := rfl
@[simp] theorem State.wr_tick (a : Nat) (v : Word) : (s.wr a v).tick = s.tick := rfl
@[simp] theorem State.wr_fcr (a : Nat) (v : Word) : (s.wr a v).fcr = s.fcr := rfl
@[simp] theorem State.wr_psf (a : Nat) (v : Word) : (s.wr a v).psf = s.psf := rfl
@[simp] theorem State.wr_eng (a : Nat) (v : Word) : (s.wr a v).eng = s.eng := rfl
@[simp] theorem State.wr_port (a : Nat) (v : Word) : (s.wr a v).port = s.port := rfl
@[simp] theorem State.wr_net (a : Nat) (v : Word) : (s.wr a v).net = s.net := rfl
@[simp] theorem State.wr_imp (a : Nat) (v : Word) : (s.wr a v).imp = s.imp := rfl
@[simp] theorem State.wr_log (a : Nat) (v : Word) : (s.wr a v).log = s.log := rfl
@[simp] theorem State.wr_life (a : Nat) (v : Word) : (s.wr a v).life = s.life := rfl
@[simp] theorem State.wr_cal (a : Nat) (v : Word) : (s.wr a v).cal = s.cal := rfl
@[simp] theorem State.wr_bal (a : Nat) (v : Word) : (s.wr a v).bal = s.bal := rfl
@[simp] theorem State.wr_trimOld (a : Nat) (v : Word) : (s.wr a v).trimOld = s.trimOld := rfl
@[simp] theorem State.wr_cfgSwitch (a : Nat) (v : Word) : (s.wr a v).cfgSwitch = s.cfgSwitch := rfl
@[simp] theorem State.wr_meas (a : Nat) (v : Word) : (s.wr a v).meas = s.meas := rfl
@[simp] theorem State.wr_aux (a : Nat) (v : Word) : (s.wr a v).aux = s.aux := rfl
@[simp] theorem State.wr_mgt (a : Nat) (v : Word) : (s.wr a v).mgt = s.mgt := rfl

@[simp] theorem State.wrN_pending (a v : Nat) : (s.wrN a v).pending = s.pending := rfl
@[simp] theorem State.wrN_now (a v : Nat) : (s.wrN a v).now = s.now := rfl
@[simp] theorem State.wrN_ftOfs (a v : Nat) : (s.wrN a v).ftOfs = s.ftOfs := rfl
@[simp] theorem State.wrN_mem (a v : Nat) : (s.wrN a v).mem = s.mem := rfl
@[simp] theorem State.wrN_flash (a v : Nat) : (s.wrN a v).flash = s.flash := rfl
@[simp] theorem State.wrN_free (a v : Nat) : (s.wrN a v).free = s.free := rfl
@[simp] theorem State.wrN_sent (a v : Nat) : (s.wrN a v).sent = s.sent := rfl
@[simp] theorem State.wrN_latches (a v : Nat) : (s.wrN a v).latches = s.latches := rfl
@[simp] theorem State.wrN_sealed (a v : Nat) : (s.wrN a v).sealed = s.sealed := rfl
@[simp] theorem State.wrN_sealRec (a v : Nat) : (s.wrN a v).sealRec = s.sealRec := rfl
@[simp] theorem State.wrN_loaderRw (a v : Nat) : (s.wrN a v).loaderRw = s.loaderRw := rfl
@[simp] theorem State.wrN_privAt (a v : Nat) : (s.wrN a v).privAt = s.privAt := rfl
@[simp] theorem State.wrN_turned (a v : Nat) : (s.wrN a v).turned = s.turned := rfl
@[simp] theorem State.wrN_wakeHeld (a v : Nat) : (s.wrN a v).wakeHeld = s.wakeHeld := rfl
@[simp] theorem State.wrN_tick (a v : Nat) : (s.wrN a v).tick = s.tick := rfl
@[simp] theorem State.wrN_fcr (a v : Nat) : (s.wrN a v).fcr = s.fcr := rfl
@[simp] theorem State.wrN_psf (a v : Nat) : (s.wrN a v).psf = s.psf := rfl
@[simp] theorem State.wrN_eng (a v : Nat) : (s.wrN a v).eng = s.eng := rfl
@[simp] theorem State.wrN_port (a v : Nat) : (s.wrN a v).port = s.port := rfl
@[simp] theorem State.wrN_net (a v : Nat) : (s.wrN a v).net = s.net := rfl
@[simp] theorem State.wrN_imp (a v : Nat) : (s.wrN a v).imp = s.imp := rfl
@[simp] theorem State.wrN_log (a v : Nat) : (s.wrN a v).log = s.log := rfl
@[simp] theorem State.wrN_life (a v : Nat) : (s.wrN a v).life = s.life := rfl
@[simp] theorem State.wrN_cal (a v : Nat) : (s.wrN a v).cal = s.cal := rfl
@[simp] theorem State.wrN_bal (a v : Nat) : (s.wrN a v).bal = s.bal := rfl
@[simp] theorem State.wrN_trimOld (a v : Nat) : (s.wrN a v).trimOld = s.trimOld := rfl
@[simp] theorem State.wrN_cfgSwitch (a v : Nat) : (s.wrN a v).cfgSwitch = s.cfgSwitch := rfl
@[simp] theorem State.wrN_meas (a v : Nat) : (s.wrN a v).meas = s.meas := rfl
@[simp] theorem State.wrN_aux (a v : Nat) : (s.wrN a v).aux = s.aux := rfl
@[simp] theorem State.wrN_mgt (a v : Nat) : (s.wrN a v).mgt = s.mgt := rfl

@[simp] theorem State.put_pending (f : Fld) (v : Nat) : (s.put f v).pending = s.pending := rfl
@[simp] theorem State.put_now (f : Fld) (v : Nat) : (s.put f v).now = s.now := rfl
@[simp] theorem State.put_ftOfs (f : Fld) (v : Nat) : (s.put f v).ftOfs = s.ftOfs := rfl
@[simp] theorem State.put_mem (f : Fld) (v : Nat) : (s.put f v).mem = s.mem := rfl
@[simp] theorem State.put_flash (f : Fld) (v : Nat) : (s.put f v).flash = s.flash := rfl
@[simp] theorem State.put_free (f : Fld) (v : Nat) : (s.put f v).free = s.free := rfl
@[simp] theorem State.put_sent (f : Fld) (v : Nat) : (s.put f v).sent = s.sent := rfl
@[simp] theorem State.put_latches (f : Fld) (v : Nat) : (s.put f v).latches = s.latches := rfl
@[simp] theorem State.put_sealed (f : Fld) (v : Nat) : (s.put f v).sealed = s.sealed := rfl
@[simp] theorem State.put_sealRec (f : Fld) (v : Nat) : (s.put f v).sealRec = s.sealRec := rfl
@[simp] theorem State.put_loaderRw (f : Fld) (v : Nat) : (s.put f v).loaderRw = s.loaderRw := rfl
@[simp] theorem State.put_privAt (f : Fld) (v : Nat) : (s.put f v).privAt = s.privAt := rfl
@[simp] theorem State.put_turned (f : Fld) (v : Nat) : (s.put f v).turned = s.turned := rfl
@[simp] theorem State.put_wakeHeld (f : Fld) (v : Nat) : (s.put f v).wakeHeld = s.wakeHeld := rfl
@[simp] theorem State.put_tick (f : Fld) (v : Nat) : (s.put f v).tick = s.tick := rfl
@[simp] theorem State.put_fcr (f : Fld) (v : Nat) : (s.put f v).fcr = s.fcr := rfl
@[simp] theorem State.put_psf (f : Fld) (v : Nat) : (s.put f v).psf = s.psf := rfl
@[simp] theorem State.put_eng (f : Fld) (v : Nat) : (s.put f v).eng = s.eng := rfl
@[simp] theorem State.put_port (f : Fld) (v : Nat) : (s.put f v).port = s.port := rfl
@[simp] theorem State.put_net (f : Fld) (v : Nat) : (s.put f v).net = s.net := rfl
@[simp] theorem State.put_imp (f : Fld) (v : Nat) : (s.put f v).imp = s.imp := rfl
@[simp] theorem State.put_log (f : Fld) (v : Nat) : (s.put f v).log = s.log := rfl
@[simp] theorem State.put_life (f : Fld) (v : Nat) : (s.put f v).life = s.life := rfl
@[simp] theorem State.put_cal (f : Fld) (v : Nat) : (s.put f v).cal = s.cal := rfl
@[simp] theorem State.put_bal (f : Fld) (v : Nat) : (s.put f v).bal = s.bal := rfl
@[simp] theorem State.put_trimOld (f : Fld) (v : Nat) : (s.put f v).trimOld = s.trimOld := rfl
@[simp] theorem State.put_cfgSwitch (f : Fld) (v : Nat) : (s.put f v).cfgSwitch = s.cfgSwitch := rfl
@[simp] theorem State.put_meas (f : Fld) (v : Nat) : (s.put f v).meas = s.meas := rfl
@[simp] theorem State.put_aux (f : Fld) (v : Nat) : (s.put f v).aux = s.aux := rfl
@[simp] theorem State.put_mgt (f : Fld) (v : Nat) : (s.put f v).mgt = s.mgt := rfl

@[simp] theorem State.putB_pending (f : Fld) (b : Bool) : (s.putB f b).pending = s.pending := rfl
@[simp] theorem State.putB_now (f : Fld) (b : Bool) : (s.putB f b).now = s.now := rfl
@[simp] theorem State.putB_ftOfs (f : Fld) (b : Bool) : (s.putB f b).ftOfs = s.ftOfs := rfl
@[simp] theorem State.putB_mem (f : Fld) (b : Bool) : (s.putB f b).mem = s.mem := rfl
@[simp] theorem State.putB_flash (f : Fld) (b : Bool) : (s.putB f b).flash = s.flash := rfl
@[simp] theorem State.putB_free (f : Fld) (b : Bool) : (s.putB f b).free = s.free := rfl
@[simp] theorem State.putB_sent (f : Fld) (b : Bool) : (s.putB f b).sent = s.sent := rfl
@[simp] theorem State.putB_latches (f : Fld) (b : Bool) : (s.putB f b).latches = s.latches := rfl
@[simp] theorem State.putB_sealed (f : Fld) (b : Bool) : (s.putB f b).sealed = s.sealed := rfl
@[simp] theorem State.putB_sealRec (f : Fld) (b : Bool) : (s.putB f b).sealRec = s.sealRec := rfl
@[simp] theorem State.putB_loaderRw (f : Fld) (b : Bool) : (s.putB f b).loaderRw = s.loaderRw := rfl
@[simp] theorem State.putB_privAt (f : Fld) (b : Bool) : (s.putB f b).privAt = s.privAt := rfl
@[simp] theorem State.putB_turned (f : Fld) (b : Bool) : (s.putB f b).turned = s.turned := rfl
@[simp] theorem State.putB_wakeHeld (f : Fld) (b : Bool) : (s.putB f b).wakeHeld = s.wakeHeld := rfl
@[simp] theorem State.putB_tick (f : Fld) (b : Bool) : (s.putB f b).tick = s.tick := rfl
@[simp] theorem State.putB_fcr (f : Fld) (b : Bool) : (s.putB f b).fcr = s.fcr := rfl
@[simp] theorem State.putB_psf (f : Fld) (b : Bool) : (s.putB f b).psf = s.psf := rfl
@[simp] theorem State.putB_eng (f : Fld) (b : Bool) : (s.putB f b).eng = s.eng := rfl
@[simp] theorem State.putB_port (f : Fld) (b : Bool) : (s.putB f b).port = s.port := rfl
@[simp] theorem State.putB_net (f : Fld) (b : Bool) : (s.putB f b).net = s.net := rfl
@[simp] theorem State.putB_imp (f : Fld) (b : Bool) : (s.putB f b).imp = s.imp := rfl
@[simp] theorem State.putB_log (f : Fld) (b : Bool) : (s.putB f b).log = s.log := rfl
@[simp] theorem State.putB_life (f : Fld) (b : Bool) : (s.putB f b).life = s.life := rfl
@[simp] theorem State.putB_cal (f : Fld) (b : Bool) : (s.putB f b).cal = s.cal := rfl
@[simp] theorem State.putB_bal (f : Fld) (b : Bool) : (s.putB f b).bal = s.bal := rfl
@[simp] theorem State.putB_trimOld (f : Fld) (b : Bool) : (s.putB f b).trimOld = s.trimOld := rfl
@[simp] theorem State.putB_cfgSwitch (f : Fld) (b : Bool) : (s.putB f b).cfgSwitch = s.cfgSwitch := rfl
@[simp] theorem State.putB_meas (f : Fld) (b : Bool) : (s.putB f b).meas = s.meas := rfl
@[simp] theorem State.putB_aux (f : Fld) (b : Bool) : (s.putB f b).aux = s.aux := rfl
@[simp] theorem State.putB_mgt (f : Fld) (b : Bool) : (s.putB f b).mgt = s.mgt := rfl

@[simp] theorem State.putBit_pending (f : Fld) (k : Nat) (b : Bool) : (s.putBit f k b).pending = s.pending := rfl
@[simp] theorem State.putBit_now (f : Fld) (k : Nat) (b : Bool) : (s.putBit f k b).now = s.now := rfl
@[simp] theorem State.putBit_ftOfs (f : Fld) (k : Nat) (b : Bool) : (s.putBit f k b).ftOfs = s.ftOfs := rfl
@[simp] theorem State.putBit_mem (f : Fld) (k : Nat) (b : Bool) : (s.putBit f k b).mem = s.mem := rfl
@[simp] theorem State.putBit_flash (f : Fld) (k : Nat) (b : Bool) : (s.putBit f k b).flash = s.flash := rfl
@[simp] theorem State.putBit_free (f : Fld) (k : Nat) (b : Bool) : (s.putBit f k b).free = s.free := rfl
@[simp] theorem State.putBit_sent (f : Fld) (k : Nat) (b : Bool) : (s.putBit f k b).sent = s.sent := rfl
@[simp] theorem State.putBit_latches (f : Fld) (k : Nat) (b : Bool) : (s.putBit f k b).latches = s.latches := rfl
@[simp] theorem State.putBit_sealed (f : Fld) (k : Nat) (b : Bool) : (s.putBit f k b).sealed = s.sealed := rfl
@[simp] theorem State.putBit_sealRec (f : Fld) (k : Nat) (b : Bool) : (s.putBit f k b).sealRec = s.sealRec := rfl
@[simp] theorem State.putBit_loaderRw (f : Fld) (k : Nat) (b : Bool) : (s.putBit f k b).loaderRw = s.loaderRw := rfl
@[simp] theorem State.putBit_privAt (f : Fld) (k : Nat) (b : Bool) : (s.putBit f k b).privAt = s.privAt := rfl
@[simp] theorem State.putBit_turned (f : Fld) (k : Nat) (b : Bool) : (s.putBit f k b).turned = s.turned := rfl
@[simp] theorem State.putBit_wakeHeld (f : Fld) (k : Nat) (b : Bool) : (s.putBit f k b).wakeHeld = s.wakeHeld := rfl
@[simp] theorem State.putBit_tick (f : Fld) (k : Nat) (b : Bool) : (s.putBit f k b).tick = s.tick := rfl
@[simp] theorem State.putBit_fcr (f : Fld) (k : Nat) (b : Bool) : (s.putBit f k b).fcr = s.fcr := rfl
@[simp] theorem State.putBit_psf (f : Fld) (k : Nat) (b : Bool) : (s.putBit f k b).psf = s.psf := rfl
@[simp] theorem State.putBit_eng (f : Fld) (k : Nat) (b : Bool) : (s.putBit f k b).eng = s.eng := rfl
@[simp] theorem State.putBit_port (f : Fld) (k : Nat) (b : Bool) : (s.putBit f k b).port = s.port := rfl
@[simp] theorem State.putBit_net (f : Fld) (k : Nat) (b : Bool) : (s.putBit f k b).net = s.net := rfl
@[simp] theorem State.putBit_imp (f : Fld) (k : Nat) (b : Bool) : (s.putBit f k b).imp = s.imp := rfl
@[simp] theorem State.putBit_log (f : Fld) (k : Nat) (b : Bool) : (s.putBit f k b).log = s.log := rfl
@[simp] theorem State.putBit_life (f : Fld) (k : Nat) (b : Bool) : (s.putBit f k b).life = s.life := rfl
@[simp] theorem State.putBit_cal (f : Fld) (k : Nat) (b : Bool) : (s.putBit f k b).cal = s.cal := rfl
@[simp] theorem State.putBit_bal (f : Fld) (k : Nat) (b : Bool) : (s.putBit f k b).bal = s.bal := rfl
@[simp] theorem State.putBit_trimOld (f : Fld) (k : Nat) (b : Bool) : (s.putBit f k b).trimOld = s.trimOld := rfl
@[simp] theorem State.putBit_cfgSwitch (f : Fld) (k : Nat) (b : Bool) : (s.putBit f k b).cfgSwitch = s.cfgSwitch := rfl
@[simp] theorem State.putBit_meas (f : Fld) (k : Nat) (b : Bool) : (s.putBit f k b).meas = s.meas := rfl
@[simp] theorem State.putBit_aux (f : Fld) (k : Nat) (b : Bool) : (s.putBit f k b).aux = s.aux := rfl
@[simp] theorem State.putBit_mgt (f : Fld) (k : Nat) (b : Bool) : (s.putBit f k b).mgt = s.mgt := rfl

@[simp] theorem State.bump_pending (f : Fld) (n : Nat) : (s.bump f n).pending = s.pending := rfl
@[simp] theorem State.bump_now (f : Fld) (n : Nat) : (s.bump f n).now = s.now := rfl
@[simp] theorem State.bump_ftOfs (f : Fld) (n : Nat) : (s.bump f n).ftOfs = s.ftOfs := rfl
@[simp] theorem State.bump_mem (f : Fld) (n : Nat) : (s.bump f n).mem = s.mem := rfl
@[simp] theorem State.bump_flash (f : Fld) (n : Nat) : (s.bump f n).flash = s.flash := rfl
@[simp] theorem State.bump_free (f : Fld) (n : Nat) : (s.bump f n).free = s.free := rfl
@[simp] theorem State.bump_sent (f : Fld) (n : Nat) : (s.bump f n).sent = s.sent := rfl
@[simp] theorem State.bump_latches (f : Fld) (n : Nat) : (s.bump f n).latches = s.latches := rfl
@[simp] theorem State.bump_sealed (f : Fld) (n : Nat) : (s.bump f n).sealed = s.sealed := rfl
@[simp] theorem State.bump_sealRec (f : Fld) (n : Nat) : (s.bump f n).sealRec = s.sealRec := rfl
@[simp] theorem State.bump_loaderRw (f : Fld) (n : Nat) : (s.bump f n).loaderRw = s.loaderRw := rfl
@[simp] theorem State.bump_privAt (f : Fld) (n : Nat) : (s.bump f n).privAt = s.privAt := rfl
@[simp] theorem State.bump_turned (f : Fld) (n : Nat) : (s.bump f n).turned = s.turned := rfl
@[simp] theorem State.bump_wakeHeld (f : Fld) (n : Nat) : (s.bump f n).wakeHeld = s.wakeHeld := rfl
@[simp] theorem State.bump_tick (f : Fld) (n : Nat) : (s.bump f n).tick = s.tick := rfl
@[simp] theorem State.bump_fcr (f : Fld) (n : Nat) : (s.bump f n).fcr = s.fcr := rfl
@[simp] theorem State.bump_psf (f : Fld) (n : Nat) : (s.bump f n).psf = s.psf := rfl
@[simp] theorem State.bump_eng (f : Fld) (n : Nat) : (s.bump f n).eng = s.eng := rfl
@[simp] theorem State.bump_port (f : Fld) (n : Nat) : (s.bump f n).port = s.port := rfl
@[simp] theorem State.bump_net (f : Fld) (n : Nat) : (s.bump f n).net = s.net := rfl
@[simp] theorem State.bump_imp (f : Fld) (n : Nat) : (s.bump f n).imp = s.imp := rfl
@[simp] theorem State.bump_log (f : Fld) (n : Nat) : (s.bump f n).log = s.log := rfl
@[simp] theorem State.bump_life (f : Fld) (n : Nat) : (s.bump f n).life = s.life := rfl
@[simp] theorem State.bump_cal (f : Fld) (n : Nat) : (s.bump f n).cal = s.cal := rfl
@[simp] theorem State.bump_bal (f : Fld) (n : Nat) : (s.bump f n).bal = s.bal := rfl
@[simp] theorem State.bump_trimOld (f : Fld) (n : Nat) : (s.bump f n).trimOld = s.trimOld := rfl
@[simp] theorem State.bump_cfgSwitch (f : Fld) (n : Nat) : (s.bump f n).cfgSwitch = s.cfgSwitch := rfl
@[simp] theorem State.bump_meas (f : Fld) (n : Nat) : (s.bump f n).meas = s.meas := rfl
@[simp] theorem State.bump_aux (f : Fld) (n : Nat) : (s.bump f n).aux = s.aux := rfl
@[simp] theorem State.bump_mgt (f : Fld) (n : Nat) : (s.bump f n).mgt = s.mgt := rfl

@[simp] theorem State.put64_pending (a v : Nat) : (s.put64 a v).pending = s.pending := rfl
@[simp] theorem State.put64_now (a v : Nat) : (s.put64 a v).now = s.now := rfl
@[simp] theorem State.put64_ftOfs (a v : Nat) : (s.put64 a v).ftOfs = s.ftOfs := rfl
@[simp] theorem State.put64_mem (a v : Nat) : (s.put64 a v).mem = s.mem := rfl
@[simp] theorem State.put64_flash (a v : Nat) : (s.put64 a v).flash = s.flash := rfl
@[simp] theorem State.put64_free (a v : Nat) : (s.put64 a v).free = s.free := rfl
@[simp] theorem State.put64_sent (a v : Nat) : (s.put64 a v).sent = s.sent := rfl
@[simp] theorem State.put64_latches (a v : Nat) : (s.put64 a v).latches = s.latches := rfl
@[simp] theorem State.put64_sealed (a v : Nat) : (s.put64 a v).sealed = s.sealed := rfl
@[simp] theorem State.put64_sealRec (a v : Nat) : (s.put64 a v).sealRec = s.sealRec := rfl
@[simp] theorem State.put64_loaderRw (a v : Nat) : (s.put64 a v).loaderRw = s.loaderRw := rfl
@[simp] theorem State.put64_privAt (a v : Nat) : (s.put64 a v).privAt = s.privAt := rfl
@[simp] theorem State.put64_turned (a v : Nat) : (s.put64 a v).turned = s.turned := rfl
@[simp] theorem State.put64_wakeHeld (a v : Nat) : (s.put64 a v).wakeHeld = s.wakeHeld := rfl
@[simp] theorem State.put64_tick (a v : Nat) : (s.put64 a v).tick = s.tick := rfl
@[simp] theorem State.put64_fcr (a v : Nat) : (s.put64 a v).fcr = s.fcr := rfl
@[simp] theorem State.put64_psf (a v : Nat) : (s.put64 a v).psf = s.psf := rfl
@[simp] theorem State.put64_eng (a v : Nat) : (s.put64 a v).eng = s.eng := rfl
@[simp] theorem State.put64_port (a v : Nat) : (s.put64 a v).port = s.port := rfl
@[simp] theorem State.put64_net (a v : Nat) : (s.put64 a v).net = s.net := rfl
@[simp] theorem State.put64_imp (a v : Nat) : (s.put64 a v).imp = s.imp := rfl
@[simp] theorem State.put64_log (a v : Nat) : (s.put64 a v).log = s.log := rfl
@[simp] theorem State.put64_life (a v : Nat) : (s.put64 a v).life = s.life := rfl
@[simp] theorem State.put64_cal (a v : Nat) : (s.put64 a v).cal = s.cal := rfl
@[simp] theorem State.put64_bal (a v : Nat) : (s.put64 a v).bal = s.bal := rfl
@[simp] theorem State.put64_trimOld (a v : Nat) : (s.put64 a v).trimOld = s.trimOld := rfl
@[simp] theorem State.put64_cfgSwitch (a v : Nat) : (s.put64 a v).cfgSwitch = s.cfgSwitch := rfl
@[simp] theorem State.put64_meas (a v : Nat) : (s.put64 a v).meas = s.meas := rfl
@[simp] theorem State.put64_aux (a v : Nat) : (s.put64 a v).aux = s.aux := rfl
@[simp] theorem State.put64_mgt (a v : Nat) : (s.put64 a v).mgt = s.mgt := rfl

@[simp] theorem State.memPut_pending (a : Nat) (l : List Byte) : (s.memPut a l).pending = s.pending := rfl
@[simp] theorem State.memPut_now (a : Nat) (l : List Byte) : (s.memPut a l).now = s.now := rfl
@[simp] theorem State.memPut_ftOfs (a : Nat) (l : List Byte) : (s.memPut a l).ftOfs = s.ftOfs := rfl
@[simp] theorem State.memPut_regs (a : Nat) (l : List Byte) : (s.memPut a l).regs = s.regs := rfl
@[simp] theorem State.memPut_flash (a : Nat) (l : List Byte) : (s.memPut a l).flash = s.flash := rfl
@[simp] theorem State.memPut_free (a : Nat) (l : List Byte) : (s.memPut a l).free = s.free := rfl
@[simp] theorem State.memPut_sent (a : Nat) (l : List Byte) : (s.memPut a l).sent = s.sent := rfl
@[simp] theorem State.memPut_latches (a : Nat) (l : List Byte) : (s.memPut a l).latches = s.latches := rfl
@[simp] theorem State.memPut_sealed (a : Nat) (l : List Byte) : (s.memPut a l).sealed = s.sealed := rfl
@[simp] theorem State.memPut_sealRec (a : Nat) (l : List Byte) : (s.memPut a l).sealRec = s.sealRec := rfl
@[simp] theorem State.memPut_loaderRw (a : Nat) (l : List Byte) : (s.memPut a l).loaderRw = s.loaderRw := rfl
@[simp] theorem State.memPut_privAt (a : Nat) (l : List Byte) : (s.memPut a l).privAt = s.privAt := rfl
@[simp] theorem State.memPut_turned (a : Nat) (l : List Byte) : (s.memPut a l).turned = s.turned := rfl
@[simp] theorem State.memPut_wakeHeld (a : Nat) (l : List Byte) : (s.memPut a l).wakeHeld = s.wakeHeld := rfl
@[simp] theorem State.memPut_tick (a : Nat) (l : List Byte) : (s.memPut a l).tick = s.tick := rfl
@[simp] theorem State.memPut_fcr (a : Nat) (l : List Byte) : (s.memPut a l).fcr = s.fcr := rfl
@[simp] theorem State.memPut_psf (a : Nat) (l : List Byte) : (s.memPut a l).psf = s.psf := rfl
@[simp] theorem State.memPut_eng (a : Nat) (l : List Byte) : (s.memPut a l).eng = s.eng := rfl
@[simp] theorem State.memPut_port (a : Nat) (l : List Byte) : (s.memPut a l).port = s.port := rfl
@[simp] theorem State.memPut_net (a : Nat) (l : List Byte) : (s.memPut a l).net = s.net := rfl
@[simp] theorem State.memPut_imp (a : Nat) (l : List Byte) : (s.memPut a l).imp = s.imp := rfl
@[simp] theorem State.memPut_log (a : Nat) (l : List Byte) : (s.memPut a l).log = s.log := rfl
@[simp] theorem State.memPut_life (a : Nat) (l : List Byte) : (s.memPut a l).life = s.life := rfl
@[simp] theorem State.memPut_cal (a : Nat) (l : List Byte) : (s.memPut a l).cal = s.cal := rfl
@[simp] theorem State.memPut_bal (a : Nat) (l : List Byte) : (s.memPut a l).bal = s.bal := rfl
@[simp] theorem State.memPut_trimOld (a : Nat) (l : List Byte) : (s.memPut a l).trimOld = s.trimOld := rfl
@[simp] theorem State.memPut_cfgSwitch (a : Nat) (l : List Byte) : (s.memPut a l).cfgSwitch = s.cfgSwitch := rfl
@[simp] theorem State.memPut_meas (a : Nat) (l : List Byte) : (s.memPut a l).meas = s.meas := rfl
@[simp] theorem State.memPut_aux (a : Nat) (l : List Byte) : (s.memPut a l).aux = s.aux := rfl
@[simp] theorem State.memPut_mgt (a : Nat) (l : List Byte) : (s.memPut a l).mgt = s.mgt := rfl

@[simp] theorem State.emit_pending (x : Sent) : (s.emit x).pending = s.pending := rfl
@[simp] theorem State.emit_now (x : Sent) : (s.emit x).now = s.now := rfl
@[simp] theorem State.emit_ftOfs (x : Sent) : (s.emit x).ftOfs = s.ftOfs := rfl
@[simp] theorem State.emit_regs (x : Sent) : (s.emit x).regs = s.regs := rfl
@[simp] theorem State.emit_mem (x : Sent) : (s.emit x).mem = s.mem := rfl
@[simp] theorem State.emit_flash (x : Sent) : (s.emit x).flash = s.flash := rfl
@[simp] theorem State.emit_free (x : Sent) : (s.emit x).free = s.free := rfl
@[simp] theorem State.emit_latches (x : Sent) : (s.emit x).latches = s.latches := rfl
@[simp] theorem State.emit_sealed (x : Sent) : (s.emit x).sealed = s.sealed := rfl
@[simp] theorem State.emit_sealRec (x : Sent) : (s.emit x).sealRec = s.sealRec := rfl
@[simp] theorem State.emit_loaderRw (x : Sent) : (s.emit x).loaderRw = s.loaderRw := rfl
@[simp] theorem State.emit_privAt (x : Sent) : (s.emit x).privAt = s.privAt := rfl
@[simp] theorem State.emit_turned (x : Sent) : (s.emit x).turned = s.turned := rfl
@[simp] theorem State.emit_wakeHeld (x : Sent) : (s.emit x).wakeHeld = s.wakeHeld := rfl
@[simp] theorem State.emit_tick (x : Sent) : (s.emit x).tick = s.tick := rfl
@[simp] theorem State.emit_fcr (x : Sent) : (s.emit x).fcr = s.fcr := rfl
@[simp] theorem State.emit_psf (x : Sent) : (s.emit x).psf = s.psf := rfl
@[simp] theorem State.emit_eng (x : Sent) : (s.emit x).eng = s.eng := rfl
@[simp] theorem State.emit_port (x : Sent) : (s.emit x).port = s.port := rfl
@[simp] theorem State.emit_net (x : Sent) : (s.emit x).net = s.net := rfl
@[simp] theorem State.emit_imp (x : Sent) : (s.emit x).imp = s.imp := rfl
@[simp] theorem State.emit_log (x : Sent) : (s.emit x).log = s.log := rfl
@[simp] theorem State.emit_life (x : Sent) : (s.emit x).life = s.life := rfl
@[simp] theorem State.emit_cal (x : Sent) : (s.emit x).cal = s.cal := rfl
@[simp] theorem State.emit_bal (x : Sent) : (s.emit x).bal = s.bal := rfl
@[simp] theorem State.emit_trimOld (x : Sent) : (s.emit x).trimOld = s.trimOld := rfl
@[simp] theorem State.emit_cfgSwitch (x : Sent) : (s.emit x).cfgSwitch = s.cfgSwitch := rfl
@[simp] theorem State.emit_meas (x : Sent) : (s.emit x).meas = s.meas := rfl
@[simp] theorem State.emit_aux (x : Sent) : (s.emit x).aux = s.aux := rfl
@[simp] theorem State.emit_mgt (x : Sent) : (s.emit x).mgt = s.mgt := rfl

@[simp] theorem State.onEng_pending (e : Nat) (g : EngSt → EngSt) : (s.onEng e g).pending = s.pending := rfl
@[simp] theorem State.onEng_now (e : Nat) (g : EngSt → EngSt) : (s.onEng e g).now = s.now := rfl
@[simp] theorem State.onEng_ftOfs (e : Nat) (g : EngSt → EngSt) : (s.onEng e g).ftOfs = s.ftOfs := rfl
@[simp] theorem State.onEng_regs (e : Nat) (g : EngSt → EngSt) : (s.onEng e g).regs = s.regs := rfl
@[simp] theorem State.onEng_mem (e : Nat) (g : EngSt → EngSt) : (s.onEng e g).mem = s.mem := rfl
@[simp] theorem State.onEng_flash (e : Nat) (g : EngSt → EngSt) : (s.onEng e g).flash = s.flash := rfl
@[simp] theorem State.onEng_free (e : Nat) (g : EngSt → EngSt) : (s.onEng e g).free = s.free := rfl
@[simp] theorem State.onEng_sent (e : Nat) (g : EngSt → EngSt) : (s.onEng e g).sent = s.sent := rfl
@[simp] theorem State.onEng_latches (e : Nat) (g : EngSt → EngSt) : (s.onEng e g).latches = s.latches := rfl
@[simp] theorem State.onEng_sealed (e : Nat) (g : EngSt → EngSt) : (s.onEng e g).sealed = s.sealed := rfl
@[simp] theorem State.onEng_sealRec (e : Nat) (g : EngSt → EngSt) : (s.onEng e g).sealRec = s.sealRec := rfl
@[simp] theorem State.onEng_loaderRw (e : Nat) (g : EngSt → EngSt) : (s.onEng e g).loaderRw = s.loaderRw := rfl
@[simp] theorem State.onEng_privAt (e : Nat) (g : EngSt → EngSt) : (s.onEng e g).privAt = s.privAt := rfl
@[simp] theorem State.onEng_turned (e : Nat) (g : EngSt → EngSt) : (s.onEng e g).turned = s.turned := rfl
@[simp] theorem State.onEng_wakeHeld (e : Nat) (g : EngSt → EngSt) : (s.onEng e g).wakeHeld = s.wakeHeld := rfl
@[simp] theorem State.onEng_tick (e : Nat) (g : EngSt → EngSt) : (s.onEng e g).tick = s.tick := rfl
@[simp] theorem State.onEng_fcr (e : Nat) (g : EngSt → EngSt) : (s.onEng e g).fcr = s.fcr := rfl
@[simp] theorem State.onEng_psf (e : Nat) (g : EngSt → EngSt) : (s.onEng e g).psf = s.psf := rfl
@[simp] theorem State.onEng_port (e : Nat) (g : EngSt → EngSt) : (s.onEng e g).port = s.port := rfl
@[simp] theorem State.onEng_net (e : Nat) (g : EngSt → EngSt) : (s.onEng e g).net = s.net := rfl
@[simp] theorem State.onEng_imp (e : Nat) (g : EngSt → EngSt) : (s.onEng e g).imp = s.imp := rfl
@[simp] theorem State.onEng_log (e : Nat) (g : EngSt → EngSt) : (s.onEng e g).log = s.log := rfl
@[simp] theorem State.onEng_life (e : Nat) (g : EngSt → EngSt) : (s.onEng e g).life = s.life := rfl
@[simp] theorem State.onEng_cal (e : Nat) (g : EngSt → EngSt) : (s.onEng e g).cal = s.cal := rfl
@[simp] theorem State.onEng_bal (e : Nat) (g : EngSt → EngSt) : (s.onEng e g).bal = s.bal := rfl
@[simp] theorem State.onEng_trimOld (e : Nat) (g : EngSt → EngSt) : (s.onEng e g).trimOld = s.trimOld := rfl
@[simp] theorem State.onEng_cfgSwitch (e : Nat) (g : EngSt → EngSt) : (s.onEng e g).cfgSwitch = s.cfgSwitch := rfl
@[simp] theorem State.onEng_meas (e : Nat) (g : EngSt → EngSt) : (s.onEng e g).meas = s.meas := rfl
@[simp] theorem State.onEng_aux (e : Nat) (g : EngSt → EngSt) : (s.onEng e g).aux = s.aux := rfl
@[simp] theorem State.onEng_mgt (e : Nat) (g : EngSt → EngSt) : (s.onEng e g).mgt = s.mgt := rfl

@[simp] theorem State.onPort_pending (n : Nat) (g : PortSt → PortSt) : (s.onPort n g).pending = s.pending := rfl
@[simp] theorem State.onPort_now (n : Nat) (g : PortSt → PortSt) : (s.onPort n g).now = s.now := rfl
@[simp] theorem State.onPort_ftOfs (n : Nat) (g : PortSt → PortSt) : (s.onPort n g).ftOfs = s.ftOfs := rfl
@[simp] theorem State.onPort_regs (n : Nat) (g : PortSt → PortSt) : (s.onPort n g).regs = s.regs := rfl
@[simp] theorem State.onPort_mem (n : Nat) (g : PortSt → PortSt) : (s.onPort n g).mem = s.mem := rfl
@[simp] theorem State.onPort_flash (n : Nat) (g : PortSt → PortSt) : (s.onPort n g).flash = s.flash := rfl
@[simp] theorem State.onPort_free (n : Nat) (g : PortSt → PortSt) : (s.onPort n g).free = s.free := rfl
@[simp] theorem State.onPort_sent (n : Nat) (g : PortSt → PortSt) : (s.onPort n g).sent = s.sent := rfl
@[simp] theorem State.onPort_latches (n : Nat) (g : PortSt → PortSt) : (s.onPort n g).latches = s.latches := rfl
@[simp] theorem State.onPort_sealed (n : Nat) (g : PortSt → PortSt) : (s.onPort n g).sealed = s.sealed := rfl
@[simp] theorem State.onPort_sealRec (n : Nat) (g : PortSt → PortSt) : (s.onPort n g).sealRec = s.sealRec := rfl
@[simp] theorem State.onPort_loaderRw (n : Nat) (g : PortSt → PortSt) : (s.onPort n g).loaderRw = s.loaderRw := rfl
@[simp] theorem State.onPort_privAt (n : Nat) (g : PortSt → PortSt) : (s.onPort n g).privAt = s.privAt := rfl
@[simp] theorem State.onPort_turned (n : Nat) (g : PortSt → PortSt) : (s.onPort n g).turned = s.turned := rfl
@[simp] theorem State.onPort_wakeHeld (n : Nat) (g : PortSt → PortSt) : (s.onPort n g).wakeHeld = s.wakeHeld := rfl
@[simp] theorem State.onPort_tick (n : Nat) (g : PortSt → PortSt) : (s.onPort n g).tick = s.tick := rfl
@[simp] theorem State.onPort_fcr (n : Nat) (g : PortSt → PortSt) : (s.onPort n g).fcr = s.fcr := rfl
@[simp] theorem State.onPort_psf (n : Nat) (g : PortSt → PortSt) : (s.onPort n g).psf = s.psf := rfl
@[simp] theorem State.onPort_eng (n : Nat) (g : PortSt → PortSt) : (s.onPort n g).eng = s.eng := rfl
@[simp] theorem State.onPort_net (n : Nat) (g : PortSt → PortSt) : (s.onPort n g).net = s.net := rfl
@[simp] theorem State.onPort_imp (n : Nat) (g : PortSt → PortSt) : (s.onPort n g).imp = s.imp := rfl
@[simp] theorem State.onPort_log (n : Nat) (g : PortSt → PortSt) : (s.onPort n g).log = s.log := rfl
@[simp] theorem State.onPort_life (n : Nat) (g : PortSt → PortSt) : (s.onPort n g).life = s.life := rfl
@[simp] theorem State.onPort_cal (n : Nat) (g : PortSt → PortSt) : (s.onPort n g).cal = s.cal := rfl
@[simp] theorem State.onPort_bal (n : Nat) (g : PortSt → PortSt) : (s.onPort n g).bal = s.bal := rfl
@[simp] theorem State.onPort_trimOld (n : Nat) (g : PortSt → PortSt) : (s.onPort n g).trimOld = s.trimOld := rfl
@[simp] theorem State.onPort_cfgSwitch (n : Nat) (g : PortSt → PortSt) : (s.onPort n g).cfgSwitch = s.cfgSwitch := rfl
@[simp] theorem State.onPort_meas (n : Nat) (g : PortSt → PortSt) : (s.onPort n g).meas = s.meas := rfl
@[simp] theorem State.onPort_aux (n : Nat) (g : PortSt → PortSt) : (s.onPort n g).aux = s.aux := rfl
@[simp] theorem State.onPort_mgt (n : Nat) (g : PortSt → PortSt) : (s.onPort n g).mgt = s.mgt := rfl

end Sys2Proof.Machine
end

