-- ==== Sys2Proof/Tests/Slice0.lean ====
section
/-! SUPPORT. Tests of the model on fixed values: the witnesses of the statements' hypotheses, ill-formed operands refused, small
examples of the manual. -/

namespace Sys2Proof.Tests

set_option Elab.async false

open Sys2Proof Sys2Proof.Machine

/-- A part in RUN with all its domains on. -/
def run : State :=
  { ((State.reset.put MGT_MODE_STAT_MODE 2).put MGT_PWR_STAT_ON 0x3FF).put MGT_STARTUP_DONE 1 with
    mgt := { State.reset.mgt with por := false, vio := true } }

/-- The same part in SERVICE. -/
def svc : State := run.put MGT_MODE_STAT_MODE 4

/-- An island that ticks, LOCKED, with Straits 0 (its upstream) and 1 up. -/
def island : State :=
  let s := ((run.put (FAB_PORTn_STAT_STATE 0) 4).put (FAB_PORTn_STAT_STATE 1) 4).put TMG_STAT_STATE 2
  let s := ((s.put FAB_POS_UPV 1).put TMG_STAT_UPSTREAM 0).put TMG_CTRL_EN 1
  { s with tick := { s.tick with running := true } }

/-- The same part as the active harbour. -/
def harbourTicks : State := (island.put FAB_NET_STAT_HARBOUR 1).put FAB_POS_UPV 0

/-- A time-exchange reply's bytes. -/
def reply : List Byte :=
  timexReplyBytes { seq := 7, t2 := 2000, t3 := 3000, tick := 5, off := 0, res := 768, period := 1000, epoch := 0, utc := 0, ksw := 0,
                    pnew := 0, lock := 2, harbour := true, pchg := false, crcOk := true }

/-- An open-wire step on tap 2, its dwell over, the failure of the tap forced. -/
def owRuns : State :=
  { run.put64 TMG_TICK_LO 5 with meas := { run.meas with ow := { run.meas.ow with on := true, ended := false, taps := [2], force := [2] } } }

/-- Sweeps enabled, bin 3 at 10 Hz in stage 0 the temperature bin. -/
def sweepOn : State :=
  let s := ((run.put CSI_IMP_CTRL_EN 1).put CSI_IMP_SCHED_FULL_MIN 10).put CSI_IMP_SCHED_TEMP_S 10
  (((s.put (CSI_IMP_BINb_CFG_F 3) 1000).put CSI_IMP_TCFG_BIN 3).put CSI_IMP_CTRL_MPER 4).put TMG_STAT_NB 32

/-- A full sweep in an active window of phase 1 that has taken its samples. -/
def theSweep : SweepRun :=
  { kind := 0, seq := 1, tStart := 0, kStart := 0, stage := 0, bins := [3], inWindow := true, settleK := 0, winK := 0, winAt := 0, lastAt := 0, win := 0,
    nw := 0, n := 0, passive := false, tries := 0, drive := { phases := [1], pos := 2, bins := [], nw := 0, at_ := 0 }, phases := [1], pos := 2, exc := 0, held := 0, sat := 0, late := 0, removed := 0,
    acc := [], info := Vector.replicate 24 { fact := 0, nw := 0, count := 0, state := 0, passive := false, complete := false },
    res := [], planErr := false, holdover := false, incoh := false, thr1 := false, sumI := 0, cntI := 0 }

/-- The part in that sweep. -/
def sweepRuns : State := { sweepOn with imp := { sweepOn.imp with run := some theSweep } }

/-- The sweep in progress changed by `f`. -/
def onSweep (s : State) (f : SweepRun → SweepRun) : State := { s with imp := { s.imp with run := s.imp.run.map f } }

/-- The same with bin 3 passive. -/
def passiveOn : State := sweepOn.put (CSI_IMP_BINb_CFG_SRC 3) 1

/-- The sums of bin 3 over a window: a module current and a voltage that follows it. -/
def anAcc : BinAcc :=
  { bin := 3, count := 64, v := List.replicate 32 (2 ^ 70, 2 ^ 68), m := (2 ^ 80, 0), p := List.replicate 8 (2 ^ 80, 0), s := (0, 0) }

/-- A passive window of bin 3 that has taken its samples. -/
def passWindow : SweepRun := { theSweep with passive := true, nw := 4096, n := 4096, acc := [anAcc] }

/-- The same without any module current. -/
def noCurrent : BinAcc := { anAcc with m := (0, 0) }

/-- The part at the end of a passive window whose current is below the limit. -/
def lowPassive : State :=
  { (passiveOn.put CSI_IMP_PASV_TRIES 3).put CSI_IMP_PASV_THR 4000 with
    imp := { sweepOn.imp with run := some { passWindow with acc := [noCurrent] } } }

/-- The part at the end of a passive window, the last one of its sweep. -/
def lastPassive : State := { passiveOn.put CMF_CELLS_N 16 with imp := { sweepOn.imp with run := some passWindow } }

/-- The same with a passive bin in a later stage. -/
def twoStages : State :=
  (((lastPassive.put (CSI_IMP_BINb_CFG_F 5) 2000).put (CSI_IMP_BINb_CFG_SRC 5) 1).put (CSI_IMP_BINb_CFG_STAGE 5) 2)

/-- Phase 1 in round-robin with its four cells to be charged, cell 4 connected. -/
def ferry : State :=
  let s := ((((run.put CMF_CELLS_N 16).put BAL_CTRL_EN 1).put (BAL_PHp_CFG_EN 1) 1).put (BAL_PHp_CFG_NRATIO 1) 12).put (BAL_PHp_CFG_RRMASK 1) 15
  let s := ((s.put CMF_SUM_V_VALID 1).put CMF_SUM_V_SUM 4000000).put TMG_STAT_NB 32
  let s := (List.range 4).foldl (fun s j => (s.put (CMF_CELLn_FLAG_VALID (4 + j)) 1).onCell (4 + j)
    fun b => { b with rem := 5000, noValid := 0, lastV := 3700000 }) s
  s.onPhase 1 fun h => { h with sel := some 0, cmd := (100, 1, 0), age := 0, scanReq := false }

/-- An active window of bin 3 with cell 4 connected that has taken its samples. -/
def actWindow : SweepRun := { theSweep with pos := 0, nw := 4096, n := 4096, acc := [anAcc] }

/-- The part at the end of that window. -/
def activeWin : State :=
  let s := (((sweepOn.put CMF_CELLS_N 16).put (CSI_IMP_BINb_CFG_AMP 3) 20).put CSI_IMP_EXC_PHMASK 2).put CSI_IMP_EXC_IMIN 100
  { s with imp := { s.imp with run := some actWindow } }

/-- The same window with its sine at the crest, above the cap of the phase. -/
def clipWindow : SweepRun :=
  { actWindow with winAt := 0, n := 5, acc := [{ anAcc with count := 1 }], drive := { phases := [1], pos := 0, bins := [(3, 1)], nw := 4096, at_ := 0 } }

/-- The part in that window. -/
def clipping : State :=
  { ((ferry.put (CSI_IMP_BINb_CFG_AMP 3) 150).put (BAL_PHp_TLIM_CAP 1) 200) with imp := { ferry.imp with run := some clipWindow }, now := 512000000 }

/-- The same phase while it changes to position 2. -/
def ferryChange : State := ferry.onPhase 1 fun h => { h with sel := none, change := some (2, 0) }

/-- The same phase at the end of its slot. -/
def ferrySlot : State := { ferry with now := 100 * sec, tick := { ferry.tick with open_ := true } }

/-- Phase 1 fenced, in passive fallback at the end of a slot, its second cell to be discharged. -/
def bleeds : State :=
  let s := (((ferrySlot.put (BAL_PHp_STAT_FENCED 1) 1).put (BAL_PHp_STAT_STATE 1) 4).put (BAL_PHp_CFG_BLEED_EN 1) 1).put BAL_BLEED_EN 1
  s.onCell 5 fun b => { b with rem := -5000 }

/-- A scan with the reference reading `r` in 0.1 mV. -/
def scanOf (r : BitVec 16) : ScanResult := { code := Vector.replicate 16 0, auxref := r, td0 := none, td1 := none, gnd := 0 }

/-- The part with thresholds at 120 °C, 130 °C and 140 °C. -/
def hotDie : State := ((run.put AUX_THR_CFG_T1 120).put AUX_THR_CFG_T2 130).put AUX_THR_CFG_T3 140

/-- Engine 3 executes, with values in its registers and accumulators; MC executes too. -/
def engRun : State :=
  ((run.put (ENG_n_STAT_STATE 3) 1).put (ENG_n_STAT_STATE 15) 1).onEng 3 fun g =>
    { g with x := vset (vset g.x 2 0x7FFF8001) 3 0x80017FFF, acc := vset (vset g.acc 1 0x7FFFFFFFFF) 2 5 }

/-- Engine 3 halted, with an instruction of two halves at its program counter. -/
def stepAt (lo hi : Nat) : State :=
  (((svc.put (ENG_n_DBG_HALT 3) 1).put (ENG_n_STAT_STATE 3) 5).memPut 0x460000 (leBytes 2 lo ++ leBytes 2 hi)).onEng 3 fun g =>
    { g with pc := 0xE00000, x := vset (vset (vset g.x 10 0x10002) 11 0x30005) 12 7 }

/-- A message from MC to engine 4. -/
def aMsg : Msg := { src := 15, dst := 4, tag := 0, rreq := false, reply := false, status := 0, pay := 9 }

/-- The island with its address 5, its Straits enabled and with buffers, and a route to island 7 on Strait 0. -/
def linked : State :=
  let s := (List.range 4).foldl (fun s n => s.put (FAB_PORTn_CFG_EN n) 1) (island.put FAB_CTRL_EN 1)
  let s := ((s.put FAB_NET_STAT_ADDR 5).put FAB_NET_STAT_ASSIGNED 1).put (FAB_RTd_VALID 7) 1
  (List.range 2).foldl (fun s n => s.onPort n fun q =>
    { q with own := Vector.replicate 6 16, allot := Vector.replicate 6 16 }) s

/-- A frame of type 0x20 for destination `d` as it arrives. -/
def frameFor (d : Nat) : Frame := { dst := d, src := 9, typ := 0x20, cls := 1, vc := 0, hops := 0, seq := 4, payload := [1, 2, 3, 4] }

/-- These bytes on the line with two FILLs, then the symbol `e`. -/
def onLine (l : List Byte) (e : Nat) : WireFrame :=
  { groups := encodeLine false ([.k kFill] ++ l.map .data ++ [.k kFill, .k e]), plus := false, ecc := .clean }

/-- That frame on the line. -/
def goodFrame (d : Nat) : WireFrame := onLine (wireBytes (frameFor d)) kEof

/-- That frame as it is heard. -/
def goodHeard (d : Nat) : HeardFrame :=
  { bytes := wireBytes (frameFor d), ending := .eof, upset := none, fills := 2, removed := 2, ecc := .clean }

/-- A frame that ends within its header. -/
def badFrame : WireFrame := onLine [1, 2, 3] kEof

/-- That frame as it is heard. -/
def badHeard : HeardFrame := { bytes := [1, 2, 3], ending := .eof, upset := none, fills := 2, removed := 2, ecc := .clean }

/-- A Control frame in a transmit queue. -/
def anItem (from_ : Option (Fin 4)) : TxItem :=
  { frame := frameFor 7, arrival := from_, aq := 2, bad := false, since := 0 }

/-- The part with that frame at the head of queue 2 of Strait 0. -/
def queued (from_ : Option (Fin 4)) : State :=
  linked.onPort 0 fun q => { q with txq := vset q.txq 2 [anItem from_] }

/-- The part in a broadcast tree: parent on Strait 1, a child on Strait 0. -/
def casting : State := ((linked.put FAB_BCAST_PV 1).put FAB_BCAST_PARENT 1).put FAB_BCAST_CHILD 1

/-- The part with Strait 2 in training, aligned. -/
def training : State := (linked.put (FAB_PORTn_STAT_STATE 2) 3).onPort 2 fun q => { q with aligned := true }

/-- A TS2 of a peer. -/
def aSet : TrainSet :=
  { ts2 := true, uid := 77, port := 1, role := 0, ver := 1, allot := Vector.replicate 6 16, cap := 0, crcOk := true }

/-- Its bytes. -/
def aTs : List Byte := trainBytes aSet

/-- The linked island as the active harbour, quiet. -/
def sounder : State := (linked.put FAB_NET_STAT_HARBOUR 1).put FAB_NET_STAT_ADDR 0

/-- The harbour in round 1, alone in its map. -/
def soundRuns : State :=
  let lone : Report := { uid := 0, depth := 0, prev := 0xFE, cap := 0, tchg := false, ports := List.replicate 4 { state := 0, peer := 0, peerPort := 0 } }
  { sounder with net := { sounder.net with curRound := 1, rnd := { sounder.net.rnd with running := true, number := 1, reports := [lone] } } }

/-- A SOUND frame with a round and a body. -/
def sound (typ round : Nat) (body : List Byte) : Frame :=
  { dst := 0xFE, src := 0xFE, typ := typ, cls := 1, vc := 0, hops := 0, seq := 0, payload := leBytes 2 round ++ List.replicate 10 0 ++ body }

/-- An ASSIGN on its way to address and unique ID `a`, without routes. -/
def anAssign (a : Nat) : Pending :=
  { a := { uid := a, path := [], addr := a, kind := 1, pos := 1, depth := 1, upstream := 0, bcast := 0, dlport := 0, unset := 0, cway := 0, rt := [] },
    tries := 0, sentAt := 5, acked := false, absent := false }

/-- The harbour that waits for two acknowledgements. -/
def assigning : State := soundRuns.onRound fun r => { r with assigns := [anAssign 8, anAssign 9] }

/-- The linked island with staged tables and a commit at tick 50. -/
def committing : State :=
  { linked.put FAB_NET_STAT_SND 2 with net := { linked.net with staged := some (anAssign 8).a, commit := some (50, 50) } }

/-- A remote access frame from `src`. -/
def raFrame (src : Nat) (pay : List Byte) : Frame :=
  { dst := 5, src := src, typ := 0x20, cls := 1, vc := 0, hops := 0, seq := 4, payload := pay }

/-- A requester slot that reads one word from address 7. -/
def aSlot : RaSlot :=
  { frame := { raFrame 5 [1, 0, 0, 1, 4, 0, 0, 16] with dst := 7 }, startAt := 0, sentAt := 0, sends := 1, addr := 0x10000004, len := 4, got := [], base := 0 }

/-- The linked island with slot 3 in use. -/
def slotted : State := linked.setSlot 3 (some aSlot)

/-- The Lagoon beyond the fixed windows open to every initiator. -/
def lagoonOpen (s : State) : State :=
  ((s.put (MEM_WINw_BASE_B 0) 0).put (MEM_WINw_LIMIT_L 0) 0x2FF).put (MEM_WINw_PERM_P 0) 0x7FFFF

/-- The linked island with slot 3 in use, its buffer beyond the fixed windows. -/
def bufferOpen : State := (lagoonOpen slotted).wrN (FAB_RASs_BUF 3) 0xC00000

/-- The part with everything an arming request needs. -/
def armable : State :=
  let s := (run.wrN (PSF_OTPk 7) 1).put PSF_STAT_ILK_SEEN 1
  { (s.wrN MGT_ADMIT_CODE 0).put MGT_CFG_STAT_BASE 0 with sealed := true }

/-- The armed part with output 0 on. -/
def armed : State := ((armable.put PSF_STAT_ARMED 1).put PSF_OUT_CMD_ON 1).put (PSF_OUTo_STAT_ON 0) 1

/-- The same with an off-pulse of output 0 in progress since 5. -/
def pulsed : State := ((armed.put (PSF_OUTo_STAT_ON 0) 0).put (PSF_OUTo_STAT_PULSE 0) 1).onPulse 0 fun p => { p with start := some 5 }

/-- The part in lockout. -/
def locked : State := (run.put PSF_STAT_LOCKOUT 1).put PSF_LOCKOUT_STAT_LOCK 1

/-- The harbour's record of island 7 with some copies of the cycle. -/
def aPeer (l : List CwCopy) : CwPeer :=
  { addr := 7, uidl := 0, fromCycle := 0, copies := l, decided := false, lastOk := 0, count := 0, outcome := 4 }

/-- A harbour that compares, and expects island 7. -/
def comparingWith (l : List CwCopy) : State :=
  (sounder.put PSF_CWAY_CFG_EN 1).onPsf fun p => { p with peers := [aPeer l] }

/-- The same with no copy yet. -/
def comparing : State := comparingWith []

/-- A copy of cycle `n` from an address, with the status word `prot`. -/
def copyOf (addr n prot : Nat) : Frame :=
  let b := [1, 0, BitVec.ofNat 8 addr, 0] ++ leBytes 4 n ++ List.replicate 6 0 ++ leBytes 2 prot ++ List.replicate 16 0
  raFrame 7 (b ++ leBytes 4 (crc32 (List.replicate 8 0 ++ b)))

/-- The sealed part. -/
def sealedRun : State := { run with sealed := true }

/-- Engine 3 with an access map over all registers. -/
def mapped (s : State) : State := s.onEng 3 fun g => { g with map := [(0, 0xFFFFF, 3)] }

/-- Queue slots 2 and 3 of source 4: one ended, one active. -/
def entries : State :=
  let s := ((run.put (FCR_HQi_INFO_VALID 2) 1).put (FCR_HQi_INFO_SRC 2) 4).put (FCR_HQi_INFO_VALID 3) 1
  (s.put (FCR_HQi_INFO_SRC 3) 4).put (FCR_HQi_INFO_ACTIVE 3) 1

/-- A contained fault of source 4 in its quiet period. -/
def aFault : Standing :=
  { src := 4, code := 0x10, inst := 2, cls := 2, held := false, conseq := false, forced := false, d0 := 2, d1 := 9, cause := none, slot := none, quietEnd := some 77 }

/-- The part with that fault standing. -/
def recovering : State := { run with fcr := { run.fcr with standing := [aFault] } }

/-- The part with the fatal summary set, the fatal condition still there or not. -/
def fatal (held : Bool) : State :=
  { run.put FCR_STATUS_FATAL 1 with fcr := { run.fcr with standing := [{ aFault with src := 13, cls := 3, held := held, quietEnd := none }] } }

/-- Power-on reset is over. -/
def power (s : State) : State := { s with mgt := { s.mgt with por := false } }

/-- The flash writes slot 1. -/
def flashing (s : State) : State := { s with mgt := { s.mgt with flashOp := some { slot := 1, suspended := false } } }

/-- RST_N has been low since 5. -/
def lowSince (s : State) : State := { s with mgt := { s.mgt with rstLow := some 5 } }

/-- The key of mode `m` has been completed. -/
def keyedFor (m : Nat) : State := { run with mgt := { run.mgt with modeKey := some (m, 0, true) } }

/-- A transition to `m` is pending. -/
def toMode (s : State) (m : Nat) : State := (s.put MGT_MODE_STAT_PEND 1).put MGT_MODE_STAT_TGT m

/-- A fatal monitor condition stands. -/
def monitored (src code : Nat) : State :=
  { run with fcr := { run.fcr with standing := [{ src := src, code := code, inst := 0, cls := 3, held := true, conseq := false,
                                                   forced := false, d0 := 2, d1 := 9, cause := none, slot := none, quietEnd := none }] } }


/-- The part with one cell offset to trim and its preconditions met. -/
def trimReady : State :=
  let s := ((run.put CMF_CELLS_N 16).wrN MGT_CAL_CELLSEL 1).put MGT_CAL_CTRL_PROC 1
  s.put MGT_SUPPLY_VSTK 5000

/-- A TRIM run with procedures to do, its point's ticks seen. -/
def aRun (l : List (Nat × Nat)) : CalRun :=
  { todo := l, points := [], ts0 := 0, ferryChecked := true, refChecked := true, terms := [], procs := 0, src := [], cover := [], seen := 300 }

/-- The part in TRIM with that run. -/
def trimming (l : List (Nat × Nat)) : State :=
  { run.put MGT_MODE_STAT_MODE 3 with cal := { run.cal with run := some (aRun l) } }

/-- The same at the second point of a current gain whose points are equal. -/
def trimming1 : State := { trimming [] with cal := { run.cal with run := some { aRun [(0, 1)] with points := [0] } } }

/-- A configuration image of version 1 with a body. -/
def cfgImage (body : List Byte) : List Byte :=
  let h := leBytes 4 0x46434C4F ++ leBytes 2 1 ++ [0, 0] ++ leBytes 4 1 ++ leBytes 4 body.length ++ leBytes 4 (crc32c body) ++
    List.replicate 40 0
  h ++ leBytes 4 (crc32c h) ++ List.replicate 128 0 ++ leBytes 4 (1 ^^^ 0x5A5AA5A5) ++ List.replicate 60 0xFF ++ body

/-- A configuration that sets CMF_CELLS.N to 16 and the ring of impedance results. -/
def smallConfig : List Byte :=
  cfgImage ([2, 0, 12, 0] ++ leBytes 4 CMF_CELLS ++ leBytes 4 0x3F ++ leBytes 4 16 ++ [0xFF, 0, 0, 0])

/-- The part with that configuration resident in slot 1. -/
def withConfig (s : State) : State := s.memPut (lagoon + slotOff 1) smallConfig

/-- An update session for a configuration of 276 bytes with ranges received. -/
def aSession (got : List (Nat × Nat)) : UpdSt := { kind := 0, tag := 5, len := 276, got := got, spoiled := false }

/-- The part in SERVICE with that session. -/
def session (got : List (Nat × Nat)) : State :=
  { svc.put MGT_UPD_STAT_STATE 1 with mgt := { svc.mgt with upd := some (aSession got) } }

/-- The part with what programming the ceilings needs. -/
def otpReady : State :=
  let s := ((svc.put MGT_SUPPLY_VSTK 5000).wrN (MGT_OTP_DATAk 7) 1).wrN (MGT_OTP_DATAk 6) 77
  { s with mgt := { s.mgt with otpKey := some (0, true) } }

/-- The part with one Host Notify event queued. -/
def notifying : State :=
  ((run.put MGT_NOTIFY_CFG_EN 1).put MGT_NOTIFY_STAT_QCNT 1).wrN (MGT_NOTIFY_Qe_WORD 0) 0x80000502

/-- The part with single-wire bus 1 powered and idle. -/
def swbIdles : State := ((run.put (MGT_SWBn_CFG_EN 1) 1).put (MGT_SWBn_STAT_PWR 1) 1).put (MGT_SWBn_STAT_STATE 1) 2

/-- The same awaiting the response to a trigger of kind `k`. -/
def swbWaits (k : Nat) : State := (swbIdles.put (MGT_SWBn_STAT_STATE 1) 4).onSwb 1 fun b => { b with trig := some (k, 0) }

/-- Check-value unit 2 owned by the host. -/
def owned : State := run.put (MGT_CRCu_STAT_OWNER 2) 17

/-- A strobe's samples. -/
def aStrobe : StrobeSample :=
  { cell := Vector.replicate 32 5, cs := Vector.replicate 2 7, prim := Vector.replicate 8 0, sec := 0, overload := 0 }

/-- The session with that configuration staged whole. -/
def stagedConfig : State :=
  { session [(0, 276)] with mem := smallConfig.zipIdx.filterMap fun e => if e.1 = 0 then none else some (lagoon + stagingOff + e.2, e.1) }

/-- States and operands that meet what `TickSentAndCarried` assumes. -/
theorem witness_TickSentAndCarried :
    (∃ (s : State) (n : Fin 4), s.isHarbour = true ∧ s.tick.running = true ∧ s.tick.accepted = false ∧ s.ft ≤ s.sampleAt (s.tickNo + 1) - s.lead ∧ s.up n = true ∧ (s.strait n).hazTill ≤ s.now) ∧
    (∃ (s : State) (p n : Fin 4) (_stamp : Nat), s.Canon ∧ s.up p = true ∧ s.isHarbour = false ∧ s.flag FAB_POS_UPV = true ∧ s.get TMG_STAT_UPSTREAM = p ∧ n ≠ p ∧ s.up n = true ∧ (s.strait n).hazTill ≤ s.now) ∧
    (∃ (s : State) (n : Fin 4) (d x : Nat), (s.strait n).tickOut = some d ∧ d ≤ x ∧ s.now < x) ∧
    (∃ (s : State) (p : Fin 4) (_stamp : Nat), s.Canon ∧ s.up p = true ∧ (s.isHarbour = true ∨ s.flag FAB_POS_UPV = false ∨ s.get TMG_STAT_UPSTREAM ≠ p)) :=
   ⟨⟨harbourTicks, 1, by decide +kernel⟩,
    ⟨island, 0, 1, 16000, by decide +kernel⟩,
    ⟨island.onPort 2 (fun q => { q with tickOut := some 900 }), 2, 900, 1000, by decide +kernel⟩,
    ⟨island, 1, 16000, by decide +kernel⟩⟩

/-- States and operands that meet what `TickHeldOver` assumes. -/
theorem witness_TickHeldOver :
    (∃ (s : State), s.Canon ∧ s.tick.running = true ∧ s.isHarbour = false ∧ s.tick.accepted = false ∧ (s.get TMG_STAT_STATE = 2 ∨ s.get TMG_STAT_STATE = 3) ∧ s.sampling = true) ∧
    (∃ (s : State), s.Canon ∧ s.collectorOn = true ∧ s.get TMG_STAT_STATE = 3 ∧ s.tick.exceeded = false ∧ max 1 (s.get TMG_SERVO_HOLD_MAX) ≤ s.get TMG_HOLD_CNT_RUN) :=
   ⟨⟨island, by decide +kernel⟩,
    ⟨(island.put TMG_STAT_STATE 3).put TMG_HOLD_CNT_RUN 65535, by decide +kernel⟩⟩

/-- States and operands that meet what `TimeExchange` assumes. -/
theorem witness_TimeExchange :
    (∃ (s : State) (p : Fin 4), s.up p = true ∧ (s.strait p).out = none ∧ (s.isHarbour = false ∨ s.role p = 0)) ∧
    (∃ (s : State) (p : Fin 4) (_seq : Byte) (_turn : Fin 32001), s.Canon ∧ s.up p = true) ∧
    (∃ (s : State) (p : Fin 4) (seq nseq : Byte) (_turn : Fin 32001), s.up p = true ∧ nseq ≠ ~~~seq) ∧
    (∃ (s : State) (p : Fin 4) (l : List Byte) (t1 t4 : Nat), s.Canon ∧ s.up p = true ∧ (s.strait p).out = some ((parseReply l).seq.toNat, t1) ∧ (parseReply l).crcOk = true ∧ t4 ≤ t1 + 10 * us ∧ (s.strait p).exchanges < 63 ∧ s.isHarbour = false ∧ s.net.listenTill = none ∧ s.flag FAB_POS_UPV = false) ∧
    (∃ (s : State) (p : Fin 4) (l : List Byte) (n t1 t4 : Nat), s.Canon ∧ s.up p = true ∧ (s.strait p).out = some (n, t1) ∧ ((parseReply l).crcOk = false ∨ (parseReply l).seq.toNat ≠ n ∨ t1 + 10 * us < t4)) ∧
    (∃ (s : State) (p : Fin 4) (l : List Byte) (t1 t4 : Nat), s.Canon ∧ s.up p = true ∧ (s.strait p).out = some ((parseReply l).seq.toNat, t1) ∧ (parseReply l).crcOk = true ∧ t4 ≤ t1 + 10 * us ∧ 64 ≤ (s.strait p).exchanges ∧ 32 < (rdivI (((t4 : Int) - t1) - (((parseReply l).t3 : Int) - (parseReply l).t2)) 2 - toI 32 (s.rdN (TMG_PORTn_ASYM p)) - meanDelay ((s.strait p).dlys.take 16)).natAbs) ∧
    (∃ (s : State) (p : Fin 4) (n t1 : Nat), s.Canon ∧ (s.strait p).out = some (n, t1)) :=
   ⟨⟨island, 0, by decide +kernel⟩,
    ⟨island, 1, 7, 100, by decide +kernel⟩,
    ⟨island, 1, 7, 7, 100, by decide +kernel⟩,
    ⟨(island.put FAB_POS_UPV 0).onPort 0 (fun q => { q with out := some (7, 1000) }), 0, reply, 1000, 5000, by decide +kernel⟩,
    ⟨island.onPort 0 (fun q => { q with out := some (8, 1000) }), 0, reply, 8, 1000, 5000, by decide +kernel⟩,
    ⟨island.onPort 0 (fun q => { q with out := some (7, 1000), exchanges := 64, dlys := List.replicate 16 9 }), 0, reply, 1000, 5000, by decide +kernel⟩,
    ⟨island.onPort 0 (fun q => { q with out := some (8, 1000) }), 0, 8, 1000, by decide +kernel⟩⟩

/-- States and operands that meet what `SampleInstantAndBankSwitch` assumes. -/
theorem witness_SampleInstantAndBankSwitch :
    (∃ (s : State) (_x : StrobeSample) (_n _i : Fin 8), s.Canon ∧ s.meas.burst = none ∧ s.sampling = true ∧ (s.tick.running = true → s.gathered < s.nb)) ∧
    (∃ (s : State) (_x : StrobeSample) (_n _i : Fin 8) (k : Nat), s.Canon ∧ s.meas.burst = some k ∧ k < 64) ∧
    (∃ (s : State), s.Canon ∧ s.tick.running = true ∧ s.sampling = true) ∧
    (∃ (s : State) (e : Fin 16), s.Canon ∧ s.tick.running = true ∧ s.sampling = true ∧ s.flag TMG_CTRL_EN = true ∧ s.active = true ∧ s.get (ENG_n_CTRL_TRIG e) = 0 ∧ s.get (ENG_n_STAT_STATE e) = 0 ∧ (s.engine e).update = none) ∧
    (∃ (s : State) (_c : Fin 32), s.Canon ∧ s.tick.open_ = true ∧ s.unposted = 0 ∧ s.sampling = true) ∧
    (∃ (s : State) (e : Fin 16), s.Canon ∧ s.tick.open_ = true ∧ s.unposted = 0 ∧ s.sampling = true ∧ s.tick.trig = true ∧ s.active = true ∧ s.get (ENG_n_CTRL_TRIG e) = 1 ∧ s.get (ENG_n_STAT_STATE e) = 0) ∧
    (∃ (s : State) (_c : Fin 32), s.Canon ∧ s.tick.open_ = true ∧ s.unposted ≠ 0 ∧ s.sampling = true) ∧
    (∃ (s : State), s.Canon ∧ s.tick.open_ = true ∧ s.unposted ≠ 0 ∧ s.sampling = true ∧ s.tick.trig = true ∧ s.collectorOn = true) :=
   ⟨⟨island.put TMG_STAT_NB 32, aStrobe, 3, 6, by decide +kernel⟩,
    ⟨{ run with meas := { run.meas with burst := some 5 } }, aStrobe, 3, 7, 5, by decide +kernel⟩,
    ⟨island, by decide +kernel⟩,
    ⟨island, 8, by decide +kernel⟩,
    ⟨{ island with tick := { island.tick with open_ := true }, meas := { island.meas with posted := 255 } }, 31, by decide +kernel⟩,
    ⟨{ island.put (ENG_n_CTRL_TRIG 8) 1 with tick := { island.tick with open_ := true, trig := true }, meas := { island.meas with posted := 255 } }, 8, by decide +kernel⟩,
    ⟨{ island with tick := { island.tick with open_ := true } }, 30, by decide +kernel⟩,
    ⟨{ island with tick := { island.tick with open_ := true, trig := true }, meas := { island.meas with posted := 7 } }, by decide +kernel⟩⟩

/-- States and operands that meet what `OverrunsAndPeriodSwitch` assumes. -/
theorem witness_OverrunsAndPeriodSwitch :
    (∃ (s : State) (e : Fin 16), s.Canon ∧ s.collectorOn = true ∧ (s.engine e).overrunDue = true ∧ s.engFenced e = false ∧ s.tick.trig = true) ∧
    (∃ (s : State) (e : Fin 16), s.Canon ∧ (s.engine e).overrunDue = true ∧ s.running e = true ∧ (s.engine e).ytk.toNat ≠ s.tickNo) ∧
    (∃ (s : State) (e : Fin 16), s.Canon ∧ (s.engine e).overrunDue = true ∧ s.engFenced e = false ∧ s.tick.trig = false) ∧
    (∃ (s : State) (e : Fin 16), s.Canon ∧ s.getIn TMG_OVR_CFG_MAX 1 15 ≤ (s.engine e).ovrRun ∧ s.engFenced e = false ∧ (s.engine e).restarts = []) ∧
    (∃ (s : State) (i : Initiator) (v : Word), s.Canon ∧ Granted s i TMG_CTRL ∧ Unsealed s TMG_CTRL_EN ∧ v.getLsbD 1 = false) ∧
    (∃ (s : State) (i : Initiator) (_v : Word), s.Canon ∧ Granted s i TMG_CTRL ∧ s.isHarbour = false) ∧
    (∃ (s : State) (k p : Nat), s.Canon ∧ s.tick.pchg = some (k, p) ∧ p < 2 ^ 20 ∧ s.imp.run = none ∧ s.calRuns = false) ∧
    (∃ (s : State), s.Canon ∧ s.tick.running = true ∧ s.sampling = true) ∧
    (∃ (s : State), s.Canon ∧ s.tick.open_ = true ∧ s.unposted = 0 ∧ s.sampling = true) ∧
    (∃ (s : State), s.Canon ∧ s.tick.open_ = true ∧ s.unposted ≠ 0 ∧ s.sampling = true) ∧
    (∃ (s : State) (_x : StrobeSample), s.Canon ∧ s.meas.burst = none ∧ s.sampling = true ∧ s.tick.running = false) :=
   ⟨⟨{ run with tick := { run.tick with trig := true } }.onEng 3 (fun g => { g with overrunDue := true }), 3, by decide +kernel⟩,
    ⟨({ run with tick := { run.tick with trig := true } }.put (ENG_n_STAT_STATE 3) 1).onEng 3 (fun g => { g with overrunDue := true, ytk := 5, staged := [(4, 4)] }), 3, by decide +kernel⟩,
    ⟨({ run with tick := { run.tick with trig := false } }.put (ENG_n_STAT_STATE 3) 1).onEng 3 (fun g => { g with overrunDue := true, ytk := 5, staged := [(4, 4)] }), 3, by decide +kernel⟩,
    ⟨run.onEng 3 (fun g => { g with ovrRun := 3 }), 3, by decide +kernel⟩,
    ⟨run, .remoteHost, 1, by decide +kernel⟩,
    ⟨island, .remoteHost, 1, by decide +kernel⟩,
    ⟨{ run with tick := { run.tick with pchg := some (5, 2000) } }, 5, 2000, by decide +kernel⟩,
    ⟨island, by decide +kernel⟩,
    ⟨{ island with tick := { island.tick with open_ := true }, meas := { island.meas with posted := 255 } }, by decide +kernel⟩,
    ⟨{ island with tick := { island.tick with open_ := true } }, by decide +kernel⟩,
    ⟨run, aStrobe, by decide +kernel⟩⟩

/-- States and operands that meet what `CellPathFaults` assumes. -/
theorem witness_CellPathFaults :
    (∃ (s : State) (c : Fin 32), s.Canon ∧ s.collectorOn = true ∧ s.cellsN ≤ c ∧ 8 ≤ vget s.meas.unBad c 0 ∧ bitOf s.meas.unused c = false) ∧
    (∃ (s : State) (c : Fin 34), s.collectorOn = true ∧ (s.chan c).modHold = true) ∧
    (∃ (s : State) (c : Fin 32), s.Canon ∧ s.collectorOn = true ∧ 8 ≤ vget s.meas.disBad c 0 ∧ bitOf s.meas.dis c = false) :=
   ⟨⟨{ (run.put CMF_CELLS_N 16) with meas := { run.meas with unBad := vset run.meas.unBad 16 8 } }, 16, by decide +kernel⟩,
    ⟨run.onChan 33 (fun d => { d with modHold := true }), 33, by decide +kernel⟩,
    ⟨{ run with meas := { run.meas with disBad := vset run.meas.disBad 31 8 } }, 31, by decide +kernel⟩⟩

/-- States and operands that meet what `MeasurementControlWrites` assumes. -/
theorem witness_MeasurementControlWrites :
    (∃ (s : State) (i : Initiator) (_v : Word), s.Canon ∧ Granted s i CMF_CTRL ∧ Unsealed s CMF_CTRL_EN) ∧
    (∃ (s : State) (i : Initiator) (_v : Word), Granted s i CMF_TEST) ∧
    (∃ (c : ChanSt) (_x : Int), 0 < c.forced ∧ c.forceNext = false) ∧
    (∃ (s : State) (i : Initiator) (_v : Word), Granted s i CMF_TEST) ∧
    (∃ (s : State) (i : Initiator) (_v : Word), s.Canon ∧ Granted s i CSI_QCTRL) ∧
    (∃ (s : State) (i : Initiator) (_v : Word), s.Canon ∧ Granted s i CSI_QCTRL) :=
   ⟨⟨svc, .remoteHost, 0, by decide +kernel⟩,
    ⟨svc, .remoteHost, 5, by decide +kernel⟩,
    ⟨{ ChanSt.reset with forced := 7 }, 5, by decide +kernel⟩,
    ⟨svc, .remoteHost, 5, by decide +kernel⟩,
    ⟨run, .remoteHost, 1, by decide +kernel⟩,
    ⟨run, .remoteHost, 2, by decide +kernel⟩⟩

/-- States and operands that meet what `OpenWireRotation` assumes. -/
theorem witness_OpenWireRotation :
    (∃ (s : State), s.Canon ∧ s.owMode = true ∧ s.flag CMF_CTRL_EN = true ∧ s.flag CMF_CTRL_OW_EN = true ∧ s.tick.open_ = true ∧ s.meas.ow.on = false ∧ s.meas.ow.due.getD s.now ≤ s.now ∧ s.meas.ow.next < 4) ∧
    (∃ (s : State), s.Canon ∧ s.meas.ow.on = true ∧ s.meas.ow.ended = false ∧ s.meas.ow.a + s.meas.ow.dwell ≤ s.tickNo ∧ s.owMode = true ∧ s.meas.ow.step < 4) ∧
    (∃ (s : State) (k : Fin 33), s.meas.ow.on = true ∧ s.meas.ow.ended = false ∧ s.meas.ow.a + s.meas.ow.dwell ≤ s.tickNo ∧ s.owMode = true ∧ s.meas.ow.taps = [k.val] ∧ (s.meas.ow.force.contains k.val = true ∨ (s.tapChannels k).any (fun c => decide (s.meas.ow.thr < (s.owDelta c).natAbs)) = true)) ∧
    (∃ (s : State) (k : Fin 33), s.meas.ow.on = true ∧ s.meas.ow.ended = false ∧ s.meas.ow.a + s.meas.ow.dwell ≤ s.tickNo ∧ s.owMode = true ∧ s.meas.ow.taps = [k.val] ∧ s.meas.ow.force.contains k.val = false ∧ ((s.tapChannels k).all (fun c => decide ((s.owDelta c).natAbs ≤ s.meas.ow.thr)) = true)) ∧
    (∃ (s : State) (k : Fin 33), s.Canon ∧ s.collectorOn = true ∧ s.meas.ow.on = true ∧ s.meas.ow.ended = false ∧ s.meas.ow.a + s.meas.ow.dwell ≤ s.tickNo ∧ s.owMode = true ∧ s.meas.ow.taps = [k.val] ∧ s.meas.ow.force.contains k.val = true ∧ s.getIn CMF_OW_CFG_CONF 1 15 ≤ vget s.meas.ow.fails k 0 + 1 ∧ s.tapOpen k = false) :=
   ⟨⟨((({ island with tick := { island.tick with open_ := true } }).put CMF_CELLS_N 16).put CMF_CTRL_EN 1).put CMF_CTRL_OW_EN 1, by decide +kernel⟩,
    ⟨owRuns, by decide +kernel⟩,
    ⟨owRuns, 2, by decide +kernel⟩,
    ⟨{ owRuns with meas := { owRuns.meas with ow := { owRuns.meas.ow with force := [], taps := [32] } } }, 32, by decide +kernel⟩,
    ⟨{ owRuns with meas := { owRuns.meas with ow := { owRuns.meas.ow with fails := Vector.replicate 33 14 } } }, 2, by decide +kernel⟩⟩

/-- States and operands that meet what `DiverseComparators` assumes. -/
theorem witness_DiverseComparators :
    (∃ (s : State) (c : Fin 32) (ov : Bool), s.Canon ∧ s.pairOn c = true ∧ s.flag (dcQ ov c) = false ∧ s.dcTesting c = false) ∧
    (∃ (s : State) (c : Fin 32) (ov : Bool), s.Canon ∧ s.flag (dcQ ov c) = true ∧ s.dcTesting c = false) ∧
    (∃ (s : State) (c : Fin 32) (ov : Bool), s.Canon ∧ s.flag (dcQ ov c) = true ∧ s.dcTesting c = false ∧ (∀ d : Fin 32, d ≠ c → s.flag (dcQ ov d) = false)) ∧
    (∃ (s : State) (c : Fin 32) (_ov _uv : Bool), s.Canon ∧ s.collectorOn = true ∧ s.flag PSF_CTRL_DCST_EN = true ∧ c < s.cellsN ∧ s.mode ≠ 0) :=
   ⟨⟨run.put CMF_CELLS_N 16, 15, true, by decide +kernel⟩,
    ⟨run.put (dcQ false 4) 1, 4, false, by decide +kernel⟩,
    ⟨(run.put (dcQ false 4) 1).wrN PSF_DEM_STAT 2, 4, false, by decide +kernel⟩,
    ⟨(run.put CMF_CELLS_N 16).put PSF_CTRL_DCST_EN 1, 3, true, false, by decide +kernel⟩⟩

/-- States and operands that meet what `CurrentPathFaults` assumes. -/
theorem witness_CurrentPathFaults :
    (∃ (s : State), s.Canon ∧ s.collectorOn = true ∧ 8 ≤ s.meas.cur.noValid ∧ s.meas.cur.noValidOn = false) ∧
    (∃ (s : State), s.Canon ∧ s.collectorOn = true ∧ s.getIn CSI_DIV_CFG_CNT 1 15 ≤ s.meas.cur.disRun ∧ s.meas.cur.dis = false ∧ s.flag CSI_CTRL_NO_CS1 = false) ∧
    (∃ (s : State), s.Canon ∧ s.collectorOn = true ∧ 1024 ≤ s.meas.cur.blockN ∧ s.flag CSI_CTRL_NO_CS1 = false) ∧
    (∃ (s : State) (_inside : Bool), s.Canon ∧ s.mode ≠ 0) :=
   ⟨⟨run.onCur (fun c => { c with noValid := 8 }), by decide +kernel⟩,
    ⟨run.onCur (fun c => { c with disRun := 15 }), by decide +kernel⟩,
    ⟨run.onCur (fun c => { c with blockN := 1024, blockSum := 10 ^ 30 }), by decide +kernel⟩,
    ⟨run, true, by decide +kernel⟩⟩

/-- States and operands that meet what `ShortCircuitComparator` assumes. -/
theorem witness_ShortCircuitComparator :
    (∃ (s : State) (_neg : Bool), s.Canon ∧ s.mode ≠ 0) ∧
    (∃ (s : State), s.Canon) ∧
    (∃ (s : State) (i : Initiator) (_v : Word), s.Canon ∧ Granted s i PSF_SC_STAT ∧ s.privileged i = true ∧ s.flag PSF_SC_STAT_TRIP = true ∧ s.flag PSF_SC_STAT_QUIET = true) ∧
    (∃ (s : State) (i : Initiator) (_v : Word), Granted s i PSF_SC_STAT ∧ s.privileged i = true ∧ s.flag PSF_SC_STAT_QUIET = false) ∧
    (∃ (s : State) (_trips : Bool), s.Canon ∧ s.collectorOn = true ∧ s.flag PSF_CTRL_SCST_EN = true ∧ s.mode ≠ 0) :=
   ⟨⟨run, true, by decide +kernel⟩,
    ⟨run, by decide +kernel⟩,
    ⟨((run.put PSF_SC_STAT_TRIP 1).put PSF_SC_STAT_QUIET 1).wrN PSF_DEM_STAT 64, .remoteHost, 1, by decide +kernel⟩,
    ⟨run.put PSF_SC_STAT_TRIP 1, .remoteHost, 1, by decide +kernel⟩,
    ⟨run.put PSF_CTRL_SCST_EN 1, false, by decide +kernel⟩⟩

/-- States and operands that meet what `SweepsStart` assumes. -/
theorem witness_SweepsStart :
    (∃ (s : State), s.get CSI_IMP_SCHED_FULL_MIN ≠ 0 ∧ s.flag CSI_IMP_CTRL_EN = true ∧ s.sweepBar = none ∧ s.imp.run = none) ∧
    (∃ (s : State) (b : Fin 24), s.Canon ∧ s.get CSI_IMP_SCHED_FULL_MIN ≠ 0 ∧ s.flag CSI_IMP_CTRL_EN = true ∧ s.sweepBar = none ∧ s.imp.run = none ∧ s.binOn b = true ∧ (s.binSrc b = 1 ∨ s.binSrc b = 2)) ∧
    (∃ (s : State) (c : Nat), s.Canon ∧ s.get CSI_IMP_SCHED_FULL_MIN ≠ 0 ∧ s.flag CSI_IMP_CTRL_EN = true ∧ s.sweepBar = some c) ∧
    (∃ (s : State) (b : Fin 24), s.Canon ∧ s.get CSI_IMP_SCHED_TEMP_S ≠ 0 ∧ s.flag CSI_IMP_CTRL_EN = true ∧ s.tempBin = some b.val ∧ s.sweepBar = none ∧ s.imp.run = none) ∧
    (∃ (s : State) (b : Fin 24) (r : SweepRun), s.Canon ∧ s.get CSI_IMP_SCHED_TEMP_S ≠ 0 ∧ s.flag CSI_IMP_CTRL_EN = true ∧ s.tempBin = some b.val ∧ s.sweepBar = none ∧ s.imp.run = some r ∧ r.kind = 0 ∧ (r.binInfo b).state ≠ 0) ∧
    (∃ (s : State) (c : Nat), s.Canon ∧ s.get CSI_IMP_SCHED_TEMP_S ≠ 0 ∧ s.flag CSI_IMP_CTRL_EN = true ∧ s.tempBin.isSome = true ∧ s.sweepBar = some c) ∧
    (∃ (s : State) (i : Initiator) (_v : Word), s.Canon ∧ Granted s i CSI_IMP_CTRL ∧ (s.mode = 2 ∨ s.mode = 4)) ∧
    (∃ (s : State) (i : Initiator) (_v : Word), s.Canon ∧ Granted s i CSI_IMP_CTRL ∧ (s.mode = 2 ∨ s.mode = 4)) ∧
    (∃ (s : State) (b : Fin 24), s.Canon ∧ s.flag CSI_IMP_CTRL_EN = true ∧ s.sweepBar = none ∧ s.imp.run = none ∧ s.binOn b = true ∧ (s.binSrc b = 1 ∨ s.binSrc b = 2) ∧ s.imp.startReq = true ∧ s.imp.tstartReq = false) ∧
    (∃ (s : State) (b : Fin 24), s.Canon ∧ s.flag CSI_IMP_CTRL_EN = true ∧ s.sweepBar = none ∧ s.imp.run = none ∧ s.tempBin = some b.val ∧ (s.binSrc b = 1 ∨ s.binSrc b = 2) ∧ s.imp.startReq = false ∧ s.imp.tstartReq = true) ∧
    (∃ (s : State) (i : Initiator) (_v : Word), Granted s i CSI_IMP_CTRL) ∧
    (∃ (s : State) (i : Initiator) (_v : Word) (r : SweepRun), s.Canon ∧ Granted s i CSI_IMP_CTRL ∧ s.imp.run = some r ∧ s.imp.outer = none ∧ r.stage < 8) ∧
    (∃ (s : State) (i : Initiator) (_v : Word), s.Canon ∧ Granted s i CSI_IMP_CTRL) :=
   ⟨⟨sweepOn, by decide +kernel⟩,
    ⟨passiveOn, 3, by decide +kernel⟩,
    ⟨sweepOn.put AUX_THR_STAT_LE 2, 2, by decide +kernel⟩,
    ⟨passiveOn, 3, by decide +kernel⟩,
    ⟨onSweep sweepRuns (fun r => r.onInfo 3 fun i => { i with state := 1 }), 3, theSweep.onInfo 3 fun i => { i with state := 1 }, by decide +kernel⟩,
    ⟨sweepOn.put AUX_THR_STAT_LE 3, 2, by decide +kernel⟩,
    ⟨sweepOn, .remoteHost, 2, by decide +kernel⟩,
    ⟨sweepOn, .remoteHost, 4, by decide +kernel⟩,
    ⟨{ passiveOn with imp := { passiveOn.imp with startReq := true } }, 3, by decide +kernel⟩,
    ⟨{ passiveOn with imp := { passiveOn.imp with tstartReq := true } }, 3, by decide +kernel⟩,
    ⟨sweepRuns, .remoteHost, 8, by decide +kernel⟩,
    ⟨sweepRuns, .remoteHost, 8, theSweep, by decide +kernel⟩,
    ⟨sweepOn, .remoteHost, 0x1000000, by decide +kernel⟩⟩

/-- States and operands that meet what `SweepWindows` assumes. -/
theorem witness_SweepWindows :
    (∃ (s : State) (r : SweepRun), s.imp.run = some r ∧ r.inWindow = false ∧ s.tick.open_ = true ∧ (s.chan 0).acc.n = 0 ∧ r.settleK + s.getIn CSI_IMP_CTRL_SETTLE 2 255 ≤ s.tickNo ∧ s.windowWaits r = false) ∧
    (∃ (s : State) (r : SweepRun), s.imp.run = some r ∧ s.imp.outer = none ∧ r.inWindow = true ∧ r.nw ≤ r.n ∧ (r.settleK < s.tickNo ∨ r.settleK = s.tickNo ∧ s.tick.open_ = false)) ∧
    (∃ (s : State) (r : SweepRun) (a : BinAcc), s.Canon ∧ s.imp.run = some r ∧ s.imp.outer = none ∧ r.inWindow = true ∧ r.nw ≤ r.n ∧ (r.settleK < s.tickNo ∨ r.settleK = s.tickNo ∧ s.tick.open_ = false) ∧ r.passive = true ∧ r.acc = [a] ∧ r.bins = [a.bin] ∧ a.bin < 24 ∧ s.binSrc a.bin = 1 ∧ (r.binInfo a.bin).complete = false ∧ r.tries + 1 < s.getIn CSI_IMP_PASV_TRIES 1 15 ∧ reaches (s.moduleSum a).1 (s.moduleSum a).2 r.nw (response a.count r.nw) (s.get CSI_IMP_PASV_THR) = false) ∧
    (∃ (s : State) (r : SweepRun) (a : BinAcc) (b : Fin 24) (c : Fin 32) (z : Int × Int), s.Canon ∧ s.imp.run = some r ∧ s.imp.outer = none ∧ r.kind = 0 ∧ r.inWindow = true ∧ r.nw ≤ r.n ∧ (r.settleK < s.tickNo ∨ r.settleK = s.tickNo ∧ s.tick.open_ = false) ∧ r.passive = true ∧ r.acc = [a] ∧ r.bins = [a.bin] ∧ a.bin < 24 ∧ s.binSrc a.bin = 1 ∧ reaches (s.moduleSum a).1 (s.moduleSum a).2 r.nw (response a.count r.nw) (s.get CSI_IMP_PASV_THR) = true ∧ s.flag CSI_IMP_STAT_TPEND = false ∧ s.binOn b = true ∧ s.binSrc b = 1 ∧ r.stage < s.get (CSI_IMP_BINb_CFG_STAGE b) ∧ (r.binInfo b).complete = false ∧ b.val ≠ a.bin ∧ c.val < s.cellsN ∧ r.quality c false &&& 0x3E = 0 ∧ s.impedance a c true = some z) ∧
    (∃ (s : State) (r : SweepRun) (a : BinAcc) (p : Fin 8) (z : Int × Int), s.Canon ∧ s.imp.run = some r ∧ s.imp.outer = none ∧ r.inWindow = true ∧ r.nw ≤ r.n ∧ (r.settleK < s.tickNo ∨ r.settleK = s.tickNo ∧ s.tick.open_ = false) ∧ r.passive = false ∧ r.acc = [a] ∧ a.bin < 24 ∧ r.phases.contains p.val = true ∧ r.pos < 4 ∧ s.passiveBins r = [] ∧ s.activeBins r ≠ [] ∧ r.tries ≤ r.win ∧ s.phaseGroup (s.activeBins r) ((r.win + 1 - r.tries) / 4) ≠ [] ∧ 4 * p.val + r.pos < s.cellsN ∧ reaches (s.cellSum a (4 * p + r.pos) false).1 (s.cellSum a (4 * p + r.pos) false).2 r.nw (response a.count r.nw) (s.get CSI_IMP_EXC_IMIN) = true ∧ r.quality (4 * p + r.pos) false &&& 0x3E = 0 ∧ s.impedance a (4 * p + r.pos) false = some z) ∧
    (∃ (s : State) (r : SweepRun) (a : BinAcc), s.Canon ∧ s.imp.run = some r ∧ s.imp.outer = none ∧ r.inWindow = true ∧ r.nw ≤ r.n ∧ (r.settleK < s.tickNo ∨ r.settleK = s.tickNo ∧ s.tick.open_ = false) ∧ r.passive = true ∧ r.acc = [a] ∧ r.bins = [a.bin] ∧ a.bin < 24 ∧ s.binSrc a.bin = 1 ∧ reaches (s.moduleSum a).1 (s.moduleSum a).2 r.nw (response a.count r.nw) (s.get CSI_IMP_PASV_THR) = true ∧ s.flag CSI_IMP_STAT_TPEND = false ∧ (∀ st : Fin 8, r.stage < st.val → s.runBins r.kind st = [])) ∧
    (∃ (s : State) (r : SweepRun) (p : Fin 8), s.Canon ∧ s.imp.run = some r ∧ r.carries p = true ∧ s.excited p = true ∧ s.sumClips r.drive p ≠ 0) :=
   ⟨⟨(onSweep ({ sweepRuns with tick := { sweepRuns.tick with open_ := true } }.put64 TMG_TICK_LO 300) fun r => { r with inWindow := false }), { theSweep with inWindow := false }, by decide +kernel⟩,
    ⟨sweepRuns, theSweep, by decide +kernel⟩,
    ⟨lowPassive, { passWindow with acc := [noCurrent] }, noCurrent, by decide +kernel⟩,
    ⟨twoStages, passWindow, anAcc, 5, 9, (twoStages.impedance anAcc 9 true).getD (0, 0), by decide +kernel⟩,
    ⟨activeWin, actWindow, anAcc, 1, (activeWin.impedance anAcc 4 false).getD (0, 0), by decide +kernel⟩,
    ⟨lastPassive, passWindow, anAcc, by decide +kernel⟩,
    ⟨clipping, clipWindow, 1, by decide +kernel⟩⟩

/-- States and operands that meet what `FerrySelectors` assumes. -/
theorem witness_FerrySelectors :
    (∃ (s : State) (p : Fin 8) (lo hi : BitVec 16) (j : Fin 4) (t0 : Nat), s.Canon ∧ (s.phase p).change = some (j.val, t0) ∧ lo.toNat < 300 ∧ ((hi.toNat : Int) * 1000 - (s.cellBal (4 * p + j)).lastV).natAbs ≤ 150000 ∧ s.ferryOn p = true ∧ s.ratioOk p = true ∧ s.flag (BAL_PHp_STAT_FENCED p) = false ∧ (s.phase p).testBleed = none) ∧
    (∃ (s : State) (p : Fin 8) (lo hi : BitVec 16) (j : Fin 4) (t0 : Nat), s.Canon ∧ (s.phase p).change = some (j.val, t0) ∧ lo.toNat < 300 ∧ ((hi.toNat : Int) * 1000 - (s.cellBal (4 * p + j)).lastV).natAbs ≤ 150000 ∧ s.ferryOn p = true ∧ s.flag (BAL_PHp_STAT_FENCED p) = false ∧ (s.phase p).testBleed.isSome = true) ∧
    (∃ (s : State) (p : Fin 8) (lo hi : BitVec 16) (j : Fin 4) (t0 : Nat), s.Canon ∧ s.collectorOn = true ∧ (s.phase p).change = some (j.val, t0) ∧ (300 ≤ lo.toNat ∨ 150000 < ((hi.toNat : Int) * 1000 - (s.cellBal (4 * p + j)).lastV).natAbs)) ∧
    (∃ (s : State) (p : Fin 8) (j t0 : Nat), s.Canon ∧ s.collectorOn = true ∧ (s.phase p).change = some (j, t0)) ∧
    (∃ (s : State) (p : Fin 8) (bus : Vector (BitVec 16) 8), s.Canon ∧ ((s.phase p).scanReq = true ∨ s.scanDue p = true) ∧ s.ferryOn p = true ∧ s.flag (BAL_PHp_STAT_FENCED p) = false ∧ ((bus.toList.all fun v => decide (v.toNat < 300)) = true)) ∧
    (∃ (s : State) (p : Fin 8) (bus : Vector (BitVec 16) 8), s.Canon ∧ s.collectorOn = true ∧ ((s.phase p).scanReq = true ∨ s.scanDue p = true) ∧ s.ferryOn p = true ∧ s.flag (BAL_PHp_STAT_FENCED p) = false ∧ ((bus.toList.any fun v => decide (300 ≤ v.toNat)) = true)) ∧
    (∃ (s : State) (p : Fin 8) (j k : Nat), slotOver s p ∧ (s.phase p).testBleed = none ∧ s.get (BAL_PHp_STAT_STATE p) ≠ 4 ∧ (s.phase p).sel = some j ∧ s.phMode p = 1 ∧ s.ferryOn p = true ∧ s.flag (BAL_PHp_STAT_FENCED p) = false ∧ (nextPos (fun m => s.bit (BAL_PHp_CFG_RRMASK p) m && s.eligible (4 * p + m) (m == j)) j = some k)) ∧
    (∃ (s : State) (p : Fin 8) (j : Nat), s.Canon ∧ slotOver s p ∧ (s.phase p).testBleed = none ∧ s.get (BAL_PHp_STAT_STATE p) ≠ 4 ∧ (s.phase p).sel = some j ∧ s.phMode p = 1 ∧ s.ferryOn p = true ∧ s.flag (BAL_PHp_STAT_FENCED p) = false ∧ (nextPos (fun m => s.bit (BAL_PHp_CFG_RRMASK p) m && s.eligible (4 * p + m) (m == j)) j = none)) ∧
    (∃ (s : State) (p : Fin 8) (k : Fin 4), s.Canon ∧ slotOver s p ∧ (s.phase p).testBleed = none ∧ s.get (BAL_PHp_STAT_STATE p) = 4 ∧ s.fallbackOk p = true ∧ (nextPos (fun j => s.bit (BAL_PHp_CFG_RRMASK p) j && s.bleedable (4 * p + j)) ((s.phase p).sel.getD 3) = some k.val)) ∧
    (∃ (s : State) (p : Fin 8), slotOver s p ∧ (s.phase p).testBleed.isSome = true) :=
   ⟨⟨ferryChange, 1, 100, 3700, 2, 0, by decide +kernel⟩,
    ⟨ferryChange.onPhase 1 (fun h => { h with testBleed := some 0 }), 1, 100, 3700, 2, 0, by decide +kernel⟩,
    ⟨ferryChange, 1, 300, 3700, 2, 0, by decide +kernel⟩,
    ⟨ferryChange, 1, 2, 0, by decide +kernel⟩,
    ⟨ferry.onPhase 1 (fun h => { h with scanReq := true }), 1, Vector.replicate 8 299, by decide +kernel⟩,
    ⟨ferry.onPhase 1 (fun h => { h with scanReq := true }), 1, Vector.replicate 8 300, by decide +kernel⟩,
    ⟨ferrySlot, 1, 0, 1, by decide +kernel⟩,
    ⟨ferrySlot.put (BAL_PHp_CFG_RRMASK 1) 0, 1, 0, by decide +kernel⟩,
    ⟨bleeds, 1, 1, by decide +kernel⟩,
    ⟨ferrySlot.onPhase 1 (fun h => { h with testBleed := some 0 }), 1, by decide +kernel⟩⟩

/-- States and operands that meet what `FerryCommands` assumes. -/
theorem witness_FerryCommands :
    (∃ (s : State) (c : Fin 32) (i : Initiator) (_v : Word), (∀ n, i ≠ .engine n) ∧ s.Canon ∧ Granted s i (BAL_CELLc_TGT c)) ∧
    (∃ (s : State) (c : Fin 32) (n : Fin 16) (_v : Word), s.accessCode (.engine n) (BAL_CELLc_TGT c) true = 0 ∧ (s.engine n).staged.length < 128) ∧
    (∃ (s : State) (c : Fin 32), (s.phase (c / 4)).sel = some (c.val % 4)) ∧
    (∃ (s : State) (c : Fin 32), s.Canon ∧ (s.phase (c / 4)).sel = some (c.val % 4) ∧ (s.cellBal c).rem ≠ 0 ∧ remAfter (s.cellBal c).rem (rdivI ((s.phase (c / 4)).sum * s.period) (s.nb * 10000)) = 0) ∧
    (∃ (s : State) (p : Fin 8) (n : Fin 16) (_v : Word), s.accessCode (.engine n) (BAL_PHp_CMD p) true = 0 ∧ (s.engine n).staged.length < 128) ∧
    (∃ (s : State) (p : Fin 8) (i : Initiator) (_v : Word), (∀ n, i ≠ .engine n) ∧ s.Canon ∧ Granted s i (BAL_PHp_CMD p) ∧ s.mode = 4 ∧ s.flag (BAL_PHp_STAT_FENCED p) = false) ∧
    (∃ (s : State) (p : Fin 8) (i : Initiator) (_v : Word), (∀ n, i ≠ .engine n) ∧ s.accessCode i (BAL_PHp_CMD p) true = 0 ∧ s.mode ≠ 4) ∧
    (∃ (s : State) (p : Fin 8) (i : Initiator) (_v : Word), (∀ n, i ≠ .engine n) ∧ s.accessCode i (BAL_PHp_CMD p) true = 0 ∧ s.flag (BAL_PHp_STAT_FENCED p) = true) ∧
    (∃ (s : State) (p : Fin 8), s.Canon ∧ 2 ≤ (s.phase p).age ∧ (s.phase p).testBleed = none ∧ ((s.phase p).change = none ∨ s.ferryOn p = true)) ∧
    (∃ (s : State) (i : Initiator) (_v : Word), s.Canon ∧ Granted s i BAL_CTRL ∧ Unsealed s BAL_CTRL_EN) ∧
    (∃ (s : State) (p : Fin 8), s.Canon ∧ s.bal.validAt + 100 * ms ≤ s.now ∧ s.get (BAL_PHp_STAT_STATE p) = 4) ∧
    (∃ (s : State) (p : Fin 8) (i : Initiator) (_v : Word), Granted s i (BAL_PHp_TEST p)) ∧
    (∃ (s : State) (p : Fin 8) (i : Initiator) (_v : Word), s.Canon ∧ Granted s i (BAL_PHp_TEST p)) :=
   ⟨⟨ferry, 4, .remoteHost, 1000, by decide +kernel⟩,
    ⟨ferry, 4, 15, 1000, by decide +kernel⟩,
    ⟨ferry, 4, by decide +kernel⟩,
    ⟨ferry.onPhase 1 (fun h => { h with sum := 10 ^ 9 }), 4, by decide +kernel⟩,
    ⟨ferry, 1, 15, 1000, by decide +kernel⟩,
    ⟨ferry.put MGT_MODE_STAT_MODE 4, 1, .remoteHost, 1000, by decide +kernel⟩,
    ⟨ferry, 1, .remoteHost, 1000, by decide +kernel⟩,
    ⟨ferry.put (BAL_PHp_STAT_FENCED 1) 1, 1, .remoteHost, 1000, by decide +kernel⟩,
    ⟨(ferry.onPhase 1 (fun h => { h with age := 2 })).put (BAL_PHp_ACT_I_ACT 1) 50, 1, by decide +kernel⟩,
    ⟨ferry, .remoteHost, 0, by decide +kernel⟩,
    ⟨({ ferry with now := sec }).put (BAL_PHp_STAT_STATE 1) 4, 1, by decide +kernel⟩,
    ⟨ferry.put MGT_MODE_STAT_MODE 4, 1, .remoteHost, 1, by decide +kernel⟩,
    ⟨ferry.put MGT_MODE_STAT_MODE 4, 1, .remoteHost, 2, by decide +kernel⟩⟩

/-- States and operands that meet what `FerryPhaseFaults` assumes. -/
theorem witness_FerryPhaseFaults :
    (∃ (s : State) (p : Fin 8) (d : Fin 66), s.Canon ∧ s.collectorOn = true ∧ driveOf p d = true) ∧
    (∃ (s : State) (p : Fin 8), s.Canon ∧ s.get (BAL_PHp_STAT_STATE p) = 2 ∧ (s.phase p).overRun + 1 < 3 ∧ (s.phase p).testBleed = none ∧ ((s.phase p).change = none ∨ s.ferryOn p = true)) ∧
    (∃ (s : State) (p : Fin 8), s.Canon ∧ s.collectorOn = true ∧ s.get (BAL_PHp_STAT_STATE p) = 2 ∧ 3 ≤ (s.phase p).overRun + 1) ∧
    (∃ (s : State) (p : Fin 8), s.Canon ∧ s.collectorOn = true ∧ 8 ≤ (s.phase p).lowRun) ∧
    (∃ (s : State) (p : Fin 8), s.flag (BAL_PHp_STAT_FENCED p) = false ∧ (s.phase p).xferNow = false ∧ (s.phase p).xferRun + 1 < 3) ∧
    (∃ (s : State) (p : Fin 8), s.flag (BAL_PHp_STAT_FENCED p) = false ∧ (s.phase p).xferNow = true ∧ (s.phase p).xferRun < 3) ∧
    (∃ (s : State) (p : Fin 8), s.Canon ∧ s.collectorOn = true ∧ s.flag (BAL_PHp_STAT_FENCED p) = false ∧ (s.phase p).xferNow = false ∧ 3 ≤ (s.phase p).xferRun + 1) :=
   ⟨⟨ferry, 1, 65, by decide +kernel⟩,
    ⟨ferry.put (BAL_PHp_STAT_STATE 1) 2, 1, by decide +kernel⟩,
    ⟨(ferry.put (BAL_PHp_STAT_STATE 1) 2).onPhase 1 (fun h => { h with overRun := 2 }), 1, by decide +kernel⟩,
    ⟨ferry.onPhase 1 (fun h => { h with lowRun := 8 }), 1, by decide +kernel⟩,
    ⟨ferry, 1, by decide +kernel⟩,
    ⟨ferry.onPhase 1 (fun h => { h with xferNow := true }), 1, by decide +kernel⟩,
    ⟨ferry.onPhase 1 (fun h => { h with xferRun := 2 }), 1, by decide +kernel⟩⟩

/-- States and operands that meet what `AuxiliaryScans` assumes. -/
theorem witness_AuxiliaryScans :
    (∃ (s : State), s.auxRuns = true ∧ s.aux.scan = none) ∧
    (∃ (s : State) (_r : ScanResult) (t0 : Nat), s.collectorOn = true ∧ s.aux.scan = some t0) :=
   ⟨⟨run.put AUX_CTRL_EN 1, by decide +kernel⟩,
    ⟨{ run with aux := { run.aux with scan := some 0 } }, scanOf 20000, 0, by decide +kernel⟩⟩

/-- States and operands that meet what `ThermalThrottle` assumes. -/
theorem witness_ThermalThrottle :
    (∃ (s : State) (_td : Vector DieReading 4), s.Canon ∧ s.mode ≠ 0 ∧ s.mode ≠ 6) ∧
    (∃ (s : State) (_td : Vector DieReading 4), s.Canon ∧ s.mode ≠ 0 ∧ s.mode ≠ 6 ∧ s.aux.grace = none ∧ s.throttle = 0) ∧
    (∃ (s : State) (_td : Vector DieReading 4), s.Canon ∧ s.mode ≠ 0 ∧ s.mode ≠ 6 ∧ s.aux.grace = none ∧ s.throttle = 0) ∧
    (∃ (s : State) (e : Nat), s.Canon ∧ s.aux.grace = some e) ∧
    (∃ (s : State) (b : Nat), s.Canon ∧ s.aux.below = some b ∧ s.aux.sfail = [] ∧ s.get AUX_THR_CTRL_FLOOR < s.throttle) ∧
    (∃ (s : State) (i : Initiator) (_v : Word), s.Canon ∧ Granted s i AUX_THR_CTRL) ∧
    (∃ (s : State) (i : Initiator) (_v : Word), s.Canon ∧ Granted s i AUX_THR_CTRL ∧ Unsealed s AUX_THR_CTRL_FLOOR) :=
   ⟨⟨run, Vector.replicate 4 none, by decide +kernel⟩,
    ⟨hotDie, Vector.replicate 4 (some 1280), by decide +kernel⟩,
    ⟨hotDie, Vector.replicate 4 (some 1600), by decide +kernel⟩,
    ⟨{ run.put AUX_THR_STAT_LT 2 with aux := { run.aux with grace := some 100 } }, 100, by decide +kernel⟩,
    ⟨{ run.put AUX_THR_STAT_LE 2 with aux := { run.aux with below := some 100 } }, 100, by decide +kernel⟩,
    ⟨run.put AUX_THR_STAT_LT 3, .remoteHost, 4, by decide +kernel⟩,
    ⟨run, .remoteHost, 2, by decide +kernel⟩⟩

/-- States and operands that meet what `ThermalShutdown` assumes. -/
theorem witness_ThermalShutdown :
    (∃ (s : State) (d : Fin 6), s.Canon ∧ s.aux.shutAt = none ∧ s.tripActs d = true) ∧
    (∃ (s : State) (d : Fin 6), s.Canon ∧ s.aux.shutAt = none ∧ s.tripActs d = true ∧ s.flashWrites = false ∧ s.mgt.resetDue = []) ∧
    (∃ (s : State) (d : Fin 6) (x : Nat), s.Canon ∧ s.aux.shutAt = some x ∧ s.tripActs d = true) ∧
    (∃ (s : State) (t0 : Nat), s.Canon ∧ s.aux.shutAt = some t0 ∧ s.logicOn = false ∧ s.mgt.rstLow = none) :=
   ⟨⟨({ run with mgt := { run.mgt with por := false } }), 3, by decide +kernel⟩,
    ⟨({ run with mgt := { run.mgt with por := false } }), 1, by decide +kernel⟩,
    ⟨{ run with mgt := { run.mgt with por := false }, aux := { run.aux with shutAt := some 100 } }, 1, 100, by decide +kernel⟩,
    ⟨{ (State.reset.put MGT_PWR_STAT_ON 1) with aux := { run.aux with shutAt := some 100 } }, 100, by decide +kernel⟩⟩

/-- States and operands that meet what `MacInstructions` assumes. -/
theorem witness_MacInstructions :
    (∃ (s : State) (e : Fin 16) (rd _rs1 _rs2 : Fin 32), s.running e = true ∧ rd < 4) ∧
    (∃ (s : State) (e : Fin 16) (rd _rs1 _rs2 : Fin 32), s.running e = true ∧ rd < 4) ∧
    (∃ (s : State) (e : Fin 16) (rd _rs1 _rs2 : Fin 32), s.running e = true ∧ rd < 4) ∧
    (∃ (s : State) (e : Fin 16) (rd _rs1 _rs2 : Fin 32), s.running e = true ∧ rd < 4) ∧
    (∃ (s : State) (e : Fin 16) (rd _rs1 _rs2 : Fin 32), s.running e = true ∧ rd < 4) ∧
    (∃ (s : State) (e : Fin 16) (rd _rs1 _rs2 : Fin 32), s.running e = true ∧ rd < 4) ∧
    (∃ (s : State) (e : Fin 16) (rd _rs1 _rs2 : Fin 32), s.running e = true ∧ rd < 4) :=
   ⟨⟨engRun, 3, 1, 2, 3, by decide +kernel⟩,
    ⟨engRun, 3, 1, 2, 3, by decide +kernel⟩,
    ⟨engRun, 3, 1, 2, 3, by decide +kernel⟩,
    ⟨engRun, 3, 1, 2, 3, by decide +kernel⟩,
    ⟨engRun, 3, 1, 2, 3, by decide +kernel⟩,
    ⟨engRun, 3, 1, 2, 3, by decide +kernel⟩,
    ⟨engRun, 3, 1, 2, 3, by decide +kernel⟩⟩

/-- States and operands that meet what `AccumulatorReadsAndPacking` assumes. -/
theorem witness_AccumulatorReadsAndPacking :
    (∃ (s : State) (e : Fin 16) (_rd rs1 _rs2 : Fin 32), s.running e = true ∧ rs1 < 4) ∧
    (∃ (s : State) (e : Fin 16) (_rd rs1 _rs2 : Fin 32), s.running e = true ∧ rs1 < 4) ∧
    (∃ (s : State) (e : Fin 16) (_rd rs1 _rs2 : Fin 32), s.running e = true ∧ rs1 < 4) ∧
    (∃ (s : State) (e : Fin 16) (_rd _rs1 _rs2 : Fin 32), s.running e = true) ∧
    (∃ (s : State) (e : Fin 16) (_rd _rs1 _rs2 : Fin 32), s.running e = true) ∧
    (∃ (s : State) (e : Fin 16) (_rd _rs1 _rs2 : Fin 32), s.running e = true) ∧
    (∃ (s : State) (e : Fin 16) (_rd _rs1 : Fin 32) (imm : BitVec 12), s.running e = true ∧ 1 ≤ imm.toNat ∧ imm.toNat < 32) :=
   ⟨⟨engRun, 3, 0, 2, 3, by decide +kernel⟩,
    ⟨engRun, 3, 7, 2, 3, by decide +kernel⟩,
    ⟨engRun, 3, 7, 2, 3, by decide +kernel⟩,
    ⟨engRun, 3, 7, 2, 3, by decide +kernel⟩,
    ⟨engRun, 3, 7, 2, 3, by decide +kernel⟩,
    ⟨engRun, 3, 7, 2, 3, by decide +kernel⟩,
    ⟨engRun, 3, 7, 2, 15, by decide +kernel⟩⟩

/-- States and operands that meet what `DftStepsAndExtensionState` assumes. -/
theorem witness_DftStepsAndExtensionState :
    (∃ (s : State) (e : Fin 16) (rd _rs1 rs2 : Fin 32), s.running e = true ∧ s.dftLegal e rd rs2 = true) ∧
    (∃ (s : State) (e : Fin 16) (rd _rs1 rs2 : Fin 32), s.running e = true ∧ s.dftLegal e rd rs2 = true) ∧
    (∃ (s : State) (e : Fin 16) (_v : Word), s.running e = true) ∧
    (∃ (s : State) (e : Fin 16) (_v : Word), s.running e = true) ∧
    (∃ (s : State) (e : Fin 16) (_v : Word), s.running e = true) ∧
    (∃ (s : State) (e : Fin 16) (_v : Word), s.running e = true) ∧
    (∃ (s : State) (e : Fin 16) (_v : Word), s.running e = true) :=
   ⟨⟨engRun.onEng 3 (fun g => { g with yn := 32, yr := 5, ym := 30 }), 3, 2, 2, 0, by decide +kernel⟩,
    ⟨engRun.onEng 3 (fun g => { g with yn := 32, yr := 5, ym := 30 }), 3, 2, 2, 0, by decide +kernel⟩,
    ⟨engRun, 3, 77, by decide +kernel⟩,
    ⟨engRun, 3, 77, by decide +kernel⟩,
    ⟨engRun, 3, 77, by decide +kernel⟩,
    ⟨engRun, 3, 77, by decide +kernel⟩,
    ⟨engRun, 3, 77, by decide +kernel⟩⟩

/-- States and operands that meet what `IllegalFieldsTrapTheEngine` assumes. -/
theorem witness_IllegalFieldsTrapTheEngine :
    (∃ (s : State) (e : Fin 16) (rd _rs1 _rs2 : Fin 32), s.Canon ∧ s.collectorOn = true ∧ s.running e = true ∧ 4 ≤ rd) ∧
    (∃ (s : State) (e : Fin 16) (_rd _rs1 : Fin 32) (imm : BitVec 12), s.Canon ∧ s.collectorOn = true ∧ s.running e = true ∧ (imm.toNat = 0 ∨ 32 ≤ imm.toNat)) ∧
    (∃ (s : State) (e : Fin 16) (rd _rs1 rs2 : Fin 32), s.Canon ∧ s.collectorOn = true ∧ s.running e = true ∧ s.dftLegal e rd rs2 = false) :=
   ⟨⟨engRun, 3, 4, 1, 1, by decide +kernel⟩,
    ⟨engRun, 3, 4, 1, 32, by decide +kernel⟩,
    ⟨engRun, 3, 1, 1, 0, by decide +kernel⟩⟩

/-- States and operands that meet what `StagingOverflow` assumes. -/
theorem witness_StagingOverflow :
    (∃ (s : State) (e : Fin 16) (a : Nat) (_v : Word), NoSteps s ∧ a < 2 ^ 32 ∧ (locate (.engine e) a).map (·.1) = some .reg ∧ stagedBy e a = true ∧ s.accessCode (.engine e) a true = 0 ∧ (s.engine e).staged.length < 128) ∧
    (∃ (s : State) (e : Fin 16) (a : Nat) (_v : Word), s.Canon ∧ NoSteps s ∧ a < 2 ^ 32 ∧ (locate (.engine e) a).map (·.1) = some .reg ∧ stagedBy e a = true ∧ s.accessCode (.engine e) a true = 0 ∧ 128 ≤ (s.engine e).staged.length) ∧
    (∃ (s : State) (e : Fin 16), (s.engine e).overStaged = true) :=
   ⟨⟨engRun, 15, BAL_PHp_CMD 1, 5, by decide +kernel⟩,
    ⟨engRun.onEng 15 (fun g => { g with staged := List.replicate 128 (4, 4) }), 15, BAL_PHp_CMD 1, 5, by decide +kernel⟩,
    ⟨engRun.onEng 15 (fun g => { g with overStaged := true }), 15, by decide +kernel⟩⟩

/-- States and operands that meet what `PostingTasksAndSleep` assumes. -/
theorem witness_PostingTasksAndSleep :
    (∃ (s : State) (e : Fin 16) (c : Fin 32) (v : Word), s.running e = true ∧ (s.engine e).overStaged = false ∧ (s.engine e).staged = [(CMF_CELLn_V c, v)]) ∧
    (∃ (s : State) (e : Fin 16), s.Canon ∧ e < 8 ∧ s.running e = true ∧ (s.engine e).staged = [] ∧ (s.engine e).tickIn = some s.tickNo ∧ s.tick.trig = true ∧ s.flag (ENG_n_STAT_POSTED e) = false) ∧
    (∃ (s : State) (e : Fin 16), s.Canon ∧ s.running e = true ∧ (s.engine e).staged = [] ∧ (s.engine e).trigWait = false ∧ (s.engine e).deferred = 0) ∧
    (∃ (s : State) (e : Fin 16), s.Canon ∧ s.running e = true ∧ (s.engine e).staged = [] ∧ (s.engine e).trigWait = true) ∧
    (∃ (s : State) (e : Fin 16) (_rs1 : Fin 32), s.running e = true) ∧
    (∃ (s : State) (e t0 : Fin 16) (_rs1 : Fin 32) (c0 : Nat), s.Canon ∧ s.collectorOn = true ∧ s.running e = true ∧ (s.engine e).task = some (t0.val, c0) ∧ s.get (ENG_n_TASKt_CFG_COST e t0) < s.cycNow e - c0) :=
   ⟨⟨engRun.onEng 3 (fun g => { g with staged := [(CMF_CELLn_V 13, 7)] }), 3, 13, 7, by decide +kernel⟩,
    ⟨{ engRun.onEng 3 (fun g => { g with tickIn := some engRun.tickNo }) with tick := { engRun.tick with trig := true } }, 3, by decide +kernel⟩,
    ⟨engRun, 3, by decide +kernel⟩,
    ⟨engRun.onEng 3 (fun g => { g with trigWait := true }), 3, by decide +kernel⟩,
    ⟨engRun, 3, 2, by decide +kernel⟩,
    ⟨(engRun.onEng 3 (fun g => { g with task := some (5, 0) })).put64 (ENG_n_CYC_LO 3) 1000, 3, 5, 2, 0, by decide +kernel⟩⟩

/-- States and operands that meet what `EventsTrapsAndHalts` assumes. -/
theorem witness_EventsTrapsAndHalts :
    (∃ (s : State) (e : Fin 16) (c : EngineEvent), s.Canon ∧ s.eventReady e c = true ∧ s.engFenced e = false ∧ s.mode ≠ 0 ∧ s.running e = false ∧ (s.engine e).events < s.eventQuota e) ∧
    (∃ (s : State) (e : Fin 16) (c : EngineEvent), s.eventReady e c = true ∧ s.engFenced e = false ∧ s.mode ≠ 0 ∧ (s.running e = true ∨ s.eventQuota e ≤ (s.engine e).events)) ∧
    (∃ (s : State) (e : Fin 8), s.Canon ∧ s.engFenced e = false ∧ 64 < ((s.engine e).yspw - (s.engine e).ysp).toNat) ∧
    (∃ (s : State) (e : Fin 16) (mc _pc _tv : Word), s.Canon ∧ s.collectorOn = true ∧ s.engFenced e = false ∧ mc.toNat < 2 ^ 31 ∧ (mc.toNat < 8 ∨ 11 < mc.toNat ∨ (mc.toNat = 8 ∨ mc.toNat = 11) ∧ s.running e = true ∧ (s.engine e).handling = true) ∧ (mc.toNat ≠ 3 ∨ s.mode ≠ 4 ∨ s.flag (ENG_n_DBG_BKEN e) = false)) ∧
    (∃ (s : State) (e : Fin 16) (mc _pc _tv : Word), s.engFenced e = false ∧ (mc.toNat = 8 ∨ mc.toNat = 11) ∧ s.running e = true ∧ (s.engine e).handling = false) ∧
    (∃ (s : State) (e : Fin 16) (mc _pc _tv : Word), s.Canon ∧ s.engFenced e = false ∧ mc.toNat = 3 ∧ s.mode = 4 ∧ s.flag (ENG_n_DBG_BKEN e) = true) ∧
    (∃ (s : State) (e : Fin 16) (pc : Word), s.Canon ∧ s.running e = true ∧ s.flag (ENG_n_DBG_BKEN e) = true ∧ pc = s.rd (ENG_n_BKPT e)) ∧
    (∃ (s : State) (e : Fin 16) (i : Initiator) (v : Word), s.Canon ∧ Granted s i (ENG_n_DBG e) ∧ Unsealed s (ENG_n_DBG_HALT e) ∧ s.flag (ENG_n_DBG_HALT e) = false ∧ v.getLsbD 1 = false ∧ NoSteps s) ∧
    (∃ (s : State) (e : Fin 16) (i : Initiator) (v : Word) (pa : Nat), s.Canon ∧ Halted s e ∧ Granted s i (ENG_n_DBG e) ∧ Unsealed s (ENG_n_DBG_HALT e) ∧ v.getLsbD 0 = true ∧ CodeAt s e pa ∧ s.memLE pa 2 = 0x008B ∧ s.memLE (pa + 2) 2 = 0x00B5) ∧
    (∃ (s : State) (e : Fin 16) (i : Initiator) (v : Word) (pa : Nat), s.Canon ∧ Halted s e ∧ Granted s i (ENG_n_DBG e) ∧ Unsealed s (ENG_n_DBG_HALT e) ∧ v.getLsbD 0 = true ∧ CodeAt s e pa ∧ s.memLE pa 2 = 0x8513 ∧ s.memLE (pa + 2) 2 = 0xFFF5) ∧
    (∃ (s : State) (e : Fin 16) (i : Initiator) (v : Word) (pa : Nat), s.Canon ∧ Halted s e ∧ Granted s i (ENG_n_DBG e) ∧ Unsealed s (ENG_n_DBG_HALT e) ∧ v.getLsbD 0 = true ∧ CodeAt s e pa ∧ s.memLE pa 2 = 0x8533 ∧ s.memLE (pa + 2) 2 = 0x02C5) ∧
    (∃ (s : State) (e : Fin 16) (i : Initiator) (v : Word) (pa : Nat), s.Canon ∧ Halted s e ∧ Granted s i (ENG_n_DBG e) ∧ Unsealed s (ENG_n_DBG_HALT e) ∧ v.getLsbD 0 = true ∧ CodeAt s e pa ∧ s.memLE pa 2 = 0x952E) ∧
    (∃ (s : State) (e : Fin 16) (i : Initiator) (v : Word) (pa : Nat), s.Canon ∧ Halted s e ∧ Granted s i (ENG_n_DBG e) ∧ Unsealed s (ENG_n_DBG_HALT e) ∧ v.getLsbD 0 = true ∧ CodeAt s e pa ∧ s.memLE pa 2 = 0x0463 ∧ s.memLE (pa + 2) 2 = 0x00B5) ∧
    (∃ (s : State) (e : Fin 16) (i : Initiator) (v : Word) (pa : Nat), s.Canon ∧ Halted s e ∧ Granted s i (ENG_n_DBG e) ∧ Unsealed s (ENG_n_DBG_HALT e) ∧ v.getLsbD 0 = true ∧ CodeAt s e pa ∧ s.memLE pa 2 = 0x0073 ∧ s.memLE (pa + 2) 2 = 0x0000) ∧
    (∃ (s : State) (e : Fin 16) (k : Fin 6) (i : Initiator) (_v : Word), s.Canon ∧ Granted s i (ENG_n_PMCk_SEL e k) ∧ Unsealed s (ENG_n_PMCk_SEL_EVT e k)) ∧
    (∃ (s : State), s.Canon ∧ s.get ENG_PERF_DUMP_N ≠ 0 ∧ s.tickNo % s.get ENG_PERF_DUMP_N = 0 ∧ s.domOn 8 = true ∧ s.get ENG_PERF_RING_BASE * 65536 + s.get ENG_PERF_RING_WPTR * 1024 + 1024 ≤ 48 * 2 ^ 20) ∧
    (∃ (s : State), s.Canon ∧ s.get ENG_PERF_DUMP_N ≠ 0 ∧ s.tickNo % s.get ENG_PERF_DUMP_N = 0 ∧ s.domOn 8 = false ∧ s.bit MGT_PWR_STAT_RET 8 = false) :=
   ⟨⟨((run.put (ENG_n_TASKt_CFG_UNIT 3 0) 2).put (ENG_n_TASKt_CFG_COUNT 3 0) 2).onEng 3 (fun g => { g with samples := 33 }), 3, .samplePort, by decide +kernel⟩,
    ⟨run.onEng 3 (fun g => { g with samples := 33 }), 3, .samplePort, by decide +kernel⟩,
    ⟨run.onEng 3 (fun g => { g with yspw := 70 }), 3, by decide +kernel⟩,
    ⟨engRun, 3, 2, 100, 0, by decide +kernel⟩,
    ⟨engRun, 3, 11, 100, 0, by decide +kernel⟩,
    ⟨svc.put (ENG_n_DBG_BKEN 3) 1, 3, 3, 100, 0, by decide +kernel⟩,
    ⟨engRun.put (ENG_n_DBG_BKEN 3) 1, 3, 0, by decide +kernel⟩,
    ⟨svc, 3, .remoteHost, 1, by decide +kernel⟩,
    ⟨stepAt 0x008B 0x00B5, 3, .remoteHost, 3, 0x460000, by decide +kernel⟩,
    ⟨stepAt 0x8513 0xFFF5, 3, .remoteHost, 3, 0x460000, by decide +kernel⟩,
    ⟨stepAt 0x8533 0x02C5, 3, .remoteHost, 3, 0x460000, by decide +kernel⟩,
    ⟨stepAt 0x952E 0, 3, .remoteHost, 3, 0x460000, by decide +kernel⟩,
    ⟨stepAt 0x0463 0x00B5, 3, .remoteHost, 3, 0x460000, by decide +kernel⟩,
    ⟨stepAt 0x0073 0x0000, 3, .remoteHost, 3, 0x460000, by decide +kernel⟩,
    ⟨run, 15, 5, .remoteHost, 7, by decide +kernel⟩,
    ⟨run.put ENG_PERF_DUMP_N 10, by decide +kernel⟩,
    ⟨(run.put ENG_PERF_DUMP_N 10).put MGT_PWR_STAT_ON 0x2FF, by decide +kernel⟩⟩

/-- States and operands that meet what `EngineRestarts` assumes. -/
theorem witness_EngineRestarts :
    (∃ (s : State) (i : Initiator) (_v : Word), s.Canon ∧ Granted s i ENG_RESTART) ∧
    (∃ (s : State) (e : Fin 16) (i : Initiator) (v : Word), s.Canon ∧ Granted s i (ENG_n_CTRL e) ∧ Unsealed s (ENG_n_CTRL_EN e) ∧ s.flag (ENG_n_CTRL_EN e) = false ∧ v.getLsbD 0 = true) ∧
    (∃ (s : State) (e : Fin 16) (i : Initiator) (v : Word), s.Canon ∧ Granted s i (ENG_n_CTRL e) ∧ Unsealed s (ENG_n_CTRL_EN e) ∧ s.flag (ENG_n_CTRL_EN e) = true ∧ v.getLsbD 0 = false ∧ s.mode = 4) ∧
    (∃ (s : State) (e : Fin 16) (i : Initiator) (v : Word), s.Canon ∧ Granted s i (ENG_n_CTRL e) ∧ s.flag (ENG_n_CTRL_EN e) = true ∧ v.getLsbD 0 = true) ∧
    (∃ (s : State) (e : Fin 16) (t0 : Nat), s.Canon ∧ (s.engine e).restartAt = some t0 ∧ s.get (ENG_n_STAT_STATE e) = 4 ∧ s.triggered e = true ∧ s.atTrigger e = true ∧ t0 + 50 * us ≤ s.now ∧ (s.flag (ENG_n_LMEM_CRCOK e) = true ∨ (s.engine e).image = 0)) ∧
    (∃ (s : State) (v : Word) (e : Fin 16) (k : Nat), s.Canon ∧ Granted s (.engine 15) ENG_UPD_CTRL ∧ Unsealed s ENG_UPD_CTRL_ENG ∧ Unsealed s ENG_UPD_CTRL_IMG ∧ fieldOf v.toNat ENG_UPD_CTRL_ENG.lo ENG_UPD_CTRL_ENG.width = e ∧ fieldOf v.toNat ENG_UPD_CTRL_IMG.lo ENG_UPD_CTRL_IMG.width = k ∧ s.get (ENG_n_STAT_STATE e) = 6) ∧
    (∃ (s : State) (v : Word) (e : Fin 16) (k : Nat), s.Canon ∧ Granted s (.engine 15) ENG_UPD_CTRL ∧ Unsealed s ENG_UPD_CTRL_ENG ∧ Unsealed s ENG_UPD_CTRL_IMG ∧ fieldOf v.toNat ENG_UPD_CTRL_ENG.lo ENG_UPD_CTRL_ENG.width = e ∧ fieldOf v.toNat ENG_UPD_CTRL_IMG.lo ENG_UPD_CTRL_IMG.width = k ∧ s.get (ENG_n_STAT_STATE e) ≠ 6 ∧ s.imageVerified ((imageNamed k).getD 0) = false) ∧
    (∃ (s : State) (v : Word) (e : Fin 16) (k : Nat) (img : Nat), s.Canon ∧ Granted s (.engine 15) ENG_UPD_CTRL ∧ Unsealed s ENG_UPD_CTRL_ENG ∧ Unsealed s ENG_UPD_CTRL_IMG ∧ fieldOf v.toNat ENG_UPD_CTRL_ENG.lo ENG_UPD_CTRL_ENG.width = e ∧ fieldOf v.toNat ENG_UPD_CTRL_IMG.lo ENG_UPD_CTRL_IMG.width = k ∧ imageNamed k = some img ∧ s.get (ENG_n_STAT_STATE e) ≠ 6 ∧ s.imageVerified img = true) ∧
    (∃ (s : State) (e : Fin 16) (img : Nat), s.Canon ∧ (s.engine e).update = some img ∧ s.imageVerified img = true) :=
   ⟨⟨svc, .remoteHost, 0x1008, by decide +kernel⟩,
    ⟨svc.put (ENG_n_CTRL_EN 3) 0, 3, .remoteHost, 1, by decide +kernel⟩,
    ⟨svc.put (ENG_n_CTRL_EN 3) 1, 3, .remoteHost, 0, by decide +kernel⟩,
    ⟨svc.put (ENG_n_CTRL_EN 3) 1, 3, .remoteHost, 1, by decide +kernel⟩,
    ⟨({ run with now := sec, tick := { run.tick with trig := true, trigAt := Vector.replicate 2 (some sec) } }.put (ENG_n_STAT_STATE 3) 4).onEng 3 (fun g => { g with restartAt := some 0 }), 3, 0, by decide +kernel⟩,
    ⟨svc.put (ENG_n_STAT_STATE 3) 6, 3, 3, 0, by decide +kernel⟩,
    ⟨svc, 3, 3, 0, by decide +kernel⟩,
    ⟨svc.put (MGT_SLOTs_HDR_VERIFIED 2) 1, 0x103, 3, 1, 0x500000, by decide +kernel⟩,
    ⟨(svc.put (MGT_SLOTs_HDR_VERIFIED 2) 1).onEng 3 (fun g => { g with update := some 0x500000 }), 3, 0x500000, by decide +kernel⟩⟩

/-- States and operands that meet what `MailboxesAndSemaphores` assumes. -/
theorem witness_MailboxesAndSemaphores :
    (∃ (s : State) (e : Fin 16) (v : Word), s.Canon ∧ Granted s (.engine e) (ENG_n_MBX_TXPAY e) ∧ (s.engine e).waiting = none ∧ (outMsg s e v).reply = false ∧ ((outMsg s e v).rreq = true → ∀ o ∈ (s.engine e).tags, o.tag ≠ (outMsg s e v).tag) ∧ s.engFenced (outMsg s e v).dst = false ∧ (s.engine (outMsg s e v).dst).mbox.length < 16) ∧
    (∃ (s : State) (e : Fin 16) (v : Word), s.Canon ∧ Granted s (.engine e) (ENG_n_MBX_TXPAY e) ∧ (s.engine e).waiting = none ∧ (outMsg s e v).reply = true ∧ (outMsg s e v).rreq = false ∧ s.engFenced (outMsg s e v).dst = false ∧ (s.engine (outMsg s e v).dst).mbox.length < 16) ∧
    (∃ (s : State) (e : Fin 16) (v : Word), s.Canon ∧ Granted s (.engine e) (ENG_n_MBX_TXPAY e) ∧ (s.engine e).waiting = none ∧ (outMsg s e v).rreq = false ∧ s.engFenced (outMsg s e v).dst = true) ∧
    (∃ (s : State) (e : Fin 16) (v : Word), s.Canon ∧ Granted s (.engine e) (ENG_n_MBX_TXPAY e) ∧ (s.engine e).waiting = none ∧ (outMsg s e v).rreq = true ∧ (∀ o ∈ (s.engine e).tags, o.tag ≠ (outMsg s e v).tag) ∧ s.engFenced (outMsg s e v).dst = true) ∧
    (∃ (s : State) (e : Fin 16) (v : Word), s.Canon ∧ Granted s (.engine e) (ENG_n_MBX_TXPAY e) ∧ (s.engine e).waiting = none ∧ ((outMsg s e v).rreq = true → ∀ o ∈ (s.engine e).tags, o.tag ≠ (outMsg s e v).tag) ∧ s.engFenced (outMsg s e v).dst = false ∧ 16 ≤ (s.engine (outMsg s e v).dst).mbox.length) ∧
    (∃ (s : State) (e : Fin 16) (_v : Word), s.Canon ∧ Granted s (.engine e) (ENG_n_MBX_TXPAY e) ∧ (s.engine e).waiting.isSome = true) ∧
    (∃ (s : State) (e : Fin 16) (m : Msg), s.Canon ∧ (s.engine e).waiting = some m ∧ m.dst < 16 ∧ m.reply = false ∧ s.engFenced m.dst = false ∧ (s.engine m.dst).mbox.length < 16) ∧
    (∃ (s : State) (e : Fin 16) (m : Msg), s.Canon ∧ (s.engine e).waiting = some m ∧ m.dst < 16 ∧ m.reply = true ∧ s.tagOpen m.dst m.tag m.src = true ∧ s.engFenced m.dst = false ∧ (s.engine m.dst).mbox.length < 16) ∧
    (∃ (s : State) (e : Fin 16) (m : Msg), s.Canon ∧ (s.engine e).waiting = some m ∧ m.src = e ∧ m.rreq = true ∧ s.tagOpen e m.tag m.dst = true ∧ s.engFenced m.dst = true) ∧
    (∃ (s : State) (e : Fin 16) (i : Initiator) (_v : Word), Granted s i (ENG_n_MBX_RXPOP e)) ∧
    (∃ (s : State) (e : Fin 16) (tag : Fin 8) (o : OpenTag), (((s.engine e).tags.find? fun o => o.tag == tag.val) = some o) ∧ o.tick + s.getIn ENG_MBX_TMO_TMO 1 255 ≤ s.tickNo) ∧
    (∃ (s : State) (k : Fin 32) (n : Fin 16) (v : Word), s.Canon ∧ Granted s (.engine n) (ENG_SEMk k) ∧ v.getLsbD 1 = false) ∧
    (∃ (s : State) (k : Fin 32) (n : Fin 16) (v : Word), s.Canon ∧ Granted s (.engine n) (ENG_SEMk k) ∧ v.getLsbD 0 = false) :=
   ⟨⟨engRun.put (ENG_n_MBX_TXHDR_DST 15) 4, 15, 99, by decide +kernel⟩,
    ⟨((engRun.put (ENG_n_MBX_TXHDR_DST 15) 4).put (ENG_n_MBX_TXHDR_REPLY 15) 1).onEng 4 (fun g => { g with tags := [{ tag := 0, dst := 15, tick := 0 }] }), 15, 99, by decide +kernel⟩,
    ⟨(engRun.put (ENG_n_MBX_TXHDR_DST 15) 4).put (ENG_n_STAT_STATE 4) 3, 15, 99, by decide +kernel⟩,
    ⟨((engRun.put (ENG_n_MBX_TXHDR_DST 15) 4).put (ENG_n_MBX_TXHDR_RREQ 15) 1).put (ENG_n_STAT_STATE 4) 3, 15, 99, by decide +kernel⟩,
    ⟨(engRun.put (ENG_n_MBX_TXHDR_DST 15) 4).onEng 4 (fun g => { g with mbox := List.replicate 16 aMsg }), 15, 99, by decide +kernel⟩,
    ⟨engRun.onEng 15 (fun g => { g with waiting := some aMsg }), 15, 99, by decide +kernel⟩,
    ⟨engRun.onEng 15 (fun g => { g with waiting := some aMsg }), 15, aMsg, by decide +kernel⟩,
    ⟨(engRun.onEng 15 (fun g => { g with waiting := some { aMsg with reply := true } })).onEng 4 (fun g => { g with tags := [{ tag := 0, dst := 15, tick := 0 }] }), 15, { aMsg with reply := true }, by decide +kernel⟩,
    ⟨((engRun.onEng 15 (fun g => { g with waiting := some { aMsg with rreq := true }, tags := [{ tag := 0, dst := 4, tick := 0 }] })).put (ENG_n_STAT_STATE 4) 3), 15, { aMsg with rreq := true }, by decide +kernel⟩,
    ⟨run.onEng 4 (fun g => { g with mbox := [aMsg] }), 4, .remoteHost, 1, by decide +kernel⟩,
    ⟨(run.put64 TMG_TICK_LO 300).onEng 4 (fun g => { g with tags := [{ tag := 3, dst := 5, tick := 0 }] }), 4, 3, { tag := 3, dst := 5, tick := 0 }, by decide +kernel⟩,
    ⟨run, 31, 15, 1, by decide +kernel⟩,
    ⟨run.put (ENG_SEMk_OWNER 31) 16, 31, 15, 2, by decide +kernel⟩⟩

/-- States and operands that meet what `FramesOnAStrait` assumes. -/
theorem witness_FramesOnAStrait :
    (∃ (s : State) (p : Fin 4) (w : WireFrame) (h : HeardFrame) (c : Nat), s.Canon ∧ s.up p = true ∧ hear w = h ∧ s.headerFault p h = some c) ∧
    (∃ (s : State) (p : Fin 4) (w : WireFrame) (h : HeardFrame), s.collectorOn = true ∧ s.up p = true ∧ hear w = h ∧ s.headerFault p h = some 7) ∧
    (∃ (s : State) (p : Fin 4) (w : WireFrame) (h : HeardFrame) (c : Nat), s.Canon ∧ s.up p = true ∧ hear w = h ∧ s.headerFault p h = none ∧ bodyFault h = some c) ∧
    (∃ (s : State) (p : Fin 4) (w : WireFrame) (h : HeardFrame) (g : Frame), s.Canon ∧ s.up p = true ∧ hear w = h ∧ s.headerFault p h = none ∧ bodyFault h = none ∧ h.ecc ≠ .uncorrectable ∧ s.way p (parseFrame h.bytes) = .own g ∧ typeClass g.typ = some g.cls ∧ s.destinations g = (true, none)) ∧
    (∃ (s : State) (p : Fin 4) (w : WireFrame) (h : HeardFrame) (g : Frame), s.Canon ∧ s.up p = true ∧ hear w = h ∧ s.headerFault p h = none ∧ bodyFault h = none ∧ s.way p (parseFrame h.bytes) = .own g ∧ typeClass g.typ ≠ some g.cls) ∧
    (∃ (s : State) (p : Fin 4) (w : WireFrame) (h : HeardFrame) (n : Fin 4) (g : Frame), s.Canon ∧ s.up p = true ∧ hear w = h ∧ s.headerFault p h = none ∧ bodyFault h = none ∧ h.ecc ≠ .uncorrectable ∧ s.way p (parseFrame h.bytes) = .broadcast g ∧ (parseFrame h.bytes).hops ≠ 63 ∧ s.bit FAB_BCAST_CHILD n = true ∧ s.up n = true ∧ n ≠ p ∧ s.ringVc n g.vc < 2 ∧ g.cls < 3) ∧
    (∃ (s : State) (p : Fin 4) (w : WireFrame) (h : HeardFrame) (n : Fin 4) (g : Frame), s.Canon ∧ s.up p = true ∧ s.up n = true ∧ hear w = h ∧ s.headerFault p h = none ∧ bodyFault h = none ∧ s.way p (parseFrame h.bytes) = .out n g ∧ s.cutOk n g (wireUnits h.bytes) = false ∧ frameQueue g < 6) ∧
    (∃ (s : State) (p : Fin 4) (w : WireFrame) (h : HeardFrame) (n : Fin 4) (g : Frame), s.up p = true ∧ hear w = h ∧ s.headerFault p h = none ∧ s.way p (parseFrame h.bytes) = .out n g ∧ s.cutOk n g (wireUnits h.bytes) = true) ∧
    (∃ (s : State) (p : Fin 4) (q : Nat) (it : TxItem) (rest : List TxItem), s.up p = true ∧ s.pick p = some q ∧ vget (s.strait p).txq q [] = it :: rest ∧ it.arrival.isSome = true) ∧
    (∃ (s : State) (p : Fin 4) (q : Nat) (it : TxItem) (rest : List TxItem), s.up p = true ∧ s.pick p = some q ∧ vget (s.strait p).txq q [] = it :: rest) :=
   ⟨⟨island, 1, badFrame, badHeard, 3, by decide +kernel⟩,
    ⟨linked.onPort 1 (fun q => { q with own := Vector.replicate 6 0 }), 1, goodFrame 0x05, goodHeard 0x05, by decide +kernel⟩,
    ⟨linked, 1, onLine (wireBytes (frameFor 5)) kAbort, { goodHeard 0x05 with ending := .abort }, 2, by decide +kernel⟩,
    ⟨linked, 1, goodFrame 0x05, goodHeard 0x05, frameFor 5, by decide +kernel⟩,
    ⟨linked, 1, onLine (wireBytes { frameFor 5 with cls := 2 }) kEof, hear (onLine (wireBytes { frameFor 5 with cls := 2 }) kEof), { frameFor 5 with cls := 2 }, by decide +kernel⟩,
    ⟨casting, 1, goodFrame 0xFF, goodHeard 0xFF, 0, { frameFor 0xFF with hops := 1 }, by decide +kernel⟩,
    ⟨linked.put (FAB_PORTn_CFG_CUT 0) 0, 1, goodFrame 0x07, goodHeard 0x07, 0, { frameFor 7 with hops := 1 }, by decide +kernel⟩,
    ⟨linked, 1, goodFrame 0x07, goodHeard 0x07, 0, { frameFor 7 with hops := 1 }, by decide +kernel⟩,
    ⟨queued (some 1), 0, 2, anItem (some 1), [], by decide +kernel⟩,
    ⟨queued none, 0, 2, anItem none, [], by decide +kernel⟩⟩

/-- States and operands that meet what `CreditsAndHazard` assumes. -/
theorem witness_CreditsAndHazard :
    (∃ (s : State) (p : Fin 4) (qb c : Byte), s.up p = true ∧ qb.toNat % 8 < 6 ∧ qb.toNat = creditByte (qb.toNat % 8) c.toNat ∧ (c.toNat + 256 - vget (s.strait p).credC (qb.toNat % 8) 0) % 256 ≤ (vget (s.strait p).sentU (qb.toNat % 8) 0 + 256 - vget (s.strait p).credC (qb.toNat % 8) 0) % 256) ∧
    (∃ (s : State) (p : Fin 4) (qb c : Byte), s.Canon ∧ s.up p = true ∧ (qb.toNat % 8 ≥ 6 ∨ qb.toNat ≠ creditByte (qb.toNat % 8) c.toNat ∨ (vget (s.strait p).sentU (qb.toNat % 8) 0 + 256 - vget (s.strait p).credC (qb.toNat % 8) 0) % 256 < (c.toNat + 256 - vget (s.strait p).credC (qb.toNat % 8) 0) % 256)) ∧
    (∃ (s : State) (p : Fin 4) (_q : Fin 6), s.up p = true) ∧
    (∃ (s : State) (p : Fin 4) (t0 : Nat), s.Canon ∧ s.collectorOn = true ∧ s.up p = true ∧ s.stalledSince p = some t0) ∧
    (∃ (s : State) (p : Fin 4), s.Canon ∧ s.up p = true ∧ s.hazIn p = true) ∧
    (∃ (s : State) (p n : Fin 4), s.Canon ∧ s.up p = true ∧ s.hazIn p = true ∧ s.flag FAB_STAT_HOLDOFF = false ∧ n ≠ p ∧ s.up n = true ∧ s.hazOut n = true) ∧
    (∃ (s : State) (p : Fin 4), s.Canon ∧ s.up p = true) ∧
    (∃ (s : State), s.Canon ∧ s.domOn 6 = true) ∧
    (∃ (s : State), s.Canon ∧ s.flag FAB_STAT_HOLDOFF = true) :=
   ⟨⟨linked, 1, BitVec.ofNat 8 (creditByte 2 0), 0, by decide +kernel⟩,
    ⟨linked, 1, BitVec.ofNat 8 (creditByte 2 9), 9, by decide +kernel⟩,
    ⟨linked, 1, 5, by decide +kernel⟩,
    ⟨(queued none).onPort 0 (fun q => { q with allot := Vector.replicate 6 0 }), 0, 0, by decide +kernel⟩,
    ⟨linked, 1, by decide +kernel⟩,
    ⟨linked, 1, 0, by decide +kernel⟩,
    ⟨linked, 1, by decide +kernel⟩,
    ⟨linked, by decide +kernel⟩,
    ⟨linked.put FAB_STAT_HOLDOFF 1, by decide +kernel⟩⟩

/-- States and operands that meet what `TrainingOfAStrait` assumes. -/
theorem witness_TrainingOfAStrait :
    (∃ (s : State) (p : Fin 4), s.Canon ∧ s.mayTrain p = true ∧ s.get (FAB_PORTn_STAT_STATE p) ≤ 2) ∧
    (∃ (s : State) (p : Fin 4), s.Canon ∧ s.get (FAB_PORTn_STAT_STATE p) = 3 ∧ (s.strait p).aligned = false) ∧
    (∃ (s : State) (p : Fin 4) (l : List Byte) (ts : TrainSet), s.Canon ∧ s.get (FAB_PORTn_STAT_STATE p) = 3 ∧ (s.strait p).aligned = true ∧ parseTrain l = ts ∧ ts.crcOk = true ∧ ts.ver = 1 ∧ ts.uid.toNat ≠ s.uid) ∧
    (∃ (s : State) (p : Fin 4) (l : List Byte) (ts : TrainSet), s.Canon ∧ s.get (FAB_PORTn_STAT_STATE p) = 3 ∧ (s.strait p).aligned = true ∧ parseTrain l = ts ∧ ts.crcOk = true ∧ ts.ver = 1 ∧ ts.uid.toNat ≠ s.uid ∧ (s.strait p).lastTs = some ts ∧ 2 ≤ (s.strait p).sameRun ∧ (s.strait p).ts2Sent = none ∧ ts.ts2 = false) ∧
    (∃ (s : State) (p : Fin 4) (l : List Byte) (ts : TrainSet) (a : Nat), s.Canon ∧ s.get (FAB_PORTn_STAT_STATE p) = 3 ∧ (s.strait p).aligned = true ∧ parseTrain l = ts ∧ ts.crcOk = true ∧ ts.ver = 1 ∧ ts.uid.toNat ≠ s.uid ∧ ts.ts2 = true ∧ 2 ≤ (s.strait p).ts2Run ∧ (s.strait p).ts2Sent = some a) ∧
    (∃ (s : State) (p : Fin 4) (l : List Byte) (ts : TrainSet), s.Canon ∧ s.get (FAB_PORTn_STAT_STATE p) = 3 ∧ (s.strait p).aligned = true ∧ parseTrain l = ts ∧ ts.crcOk = true ∧ ts.ver ≠ 1) ∧
    (∃ (s : State) (p : Fin 4) (l : List Byte) (ts : TrainSet), s.Canon ∧ s.get (FAB_PORTn_STAT_STATE p) = 3 ∧ (s.strait p).aligned = true ∧ parseTrain l = ts ∧ ts.crcOk = true ∧ ts.ver = 1 ∧ ts.uid.toNat = s.uid) ∧
    (∃ (s : State) (p : Fin 4) (l : List Byte) (ts : TrainSet), s.get (FAB_PORTn_STAT_STATE p) = 3 ∧ (s.strait p).aligned = true ∧ parseTrain l = ts ∧ ts.crcOk = false) ∧
    (∃ (s : State) (p : Fin 4) (_l : List Byte), s.Canon ∧ s.up p = true) ∧
    (∃ (s : State) (p : Fin 4), s.Canon ∧ s.get (FAB_PORTn_STAT_STATE p) = 3) ∧
    (∃ (s : State) (p : Fin 4), s.Canon ∧ s.mayTrain p = true ∧ s.get (FAB_PORTn_STAT_STATE p) = 5) :=
   ⟨⟨linked.put (FAB_PORTn_STAT_STATE 2) 1, 2, by decide +kernel⟩,
    ⟨linked.put (FAB_PORTn_STAT_STATE 2) 3, 2, by decide +kernel⟩,
    ⟨training, 2, aTs, aSet, by decide +kernel⟩,
    ⟨training.onPort 2 (fun q => { q with lastTs := some { aSet with ts2 := false }, sameRun := 2 }), 2, trainBytes { aSet with ts2 := false }, { aSet with ts2 := false }, by decide +kernel⟩,
    ⟨training.onPort 2 (fun q => { q with ts2Run := 2, ts2Sent := some 0 }), 2, aTs, parseTrain aTs, 0, by decide +kernel⟩,
    ⟨training, 2, trainBytes { aSet with ver := 2 }, { aSet with ver := 2 }, by decide +kernel⟩,
    ⟨training, 2, trainBytes { aSet with uid := 0 }, { aSet with uid := 0 }, by decide +kernel⟩,
    ⟨training, 2, aTs.dropLast ++ [0], parseTrain (aTs.dropLast ++ [0]), by decide +kernel⟩,
    ⟨linked, 1, aTs, by decide +kernel⟩,
    ⟨training, 2, by decide +kernel⟩,
    ⟨linked.put (FAB_PORTn_STAT_STATE 2) 5, 2, by decide +kernel⟩⟩

/-- States and operands that meet what `LinkDownAndWakeTones` assumes. -/
theorem witness_LinkDownAndWakeTones :
    (∃ (s : State) (p : Fin 4) (c : Fin 13), s.Canon ∧ s.up p = true ∧ c ≠ 0) ∧
    (∃ (s : State) (p : Fin 4) (i : Initiator) (_v : Word), s.Canon ∧ Granted s i (FAB_PORTn_CTRL p) ∧ s.up p = true) ∧
    (∃ (s : State) (p : Fin 4) (i : Initiator) (_v : Word), s.Canon ∧ Granted s i (FAB_PORTn_CTRL p) ∧ s.up p = false ∧ s.mayTrain p = true) ∧
    (∃ (s : State) (p : Fin 4) (i : Initiator) (_v : Word), s.Canon ∧ Granted s i (FAB_PORTn_CTRL p) ∧ s.up p = true) ∧
    (∃ (s : State) (p : Fin 4) (i : Initiator) (_v : Word), s.Canon ∧ Granted s i (FAB_PORTn_TEST p) ∧ Unsealed s ⟨FAB_PORTn_TEST p, 0, 1⟩ ∧ s.up p = true) ∧
    (∃ (s : State) (p : Fin 4) (i : Initiator) (_v : Word), s.Canon ∧ Granted s i (FAB_PORTn_TEST p) ∧ Unsealed s ⟨FAB_PORTn_TEST p, 1, 1⟩ ∧ s.up p = true) ∧
    (∃ (s : State) (p : Fin 4), s.Canon ∧ s.flag (FAB_PORTn_CFG_WAKEIN p) = true ∧ s.up p = false ∧ (s.strait p).toneIgnored = false ∧ (s.strait p).toneTill ≤ s.now ∧ s.get (FAB_PORTn_STAT_STATE p) ≠ 2) ∧
    (∃ (s : State) (p : Fin 4) (t0 : Nat), s.Canon ∧ (s.strait p).toneSince = some t0) :=
   ⟨⟨linked, 1, 12, by decide +kernel⟩,
    ⟨linked, 1, .remoteHost, 1, by decide +kernel⟩,
    ⟨linked.put (FAB_PORTn_STAT_STATE 2) 1, 2, .remoteHost, 2, by decide +kernel⟩,
    ⟨linked, 1, .remoteHost, 2, by decide +kernel⟩,
    ⟨linked.put MGT_MODE_STAT_MODE 4, 1, .remoteHost, 1, by decide +kernel⟩,
    ⟨linked.put MGT_MODE_STAT_MODE 4, 1, .remoteHost, 2, by decide +kernel⟩,
    ⟨(linked.put (FAB_PORTn_STAT_STATE 2) 1).put (FAB_PORTn_CFG_WAKEIN 2) 1, 2, by decide +kernel⟩,
    ⟨linked.onPort 2 (fun q => { q with toneSince := some 5 }), 2, 5, by decide +kernel⟩⟩

/-- States and operands that meet what `SoundingRoundStarts` assumes. -/
theorem witness_SoundingRoundStarts :
    (∃ (s : State) (i : Initiator) (_v : Word), s.Canon ∧ Granted s i FAB_NET_CTRL ∧ s.soundable = true ∧ s.isHarbour = true ∧ s.flag FAB_NET_STAT_STANDBY = false ∧ s.net.rnd.holdTill = none ∧ s.net.rnd.running = false ∧ s.net.commit = none) ∧
    (∃ (s : State) (i : Initiator) (v : Word), Granted s i FAB_NET_CTRL ∧ (s.isHarbour = false ∨ s.net.rnd.holdTill.isSome = true ∨ s.net.rnd.running = true) ∧ s.flag FAB_NET_STAT_STANDBY = false ∧ bitOf v.toNat 2 = false) ∧
    (∃ (s : State) (_p : Fin 4) (f : Frame), s.Canon ∧ s.soundable = true ∧ Followed s f 0x10 ∧ s.isHarbour = false ∧ s.net.listenTill = none ∧ newerRound s.net.curRound (leAt f.payload 0 2) = true) ∧
    (∃ (s : State) (p : Fin 4) (f : Frame) (n : Fin 4), s.Canon ∧ s.soundable = true ∧ Followed s f 0x10 ∧ s.isHarbour = false ∧ s.net.listenTill = none ∧ newerRound s.net.curRound (leAt f.payload 0 2) = true ∧ byteAt f.payload 12 < 64 ∧ n ≠ p ∧ s.up n = true ∧ s.role n = 0) ∧
    (∃ (s : State) (i : Initiator) (v : Word), Granted s i FAB_NET_CTRL ∧ s.soundable = false ∧ s.isHarbour = true ∧ s.flag FAB_NET_STAT_STANDBY = false ∧ s.net.rnd.holdTill = none ∧ s.net.rnd.running = false ∧ bitOf v.toNat 2 = false) ∧
    (∃ (s : State) (_p : Fin 4) (f : Frame), s.soundable = true ∧ Followed s f 0x11 ∧ s.isHarbour = true ∧ s.net.rnd.running = true ∧ leAt f.payload 0 2 = s.net.rnd.number) ∧
    (∃ (s : State) (_p : Fin 4) (f : Frame) (n : Nat), s.Canon ∧ s.soundable = true ∧ Followed s f 0x11 ∧ s.isHarbour = false ∧ s.parentPort = some n) ∧
    (∃ (s : State), s.Canon ∧ s.soundable = true ∧ s.isHarbour = true ∧ s.net.rnd.running = true ∧ s.net.rnd.assigns = [] ∧ closedMap s.net.rnd.reports = true ∧ unsettled s.net.rnd.reports = [] ∧ s.flag FAB_NET_STAT_TCHG = false) ∧
    (∃ (s : State), s.Canon ∧ s.soundable = true ∧ s.isHarbour = true ∧ s.net.rnd.running = true ∧ s.net.rnd.assigns = [] ∧ (closedMap s.net.rnd.reports = false ∨ unsettled s.net.rnd.reports ≠ [] ∨ s.flag FAB_NET_STAT_TCHG = true) ∧ s.get FAB_SND_STAT_RERUN < 4) ∧
    (∃ (s : State), s.Canon ∧ s.collectorOn = true ∧ s.soundable = true ∧ s.isHarbour = true ∧ s.net.rnd.running = true ∧ s.net.rnd.assigns = [] ∧ s.flag FAB_NET_STAT_TCHG = true ∧ 4 ≤ s.get FAB_SND_STAT_RERUN) :=
   ⟨⟨sounder, .remoteHost, 1, by decide +kernel⟩,
    ⟨linked, .remoteHost, 1, by decide +kernel⟩,
    ⟨linked, 1, sound 0x10 3 [2], by decide +kernel⟩,
    ⟨linked, 1, sound 0x10 3 [2], 0, by decide +kernel⟩,
    ⟨(sounder.put (ENG_n_STAT_STATE 12) 3 |>.put (ENG_n_STAT_STATE 13) 3 |>.put ENG_FENCED_F 0x3000), .remoteHost, 1, by decide +kernel⟩,
    ⟨soundRuns, 1, sound 0x11 1 [], by decide +kernel⟩,
    ⟨linked.put (FAB_PORTn_SND_PARENT 0) 1, 1, sound 0x11 0 [], 0, by decide +kernel⟩,
    ⟨soundRuns, by decide +kernel⟩,
    ⟨soundRuns.put FAB_NET_STAT_TCHG 1, by decide +kernel⟩,
    ⟨(soundRuns.put FAB_NET_STAT_TCHG 1).put FAB_SND_STAT_RERUN 4, by decide +kernel⟩⟩

/-- States and operands that meet what `AssignmentAndCommit` assumes. -/
theorem witness_AssignmentAndCommit :
    (∃ (s : State) (_p : Fin 4) (f : Frame) (n : Nat), s.Canon ∧ s.soundable = true ∧ Followed s f 0x12 ∧ s.isHarbour = false ∧ f.payload.length = 291 ∧ byteAt f.payload 20 ≤ byteAt f.payload 21 ∧ (parseAssign f.payload).uid = s.uid ∧ s.parentPort = some n) ∧
    (∃ (s : State) (_p : Fin 4) (f : Frame), s.Canon ∧ s.soundable = true ∧ Followed s f 0x12 ∧ s.isHarbour = false ∧ f.payload.length = 291 ∧ byteAt f.payload 21 < byteAt f.payload 20 ∧ s.up (fieldOf (leAt f.payload 22 16) (2 * byteAt f.payload 21) 2) = true) ∧
    (∃ (s : State) (_p : Fin 4) (f : Frame), s.soundable = true ∧ Followed s f 0x13 ∧ s.isHarbour = true ∧ s.net.rnd.running = true ∧ leAt f.payload 0 2 = s.net.rnd.number ∧ byteAt f.payload 25 = 0 ∧ (s.net.rnd.assigns.any (fun x => !x.acked && !x.absent && x.a.uid != leAt f.payload 12 8) = true)) ∧
    (∃ (s : State) (_p : Fin 4) (f : Frame), s.Canon ∧ s.soundable = true ∧ Followed s f 0x13 ∧ s.isHarbour = true ∧ s.net.rnd.running = true ∧ leAt f.payload 0 2 = s.net.rnd.number ∧ byteAt f.payload 25 = 0 ∧ (s.net.rnd.assigns.all (fun x => !x.absent && (x.acked || x.a.uid == leAt f.payload 12 8 && crc32c x.a.rt == leAt f.payload 21 4)) = true) ∧ s.flag FAB_NET_STAT_TCHG = false) ∧
    (∃ (s : State) (a : Fin 256) (x : Pending), (s.net.rnd.assigns.find? (fun q => q.a.addr == a.val && !q.acked && !q.absent) = some x) ∧ x.tries < 3 ∧ s.soundable = true) ∧
    (∃ (s : State) (a : Fin 256) (x : Pending), s.Canon ∧ (s.net.rnd.assigns.find? (fun q => q.a.addr == a.val && !q.acked && !q.absent) = some x) ∧ 3 ≤ x.tries ∧ (s.net.rnd.assigns.any (fun q => !q.acked && !q.absent && q.a.uid != x.a.uid) = true) ∧ s.soundable = true) ∧
    (∃ (s : State) (_p : Fin 4) (f : Frame), s.Canon ∧ s.soundable = true ∧ Followed s f 0x14 ∧ s.isHarbour = false ∧ s.get FAB_NET_STAT_SND = 1) ∧
    (∃ (s : State) (k u : Nat) (a : Assign), s.Canon ∧ s.isHarbour = false ∧ s.net.commit = some (k, u) ∧ s.net.staged = some a) ∧
    (∃ (s : State) (k u : Nat) (a : Assign), s.Canon ∧ s.isHarbour = true ∧ a.addr = 0 ∧ s.net.commit = some (k, u) ∧ s.net.staged = some a) ∧
    (∃ (s : State) (k u : Nat), s.Canon ∧ s.net.commit = some (k, u) ∧ s.net.staged = none) ∧
    (∃ (s : State) (_p : Fin 4) (f : Frame), s.Canon ∧ s.soundable = true ∧ Followed s f 0x15 ∧ s.isHarbour = true ∧ s.net.rnd.running = true ∧ s.net.rnd.holdTill = none ∧ s.net.commit = none) ∧
    (∃ (s : State) (_p : Fin 4) (f : Frame), s.Canon ∧ s.soundable = true ∧ Followed s f 0x15 ∧ s.isHarbour = true ∧ s.net.rnd.running = false ∧ s.net.rnd.holdTill = none ∧ s.net.commit = none) ∧
    (∃ (s : State) (_p : Fin 4) (f : Frame) (n : Nat), s.Canon ∧ s.soundable = true ∧ Followed s f 0x15 ∧ s.isHarbour = false ∧ s.parentPort = some n) ∧
    (∃ (s : State) (_p : Fin 4) (f : Frame) (n : Fin 4), s.Canon ∧ s.soundable = true ∧ Followed s f 0x15 ∧ s.isHarbour = false ∧ s.parentPort = none ∧ s.up n = true ∧ s.role n = 0) ∧
    (∃ (s : State) (_p : Fin 4) (f : Frame), s.Canon ∧ s.soundable = true ∧ Followed s f 0x16 ∧ s.isHarbour = false ∧ s.get FAB_NET_STAT_SND ≠ 0) ∧
    (∃ (s : State) (u : Nat), s.net.rnd.holdTill = some u ∧ s.net.rnd.wanted = false) ∧
    (∃ (s : State) (u : Nat), s.Canon ∧ s.soundable = true ∧ s.isHarbour = true ∧ s.net.rnd.holdTill = some u ∧ s.net.rnd.wanted = true ∧ s.net.rnd.running = false ∧ s.net.commit = none) ∧
    (∃ (s : State) (a : Fin 256) (e : AtEntry), (s.net.table.find? (fun e => e.addr == a.val && e.state == 2) = some e)) ∧
    (∃ (s : State) (i : Initiator) (v : Word), Granted s i FAB_NET_CTRL ∧ s.mode = 4 ∧ bitOf v.toNat 0 = false ∧ bitOf v.toNat 1 = false) ∧
    (∃ (s : State) (i : Initiator) (v : Word), Granted s i FAB_NET_CTRL ∧ s.mode ≠ 4 ∧ bitOf v.toNat 0 = false ∧ bitOf v.toNat 1 = false) :=
   ⟨⟨linked.put (FAB_PORTn_SND_PARENT 0) 1, 0, sound 0x12 0 (List.replicate 279 0), 0, by decide +kernel⟩,
    ⟨linked, 0, sound 0x12 0 (List.replicate 8 0 ++ [1, 0, 1] ++ List.replicate 268 0), by decide +kernel⟩,
    ⟨assigning, 1, sound 0x13 1 (leBytes 8 8 ++ List.replicate 6 0), by decide +kernel⟩,
    ⟨assigning.onRound (fun r => { r with assigns := r.assigns.take 1 }), 1, sound 0x13 1 (leBytes 8 8 ++ List.replicate 6 0), by decide +kernel⟩,
    ⟨assigning, 8, anAssign 8, by decide +kernel⟩,
    ⟨assigning.onRound (fun r => { r with assigns := { anAssign 8 with tries := 3 } :: r.assigns.drop 1 }), 8, { anAssign 8 with tries := 3 }, by decide +kernel⟩,
    ⟨linked.put FAB_NET_STAT_SND 1, 0, sound 0x14 0 [50, 0, 0, 0, 0, 0, 9], by decide +kernel⟩,
    ⟨committing, 50, 50, (anAssign 8).a, by decide +kernel⟩,
    ⟨{ sounder with net := { sounder.net with staged := some (anAssign 0).a, commit := some (50, 50) } }, 50, 50, (anAssign 0).a, by decide +kernel⟩,
    ⟨{ committing with net := { committing.net with staged := none } }, 50, 50, by decide +kernel⟩,
    ⟨soundRuns, 1, sound 0x15 1 [], by decide +kernel⟩,
    ⟨sounder, 1, sound 0x15 0 [], by decide +kernel⟩,
    ⟨linked.put (FAB_PORTn_SND_PARENT 0) 1, 1, sound 0x15 0 [], 0, by decide +kernel⟩,
    ⟨linked, 1, sound 0x15 0 [], 0, by decide +kernel⟩,
    ⟨committing, 0, sound 0x16 0 [], by decide +kernel⟩,
    ⟨sounder.onRound (fun r => { r with holdTill := some 9 }), 9, by decide +kernel⟩,
    ⟨sounder.onRound (fun r => { r with holdTill := some 9, wanted := true }), 9, by decide +kernel⟩,
    ⟨{ sounder with net := { sounder.net with table := [{ addr := 7, uid := 3, state := 2, holdEnd := 90, round := 0 }] } }, 7, { addr := 7, uid := 3, state := 2, holdEnd := 90, round := 0 }, by decide +kernel⟩,
    ⟨sounder.put MGT_MODE_STAT_MODE 4, .remoteHost, 4, by decide +kernel⟩,
    ⟨sounder, .remoteHost, 4, by decide +kernel⟩⟩

/-- States and operands that meet what `HarbourRole` assumes. -/
theorem witness_HarbourRole :
    (∃ (s : State) (u : Nat), s.Canon ∧ s.net.listenTill = some u) ∧
    (∃ (s : State) (_v : Word), s.Canon ∧ Granted s .remoteHost FAB_NET_CTRL ∧ s.isHarbour = false ∧ s.flag FAB_NET_STAT_STANDBY = true) ∧
    (∃ (s : State) (i : Initiator) (v : Word), Granted s i FAB_NET_CTRL ∧ s.isHarbour = false ∧ s.flag FAB_NET_STAT_STANDBY = false ∧ bitOf v.toNat 2 = false) ∧
    (∃ (s : State), s.Canon ∧ s.flag FAB_NET_STAT_STANDBY = true ∧ s.flag FAB_NET_CFG_AUTO = true) ∧
    (∃ (s : State), (s.flag FAB_NET_STAT_STANDBY = false ∨ s.flag FAB_NET_CFG_AUTO = false)) :=
   ⟨⟨{ linked with net := { linked.net with listenTill := some 9 } }, 9, by decide +kernel⟩,
    ⟨linked.put FAB_NET_STAT_STANDBY 1, 2, by decide +kernel⟩,
    ⟨linked, .remoteHost, 2, by decide +kernel⟩,
    ⟨(linked.put FAB_NET_STAT_STANDBY 1).put FAB_NET_CFG_AUTO 1, by decide +kernel⟩,
    ⟨linked, by decide +kernel⟩⟩

/-- States and operands that meet what `RemoteAccess` assumes. -/
theorem witness_RemoteAccess :
    (∃ (s : State) (p : Fin 4) (f : Frame) (a : Nat), s.Canon ∧ f.typ = 0x20 ∧ s.isRepeat f.src (bitOf (frameTag f) 15) f.seq = false ∧ s.recovering = false ∧ NoSteps s ∧ s.mgt.upd = none ∧ byteAt f.payload 2 = 1 ∧ byteAt f.payload 3 = 1 ∧ a = leAt f.payload 4 4 ∧ a % 4 = 0 ∧ lagoon ≤ a ∧ a < 0x13000000 ∧ s.accessCode (s.serveAs p f) a true = 0) ∧
    (∃ (s : State) (p : Fin 4) (f : Frame) (a b : Nat), s.Canon ∧ f.typ = 0x20 ∧ s.isRepeat f.src (bitOf (frameTag f) 15) f.seq = false ∧ s.recovering = false ∧ NoSteps s ∧ s.mgt.upd = none ∧ byteAt f.payload 2 = 1 ∧ byteAt f.payload 3 = 1 ∧ a = leAt f.payload 4 4 ∧ a % 4 = 0 ∧ lagoon ≤ a ∧ a < 0x13000000 ∧ s.accessCode (s.serveAs p f) a true = 0 ∧ (b < a ∨ a + 4 ≤ b)) ∧
    (∃ (s : State) (p : Fin 4) (f : Frame), s.Canon ∧ f.typ = 0x20 ∧ s.isRepeat f.src (bitOf (frameTag f) 15) f.seq = false ∧ s.recovering = false ∧ NoSteps s ∧ byteAt f.payload 2 = 0 ∧ byteAt f.payload 3 = 1 ∧ s.accessCode (s.serveAs p f) (leAt f.payload 4 4) false = 0) ∧
    (∃ (s : State) (_p : Fin 4) (f : Frame), NoSteps s ∧ f.typ = 0x20 ∧ s.isRepeat f.src (bitOf (frameTag f) 15) f.seq = true) ∧
    (∃ (s : State) (_p : Fin 4) (f : Frame) (k : Nat) (r : RaSlot), s.Canon ∧ s.slotOf f 0x20 = some (k, r)) ∧
    (∃ (s : State) (k : Fin 16) (r : RaSlot), s.Canon ∧ s.slot k = some r ∧ r.sends ≠ 0 ∧ r.sends ≤ s.getIn FAB_RA_CFG_TRIES 0 7) ∧
    (∃ (s : State) (k : Fin 16) (r : RaSlot), s.Canon ∧ s.slot k = some r ∧ r.sends ≠ 0 ∧ s.getIn FAB_RA_CFG_TRIES 0 7 < r.sends) ∧
    (∃ (s : State) (k : Fin 16) (i : Initiator) (v : Word), s.Canon ∧ s.sealed = false ∧ Granted s i (FAB_RASs_CTRL k) ∧ s.slot k = none ∧ s.hasRoute (v.toNat % 256) = false) ∧
    (∃ (s : State) (k : Fin 16) (i : Initiator) (v : Word), s.Canon ∧ s.sealed = false ∧ Granted s i (FAB_RASs_CTRL k) ∧ s.slot k = none ∧ s.hasRoute (v.toNat % 256) = true) ∧
    (∃ (s : State) (k : Fin 16) (i : Initiator) (_v : Word), Granted s i (FAB_RASs_CTRL k) ∧ (s.slot k).isSome = true) ∧
    (∃ (s : State) (_p : Fin 4) (f : Frame), s.net.streams = [] ∧ streamRange (leAt f.payload 4 4) (leAt f.payload 8 4) = true ∧ s.domOn 8 = true) ∧
    (∃ (_s : State) (_p : Fin 4) (f : Frame), streamRange (leAt f.payload 4 4) (leAt f.payload 8 4) = false) ∧
    (∃ (s : State) (_p : Fin 4) (f : Frame) (k : Nat) (r : RaSlot), s.Canon ∧ s.slotOf f 0x30 = some (k, r) ∧ byteAt f.payload 2 = 0 ∧ s.storeCode (s.slotBuf k + (r.base + leAt f.payload 4 4)) (f.payload.drop 8).length ≠ 0) ∧
    (∃ (s : State) (_p : Fin 4) (f : Frame) (k : Nat) (r : RaSlot), s.Canon ∧ s.slotOf f 0x30 = some (k, r) ∧ byteAt f.payload 2 ≠ 0) ∧
    (∃ (s : State) (_p : Fin 4) (f : Frame) (k : Nat) (r : RaSlot), s.Canon ∧ s.slotOf f 0x30 = some (k, r) ∧ byteAt f.payload 2 = 0 ∧ byteAt f.payload 3 = 0 ∧ s.storeCode (s.slotBuf k + (r.base + leAt f.payload 4 4)) (f.payload.drop 8).length = 0) ∧
    (∃ (s : State) (_p : Fin 4) (f : Frame) (k : Nat) (r : RaSlot), s.Canon ∧ s.slotOf f 0x30 = some (k, r) ∧ byteAt f.payload 2 = 0 ∧ byteAt f.payload 3 ≠ 0 ∧ s.storeCode (s.slotBuf k + (r.base + leAt f.payload 4 4)) (f.payload.drop 8).length = 0 ∧ firstGap r.len (addRange (r.base + leAt f.payload 4 4) (r.base + leAt f.payload 4 4 + (f.payload.drop 8).length) r.got) = none) ∧
    (∃ (s : State) (_p : Fin 4) (f : Frame) (k : Nat) (r : RaSlot) (lo hi : Nat), s.Canon ∧ s.slotOf f 0x30 = some (k, r) ∧ byteAt f.payload 2 = 0 ∧ byteAt f.payload 3 ≠ 0 ∧ s.storeCode (s.slotBuf k + (r.base + leAt f.payload 4 4)) (f.payload.drop 8).length = 0 ∧ firstGap r.len (addRange (r.base + leAt f.payload 4 4) (r.base + leAt f.payload 4 4 + (f.payload.drop 8).length) r.got) = some (lo, hi)) :=
   ⟨⟨lagoonOpen linked, 0, raFrame 0 [1, 0, 1, 1, 4, 0, 0xC0, 16, 7, 6, 5, 4], 0x10C00004, by decide +kernel⟩,
    ⟨lagoonOpen linked, 0, raFrame 0 [1, 0, 1, 1, 4, 0, 0xC0, 16, 7, 6, 5, 4], 0x10C00004, 0x10C00003, by decide +kernel⟩,
    ⟨linked, 0, raFrame 0 [1, 0, 0, 1, 4, 0, 0, 16], by decide +kernel⟩,
    ⟨{ linked with net := { linked.net with served := [{ src := 0, host := false, high := 4, highAt := 0, rsp := [] }] } }, 0, raFrame 0 [1, 0, 1, 1, 4, 0, 0, 16, 7, 6, 5, 4], by decide +kernel⟩,
    ⟨slotted, 0, raFrame 7 [1, 0, 0, 1, 4, 0, 0, 16, 9, 9, 9, 9], 3, aSlot, by decide +kernel⟩,
    ⟨slotted.put FAB_RA_CFG_TRIES 2, 3, aSlot, by decide +kernel⟩,
    ⟨slotted.put FAB_RA_CFG_TRIES 0, 3, aSlot, by decide +kernel⟩,
    ⟨linked, 3, .remoteHost, 9, by decide +kernel⟩,
    ⟨linked, 3, .remoteHost, 7, by decide +kernel⟩,
    ⟨slotted, 3, .remoteHost, 7, by decide +kernel⟩,
    ⟨linked, 0, { raFrame 0 [1, 0, 0, 0, 4, 0, 0, 16, 8, 0, 0, 0] with typ := 0x30, cls := 2 }, by decide +kernel⟩,
    ⟨linked, 0, { raFrame 0 [1, 0, 0, 0, 5, 0, 0, 16, 8, 0, 0, 0] with typ := 0x30, cls := 2 }, by decide +kernel⟩,
    ⟨slotted.setSlot 3 (some { aSlot with frame := { aSlot.frame with typ := 0x30 } }), 0, raFrame 7 [1, 0, 0, 0, 0, 0, 0, 0, 5, 5], 3, { aSlot with frame := { aSlot.frame with typ := 0x30 } }, by decide +kernel⟩,
    ⟨slotted.setSlot 3 (some { aSlot with frame := { aSlot.frame with typ := 0x30 } }), 0, raFrame 7 [1, 0, 4, 1, 0, 0, 0, 0], 3, { aSlot with frame := { aSlot.frame with typ := 0x30 } }, by decide +kernel⟩,
    ⟨bufferOpen.setSlot 3 (some { aSlot with frame := { aSlot.frame with typ := 0x30 } }), 0, raFrame 7 [1, 0, 0, 0, 0, 0, 0, 0, 5, 5], 3, { aSlot with frame := { aSlot.frame with typ := 0x30 } }, by decide +kernel⟩,
    ⟨bufferOpen.setSlot 3 (some { aSlot with frame := { aSlot.frame with typ := 0x30 } }), 0, raFrame 7 [1, 0, 0, 1, 0, 0, 0, 0, 5, 5, 6, 6], 3, { aSlot with frame := { aSlot.frame with typ := 0x30 } }, by decide +kernel⟩,
    ⟨bufferOpen.setSlot 3 (some { aSlot with frame := { aSlot.frame with typ := 0x30 } }), 0, raFrame 7 [1, 0, 0, 1, 0, 0, 0, 0, 5, 5], 3, { aSlot with frame := { aSlot.frame with typ := 0x30 } }, 2, 4, by decide +kernel⟩⟩

/-- States and operands that meet what `OffRequestBySoftware` assumes. -/
theorem witness_OffRequestBySoftware :
    (∃ (s : State) (i : Initiator) (_v : Word), s.Canon ∧ Granted s i PSF_OFFREQ) ∧
    (∃ (s : State) (i : Initiator) (v : Word), s.Canon ∧ Granted s i PSF_OFFREQ ∧ s.privileged i = true ∧ bitOf v.toNat 0 = false) ∧
    (∃ (s : State) (i : Initiator) (v : Word), s.Canon ∧ Granted s i PSF_OFFREQ ∧ s.privileged i = false ∧ bitOf v.toNat 0 = false ∧ s.demand 19 = true) :=
   ⟨⟨mapped run, .engine 3, 3, by decide +kernel⟩,
    ⟨run.wrN PSF_DEM_STAT 0x80000, .engine 15, 2, by decide +kernel⟩,
    ⟨mapped (run.wrN PSF_DEM_STAT 0x80000), .engine 3, 2, by decide +kernel⟩⟩

/-- States and operands that meet what `DemandsAndSafetyInputs` assumes. -/
theorem witness_DemandsAndSafetyInputs :
    (∃ (s : State) (i : Initiator) (v : Word) (b : Nat), s.Canon ∧ Granted s i PSF_DEM_CLR ∧ s.privileged i = true ∧ b ∈ [4, 5, 9, 13, 15, 16, 17, 18] ∧ bitOf v.toNat b = true ∧ bitOf s.psf.cause b = false ∧ (b = 16 → s.hazardQuiet = true)) ∧
    (∃ (s : State) (i : Initiator) (_v : Word) (b : Nat), s.Canon ∧ Granted s i PSF_DEM_CLR ∧ b ∈ [4, 5, 9, 13, 15, 16, 17, 18] ∧ bitOf s.psf.cause b = true) ∧
    (∃ (s : State) (i : Initiator) (_v : Word) (b : Nat), s.Canon ∧ s.collectorOn = true ∧ Granted s i PSF_DEM_CLR ∧ s.privileged i = false ∧ s.demand b = true) ∧
    (∃ (s : State), s.Canon ∧ s.flag PSF_HB_STAT_LOST = false) ∧
    (∃ (s : State), s.Canon ∧ s.collectorOn = true ∧ s.flag PSF_HB_STAT_LOST = true) ∧
    (∃ (s : State) (k : Fin 2), s.Canon ∧ s.monitored k = true ∧ (k = 1 → s.psf.selfCycle = none)) ∧
    (∃ (s : State), s.Canon ∧ s.monitored 1 = true ∧ s.psf.selfCycle = none ∧ s.ownFault 1 = false ∧ s.getIn PSF_CHATTER_MAX_MAX 2 255 ≥ (vget s.psf.trans 1 []).length + 1) ∧
    (∃ (s : State) (k : Fin 2) (_b : Bool), s.Canon ∧ s.monitored k = true ∧ (k = 1 → s.psf.selfCycle = none)) ∧
    (∃ (s : State), s.Canon ∧ s.monitored 1 = true ∧ s.psf.selfCycle = none ∧ s.psf.ilkOpen = true) ∧
    (∃ (s : State), s.Canon ∧ s.monitored 1 = true ∧ s.psf.selfCycle = none ∧ s.psf.cycOpen = true ∧ s.flag PSF_STAT_LOCKOUT = true ∧ vget s.psf.closed 1 false = false) ∧
    (∃ (s : State) (k : Fin 2) (b : Bool), s.Canon ∧ s.collectorOn = true ∧ s.monitored k = true ∧ (k = 1 → s.psf.selfCycle = none) ∧ vget s.psf.closed k false ≠ b ∧ s.flag (PSF_SIi_STAT_CHAT k) = false ∧ (s.getIn PSF_CHATTER_MAX_MAX 2 255 ≤ ((vget s.psf.trans k []).filter fun u => decide (max s.now (vget s.psf.levelAt k 0 + s.debounce k) < u + s.getIn PSF_CHATTER_MAX_WIN 100 60000 * ms)).length)) ∧
    (∃ (s : State) (u : Nat) (_b : Bool), s.Canon ∧ s.monitored 1 = true ∧ s.psf.selfCycle = some u) ∧
    (∃ (s : State), s.loopsFed = true ∧ s.psf.darkAt = none) ∧
    (∃ (s : State) (u : Nat), s.loopsFed = true ∧ s.psf.darkAt = some u) ∧
    (∃ (s : State) (u : Nat), s.Canon ∧ s.collectorOn = true ∧ s.psf.dark = some u ∧ s.ownFault 0 = false) ∧
    (∃ (s : State) (u : Nat), s.Canon ∧ s.psf.dark = some u) ∧
    (∃ (s : State) (a b : BitVec 16), s.Canon ∧ s.collectorOn = true ∧ s.loopsFed = true ∧ 200 < max a.toNat b.toNat - min a.toNat b.toNat ∧ s.ownFault 1 = false ∧ s.flag (PSF_SIi_STAT_RBERR 1) = false) ∧
    (∃ (s : State) (a b : BitVec 16), s.Canon ∧ s.loopsFed = true ∧ max a.toNat b.toNat - min a.toNat b.toNat ≤ 200) ∧
    (∃ (s : State) (a b : BitVec 16), s.Canon ∧ s.loopsFed = true ∧ max a.toNat b.toNat - min a.toNat b.toNat ≤ 200) ∧
    (∃ (s : State) (k : Fin 2), s.Canon ∧ s.flag (PSF_SIi_STAT_CHAT k) = true ∧ vget s.psf.closed k false = true) :=
   ⟨⟨run.wrN PSF_DEM_STAT 0x2000, .twoWire, 0x2000, 13, by decide +kernel⟩,
    ⟨(run.wrN PSF_DEM_STAT 0x2000).onPsf (fun p => { p with cause := 0x2000 }), .twoWire, 0x2000, 13, by decide +kernel⟩,
    ⟨mapped (run.wrN PSF_DEM_STAT 0x2000), .engine 3, 0x2000, 13, by decide +kernel⟩,
    ⟨run, by decide +kernel⟩,
    ⟨run.put PSF_HB_STAT_LOST 1, by decide +kernel⟩,
    ⟨run, 0, by decide +kernel⟩,
    ⟨run.wrN PSF_DEM_STAT 0x4000, by decide +kernel⟩,
    ⟨run, 0, true, by decide +kernel⟩,
    ⟨run.onPsf (fun p => { p with ilkOpen := true }), by decide +kernel⟩,
    ⟨locked.onPsf (fun p => { p with cycOpen := true }), by decide +kernel⟩,
    ⟨(run.put PSF_CHATTER_MAX_MAX 2).onPsf (fun p => { p with trans := vset p.trans 1 [0, 0] }), 1, true, by decide +kernel⟩,
    ⟨run.onPsf (fun p => { p with selfCycle := some 0 }), 0, false, by decide +kernel⟩,
    ⟨run, by decide +kernel⟩,
    ⟨run.onPsf (fun p => { p with darkAt := some 9 }), 9, by decide +kernel⟩,
    ⟨run.onPsf (fun p => { p with dark := some 9 }), 9, by decide +kernel⟩,
    ⟨run.onPsf (fun p => { p with dark := some 9 }), 9, by decide +kernel⟩,
    ⟨run, 1000, 700, by decide +kernel⟩,
    ⟨run, 1000, 900, by decide +kernel⟩,
    ⟨run, 1000, 900, by decide +kernel⟩,
    ⟨(run.put (PSF_SIi_STAT_CHAT 1) 1).onPsf (fun p => { p with closed := vset p.closed 1 true }), 1, by decide +kernel⟩⟩

/-- States and operands that meet what `ArmingAndOutputs` assumes. -/
theorem witness_ArmingAndOutputs :
    (∃ (s : State) (v : Word) (_fb : BitVec 3) (c : Nat), s.Canon ∧ Granted s (.engine 15) PSF_ARM ∧ s.flag PSF_ARM_STAT_PEND = false ∧ bitOf v.toNat 1 = false ∧ s.armFirst = some c) ∧
    (∃ (s : State) (v : Word) (fb : BitVec 3), s.Canon ∧ Granted s (.engine 15) PSF_ARM ∧ s.flag PSF_ARM_STAT_PEND = false ∧ bitOf v.toNat 1 = false ∧ s.armFirst = none ∧ s.flag PSF_STAT_ILK_SEEN = true ∧ s.rdN PSF_DEM_STAT = 0 ∧ s.fbAny fb = false) ∧
    (∃ (s : State) (v : Word) (_fb : BitVec 3), s.Canon ∧ Granted s (.engine 15) PSF_ARM ∧ s.flag PSF_ARM_STAT_PEND = false ∧ bitOf v.toNat 1 = false ∧ s.armFirst = none ∧ s.flag PSF_STAT_ILK_SEEN = false ∧ s.flag PSF_ILK_SELFTEST_EN = false) ∧
    (∃ (s : State) (v : Word) (_fb : BitVec 3), s.Canon ∧ Granted s (.engine 15) PSF_ARM ∧ s.flag PSF_ARM_STAT_PEND = true ∧ bitOf v.toNat 1 = false) ∧
    (∃ (s : State) (i : Initiator) (v : Word) (_fb : BitVec 3), s.Canon ∧ Granted s i PSF_ARM ∧ s.privileged i = true ∧ bitOf v.toNat 1 = true) ∧
    (∃ (s : State) (v : Word) (fb : BitVec 3), s.Canon ∧ Granted s (.engine 15) PSF_ARM ∧ s.flag PSF_ARM_STAT_PEND = false ∧ bitOf v.toNat 1 = false ∧ s.armFirst = none ∧ s.flag PSF_STAT_ILK_SEEN = true ∧ (s.rdN PSF_DEM_STAT ≠ 0 ∨ s.fbAny fb = true)) ∧
    (∃ (s : State) (v : Word) (_fb : BitVec 3), s.Canon ∧ Granted s (.engine 15) PSF_ARM ∧ s.flag PSF_ARM_STAT_PEND = false ∧ bitOf v.toNat 1 = false ∧ s.armFirst = none ∧ s.flag PSF_STAT_ILK_SEEN = false ∧ s.flag PSF_ILK_SELFTEST_EN = true) ∧
    (∃ (s : State) (i : Initiator) (v : Word) (_fb : BitVec 3), s.Canon ∧ s.collectorOn = true ∧ Granted s i PSF_ARM ∧ isMC i = false ∧ bitOf v.toNat 1 = false) ∧
    (∃ (s : State) (_fb : BitVec 3) (u : Nat), s.Canon ∧ s.psf.selfCycle = some u ∧ s.psf.selfClosed = true) ∧
    (∃ (s : State) (fb : BitVec 3) (u : Nat), s.Canon ∧ s.psf.selfCycle = some u ∧ s.psf.selfClosed = true ∧ vget s.psf.closed 1 false = true ∧ s.ownFault 1 = false ∧ s.armFirst = none ∧ (∀ b : Fin 32, s.demand b = true → b = 14) ∧ s.fbAny fb = false) ∧
    (∃ (s : State) (_fb : BitVec 3) (u : Nat), s.Canon ∧ s.psf.selfCycle = some u ∧ s.psf.selfClosed = false) ∧
    (∃ (s : State) (i : Initiator) (_v : Word), s.Canon ∧ Granted s i PSF_ARM ∧ s.privileged i = true ∧ s.flag PSF_STAT_ARMED = true) ∧
    (∃ (s : State) (i : Initiator) (_v : Word), s.Canon ∧ s.collectorOn = true ∧ Granted s i PSF_ARM ∧ s.privileged i = false) ∧
    (∃ (s : State) (v : Word) (o : Fin 3), s.Canon ∧ Granted s (.engine 15) PSF_OUT_CMD ∧ s.flag PSF_STAT_ARMED = true ∧ s.rdN PSF_DEM_STAT = 0 ∧ s.pulsing = false ∧ bitOf v.toNat o = true ∧ bitOf v.toNat (o + 4) = false) ∧
    (∃ (s : State) (v : Word) (o : Fin 3), s.Canon ∧ Granted s (.engine 15) PSF_OUT_CMD ∧ (s.flag PSF_STAT_ARMED = false ∨ s.rdN PSF_DEM_STAT ≠ 0) ∧ bitOf v.toNat o = true ∧ bitOf v.toNat (o + 4) = false) ∧
    (∃ (s : State) (v : Word) (o : Fin 3), s.Canon ∧ Granted s (.engine 15) PSF_OUT_CMD ∧ s.flag PSF_STAT_ARMED = true ∧ s.rdN PSF_DEM_STAT = 0 ∧ s.pulsing = true ∧ bitOf v.toNat o = true ∧ bitOf v.toNat (o + 4) = false ∧ s.bit PSF_OUT_CMD_ON o = false) ∧
    (∃ (s : State) (i : Initiator) (v : Word) (o : Fin 3), s.Canon ∧ s.collectorOn = true ∧ Granted s i PSF_OUT_CMD ∧ isMC i = false ∧ bitOf v.toNat o = true ∧ s.bit PSF_OUT_CMD_ON o = false) ∧
    (∃ (s : State) (i : Initiator) (v : Word), s.Canon ∧ Granted s i PSF_OUT_CMD ∧ isMC i = false ∧ v.toNat / 16 % 8 = 0) ∧
    (∃ (s : State) (i : Initiator) (v : Word) (o : Fin 3), s.Canon ∧ Granted s i PSF_OUT_CMD ∧ bitOf v.toNat (o + 4) = true) ∧
    (∃ (s : State) (o : Fin 3) (above : Bool) (_level : BitVec 16), s.Canon ∧ s.collectorOn = true ∧ s.flag (PSF_OUTo_STAT_ON o) ≠ s.fbReads o above ∧ (s.pulseOf o).reported = false ∧ (s.pulseOf o).start = none) ∧
    (∃ (s : State) (o : Fin 3) (above : Bool) (_level : BitVec 16), s.Canon ∧ s.mode ≠ 0 ∧ s.flag (PSF_OUTo_STAT_ON o) = s.fbReads o above) ∧
    (∃ (s : State) (o : Fin 3), s.Canon ∧ s.flag (PSF_OUTo_STAT_ON o) = true ∧ s.pulsing = false) ∧
    (∃ (s : State) (o : Fin 3) (u : Nat) (_level : BitVec 16), s.Canon ∧ (s.pulseOf o).start = some u ∧ (∀ k : Fin 3, k ≠ o → (s.pulseOf k).start = none) ∧ (s.pulseOf o).discard = false ∧ s.flag PSF_STAT_ARMED = true ∧ s.rdN PSF_DEM_STAT = 0 ∧ s.bit PSF_OUT_CMD_ON o = true) ∧
    (∃ (s : State) (o : Fin 3) (u : Nat) (_level : BitVec 16), s.Canon ∧ s.collectorOn = true ∧ (s.pulseOf o).start = some u ∧ (∀ k : Fin 3, k ≠ o → (s.pulseOf k).start = none) ∧ (s.pulseOf o).discard = false) ∧
    (∃ (s : State) (o : Fin 3) (u : Nat) (_fbOn : Bool) (_level : BitVec 16), s.Canon ∧ (s.pulseOf o).start = some u ∧ (∀ k : Fin 3, k ≠ o → (s.pulseOf k).start = none) ∧ (s.pulseOf o).discard = true) :=
   ⟨⟨run, 1, 0, 1, by decide +kernel⟩,
    ⟨armable, 1, 0, by decide +kernel⟩,
    ⟨armable.put PSF_STAT_ILK_SEEN 0, 1, 0, by decide +kernel⟩,
    ⟨armable.put PSF_ARM_STAT_PEND 1, 1, 0, by decide +kernel⟩,
    ⟨armed, .engine 15, 3, 0, by decide +kernel⟩,
    ⟨armable, 1, 2, by decide +kernel⟩,
    ⟨(armable.put PSF_STAT_ILK_SEEN 0).put PSF_ILK_SELFTEST_EN 1, 1, 0, by decide +kernel⟩,
    ⟨armable, .twoWire, 1, 0, by decide +kernel⟩,
    ⟨armable.onPsf (fun p => { p with selfCycle := some 5, selfClosed := true }), 0, 5, by decide +kernel⟩,
    ⟨(armable.wrN PSF_DEM_STAT 0x4000).onPsf (fun p => { p with selfCycle := some 5, selfClosed := true, closed := vset p.closed 1 true }), 0, 5, by decide +kernel⟩,
    ⟨armable.onPsf (fun p => { p with selfCycle := some 5 }), 0, 5, by decide +kernel⟩,
    ⟨armed, .remoteHost, 2, by decide +kernel⟩,
    ⟨mapped armed, .engine 3, 2, by decide +kernel⟩,
    ⟨armed, 2, 1, by decide +kernel⟩,
    ⟨armable, 2, 1, by decide +kernel⟩,
    ⟨pulsed, 2, 1, by decide +kernel⟩,
    ⟨armed, .remoteHost, 2, 1, by decide +kernel⟩,
    ⟨armed, .remoteHost, 7, by decide +kernel⟩,
    ⟨mapped armed, .engine 3, 0x70, 0, by decide +kernel⟩,
    ⟨armed, 0, false, 7, by decide +kernel⟩,
    ⟨armed, 0, true, 7, by decide +kernel⟩,
    ⟨armed, 0, by decide +kernel⟩,
    ⟨pulsed, 0, 5, 0, by decide +kernel⟩,
    ⟨pulsed, 0, 5, 0, by decide +kernel⟩,
    ⟨pulsed.onPulse 0 (fun p => { p with discard := true }), 0, 5, true, 0, by decide +kernel⟩⟩

/-- States and operands that meet what `LockoutIsLeftByKeyAndCycle` assumes. -/
theorem witness_LockoutIsLeftByKeyAndCycle :
    (∃ (s : State) (i : Initiator) (v : Word), Granted s i PSF_LOCKOUT_KEY ∧ s.privileged i = true ∧ s.flag PSF_STAT_LOCKOUT = true ∧ v.toNat % 65536 = 0x5A17) ∧
    (∃ (s : State) (i : Initiator) (v : Word) (u : Nat), s.Canon ∧ Granted s i PSF_LOCKOUT_KEY ∧ s.privileged i = true ∧ s.flag PSF_STAT_LOCKOUT = true ∧ s.psf.key1 = some u ∧ s.now ≤ u + sec ∧ v.toNat % 65536 = 0xA5E8) ∧
    (∃ (s : State) (i : Initiator) (v : Word), s.Canon ∧ Granted s i PSF_LOCKOUT_KEY ∧ s.privileged i = true ∧ s.flag PSF_STAT_LOCKOUT = true ∧ v.toNat % 65536 ≠ 0x5A17 ∧ (v.toNat % 65536 ≠ 0xA5E8 ∨ ∀ u, s.psf.key1 = some u → u + sec < s.now)) ∧
    (∃ (s : State) (i : Initiator) (_v : Word), s.Canon ∧ s.collectorOn = true ∧ Granted s i PSF_LOCKOUT_KEY ∧ s.privileged i = false) ∧
    (∃ (s : State) (i : Initiator) (_v : Word), Granted s i PSF_LOCKOUT_KEY ∧ s.privileged i = true ∧ s.flag PSF_STAT_LOCKOUT = false) ∧
    (∃ (s : State) (fb : BitVec 3), s.Canon ∧ s.mayLeave fb = true) ∧
    (∃ (s : State) (fb : BitVec 3), s.Canon ∧ s.mayLeave fb = false) :=
   ⟨⟨locked, .remoteHost, 0x5A17, by decide +kernel⟩,
    ⟨locked.onPsf (fun p => { p with key1 := some 0 }), .remoteHost, 0xA5E8, 0, by decide +kernel⟩,
    ⟨locked, .remoteHost, 1, by decide +kernel⟩,
    ⟨mapped locked, .engine 3, 0x5A17, by decide +kernel⟩,
    ⟨run, .remoteHost, 0x5A17, by decide +kernel⟩,
    ⟨(locked.put PSF_LOCKOUT_STAT_KEYOK 1).put PSF_LOCKOUT_STAT_ILKCYC 1, 0, by decide +kernel⟩,
    ⟨locked, 0, by decide +kernel⟩⟩

/-- States and operands that meet what `CausewayComparison` assumes. -/
theorem witness_CausewayComparison :
    (∃ (s : State) (_p : Fin 4) (f : Frame), s.Canon ∧ s.compares = true ∧ (leAt f.payload 32 4 ≠ s.scrc (f.payload.take 32) ∨ f.payload.length ≠ 36)) ∧
    (∃ (s : State) (_p : Fin 4) (f : Frame), s.Canon ∧ s.compares = true ∧ leAt f.payload 32 4 = s.scrc (f.payload.take 32) ∧ f.payload.length = 36 ∧ (s.psf.peers.find? (fun q => q.addr == byteAt f.payload 2 && decide (q.fromCycle ≤ s.tickNo / s.cyc)) = none)) ∧
    (∃ (s : State) (_p : Fin 4) (f : Frame) (x : CwPeer), s.Canon ∧ s.compares = true ∧ leAt f.payload 32 4 = s.scrc (f.payload.take 32) ∧ f.payload.length = 36 ∧ (s.psf.peers.find? (fun q => q.addr == byteAt f.payload 2 && decide (q.fromCycle ≤ s.tickNo / s.cyc)) = some x) ∧ (leAt f.payload 28 4 ≠ x.uidl ∨ leAt f.payload 4 4 ≠ s.tickNo / s.cyc % 2 ^ 32)) ∧
    (∃ (s : State) (_p : Fin 4) (f : Frame) (x : CwPeer), s.compares = true ∧ f.payload.length = 36 ∧ leAt f.payload 32 4 = s.scrc (f.payload.take 32) ∧ (s.psf.peers.find? (fun q => q.addr == byteAt f.payload 2 && decide (q.fromCycle ≤ s.tickNo / s.cyc)) = some x) ∧ leAt f.payload 28 4 = x.uidl ∧ leAt f.payload 4 4 = s.tickNo / s.cyc % 2 ^ 32 ∧ x.decided = false ∧ x.copies = []) ∧
    (∃ (s : State) (_p : Fin 4) (f : Frame) (x : CwPeer) (a : CwCopy), s.Canon ∧ s.compares = true ∧ f.payload.length = 36 ∧ leAt f.payload 32 4 = s.scrc (f.payload.take 32) ∧ (s.psf.peers.find? (fun q => q.addr == byteAt f.payload 2 && decide (q.fromCycle ≤ s.tickNo / s.cyc)) = some x) ∧ leAt f.payload 28 4 = x.uidl ∧ leAt f.payload 4 4 = s.tickNo / s.cyc % 2 ^ 32 ∧ x.decided = false ∧ x.copies = [a] ∧ copiesAgree a.bytes f.payload = true) ∧
    (∃ (s : State) (_p : Fin 4) (f : Frame) (x : CwPeer) (a : CwCopy), s.Canon ∧ s.compares = true ∧ f.payload.length = 36 ∧ leAt f.payload 32 4 = s.scrc (f.payload.take 32) ∧ (s.psf.peers.find? (fun q => q.addr == byteAt f.payload 2 && decide (q.fromCycle ≤ s.tickNo / s.cyc)) = some x) ∧ leAt f.payload 28 4 = x.uidl ∧ leAt f.payload 4 4 = s.tickNo / s.cyc % 2 ^ 32 ∧ x.decided = false ∧ x.copies = [a] ∧ copiesAgree a.bytes f.payload = false) ∧
    (∃ (s : State), s.Canon ∧ s.compares = true) ∧
    (∃ (s : State) (x : CwPeer), s.Canon ∧ s.compares = true ∧ x ∈ s.psf.peers ∧ (∀ y ∈ s.psf.peers, y.addr = x.addr → y = x) ∧ x.decided = false ∧ x.fromCycle ≤ s.tickNo / s.cyc ∧ x.copies = []) ∧
    (∃ (s : State) (x : CwPeer) (a : CwCopy), s.Canon ∧ s.compares = true ∧ x ∈ s.psf.peers ∧ (∀ y ∈ s.psf.peers, y.addr = x.addr → y = x) ∧ x.decided = false ∧ x.fromCycle ≤ s.tickNo / s.cyc ∧ x.copies = [a] ∧ bitOf (byteAt a.bytes 3) 0 = false) ∧
    (∃ (s : State), s.compares = false) :=
   ⟨⟨comparing, 0, raFrame 7 [1, 2, 3], by decide +kernel⟩,
    ⟨comparing, 0, copyOf 8 0 0, by decide +kernel⟩,
    ⟨comparing, 0, copyOf 7 9 0, aPeer [], by decide +kernel⟩,
    ⟨comparing, 0, copyOf 7 0 0, aPeer [], by decide +kernel⟩,
    ⟨comparingWith [{ bytes := (copyOf 7 0 0).payload, at_ := 0 }], 0, copyOf 7 0 0, aPeer [{ bytes := (copyOf 7 0 0).payload, at_ := 0 }], { bytes := (copyOf 7 0 0).payload, at_ := 0 }, by decide +kernel⟩,
    ⟨comparingWith [{ bytes := (copyOf 7 0 1).payload, at_ := 0 }], 0, copyOf 7 0 0, aPeer [{ bytes := (copyOf 7 0 1).payload, at_ := 0 }], { bytes := (copyOf 7 0 1).payload, at_ := 0 }, by decide +kernel⟩,
    ⟨comparing, by decide +kernel⟩,
    ⟨comparing, aPeer [], by decide +kernel⟩,
    ⟨comparingWith [{ bytes := (copyOf 7 0 0).payload, at_ := 0 }], aPeer [{ bytes := (copyOf 7 0 0).payload, at_ := 0 }], { bytes := (copyOf 7 0 0).payload, at_ := 0 }, by decide +kernel⟩,
    ⟨run, by decide +kernel⟩⟩

/-- States and operands that meet what `AcknowledgeRecoverForce` assumes. -/
theorem witness_AcknowledgeRecoverForce :
    (∃ (s : State) (i : Initiator) (v : Word) (k : Fin 16) (j : Fin 32), s.Canon ∧ Granted s i FCR_ACK ∧ s.privileged i = true ∧ bitOf v.toNat k = true ∧ s.get (FCR_HQi_INFO_SRC j) = k ∧ s.endedEntry j = true) ∧
    (∃ (s : State) (i : Initiator) (v : Word) (k : Fin 16) (j : Fin 32), s.Canon ∧ Granted s i FCR_ACK ∧ s.privileged i = true ∧ bitOf v.toNat k = true ∧ bitOf v.toNat 31 = false ∧ s.flag (FCR_HQi_INFO_ACTIVE j) = true ∧ bitOf s.fcrActive k = false) ∧
    (∃ (s : State) (i : Initiator) (_v : Word), s.Canon ∧ s.collectorOn = true ∧ Granted s i FCR_ACK ∧ s.privileged i = false) ∧
    (∃ (s : State) (i : Initiator) (_v : Word), s.Canon ∧ Granted s i FCR_ACK ∧ s.privileged i = true ∧ s.flag FCR_STATUS_FATAL = true ∧ s.fatalStands = false) ∧
    (∃ (s : State) (i : Initiator) (_v : Word), s.Canon ∧ Granted s i FCR_ACK ∧ s.privileged i = true ∧ s.flag FCR_STATUS_FATAL = true ∧ s.fatalStands = true) ∧
    (∃ (s : State) (src : Fin 16) (code inst : Byte) (_bus : Vector (BitVec 16) 8) (f : Standing) (u : Nat), s.Canon ∧ s.standing? src code.toNat inst.toNat = some f ∧ f.quietEnd = some u ∧ src ∉ [1, 5, 8, 9]) ∧
    (∃ (s : State) (src : Fin 16) (code inst : Byte) (_bus : Vector (BitVec 16) 8) (f : Standing) (u : Nat), s.standing? src code.toNat inst.toNat = some f ∧ f.quietEnd = some u ∧ f.conseq = false) ∧
    (∃ (s : State) (src : Fin 16) (code inst : Byte) (_bus : Vector (BitVec 16) 8), ((s.standing? src code.toNat inst.toNat).all (fun f => f.quietEnd.isNone) = true)) ∧
    (∃ (s : State), s.fcr.shadows ≠ []) ∧
    (∃ (s : State) (i : Initiator) (v : Word) (k : Fin 16), s.Canon ∧ s.collectorOn = true ∧ Granted s i FCR_FORCE ∧ s.privileged i = true ∧ (s.mode = 4 ∨ s.mode = 2 ∧ s.flag FCR_FORCE_EN_EN = true) ∧ bitOf v.toNat k = true ∧ (faultRow k (s.get FCR_FORCE_CODE_CODE) (s.get FCR_FORCE_CODE_INST)).isSome = true) ∧
    (∃ (s : State) (i : Initiator) (v : Word) (k : Fin 16), s.Canon ∧ s.collectorOn = true ∧ Granted s i FCR_FORCE ∧ s.privileged i = true ∧ (s.mode = 4 ∨ s.mode = 2 ∧ s.flag FCR_FORCE_EN_EN = true) ∧ bitOf v.toNat k = true ∧ (faultRow k (s.get FCR_FORCE_CODE_CODE) (s.get FCR_FORCE_CODE_INST)).isSome = false) ∧
    (∃ (s : State) (i : Initiator) (_v : Word), s.Canon ∧ s.collectorOn = true ∧ Granted s i FCR_FORCE ∧ (s.privileged i = false ∨ s.mode ≠ 4 ∧ (s.mode ≠ 2 ∨ s.flag FCR_FORCE_EN_EN = false))) ∧
    (∃ (s : State) (u : List (Nat × Word)), s.Canon ∧ s.collectorOn = true ∧ s.sealed = true ∧ (u.any (fun x => s.upsetHits x.1 x.2) = true) ∧ (u.all (fun x => x.1 != MGT_MODE_STAT && x.1 != MGT_PWR_STAT) = true)) ∧
    (∃ (s : State), (s.sealed = false ∨ (s.regs.map (·.1) ++ s.sealRec.map (·.1) ++ s.fcr.upset).any s.sealBroken = false)) ∧
    (∃ (s : State) (l : List (Nat × Word)) (k : Fin 8) (w : Word), s.Canon ∧ s.collectorOn = true ∧ (k.val, w) ∈ l ∧ w ≠ s.rd (PSF_OTPk k)) ∧
    (∃ (s : State) (l : List (Nat × Word)), (∀ x ∈ l, x.2 = s.rd (PSF_OTPk x.1))) :=
   ⟨⟨entries, .remoteHost, 16, 4, 2, by decide +kernel⟩,
    ⟨entries, .remoteHost, 16, 4, 3, by decide +kernel⟩,
    ⟨mapped entries, .engine 3, 16, by decide +kernel⟩,
    ⟨fatal false, .remoteHost, 0x80000000, by decide +kernel⟩,
    ⟨fatal true, .remoteHost, 0x80000000, by decide +kernel⟩,
    ⟨recovering, 4, 0x10, 2, Vector.replicate 8 0, aFault, 77, by decide +kernel⟩,
    ⟨recovering, 4, 0x10, 2, Vector.replicate 8 0, aFault, 77, by decide +kernel⟩,
    ⟨run, 4, 0x10, 2, Vector.replicate 8 0, by decide +kernel⟩,
    ⟨{ run with fcr := { run.fcr with shadows := [{ srcs := 1, till := 90, slot := 0, prim := (8, 0x10, 1) }] } }, by decide +kernel⟩,
    ⟨(svc.put FCR_FORCE_CODE_CODE 0x10).put FCR_FORCE_CODE_INST 2, .remoteHost, 16, 4, by decide +kernel⟩,
    ⟨(svc.put FCR_FORCE_CODE_CODE 0x7F).put FCR_FORCE_CODE_INST 2, .remoteHost, 16, 4, by decide +kernel⟩,
    ⟨run, .remoteHost, 16, by decide +kernel⟩,
    ⟨sealedRun, [(PSF_OV_CFG, 1)], by decide +kernel⟩,
    ⟨run, by decide +kernel⟩,
    ⟨run, [(3, 5)], 3, 5, by decide +kernel⟩,
    ⟨run, [(3, 0)], by decide +kernel⟩⟩

/-- States and operands that meet what `ResetsAndStartUp` assumes. -/
theorem witness_ResetsAndStartUp :
    (∃ (s : State) (_a : Nat), s.Canon) ∧
    (∃ (s : State) (_b : Board), s.Canon ∧ s.mgt.por = true) ∧
    (∃ (s : State), s.Canon ∧ s.mgt.por = false ∧ s.mgt.rstIgnored = false ∧ s.mgt.rstLow = none ∧ s.aux.shutAt = none ∧ s.mgt.resetDue = [] ∧ s.flashWrites = false) ∧
    (∃ (s : State), s.Canon ∧ s.mgt.por = false ∧ s.mgt.rstIgnored = false ∧ s.mgt.rstLow = none ∧ s.aux.shutAt = none ∧ s.flashWrites = true) ∧
    (∃ (s : State) (u : Nat), s.mgt.rstLow = some u ∧ (s.mgt.resetDue ≠ [] ∨ s.aux.shutAt.isSome = true)) ∧
    (∃ (s : State) (u : Nat), s.Canon ∧ s.mgt.rstLow = some u ∧ s.mgt.resetDue = [] ∧ s.aux.shutAt = none) ∧
    (∃ (s : State) (u : Nat), s.Canon ∧ s.mgt.rstLow = some u) ∧
    (∃ (s : State), s.mgt.rstIgnored = true) ∧
    (∃ (s : State) (i : Initiator) (v : Word), Granted s i MGT_SWRST ∧ s.privileged i = true ∧ v.toNat % 65536 = 0x2B5C) ∧
    (∃ (s : State) (i : Initiator) (v : Word) (u : Nat), s.Canon ∧ Granted s i MGT_SWRST ∧ s.privileged i = true ∧ s.mgt.swKey = some u ∧ s.now ≤ u + sec ∧ v.toNat % 65536 = 0xD4A3 ∧ s.flashWrites = false ∧ s.mgt.rstLow = none ∧ s.mgt.resetDue = [] ∧ s.aux.shutAt = none) ∧
    (∃ (s : State) (i : Initiator) (v : Word) (u : Nat), s.Canon ∧ Granted s i MGT_SWRST ∧ s.privileged i = true ∧ s.mgt.swKey = some u ∧ s.now ≤ u + sec ∧ v.toNat % 65536 = 0xD4A3 ∧ s.flashWrites = true) ∧
    (∃ (s : State) (i : Initiator) (v : Word), Granted s i MGT_SWRST ∧ s.privileged i = true ∧ v.toNat % 65536 ≠ 0x2B5C ∧ (v.toNat % 65536 ≠ 0xD4A3 ∨ ∀ u, s.mgt.swKey = some u → u + sec < s.now)) ∧
    (∃ (s : State) (c : Nat), s.Canon ∧ s.aux.shutAt = none ∧ s.mgt.resetDue = [c] ∧ c < 8) ∧
    (∃ (s : State) (u : Nat), s.Canon ∧ s.aux.shutAt = some u ∧ s.logicOn = true) ∧
    (∃ (s : State), s.Canon ∧ s.mgt.booting = true ∧ s.flag PSF_STAT_HOLD = false ∧ s.mgt.held = [] ∧ (s.mgt.shipStart = true ∨ s.get MGT_PWR_CFG_START = 0)) ∧
    (∃ (s : State), s.Canon ∧ s.mgt.booting = true ∧ s.flag PSF_STAT_HOLD = false ∧ s.mgt.held = [] ∧ s.mgt.shipStart = false ∧ s.get MGT_PWR_CFG_START ≠ 0) ∧
    (∃ (s : State), s.Canon ∧ s.mgt.booting = true ∧ s.flag PSF_STAT_HOLD = true) :=
   ⟨⟨run.memPut 0x20000100 [7], 0x20000100, by decide +kernel⟩,
    ⟨State.reset, { flash := none, otp := none, twa0 := 1, twa1 := 2, jedec := 7, zw := true }, by decide +kernel⟩,
    ⟨power armed, by decide +kernel⟩,
    ⟨flashing (power run), by decide +kernel⟩,
    ⟨{ lowSince (power run) with aux := { run.aux with shutAt := some 4 } }, 5, by decide +kernel⟩,
    ⟨lowSince (power run), 5, by decide +kernel⟩,
    ⟨lowSince (power run), 5, by decide +kernel⟩,
    ⟨{ run with mgt := { run.mgt with rstIgnored := true } }, by decide +kernel⟩,
    ⟨svc, .remoteHost, 0x2B5C, by decide +kernel⟩,
    ⟨{ power armed with mgt := { (power armed).mgt with swKey := some 0 } }, .remoteHost, 0xD4A3, 0, by decide +kernel⟩,
    ⟨{ flashing (power run) with mgt := { (flashing (power run)).mgt with swKey := some 0 } }, .remoteHost, 0xD4A3, 0, by decide +kernel⟩,
    ⟨svc, .remoteHost, 0xD4A3, by decide +kernel⟩,
    ⟨{ power run with mgt := { (power run).mgt with resetDue := [3] } }, 3, by decide +kernel⟩,
    ⟨{ armed with aux := { armed.aux with shutAt := some 3 } }, 3, by decide +kernel⟩,
    ⟨{ run with mgt := { run.mgt with booting := true } }, by decide +kernel⟩,
    ⟨{ run.put MGT_PWR_CFG_START 1 with mgt := { run.mgt with booting := true } }, by decide +kernel⟩,
    ⟨{ run.put PSF_STAT_HOLD 1 with mgt := { run.mgt with booting := true } }, by decide +kernel⟩⟩

/-- States and operands that meet what `ModeRequestsAndTransitions` assumes. -/
theorem witness_ModeRequestsAndTransitions :
    (∃ (s : State) (i : Initiator) (_v : Word), s.Canon ∧ Granted s i MGT_MODE_REQ ∧ s.modeCode i 0 = 0) ∧
    (∃ (s : State) (i : Initiator) (_v : Word), s.Canon ∧ Granted s i MGT_MODE_REQ ∧ s.modeCode i 1 = 0) ∧
    (∃ (s : State) (i : Initiator) (_v : Word), s.Canon ∧ Granted s i MGT_MODE_REQ ∧ s.modeCode i 2 = 0) ∧
    (∃ (s : State) (i : Initiator) (_v : Word), s.Canon ∧ Granted s i MGT_MODE_REQ ∧ s.modeCode i 4 = 0) ∧
    (∃ (s : State) (i : Initiator) (_v : Word), s.Canon ∧ Granted s i MGT_MODE_REQ ∧ 2 ≤ s.modeCode i 0) ∧
    (∃ (s : State) (i : Initiator) (_v : Word), s.Canon ∧ Granted s i MGT_MODE_REQ ∧ 2 ≤ s.modeCode i 1) ∧
    (∃ (s : State) (i : Initiator) (_v : Word), s.Canon ∧ Granted s i MGT_MODE_REQ ∧ 2 ≤ s.modeCode i 2) ∧
    (∃ (s : State) (i : Initiator) (_v : Word), s.Canon ∧ Granted s i MGT_MODE_REQ ∧ 2 ≤ s.modeCode i 4) ∧
    (∃ (s : State) (i : Initiator) (_v : Word), s.Canon ∧ s.collectorOn = true ∧ Granted s i MGT_MODE_REQ ∧ s.privileged i = false) ∧
    (∃ (s : State) (i : Initiator) (_v : Word) (r : Int), s.Canon ∧ Granted s i MGT_MODE_REQ ∧ s.modeCode i 3 = 0 ∧ (s.trimCheck r).1 = 0) ∧
    (∃ (s : State) (i : Initiator) (_v : Word) (r : Int), s.Canon ∧ Granted s i MGT_MODE_REQ ∧ s.modeCode i 3 = 0 ∧ (s.trimCheck r).1 ≠ 0) ∧
    (∃ (s : State) (i : Initiator) (v : Word), Granted s i MGT_MODE_KEY ∧ s.privileged i = true ∧ (v.toNat % 65536 = 0x51A9 ∨ v.toNat % 65536 = 0x5E12)) ∧
    (∃ (s : State) (i : Initiator) (v : Word) (m u : Nat), Granted s i MGT_MODE_KEY ∧ s.privileged i = true ∧ s.mgt.modeKey = some (m, u, false) ∧ v.toNat % 65536 = (if m = 0 then 0x0E57 else 0xC3A9)) ∧
    (∃ (s : State) (i : Initiator) (v : Word), Granted s i MGT_MODE_KEY ∧ s.privileged i = true ∧ v.toNat % 65536 ∉ [0x51A9, 0x5E12, 0x0E57, 0xC3A9]) ∧
    (∃ (s : State), s.Canon ∧ s.mode = 4 ∧ min 3600 (s.get MGT_SVC_CFG_TMO_S) ≠ 0 ∧ s.flag MGT_MODE_STAT_PEND = false) ∧
    (∃ (s : State), s.Canon ∧ s.flag MGT_MODE_STAT_PEND = true ∧ s.get MGT_MODE_STAT_TGT = 2 ∧ s.mode ≠ 1 ∧ s.mode ≠ 5) ∧
    (∃ (s : State), s.Canon ∧ s.flag MGT_MODE_STAT_PEND = true ∧ s.get MGT_MODE_STAT_TGT = 1 ∧ s.wakeHeld = none) ∧
    (∃ (s : State), s.Canon ∧ s.flag MGT_MODE_STAT_PEND = true ∧ s.get MGT_MODE_STAT_TGT = 0 ∧ s.wakeHeld = none) ∧
    (∃ (s : State), s.Canon ∧ s.flag MGT_MODE_STAT_PEND = true ∧ s.get MGT_MODE_STAT_TGT = 3) ∧
    (∃ (s : State), s.Canon ∧ s.flag MGT_MODE_STAT_PEND = true ∧ s.get MGT_MODE_STAT_TGT = 4) ∧
    (∃ (s : State), s.Canon ∧ s.flag MGT_MODE_STAT_PEND = true ∧ s.get MGT_MODE_STAT_TGT = 2 ∧ s.mode = 1) ∧
    (∃ (s : State), s.Canon ∧ s.flag MGT_MODE_STAT_PEND = true ∧ s.get MGT_MODE_STAT_TGT = 2 ∧ s.mode = 5) ∧
    (∃ (s : State), s.Canon ∧ s.flag MGT_MODE_STAT_PEND = true ∧ s.get MGT_MODE_STAT_TGT = 6) ∧
    (∃ (s : State), s.flag MGT_MODE_STAT_PEND = false) :=
   ⟨⟨keyedFor 0, .remoteHost, 0, by decide +kernel⟩,
    ⟨run, .remoteHost, 1, by decide +kernel⟩,
    ⟨svc, .remoteHost, 2, by decide +kernel⟩,
    ⟨keyedFor 4, .remoteHost, 4, by decide +kernel⟩,
    ⟨run, .remoteHost, 0, by decide +kernel⟩,
    ⟨run.put PSF_OUT_CMD_ON 1, .remoteHost, 1, by decide +kernel⟩,
    ⟨run, .remoteHost, 2, by decide +kernel⟩,
    ⟨run, .remoteHost, 4, by decide +kernel⟩,
    ⟨mapped svc, .engine 3, 2, by decide +kernel⟩,
    ⟨trimReady, .remoteHost, 3, 0, by decide +kernel⟩,
    ⟨run, .remoteHost, 3, 0, by decide +kernel⟩,
    ⟨run, .remoteHost, 0x5E12, by decide +kernel⟩,
    ⟨{ run with mgt := { run.mgt with modeKey := some (0, 9, false) } }, .remoteHost, 0x0E57, 0, 9, by decide +kernel⟩,
    ⟨keyedFor 0, .remoteHost, 7, by decide +kernel⟩,
    ⟨svc.put MGT_SVC_CFG_TMO_S 60, by decide +kernel⟩,
    ⟨toMode svc 2, by decide +kernel⟩,
    ⟨toMode island 1, by decide +kernel⟩,
    ⟨toMode run 0, by decide +kernel⟩,
    ⟨toMode run 3, by decide +kernel⟩,
    ⟨toMode run 4, by decide +kernel⟩,
    ⟨toMode (run.put MGT_MODE_STAT_MODE 1) 2, by decide +kernel⟩,
    ⟨toMode (run.put MGT_MODE_STAT_MODE 5) 2, by decide +kernel⟩,
    ⟨toMode (power (run.put MGT_MODE_STAT_MODE 0)) 6, by decide +kernel⟩,
    ⟨run, by decide +kernel⟩⟩

/-- States and operands that meet what `WatchWakeAndMonitors` assumes. -/
theorem witness_WatchWakeAndMonitors :
    (∃ (s : State), s.Canon ∧ s.mode = 1 ∧ (s.meas.burst = none ∨ s.meas.burst = some 65)) ∧
    (∃ (s : State), s.Canon ∧ s.mode = 1 ∧ s.meas.burst = some 64 ∧ s.meas.burstScan = true) ∧
    (∃ (s : State), s.mode ≠ 1) ∧
    (∃ (s : State), s.Canon ∧ s.mgt.wakeStuck = false ∧ s.mgt.por = false ∧ bitOf (s.rdN MGT_WAKE_CFG) 0 = true ∧ s.flag MGT_MODE_STAT_PEND = false ∧ (s.mode = 1 ∨ s.mode = 0)) ∧
    (∃ (s : State), (s.mgt.wakeStuck = true ∨ s.mgt.por = true ∨ bitOf (s.rdN MGT_WAKE_CFG) 0 = false)) ∧
    (∃ (s : State), s.Canon ∧ s.collectorOn = true ∧ s.mgt.por = false ∧ s.mgt.wakeStuck = false) ∧
    (∃ (s : State), s.Canon ∧ s.mode = 0 ∧ s.mgt.por = false ∧ s.mgt.wakeStuck = false) ∧
    (∃ (s : State), s.Canon ∧ s.mgt.wakeStuck = true) ∧
    (∃ (s : State) (l : BitVec 16), s.Canon ∧ s.collectorOn = true ∧ s.mgt.por = false ∧ (l.toNat < 1000 ∨ 16500 < l.toNat)) ∧
    (∃ (s : State) (l : BitVec 16), s.Canon ∧ s.mgt.por = false ∧ 1000 ≤ l.toNat ∧ l.toNat ≤ 16500) ∧
    (∃ (s : State), s.Canon ∧ s.collectorOn = true ∧ s.domOn 1 = true) ∧
    (∃ (s : State) (l : BitVec 16), s.Canon ∧ s.collectorOn = true ∧ s.mgt.por = false ∧ s.mgt.vaux = true ∧ s.flag MGT_PWR_STAT_VAUXACT = true ∧ (l.toNat < 900 ∨ 3200 < l.toNat)) ∧
    (∃ (s : State) (l : BitVec 16), s.Canon ∧ s.mgt.por = false ∧ 900 ≤ l.toNat ∧ l.toNat ≤ 3200) ∧
    (∃ (s : State), s.Canon ∧ s.collectorOn = true ∧ s.mgt.vio = true) ∧
    (∃ (s : State), s.Canon ∧ s.collectorOn = true ∧ s.logicOn = true) ∧
    (∃ (s : State), s.Canon ∧ s.collectorOn = true ∧ s.logicOn = true) :=
   ⟨⟨run.put MGT_MODE_STAT_MODE 1, by decide +kernel⟩,
    ⟨{ run.put MGT_MODE_STAT_MODE 1 with meas := { run.meas with burst := some 64, burstScan := true } }, by decide +kernel⟩,
    ⟨run, by decide +kernel⟩,
    ⟨(power (run.put MGT_MODE_STAT_MODE 1)).wrN MGT_WAKE_CFG 1, by decide +kernel⟩,
    ⟨State.reset, by decide +kernel⟩,
    ⟨power run, by decide +kernel⟩,
    ⟨power (run.put MGT_MODE_STAT_MODE 0), by decide +kernel⟩,
    ⟨{ monitored 0 0x16 with mgt := { run.mgt with wakeStuck := true } }, by decide +kernel⟩,
    ⟨power run, 900, by decide +kernel⟩,
    ⟨power (monitored 11 0x10), 5000, by decide +kernel⟩,
    ⟨run, by decide +kernel⟩,
    ⟨{ run.put MGT_PWR_STAT_VAUXACT 1 with mgt := { (power run).mgt with vaux := true } }, 100, by decide +kernel⟩,
    ⟨power (monitored 11 0x11), 1200, by decide +kernel⟩,
    ⟨run, by decide +kernel⟩,
    ⟨run, by decide +kernel⟩,
    ⟨run, by decide +kernel⟩⟩

/-- States and operands that meet what `TrimRunsAndSlots` assumes. -/
theorem witness_TrimRunsAndSlots :
    (∃ (s : State) (_sum dev : Int) (_st : Bool) (r : CalRun) (ch proc : Nat), s.mode = 3 ∧ s.cal.run = some r ∧ s.getIn MGT_CAL_CFG_SETTLE 2 15 + s.getIn MGT_CAL_CFG_AVG 4 255 ≤ r.seen ∧ (needsRef proc = false ∨ r.refChecked = true ∨ refGood dev = true) ∧ r.todo.head? = some (ch, proc) ∧ r.points.length + 1 < procPoints proc) ∧
    (∃ (s : State) (sum dev : Int) (_st : Bool) (r : CalRun) (ch proc : Nat), s.Canon ∧ s.mode = 3 ∧ s.cal.run = some r ∧ s.getIn MGT_CAL_CFG_SETTLE 2 15 + s.getIn MGT_CAL_CFG_AVG 4 255 ≤ r.seen ∧ (needsRef proc = false ∨ r.refChecked = true ∨ refGood dev = true) ∧ r.todo.head? = some (ch, proc) ∧ procPoints proc ≤ r.points.length + 1 ∧ s.procTerms r.terms ch proc (s.getIn MGT_CAL_CFG_AVG 4 255) (r.points ++ [sum]) = none) ∧
    (∃ (s : State) (sum dev : Int) (_st : Bool) (r : CalRun) (ch proc : Nat) (l : List (Nat × Int)), s.Canon ∧ s.mode = 3 ∧ s.cal.run = some r ∧ s.getIn MGT_CAL_CFG_SETTLE 2 15 + s.getIn MGT_CAL_CFG_AVG 4 255 ≤ r.seen ∧ (needsRef proc = false ∨ r.refChecked = true ∨ refGood dev = true) ∧ s.aux.shutAt = none ∧ r.todo = [(ch, proc)] ∧ procPoints proc ≤ r.points.length + 1 ∧ s.procTerms r.terms ch proc (s.getIn MGT_CAL_CFG_AVG 4 255) (r.points ++ [sum]) = some l) ∧
    (∃ (s : State) (sum dev : Int) (_st : Bool) (r : CalRun) (ch proc : Nat) (l : List (Nat × Int)) (rest : List (Nat × Nat)), s.Canon ∧ s.mode = 3 ∧ s.cal.run = some r ∧ s.getIn MGT_CAL_CFG_SETTLE 2 15 + s.getIn MGT_CAL_CFG_AVG 4 255 ≤ r.seen ∧ (needsRef proc = false ∨ r.refChecked = true ∨ refGood dev = true) ∧ r.todo = (ch, proc) :: rest ∧ rest ≠ [] ∧ procPoints proc ≤ r.points.length + 1 ∧ s.procTerms r.terms ch proc (s.getIn MGT_CAL_CFG_AVG 4 255) (r.points ++ [sum]) = some l) ∧
    (∃ (s : State) (_sum dev : Int) (_st : Bool) (r : CalRun) (ch proc : Nat), s.Canon ∧ s.mode = 3 ∧ s.cal.run = some r ∧ s.getIn MGT_CAL_CFG_SETTLE 2 15 + s.getIn MGT_CAL_CFG_AVG 4 255 ≤ r.seen ∧ r.todo.head? = some (ch, proc) ∧ needsRef proc = true ∧ r.refChecked = false ∧ refGood dev = false) ∧
    (∃ (s : State) (_sum _dev : Int) (_st : Bool), (s.cal.run = none ∨ s.mode ≠ 3)) ∧
    (∃ (s : State) (i : Initiator) (_v : Word), s.Canon ∧ Granted s i MGT_CAL_CTRL ∧ s.mode = 3 ∧ s.calRuns = true) ∧
    (∃ (s : State) (i : Initiator) (v : Word), Granted s i MGT_CAL_CTRL ∧ s.mode ≠ 3 ∧ bitOf v.toNat 9 = false) ∧
    (∃ (s : State) (i : Initiator) (_v : Word), s.Canon ∧ Granted s i MGT_CAL_CTRL ∧ (s.mode = 3 ∨ s.mode = 4) ∧ s.calRuns = false ∧ s.aux.shutAt = none) ∧
    (∃ (s : State) (i : Initiator) (_v : Word) (_st : Bool) (o : Nat), Granted s i MGT_CAL_CTRL ∧ (s.mode = 3 ∨ s.mode = 4) ∧ s.calRuns = false ∧ s.aux.shutAt = none ∧ o < 1024) ∧
    (∃ (s : State) (i : Initiator) (_v : Word), s.Canon ∧ s.collectorOn = true ∧ Granted s i MGT_CAL_CTRL ∧ (s.mode = 3 ∨ s.mode = 4) ∧ s.calRuns = false ∧ s.aux.shutAt = none) :=
   ⟨⟨trimming [(2, 3)], 77, 9, true, aRun [(2, 3)], 2, 3, by decide +kernel⟩,
    ⟨trimming1, 0, 9, true, { aRun [(0, 1)] with points := [0] }, 0, 1, by decide +kernel⟩,
    ⟨trimming [(0, 2)], 100, 9, true, aRun [(0, 2)], 0, 2, [(0, -156)], by decide +kernel⟩,
    ⟨trimming [(0, 2), (1, 2)], 100, 9, true, aRun [(0, 2), (1, 2)], 0, 2, [(0, -156)], [(1, 2)], by decide +kernel⟩,
    ⟨{ trimming [(2, 3)] with cal := { run.cal with run := some { aRun [(2, 3)] with refChecked := false } } }, 77, 501, true, { aRun [(2, 3)] with refChecked := false }, 2, 3, by decide +kernel⟩,
    ⟨run, 5, 9, true, by decide +kernel⟩,
    ⟨trimming [(2, 3)], .remoteHost, 256, by decide +kernel⟩,
    ⟨svc, .remoteHost, 256, by decide +kernel⟩,
    ⟨svc, .remoteHost, 512, by decide +kernel⟩,
    ⟨svc, .remoteHost, 512, false, 1023, by decide +kernel⟩,
    ⟨svc, .remoteHost, 512, by decide +kernel⟩⟩

/-- States and operands that meet what `ConfigurationSwitchAndProbation` assumes. -/
theorem witness_ConfigurationSwitchAndProbation :
    (∃ (s : State) (i : Initiator) (_v : Word), s.Canon ∧ Granted s i MGT_CFG_SWITCH ∧ s.privileged i = true) ∧
    (∃ (s : State) (_p : Fin 4) (f : Frame), s.Canon ∧ f.typ = 0x23 ∧ f.src = 0 ∧ f.payload.length = 20 ∧ byteAt f.payload 2 = 0) ∧
    (∃ (_s : State) (_p : Fin 4) (f : Frame), (f.typ ≠ 0x23 ∨ f.src ≠ 0 ∨ f.payload.length ≠ 20 ∨ byteAt f.payload 2 ≠ 0)) ∧
    (∃ (s : State) (i : Initiator) (_v : Word), s.Canon ∧ s.collectorOn = true ∧ Granted s i MGT_CFG_SWITCH ∧ s.privileged i = false) ∧
    (∃ (s : State) (i k : Nat), s.Canon ∧ s.cfgSwitch = some (i, k) ∧ i < 2 ∧ (s.cfgRecords (slotOff i)).isSome = true) ∧
    (∃ (s : State), s.cfgSwitch = none) ∧
    (∃ (s : State) (k : Fin 4), s.Canon ∧ s.bit MGT_PROB_STAT_SLOTS k = true ∧ s.mode = 2 ∧ s.engFenced 15 = false) ∧
    (∃ (s : State) (k : Fin 4), (s.bit MGT_PROB_STAT_SLOTS k = false ∨ s.mode ≠ 2 ∨ s.engFenced 15 = true)) ∧
    (∃ (s : State) (i : Initiator) (v : Word) (k : Fin 4), s.Canon ∧ Granted s i MGT_SLOT_CTRL ∧ s.privileged i = true ∧ v.toNat / 65536 = 0x7E3D ∧ bitOf v.toNat k = true ∧ s.flag (MGT_SLOTs_HDR_COMMIT k) = true) ∧
    (∃ (s : State) (i : Initiator) (v : Word), Granted s i MGT_SLOT_CTRL ∧ s.privileged i = true ∧ v.toNat / 65536 ≠ 0x7E3D) :=
   ⟨⟨withConfig run, .remoteHost, 1, by decide +kernel⟩,
    ⟨withConfig run, 0, { raFrame 0 ([1, 0, 0, 1] ++ List.replicate 16 0) with typ := 0x23 }, by decide +kernel⟩,
    ⟨run, 0, { raFrame 0 [1] with typ := 0x23 }, by decide +kernel⟩,
    ⟨mapped run, .engine 3, 1, by decide +kernel⟩,
    ⟨{ withConfig run with cfgSwitch := some (1, 3) }, 1, 3, by decide +kernel⟩,
    ⟨run, by decide +kernel⟩,
    ⟨run.put MGT_PROB_STAT_SLOTS 2, 1, by decide +kernel⟩,
    ⟨run, 1, by decide +kernel⟩,
    ⟨svc.put (MGT_SLOTs_HDR_COMMIT 1) 1, .remoteHost, 0x7E3D0002, 1, by decide +kernel⟩,
    ⟨svc, .remoteHost, 2, by decide +kernel⟩⟩

/-- States and operands that meet what `UpdateOtpLogAndLifetime` assumes. -/
theorem witness_UpdateOtpLogAndLifetime :
    (∃ (s : State) (i : Initiator) (v : Word), s.Canon ∧ Granted s i MGT_UPD_CTRL ∧ s.privileged i = true ∧ s.get MGT_UPD_STAT_STATE ≠ 4 ∧ s.recovering = false ∧ bitOf v.toNat 1 = false ∧ bitOf v.toNat 2 = false ∧ bitOf v.toNat 3 = false) ∧
    (∃ (s : State) (_p : Fin 4) (f : Frame) (u : UpdSt), f.typ = 0x33 ∧ f.src = 0 ∧ s.mgt.upd = some u ∧ s.get MGT_UPD_STAT_STATE = 1 ∧ u.tag = leAt f.payload 0 2 ∧ u.kind = byteAt f.payload 2 ∧ f.payload.drop 8 ≠ [] ∧ leAt f.payload 4 4 + (f.payload.drop 8).length ≤ min u.len stagingSize) ∧
    (∃ (s : State) (_p : Fin 4) (f : Frame), s.Canon ∧ f.typ = 0x33 ∧ ((f.src ≠ 0 ∧ (s.recovering = false ∨ f.dst ≠ 0xFE)) ∨ (s.mgt.upd.all fun u => u.tag != leAt f.payload 0 2 || u.kind != byteAt f.payload 2) = true)) ∧
    (∃ (s : State) (i : Initiator) (v : Word) (u : UpdSt), s.Canon ∧ Granted s i MGT_UPD_CTRL ∧ s.privileged i = true ∧ s.collectorOn = true ∧ s.mgt.upd = some u ∧ s.get MGT_UPD_STAT_STATE = 1 ∧ rangeSum u.got < u.len ∧ bitOf v.toNat 0 = false ∧ bitOf v.toNat 2 = false ∧ bitOf v.toNat 3 = false) ∧
    (∃ (s : State) (i : Initiator) (v : Word) (u : UpdSt), s.Canon ∧ Granted s i MGT_UPD_CTRL ∧ s.privileged i = true ∧ s.mgt.upd = some u ∧ s.get MGT_UPD_STAT_STATE = 1 ∧ u.len ≤ rangeSum u.got ∧ s.verifyCode stagingOff u.kind false = 0 ∧ bitOf v.toNat 0 = false ∧ bitOf v.toNat 2 = false ∧ bitOf v.toNat 3 = false) ∧
    (∃ (s : State) (i : Initiator) (v : Word) (u : UpdSt), s.Canon ∧ Granted s i MGT_UPD_CTRL ∧ s.privileged i = true ∧ s.mgt.upd = some u ∧ s.get MGT_UPD_STAT_STATE = 3 ∧ s.mgt.flashOp = none ∧ bitOf v.toNat 0 = false ∧ bitOf v.toNat 1 = false ∧ bitOf v.toNat 3 = false) ∧
    (∃ (s : State) (o : FlashOp), s.Canon ∧ s.mgt.flashOp = some o ∧ o.suspended = false ∧ o.slot < 4 ∧ s.mode ≠ 0 ∧ s.logicOn = true ∧ s.recovering = false) ∧
    (∃ (s : State) (o : FlashOp), s.Canon ∧ s.mgt.flashOp = some o ∧ o.suspended = false ∧ s.mode ≠ 0 ∧ s.logicOn = true) ∧
    (∃ (s : State) (o : FlashOp), s.Canon ∧ s.mgt.flashOp = some o ∧ o.suspended = false ∧ s.mode ≠ 0 ∧ s.logicOn = true) ∧
    (∃ (s : State) (o : FlashOp) (_r : FlashOutcome), s.mgt.flashOp = some o ∧ o.suspended = false ∧ s.mode = 0) ∧
    (∃ (s : State) (i : Initiator) (v : Word), s.Canon ∧ Granted s i MGT_UPD_CTRL ∧ s.privileged i = true ∧ s.get MGT_UPD_STAT_STATE ≠ 4 ∧ bitOf v.toNat 0 = false ∧ bitOf v.toNat 1 = false ∧ bitOf v.toNat 2 = false) ∧
    (∃ (s : State) (i : Initiator) (v : Word), Granted s i MGT_OTP_KEY ∧ s.privileged i = true ∧ v.toNat % 65536 = 0x0F7A) ∧
    (∃ (s : State) (i : Initiator) (v : Word) (u : Nat), Granted s i MGT_OTP_KEY ∧ s.privileged i = true ∧ s.mgt.otpKey = some (u, false) ∧ s.now ≤ u + sec ∧ v.toNat % 65536 = 0x9B3C) ∧
    (∃ (s : State) (i : Initiator) (v : Word), Granted s i MGT_OTP_KEY ∧ s.privileged i = true ∧ v.toNat % 65536 ≠ 0x0F7A ∧ (v.toNat % 65536 ≠ 0x9B3C ∨ (s.mgt.otpKey.all fun x => x.2 || decide (x.1 + sec < s.now)) = true)) ∧
    (∃ (s : State) (i : Initiator) (v : Word) (fb : BitVec 3) (_g : Bool), s.Canon ∧ Granted s i MGT_OTP_CTRL ∧ s.privileged i = true ∧ (bitOf (s.rdN (PSF_OTPk 7)) (v.toNat % 2) = true ∨ s.mgt.otpKey = none ∨ fb ≠ 0)) ∧
    (∃ (s : State) (i : Initiator) (v : Word) (u : Nat) (_k : Fin 7), s.Canon ∧ Granted s i MGT_OTP_CTRL ∧ s.privileged i = true ∧ v.toNat % 2 = 0 ∧ bitOf (s.rdN (PSF_OTPk 7)) 0 = false ∧ s.mgt.otpKey = some (u, true) ∧ s.now ≤ u + sec ∧ 2000 ≤ s.get MGT_SUPPLY_VSTK ∧ bitOf (s.rdN (MGT_OTP_DATAk 7)) 0 = true) ∧
    (∃ (s : State) (i : Initiator) (v : Word) (u : Nat), s.Canon ∧ Granted s i MGT_OTP_CTRL ∧ s.privileged i = true ∧ v.toNat % 2 = 1 ∧ bitOf (s.rdN (PSF_OTPk 7)) 1 = false ∧ s.mgt.otpKey = some (u, true) ∧ s.now ≤ u + sec ∧ 2000 ≤ s.get MGT_SUPPLY_VSTK) ∧
    (∃ (s : State) (i : Initiator) (v : Word) (u : Nat), s.Canon ∧ Granted s i MGT_OTP_CTRL ∧ s.privileged i = true ∧ bitOf (s.rdN (PSF_OTPk 7)) (v.toNat % 2) = false ∧ s.mgt.otpKey = some (u, true) ∧ s.now ≤ u + sec ∧ 2000 ≤ s.get MGT_SUPPLY_VSTK ∧ (v.toNat % 2 = 1 ∨ bitOf (s.rdN (MGT_OTP_DATAk 7)) 0 = true)) ∧
    (∃ (s : State) (i : Initiator) (_v : Word), s.Canon ∧ Granted s i MGT_LOG_POST ∧ s.domOn 8 = true) ∧
    (∃ (s : State), s.Canon ∧ s.logicOn = true ∧ s.started = true ∧ s.engFenced 15 = false ∧ s.aux.shutAt = none) ∧
    (∃ (s : State), s.Canon ∧ s.collectorOn = true ∧ s.logicOn = true ∧ s.started = true ∧ s.engFenced 15 = false ∧ s.aux.shutAt = none) ∧
    (∃ (s : State) (_st : Bool), (s.logicOn = false ∨ s.started = false ∨ s.engFenced 15 = true)) ∧
    (∃ (s : State) (i : Initiator) (v : Word), s.Canon ∧ Granted s i MEM_LT_CTRL ∧ s.privileged i = true ∧ s.aux.shutAt = none ∧ bitOf v.toNat 1 = false) ∧
    (∃ (s : State) (i : Initiator) (v : Word), Granted s i MEM_LT_KEY ∧ s.privileged i = true ∧ s.mode = 4 ∧ v.toNat % 65536 = 0x6C1E) ∧
    (∃ (s : State) (i : Initiator) (v : Word) (u : Nat), Granted s i MEM_LT_KEY ∧ s.privileged i = true ∧ s.mode = 4 ∧ s.mgt.lifeKey = some (u, false) ∧ v.toNat % 65536 = 0xE1C6) ∧
    (∃ (s : State) (i : Initiator) (v : Word), Granted s i MEM_LT_KEY ∧ s.privileged i = true ∧ (s.mode ≠ 4 ∨ v.toNat % 65536 ∉ [0x6C1E, 0xE1C6])) ∧
    (∃ (s : State) (i : Initiator) (v : Word) (u : Nat), Granted s i MEM_LT_CTRL ∧ s.privileged i = true ∧ s.mode = 4 ∧ s.mgt.lifeKey = some (u, true) ∧ bitOf v.toNat 0 = false) ∧
    (∃ (s : State) (i : Initiator) (v : Word), Granted s i MEM_LT_CTRL ∧ s.privileged i = true ∧ s.mode ≠ 4 ∧ bitOf v.toNat 0 = false) :=
   ⟨⟨svc, .remoteHost, 0x00050001, by decide +kernel⟩,
    ⟨session [], 0, { raFrame 0 [5, 0, 0, 0, 2, 0, 0, 0, 7, 8] with typ := 0x33 }, aSession [], by decide +kernel⟩,
    ⟨svc, 0, { raFrame 0 [5, 0, 0, 0, 2, 0, 0, 0, 7, 8] with typ := 0x33 }, by decide +kernel⟩,
    ⟨session [], .remoteHost, 2, aSession [], by decide +kernel⟩,
    ⟨stagedConfig, .remoteHost, 2, aSession [(0, 276)], by decide +kernel⟩,
    ⟨(session [(0, 276)]).put MGT_UPD_STAT_STATE 3, .remoteHost, 4, aSession [(0, 276)], by decide +kernel⟩,
    ⟨{ session [(0, 276)] with mgt := { (session [(0, 276)]).mgt with flashOp := some { slot := 1, suspended := false } } }, { slot := 1, suspended := false }, by decide +kernel⟩,
    ⟨{ session [] with mgt := { (session []).mgt with flashOp := some { slot := 1, suspended := false } } }, { slot := 1, suspended := false }, by decide +kernel⟩,
    ⟨{ session [] with mgt := { (session []).mgt with flashOp := some { slot := 1, suspended := false } } }, { slot := 1, suspended := false }, by decide +kernel⟩,
    ⟨{ (session []).put MGT_MODE_STAT_MODE 0 with mgt := { (session []).mgt with flashOp := some { slot := 1, suspended := false } } }, { slot := 1, suspended := false }, .good, by decide +kernel⟩,
    ⟨session [], .remoteHost, 8, by decide +kernel⟩,
    ⟨svc, .remoteHost, 0x0F7A, by decide +kernel⟩,
    ⟨{ svc with mgt := { svc.mgt with otpKey := some (0, false) } }, .remoteHost, 0x9B3C, 0, by decide +kernel⟩,
    ⟨svc, .remoteHost, 1, by decide +kernel⟩,
    ⟨svc, .remoteHost, 0, 1, true, by decide +kernel⟩,
    ⟨otpReady, .remoteHost, 0, 0, 6, by decide +kernel⟩,
    ⟨otpReady, .remoteHost, 1, 0, by decide +kernel⟩,
    ⟨otpReady, .remoteHost, 1, 0, by decide +kernel⟩,
    ⟨run, .remoteHost, 1, by decide +kernel⟩,
    ⟨run, by decide +kernel⟩,
    ⟨run, by decide +kernel⟩,
    ⟨{ run with regs := [] }, true, by decide +kernel⟩,
    ⟨run, .remoteHost, 1, by decide +kernel⟩,
    ⟨svc, .remoteHost, 0x6C1E, by decide +kernel⟩,
    ⟨{ svc with mgt := { svc.mgt with lifeKey := some (0, false) } }, .remoteHost, 0xE1C6, 0, by decide +kernel⟩,
    ⟨run, .remoteHost, 0x6C1E, by decide +kernel⟩,
    ⟨{ svc with mgt := { svc.mgt with lifeKey := some (0, true) } }, .remoteHost, 2, 0, by decide +kernel⟩,
    ⟨run, .remoteHost, 2, by decide +kernel⟩⟩

/-- States and operands that meet what `TwoWireAndHostNotify` assumes. -/
theorem witness_TwoWireAndHostNotify :
    (∃ (s : State) (w : TwWrite) (n b x : Nat), s.Canon ∧ NoSteps s ∧ 2 ≤ s.mode ∧ s.logicOn = true ∧ s.mgt.upd = none ∧ w.cmd.toNat / 16 = 0xA ∧ bitOf w.cmd.toNat 1 = false ∧ w.data.length = 4 * n ∧ lagoon ≤ w.addr.toNat ∧ w.addr.toNat + 4 * n ≤ 0x13000000 ∧ w.addr.toNat % 4 = 0 ∧ s.domOn 8 = true ∧ (∀ k < n, s.lagoonGrants .twoWire (w.addr.toNat + 4 * k) = true) ∧ ((bitOf w.cmd.toNat 0 = false ∧ s.flag MGT_TW_CFG_PECREQ = false) ∨ (bitOf w.cmd.toNat 0 = true ∧ n ≤ 16 ∧ w.pec = some (pecOf (s.twAddr false :: w.cmd :: (leBytes 4 w.addr.toNat ++ w.data))))) ∧ (b < w.addr.toNat ∨ w.addr.toNat + 4 * n ≤ b) ∧ x ≠ MGT_TW_PTR ∧ x ≠ MGT_TW_CNT0_TRANS.addr) ∧
    (∃ (s : State) (w : TwWrite), s.Canon ∧ NoSteps s ∧ 2 ≤ s.mode ∧ s.logicOn = true ∧ w.cmd.toNat / 16 ≠ 0xA) ∧
    (∃ (s : State) (w : TwWrite) (p : Byte), s.Canon ∧ NoSteps s ∧ 2 ≤ s.mode ∧ s.logicOn = true ∧ w.cmd.toNat / 16 = 0xA ∧ bitOf w.cmd.toNat 0 = true ∧ w.pec = some p ∧ p ≠ pecOf (s.twAddr false :: w.cmd :: (leBytes 4 w.addr.toNat ++ w.data))) ∧
    (∃ (s : State) (w : TwRead) (n x : Nat), s.Canon ∧ 2 ≤ s.mode ∧ s.logicOn = true ∧ w.cmd.toNat / 16 = 0xA ∧ bitOf w.cmd.toNat 1 = false ∧ w.words = n ∧ lagoon ≤ w.addr.toNat ∧ w.addr.toNat + 4 * n ≤ 0x13000000 ∧ w.addr.toNat % 4 = 0 ∧ s.domOn 8 = true ∧ (bitOf w.cmd.toNat 0 = true → 1 ≤ n ∧ n ≤ 16) ∧ x ≠ MGT_TW_PTR ∧ x ≠ MGT_TW_CNT0_TRANS.addr) ∧
    (∃ (s : State) (n x : Nat), s.Canon ∧ 2 ≤ s.mode ∧ s.logicOn = true ∧ lagoon ≤ s.rdN MGT_TW_PTR ∧ s.rdN MGT_TW_PTR + 4 * n ≤ 0x13000000 ∧ s.rdN MGT_TW_PTR % 4 = 0 ∧ s.domOn 8 = true ∧ x ≠ MGT_TW_PTR ∧ x ≠ MGT_TW_CNT0_TRANS.addr) ∧
    (∃ (s : State) (_b : Bool), s.Canon ∧ s.logicOn = true ∧ s.collectorOn = true) ∧
    (∃ (s : State), s.Canon ∧ s.mode = 1 ∧ s.mgt.por = false ∧ s.flag MGT_WAKE_CFG_TW = true ∧ s.flag MGT_MODE_STAT_PEND = false) ∧
    (∃ (s : State), (s.mode = 0 ∨ s.mode = 1 ∧ (s.logicOn = false ∨ s.flag MGT_MODE_STAT_PEND = false)) ∧ s.flag MGT_WAKE_CFG_TW = false) ∧
    (∃ (s : State), s.Canon ∧ s.mode = 0 ∧ s.mgt.por = false ∧ s.flag MGT_WAKE_CFG_TW = true ∧ s.flag MGT_MODE_STAT_PEND = false) ∧
    (∃ (s : State), 2 ≤ s.mode) ∧
    (∃ (s : State), s.Canon ∧ s.get MGT_NOTIFY_STAT_QCNT ≠ 0 ∧ s.logicOn = true ∧ s.mode ≠ 0 ∧ s.mode ≠ 6) ∧
    (∃ (s : State) (r : NotifyResult), s.Canon ∧ s.get MGT_NOTIFY_STAT_QCNT ≠ 0 ∧ s.logicOn = true ∧ s.mode ≠ 0 ∧ s.mode ≠ 6 ∧ r ≠ .delivered ∧ s.get MGT_NOTIFY_STAT_RETRY < 8) ∧
    (∃ (s : State) (r : NotifyResult), s.Canon ∧ s.get MGT_NOTIFY_STAT_QCNT ≠ 0 ∧ s.logicOn = true ∧ s.mode ≠ 0 ∧ s.mode ≠ 6 ∧ r ≠ .delivered ∧ 8 ≤ s.get MGT_NOTIFY_STAT_RETRY) ∧
    (∃ (s : State) (i : Initiator) (v : Word), s.Canon ∧ Granted s i MGT_NOTIFY_SEND ∧ s.privileged i = true ∧ s.flag MGT_NOTIFY_CFG_EN = true ∧ s.mode ≠ 0 ∧ (s.get MGT_NOTIFY_STAT_QCNT < 8 ∨ (s.notifySlot (0x10 + v.toNat % 16)).isSome = true)) ∧
    (∃ (s : State) (i : Initiator) (v : Word), s.Canon ∧ Granted s i MGT_NOTIFY_SEND ∧ s.privileged i = true ∧ s.flag MGT_NOTIFY_CFG_EN = true ∧ s.mode ≠ 0 ∧ 8 ≤ s.get MGT_NOTIFY_STAT_QCNT ∧ s.notifySlot (0x10 + v.toNat % 16) = none) :=
   ⟨⟨lagoonOpen run, { cmd := 0xA0, addr := 0x10C00100, data := [1, 2, 3, 4, 5, 6, 7, 8], pec := none }, 2, 0x10C00108, 0, by decide +kernel⟩,
    ⟨lagoonOpen run, { cmd := 0xB0, addr := 0x10C00100, data := [1, 2, 3, 4], pec := none }, by decide +kernel⟩,
    ⟨lagoonOpen run, { cmd := 0xA1, addr := 0x10C00100, data := [1, 2, 3, 4], pec := some 1 }, 1, by decide +kernel⟩,
    ⟨run.memPut 0x10000100 [1, 2, 3, 4, 5, 6, 7, 8], { cmd := 0xA1, addr := 0x10000100, words := 2 }, 2, 0, by decide +kernel⟩,
    ⟨(run.memPut 0x10000100 [1, 2, 3, 4]).wrN MGT_TW_PTR 0x10000100, 2, 0, by decide +kernel⟩,
    ⟨run, true, by decide +kernel⟩,
    ⟨power ((State.reset.put MGT_MODE_STAT_MODE 1).put MGT_WAKE_CFG_TW 1), by decide +kernel⟩,
    ⟨power ((State.reset.put MGT_MODE_STAT_MODE 1).put MGT_WAKE_CFG_TW 0), by decide +kernel⟩,
    ⟨power ((State.reset.put MGT_MODE_STAT_MODE 0).put MGT_WAKE_CFG_TW 1), by decide +kernel⟩,
    ⟨run, by decide +kernel⟩,
    ⟨notifying, by decide +kernel⟩,
    ⟨notifying, .nacked, by decide +kernel⟩,
    ⟨notifying.put MGT_NOTIFY_STAT_RETRY 8, .nacked, by decide +kernel⟩,
    ⟨notifying, .remoteHost, 3, by decide +kernel⟩,
    ⟨notifying.put MGT_NOTIFY_STAT_QCNT 8, .remoteHost, 3, by decide +kernel⟩⟩

/-- States and operands that meet what `SingleWireFlashAndCheckUnits` assumes. -/
theorem witness_SingleWireFlashAndCheckUnits :
    (∃ (s : State) (n : Fin 2), s.Canon ∧ s.swbIdle n = true ∧ s.swbDue n ≠ []) ∧
    (∃ (s : State) (n : Fin 2) (i : Initiator) (_v : Word), s.Canon ∧ Granted s i (MGT_SWBn_CTRL n) ∧ s.get (MGT_SWBn_STAT_STATE n) ≠ 0) ∧
    (∃ (s : State) (n : Fin 2) (r : SwbReply) (x : Nat), s.Canon ∧ (s.swb n).trig = some (1, x) ∧ r.delay ≤ 500 ∧ swbJudge 1 r = 0) ∧
    (∃ (s : State) (n : Fin 2) (r : SwbReply) (k x : Nat), s.Canon ∧ (s.swb n).trig = some (k, x) ∧ r.delay ≤ 500 ∧ swbJudge k r ≠ 0) ∧
    (∃ (s : State) (n : Fin 2) (r : SwbReply) (x : Nat), s.Canon ∧ (s.swb n).trig = some (0, x) ∧ r.delay ≤ 500 ∧ swbJudge 0 r = 0) ∧
    (∃ (s : State) (n : Fin 2) (r : SwbReply) (x : Nat), s.Canon ∧ (s.swb n).trig = some (2, x) ∧ r.delay ≤ 500 ∧ swbJudge 2 r = 0) ∧
    (∃ (s : State) (n : Fin 2) (r : SwbReply) (k x : Nat), s.Canon ∧ (s.swb n).trig = some (k, x) ∧ 500 < r.delay) ∧
    (∃ (s : State) (n : Fin 2) (k x : Nat), s.Canon ∧ (s.swb n).trig = some (k, x)) ∧
    (∃ (s : State) (n : Fin 2), s.Canon ∧ s.flag (MGT_SWBn_STAT_PWR n) = true) ∧
    (∃ (s : State) (n : Fin 2) (x : Nat), s.Canon ∧ (s.swb n).offAt = some x ∧ s.flag (MGT_SWBn_STAT_PWR n) = false ∧ s.flag (MGT_SWBn_CFG_EN n) = true ∧ 2 ≤ s.mode ∧ s.mode ≤ 5) ∧
    (∃ (s : State) (n : Fin 2), s.Canon ∧ s.get (MGT_SWBn_STAT_STATE n) = 1 ∧ s.mode ≠ 1) ∧
    (∃ (s : State) (o : FlashOp), s.Canon ∧ s.collectorOn = true ∧ s.mgt.flashOp = some o ∧ o.suspended = false) ∧
    (∃ (s : State) (o : FlashOp), s.Canon ∧ s.collectorOn = true ∧ s.mgt.flashOp = some o ∧ o.suspended = true ∧ s.aux.shutAt = none ∧ s.mgt.resetDue = []) ∧
    (∃ (s : State) (o : FlashOp) (c : Nat), s.Canon ∧ s.mgt.flashOp = some o ∧ o.suspended = true ∧ s.aux.shutAt = none ∧ s.mgt.resetDue = [c] ∧ c < 8) ∧
    (∃ (s : State) (u : Fin 4) (i : Initiator) (v : Word), s.Canon ∧ Granted s i (MGT_CRCu_CTRL u) ∧ s.ownsCrc i u = true ∧ Unsealed s ⟨MGT_CRCu_CTRL u, 0, 2⟩ ∧ bitOf v.toNat 4 = false ∧ bitOf v.toNat 9 = false) ∧
    (∃ (s : State) (u : Fin 4) (i : Initiator) (_v : Word) (_z : Fin 3), s.Canon ∧ Granted s i (MGT_CRCu_DATA u) ∧ s.ownsCrc i u = true ∧ s.flag (MGT_CRCu_CTRL_DIR u) = false ∧ s.rdN (MGT_CRCu_LEN u) + 4 < 2 ^ 32) ∧
    (∃ (s : State) (u : Fin 4) (i : Initiator) (_v : Word) (b : Nat) (l : List Nat), s.Canon ∧ Granted s i (MGT_CRCu_DATA u) ∧ s.ownsCrc i u = true ∧ s.flag (MGT_CRCu_CTRL_DIR u) = true ∧ s.crcHeld u = b :: l ∧ (b :: l).length = (s.crcOf u).1 / 8) ∧
    (∃ (s : State) (u : Fin 4) (i : Initiator) (v : Word), s.Canon ∧ Granted s i (MGT_CRCu_CTRL u) ∧ s.ownsCrc i u = true ∧ Unsealed s ⟨MGT_CRCu_CTRL u, 0, 2⟩ ∧ Unsealed s ⟨MGT_CRCu_CTRL u, 2, 1⟩ ∧ bitOf v.toNat 3 = false ∧ bitOf v.toNat 9 = false) ∧
    (∃ (s : State) (u : Fin 4) (i : Initiator) (v : Word), s.Canon ∧ Granted s i (MGT_CRCu_CTRL u) ∧ 2 ≤ u.val ∧ s.get (MGT_CRCu_STAT_OWNER u) = 0 ∧ bitOf v.toNat 9 = false ∧ bitOf v.toNat 3 = false ∧ bitOf v.toNat 4 = false) ∧
    (∃ (s : State) (u : Fin 4) (i : Initiator) (_v : Word), s.Canon ∧ s.collectorOn = true ∧ Granted s i (MGT_CRCu_CTRL u) ∧ s.ownsCrc i u = false ∧ (u.val < 2 ∨ s.get (MGT_CRCu_STAT_OWNER u) ≠ 0)) ∧
    (∃ (s : State) (u : Fin 4) (i : Initiator) (_v : Word), s.Canon ∧ Granted s i (MGT_CRCu_CTRL u) ∧ s.ownsCrc i u = true) ∧
    (∃ (s : State) (u : Fin 4) (i : Initiator) (_v : Word), s.Canon ∧ Granted s i (MGT_CRCu_STATE u) ∧ s.ownsCrc i u = true) ∧
    (∃ (s : State) (u : Fin 4) (i : Initiator) (_v : Word), s.Canon ∧ s.collectorOn = true ∧ Granted s i (MGT_CRCu_STATE u) ∧ s.ownsCrc i u = false) :=
   ⟨⟨swbIdles, 1, by decide +kernel⟩,
    ⟨swbIdles, 1, .remoteHost, 2, by decide +kernel⟩,
    ⟨swbWaits 1, 1, { bytes := [1, 2, 3, BitVec.ofNat 8 (swbCrc [1, 2, 3])], intervals := [500, 1000], delay := 100 }, 0, by decide +kernel⟩,
    ⟨swbWaits 1, 1, { bytes := [1, 2, 3, 4], intervals := [500, 1000], delay := 100 }, 1, 0, by decide +kernel⟩,
    ⟨swbWaits 0, 1, { bytes := [0, 1, 2, 3, 4, 5, 6, 7, 8, BitVec.ofNat 8 (swbCrc [0, 1, 2, 3, 4, 5, 6, 7, 8])], intervals := [500, 1000], delay := 100 }, 0, by decide +kernel⟩,
    ⟨swbWaits 2, 1, { bytes := [2, 2, 3, BitVec.ofNat 8 (swbCrc [2, 2, 3])], intervals := [500, 1000], delay := 100 }, 0, by decide +kernel⟩,
    ⟨swbWaits 1, 1, { bytes := [], intervals := [], delay := 501 }, 1, 0, by decide +kernel⟩,
    ⟨swbWaits 0, 1, 0, 0, by decide +kernel⟩,
    ⟨swbIdles, 1, by decide +kernel⟩,
    ⟨(run.put (MGT_SWBn_CFG_EN 1) 1).onSwb 1 (fun b => { b with offAt := some 3 }), 1, 3, by decide +kernel⟩,
    ⟨swbIdles.put (MGT_SWBn_STAT_STATE 1) 1, 1, by decide +kernel⟩,
    ⟨flashing run, { slot := 1, suspended := false }, by decide +kernel⟩,
    ⟨{ run with mgt := { run.mgt with flashOp := some { slot := 1, suspended := true } } }, { slot := 1, suspended := true }, by decide +kernel⟩,
    ⟨{ power run with mgt := { (power run).mgt with flashOp := some { slot := 1, suspended := true }, resetDue := [3] } }, { slot := 1, suspended := true }, 3, by decide +kernel⟩,
    ⟨owned, 2, .remoteHost, 0, by decide +kernel⟩,
    ⟨owned, 2, .remoteHost, 0x34333231, 2, by decide +kernel⟩,
    ⟨(owned.put (MGT_CRCu_CTRL_DIR 2) 1).crcHold 2 [1, 2, 3, 4], 2, .remoteHost, 5, 1, [2, 3, 4], by decide +kernel⟩,
    ⟨owned, 2, .remoteHost, 4, by decide +kernel⟩,
    ⟨run, 3, .twoWire, 0, by decide +kernel⟩,
    ⟨owned, 2, .twoWire, 0, by decide +kernel⟩,
    ⟨owned, 2, .remoteHost, 0, by decide +kernel⟩,
    ⟨owned, 2, .remoteHost, 77, by decide +kernel⟩,
    ⟨owned, 2, .twoWire, 77, by decide +kernel⟩⟩

/-- States and operands that meet what `RegisterAndMemoryAccesses` assumes. -/
theorem witness_RegisterAndMemoryAccesses :
    (∃ (s : State) (i : Initiator) (a : Nat) (_j : Initiator) (_b : Nat), s.Canon ∧ locate i a = some (.reg, a) ∧ s.accessCode i a false = 0 ∧ isLowWord a = true ∧ a < 2 ^ 32) ∧
    (∃ (s : State) (i : Initiator) (a : Nat) (k : Nat) (w : Word), s.Canon ∧ locate i a = some (.reg, a) ∧ s.accessCode i a false = 0 ∧ 4 ≤ a ∧ isLowWord a = false ∧ isLowWord (a - 4) = true ∧ (s.latches.find? (fun e => e.1 == latchKey i a) = some (k, w))) ∧
    (∃ (s : State) (i : Initiator) (a : Nat) (f : FieldDesc) (b : Nat), s.Canon ∧ locate i a = some (.reg, a) ∧ s.accessCode i a false = 0 ∧ (isLowWord a = true ∨ s.latches.any (fun e => e.1 == latchKey i a) = false) ∧ idxOf 4 MGT_LOG_WRk a = none ∧ ((regAt a).any (fun r => r.1.fields.contains f) = true) ∧ b ≠ a) ∧
    (∃ (s : State) (i : Initiator) (a : Nat) (b : Nat), s.Canon ∧ locate i a = some (.reg, a) ∧ s.accessCode i a false = 0 ∧ (a = AUX_TDIE_MAX ∨ a = AUX_RATE_MAX ∨ (idxOf 16 AUX_INi_TMAX a).isSome = true ∨ (idxOf 16 AUX_INi_TMIN a).isSome = true ∨ (idxOf 6 AUX_TDd_MAX a).isSome = true ∨ (idxOf 6 AUX_TDd_MIN a).isSome = true) ∧ (s.latches.any (fun e => e.1 == latchKey i a) = false) ∧ b ≠ a) ∧
    (∃ (s : State) (i : Initiator) (a : Nat) (_v : Word) (f : FieldDesc) (b : Nat), s.Canon ∧ NoSteps s ∧ locate i a = some (.reg, a) ∧ Granted s i a ∧ a / 0x10000 = 1 ∧ a ≠ TMG_CTRL ∧ a ≠ TMG_UTC_OFS_LO ∧ a ≠ TMG_UTC_OFS_LO + 4 ∧ idxOf 16 TMG_ENGn_PEAK a = none ∧ ((∀ n, i ≠ .engine n) ∨ stagedBy i.code a = false) ∧ ((regAt a).any (fun r => r.1.fields.contains f) = true) ∧ b ≠ a) ∧
    (∃ (s : State) (i : Initiator) (a : Nat) (_v : Word), s.Canon ∧ NoSteps s ∧ s.collectorOn = true ∧ locate i a = some (.reg, a) ∧ s.accessCode i a true = 0 ∧ s.modeAllows i a = false ∧ idxOf 8 BAL_PHp_CMD a = none ∧ ((∀ n, i ≠ .engine n) ∨ stagedBy i.code a = false)) ∧
    (∃ (s : State) (i : Initiator) (a : Nat) (_v : Word), s.Canon ∧ NoSteps s ∧ s.collectorOn = true ∧ locate i (a % 2 ^ 32) = none ∧ (∀ n, i ≠ .engine n)) ∧
    (∃ (s : State) (i : Initiator) (a : Nat) (_v : Word) (b : Nat), s.Canon ∧ NoSteps s ∧ locate i a = some (.lagoon, a) ∧ s.accessCode i a true = 0 ∧ s.mgt.upd = none ∧ a < 2 ^ 32 ∧ (b < a ∨ a + 4 ≤ b)) :=
   ⟨⟨island, .remoteHost, 0x10010, .twoWire, 0x10014, by decide +kernel⟩,
    ⟨{ island with latches := [(latchKey .remoteHost 0x10014, 9)] }, .remoteHost, 0x10014, latchKey .remoteHost 0x10014, 9, by decide +kernel⟩,
    ⟨run.wrN MGT_TW_CNT0 0x20003, .remoteHost, MGT_TW_CNT0, ⟨.rc, "TRANS", 0, 16, [0]⟩, 0, by decide +kernel⟩,
    ⟨run.wrN (AUX_TDd_MIN 2) 0x80000007, .remoteHost, AUX_TDd_MIN 2, 0, by decide +kernel⟩,
    ⟨run, .remoteHost, TMG_OVR_CFG, 0x1234, ⟨.rws, "MAX", 0, 4, [3]⟩, 0, by decide +kernel⟩,
    ⟨run.put MGT_MODE_STAT_MODE 5, .remoteHost, TMG_CTRL, 0, by decide +kernel⟩,
    ⟨run, .remoteHost, 0xB0000, 0, by decide +kernel⟩,
    ⟨lagoonOpen run, .remoteHost, 0x10C00100, 0x12345678, 0x10C00104, by decide +kernel⟩⟩

/-! ## Statements about the queue and the whole machine -/

/-- A queue with a command in front meets what `StepRunsFrontCommand` assumes. -/
theorem witness_StepRunsFrontCommand : ∃ (s : State) (c : Instr) (rest : List Instr), s.pending = c :: rest :=
  ⟨{ run with pending := [.sampleInstant, .bankSwitch] }, .sampleInstant, [.bankSwitch], rfl⟩

/-- An empty queue meets what `IdleStepPassesTime` assumes. -/
theorem witness_IdleStepPassesTime : ∃ s : State, s.pending = [] := ⟨run, by decide +kernel⟩

/-- A step of a part in canonical form goes on, as the invariants assume. -/
theorem witness_step_goes_on :
    ∃ s t : State, s.Canon ∧ step s = .next t :=
  ⟨{ run with pending := [.bankSwitchDeadline] }, { run with pending := [] }, by decide +kernel, rfl⟩

/-! ## Ill-formed operands are refused -/

/-- A stamp beyond 64 bits of nanoseconds. -/
theorem test_stamp_refused : (Instr.tickAccept 0 (2 ^ 68)).wellFormed = false := by decide

/-- A reply of more bytes than a slot sequence holds, or a stamp beyond 64 bits of nanoseconds. -/
theorem test_reply_refused :
    (Instr.timexReply 0 (List.replicate 65 0) 5).wellFormed = false ∧ (Instr.timexReply 0 [] (2 ^ 68)).wellFormed = false := by decide

/-- An address beyond 32 bits, in every access. -/
theorem test_address_refused :
    (Instr.lowWordRead .twoWire (2 ^ 32)).wellFormed = false ∧ (Instr.registerWrite .twoWire (2 ^ 32) 0).wellFormed = false ∧
      (Instr.readClearRegister .twoWire (2 ^ 32)).wellFormed = false ∧ (Instr.stagedWrite 0 (2 ^ 32) 0).wellFormed = false ∧
      (Instr.extremeRegisterRead .twoWire (2 ^ 32)).wellFormed = false := by decide

/-- A TRAIN ordered set of more than 22 bytes. -/
theorem test_training_refused : (Instr.trainReceive 0 (List.replicate 23 0)).wellFormed = false := by decide

/-- A frame with a field too large for its header, for each kind of frame. -/
theorem test_frame_refused :
    (Instr.raRequest 0 { raFrame 0 [] with src := 256 }).wellFormed = false ∧
      (Instr.raResponse 0 { raFrame 0 [] with seq := 65536 }).wellFormed = false ∧
      (Instr.soundFlood 0 { raFrame 0 [] with hops := 64 }).wellFormed = false ∧
      (Instr.soundReport 0 { raFrame 0 [] with cls := 3 }).wellFormed = false ∧
      (Instr.soundAssign 0 { raFrame 0 [] with vc := 2 }).wellFormed = false ∧
      (Instr.soundAck 0 { raFrame 0 [] with typ := 256 }).wellFormed = false ∧
      (Instr.soundCommit 0 { raFrame 0 [] with dst := 256 }).wellFormed = false ∧
      (Instr.soundLinkev 0 { raFrame 0 [] with dst := 256 }).wellFormed = false ∧
      (Instr.soundRestart 0 { raFrame 0 [] with dst := 256 }).wellFormed = false ∧
      (Instr.memReadRequest 0 { raFrame 0 [] with dst := 256 }).wellFormed = false ∧
      (Instr.memReadData 0 { raFrame 0 [] with dst := 256 }).wellFormed = false ∧
      (Instr.causewayReceive 0 { raFrame 0 [] with dst := 256 }).wellFormed = false ∧
      (Instr.cfgSwitchFrame 0 { raFrame 0 [] with dst := 256 }).wellFormed = false ∧
      (Instr.imageFrame 0 { raFrame 0 [] with dst := 256 }).wellFormed = false := by decide

/-- Words read again at no address. -/
theorem test_reread_refused :
    (Instr.configIntegrityCheck [(2 ^ 32, 0)]).wellFormed = false ∧ (Instr.otpMirrorCheck [(2 ^ 32, 0)]).wellFormed = false := by decide

/-- A flash with a byte beyond its 3-byte addresses. -/
theorem test_board_refused :
    (Instr.powerOnResetRelease { twa0 := 0, twa1 := 0, jedec := 0, flash := some [(2 ^ 24, 0)], otp := none, zw := false }).wellFormed = false := by
  decide

/-- A payload of 512 bytes is the longest a frame carries. -/
theorem test_longest_frame : (raFrame 0 (List.replicate 512 0)).ok = true ∧ (raFrame 0 (List.replicate 513 0)).ok = false := by
  decide +kernel

/-! ## Examples of the manual -/

/-- The nine ASCII bytes "123456789". -/
def nine : List Byte := [0x31, 0x32, 0x33, 0x34, 0x35, 0x36, 0x37, 0x38, 0x39]

/-- The check values of R228, R310, R420 and R432. -/
theorem test_check_values :
    crc32c nine = 0xE3069283 ∧ crc32 nine = 0xCBF43926 ∧ pecOf nine = 0xF4 ∧ swbCrc nine = 0x4B := by decide +kernel

/-- The header of the worked example of chapter 9. -/
theorem test_frame_header :
    (wireBytes { dst := 0, src := 0x26, typ := 1, cls := 2, vc := 0, hops := 4, seq := 0x1234, payload := List.replicate 176 0 }).take 8
      = [0x00, 0x26, 0x01, 0x02, 0xB0, 0x10, 0x34, 0x12] := by decide +kernel

/-- The worked conversion of chapter 7: code 85,579 is 45.0 °C. -/
theorem test_thermistor : ntcTemp 85579 262144 1000 1000 3435 = some 450 := by decide +kernel

/-- The current of the worked example of chapter 4: −4,799,996 LSB on 100.040 µΩ. -/
theorem test_current :
    inUnits (((State.reset.put (CSI_CSn_SHUNT_R0 0) 100000).put (CSI_CSn_TCO_ALPHA 0) 200).amps 0 (-4799996) 450) 10000 = -11995192 := by
  decide +kernel

/-- The trimmed value of the same example. -/
theorem test_current_trim : ((State.reset.wrN (CSI_CSn_TRIM_OFS 0) 100).csConv 0 (-4800000) 1).1 = -4799996 := by decide +kernel

/-- The temperature table of chapter 5 between −9.00° at 20.0 °C and −8.00° at 28.0 °C: −8.37° is 25.0 °C. -/
theorem test_temperature_table :
    ((((List.range 16).foldl (fun (s : State) j => (s.putI (CSI_IMP_TTBLj_PH j) (100 * (j : Int) - 1400)).putI (CSI_IMP_TTBLj_T j) (80 * (j : Int) - 200))
      State.reset)).rawTemp (-837)).1 = (250, false) := by decide +kernel

/-- A task table entry of engine 2. -/
def taskIs (s : State) (t cost unit ess count : Nat) : State :=
  ((((s.put (ENG_n_TASKt_CFG_COST 2 t) cost).put (ENG_n_TASKt_CFG_UNIT 2 t) unit).put (ENG_n_TASKt_CFG_ESS 2 t) ess).put
    (ENG_n_TASKt_CFG_PRE 2 t) ess).put (ENG_n_TASKt_CFG_COUNT 2 t) count

/-- The task table of the sample engine example of chapter 2 with `bins` bins. -/
def sampleEngine (bins : Nat) : State :=
  taskIs (taskIs (taskIs (taskIs (taskIs (State.reset.put CSI_IMP_CTRL_CONC bins) 0 34 1 1 4) 1 412 0 1 4) 2 150 0 1 4) 3 90 1 0 4) 4 2400 0 0 1

/-- Its loads with 8 bins, which pass. -/
theorem test_admission_loads :
    (sampleEngine 8).engineLoad 3 2 = (14696, 3656) ∧ (sampleEngine 8).engineCheck 100 3 2 = none := by decide +kernel

/-- Its refusal with 12 bins. -/
theorem test_admission_refused : ((sampleEngine 12).engineCheck 100 3 2).map admitWord = some 0x03B70201 := by decide +kernel

/-- The address of counter 4 of engine 9 in the worked example of chapter 17. -/
theorem test_counter_address : ENG_n_PMCk_LO 9 4 = 0x00082360 := by decide

/-- The address byte of a part at address 0x62 in the same example. -/
theorem test_two_wire_address : (State.reset.put MGT_TW_STAT_ADDR 0x62).twAddr false = 0xC4 := by decide +kernel

/-- Reset values that their tables give. -/
theorem test_reset_values :
    State.reset.get TMG_PERIOD_ACT_P = 1000 ∧
      State.reset.rdN (AUX_INi_NTC 0) = 3435 * 65536 + 1000 := by decide +kernel

/-- The encoding examples of chapter 8: yd.mac2 A1, x10, x11, yt.post and yt.wft. -/
theorem test_extension_words (e : Fin 16) (s : State) :
    extWord e 0x00B5008B s = execYdMac2 e 1 10 11 s ∧ extWord e 0x0000700B s = execYtPost e s ∧
      extWord e 0x0200700B s = execYtWft e s := ⟨rfl, rfl, rfl⟩

/-- SHA-256 of "abc", the example of FIPS 180-4. -/
theorem test_sha256 :
    beNat (sha256 [0x61, 0x62, 0x63]) = 0xba7816bf8f01cfea414140de5dae2223b00361a396177a9cb410ff61f20015ad := by decide +kernel

end Sys2Proof.Tests
end

section
/-! PROOF. VALID of a published cell result (R70, Table 3.11): the bits of CMF_CELLn_FLAG after a publication, read off its low
four bits where the result is held and off the judged word where it is fresh. -/

namespace Sys2Proof.Machine

/-! ## Bits of a flag word -/

theorem bitOf_eq_testBit (x i : Nat) : bitOf x i = x.testBit i := by
  rw [Nat.testBit_eq_decide_div_mod_eq]
  rfl

/-- A bit given as a number. -/
theorem bitOf_eq_of_div_mod {x i : Nat} {b : Bool} (h : x / 2 ^ i % 2 = b2n b) : bitOf x i = b := by
  unfold bitOf
  rw [h]
  cases b <;> rfl

/-- A register keeps the bits of its width. -/
theorem bitOf_mod_two_pow (x : Nat) {i n : Nat} (h : i < n) : bitOf (x % 2 ^ n) i = bitOf x i := by
  simp [bitOf_eq_testBit, Nat.testBit_mod_two_pow, h]

/-- Setting bit 0 of an even word leaves every other bit. -/
theorem bitOf_succ_of_even {x i : Nat} (hx : x % 2 = 0) (hi : 0 < i) : bitOf (x + 1) i = bitOf x i := by
  obtain ⟨k, rfl⟩ := Nat.exists_eq_add_of_lt hi
  have half : (x + 1) / 2 = x / 2 := by omega
  simp only [bitOf, Nat.zero_add, Nat.pow_succ', ← Nat.div_div_eq_div_mul, half]

/-- The places of STALE, LATE, OWI, OW, RANGE, MOD, UNUSED and TEST in the flag word (Table 3.11). -/
abbrev cellInvalidBits : List Nat := [1, 2, 3, 4, 5, 6, 7, 15]

theorem cellInvalidBits_range {j : Nat} (hj : j ∈ cellInvalidBits) : 0 < j ∧ j < 16 := by
  simp only [List.mem_cons, List.not_mem_nil, or_false] at hj
  omega

/-- `cellInvalid` masks exactly the eight flags of R70. -/
theorem testBit_cellInvalid (i : Nat) : cellInvalid.testBit i = decide (i ∈ cellInvalidBits) := by
  by_cases h : i < 16
  · interval_cases i <;> decide
  · have big : cellInvalid < 2 ^ i :=
      Nat.lt_of_lt_of_le (by decide : cellInvalid < 2 ^ 16) (Nat.pow_le_pow_right (by decide) (by omega))
    have out : i ∉ cellInvalidBits := fun hi => h (cellInvalidBits_range hi).2
    rw [Nat.testBit_lt_two_pow big, decide_eq_false out]

theorem and_cellInvalid_eq_zero_iff (x : Nat) : x &&& cellInvalid = 0 ↔ ∀ j ∈ cellInvalidBits, bitOf x j = false := by
  simp only [Nat.eq_iff_testBit_eq, Nat.testBit_and, testBit_cellInvalid, Nat.zero_testBit, Bool.and_eq_false_iff,
    decide_eq_false_iff_not, bitOf_eq_testBit, or_iff_not_imp_right, not_not]

/-- A flag word after VALID has been judged (R70). -/
def judged (w : Nat) : Nat := if w &&& cellInvalid = 0 then w + 1 else w

theorem bitOf_judged {w j : Nat} (even : w % 2 = 0) (hj : 0 < j) : bitOf (judged w) j = bitOf w j := by
  unfold judged
  split
  · exact bitOf_succ_of_even even hj
  · rfl

theorem bitOf_judged_zero {w : Nat} (even : w % 2 = 0) : bitOf (judged w) 0 = decide (w &&& cellInvalid = 0) := by
  refine bitOf_eq_of_div_mod ?_
  unfold judged
  split
  next clear =>
    rw [decide_eq_true clear, show b2n true = 1 from rfl]
    omega
  next marked =>
    rw [decide_eq_false marked, show b2n false = 0 from rfl]
    omega

/-- The field VALID is bit 0 of the flag word. -/
theorem State.flag_valid_eq_bitOf (s : State) (c : Nat) :
    s.flag (CMF_CELLn_FLAG_VALID c) = bitOf (s.rdN (CMF_CELLn_FLAG c)) 0 := by
  have two := Nat.mod_two_eq_zero_or_one (s.rdN (CMF_CELLn_FLAG c))
  rcases two with h | h <;> simp [State.flag, State.get, fieldOf, bitOf, CMF_CELLn_FLAG_VALID, h]

/-! ## The flag word that a publication writes -/

/-- The channel carries STALE: a TRIM run covers it (R68), or cell results are not published (R90). -/
def State.cellStale (s : State) (c : Nat) : Bool := s.trimCovers (2 + c) || !(s.flag CMF_CTRL_EN && s.meas.enAt)

/-- The reasons for which a channel holds its result, at their places STALE, LATE and OWI (Table 3.11). -/
def State.holdBits (s : State) (late : Bool) (c : Nat) : Nat :=
  2 * b2n (s.cellStale c) + 4 * b2n late + 8 * b2n (s.owHolds c)

/-- The result of channel `c` that this bank switch publishes, if it is not held. -/
def State.freshResult (s : State) (late : Bool) (c : Nat) : Option (Int × Int × Int × Bool) :=
  if late || s.cellStale c || s.owHolds c then none else s.cellResult c

/-- The flags that say nothing of holding lie above bit 3. -/
theorem State.cellState_mod_16 (s : State) (c : Nat) : s.cellState c % 16 = 0 := by
  simp only [State.cellState]
  omega

/-- Marking RANGE leaves the low four bits. -/
theorem setBitN_five_mod_16 (x : Nat) : setBitN x 5 % 16 = x % 16 := by
  unfold setBitN
  split <;> omega

/-- What a held result keeps of the flags before (RANGE, MOD, FERRY) lies above bit 3. -/
theorem and_keptFlags_mod_16 (x : Nat) : (x &&& 0x4060) % 16 = 0 := by
  rw [show 16 = 2 ^ 4 from rfl, Nat.and_mod_two_pow]
  exact Nat.and_zero _

/-- A count advanced or not leaves the registers beside it, and the canonical form. -/
theorem State.bump_if_rdN {s t : State} {a : Nat} (ht : t.Canon ∧ t.rdN a = s.rdN a) (b : Bool) {f : Fld} (n : Nat)
    (apart : a ≠ f.addr) : (if b then t.bump f n else t).Canon ∧ (if b then t.bump f n else t).rdN a = s.rdN a := by
  obtain ⟨canon, same⟩ := ht
  cases b with
  | false => exact ⟨canon, same⟩
  | true => exact ⟨State.bump_canon canon f n, (State.rdN_put_ne canon f _ apart).trans same⟩

/-- The diagnosis counts stand in a register of their own. -/
theorem State.rdN_cellDiag {s : State} (h : s.Canon) {c : Nat} (hc : c < 32) (fl : Nat) :
    (s.cellDiag c fl).rdN (CMF_CELLn_FLAG c) = s.rdN (CMF_CELLn_FLAG c) := by
  have apart : CMF_CELLn_FLAG c ≠ CMF_DIAGn_CNT c := by
    unfold CMF_CELLn_FLAG CMF_DIAGn_CNT
    omega
  have range := State.bump_if_rdN ⟨h, rfl⟩ (bitOf fl 5) (f := CMF_DIAGn_CNT_RANGE c) 1 apart
  have modulator := State.bump_if_rdN range (bitOf fl 6) (f := CMF_DIAGn_CNT_MOD c) 1 apart
  have lateCount := State.bump_if_rdN modulator (bitOf fl 2) (f := CMF_DIAGn_CNT_LATE c) 1 apart
  exact (State.bump_if_rdN lateCount (bitOf fl 10) (f := CMF_DIAGn_CNT_DIS c) 1 apart).2

/-- A flag word written with its diagnosis counts reads as written. -/
theorem State.rdN_wrN_cellDiag {s : State} (h : s.Canon) {c : Nat} (hc : c < 32) (fl : Nat) :
    ((s.wrN (CMF_CELLn_FLAG c) fl).cellDiag c fl).rdN (CMF_CELLn_FLAG c) = fl % 2 ^ 32 := by
  rw [State.rdN_cellDiag (State.wrN_canon h _ _) hc, State.rdN_wrN_same h]

/-- Where no fresh result is published, the low four flags are the reasons for holding, and VALID among them is 0. -/
theorem State.publishCell_held_mod_16 {s : State} (h : s.Canon) (late : Bool) {c : Nat} (hc : c < 32)
    (held : s.freshResult late c = none) :
    (s.publishCell late c).rdN (CMF_CELLn_FLAG c) % 16 = s.holdBits late c := by
  unfold State.freshResult State.cellStale at held
  have lo := s.cellState_mod_16 c
  have kept := and_keptFlags_mod_16 (s.rdN (CMF_CELLn_FLAG c))
  have bStale := b2n_le (s.cellStale c)
  have bLate := b2n_le late
  have bOwi := b2n_le (s.owHolds c)
  simp only [State.publishCell, held, State.rdN_wrN_cellDiag h hc]
  unfold State.holdBits
  unfold State.cellStale at *
  split
  · rw [Nat.mod_mod_of_dvd _ (by decide), setBitN_five_mod_16]
    omega
  · omega

/-- A fresh result is published with an even flag word, to which VALID is added where no flag of R70 stands. -/
theorem State.publishCell_fresh_flags {s : State} (h : s.Canon) (late : Bool) {c : Nat} (hc : c < 32)
    {r : Int × Int × Int × Bool} (fresh : s.freshResult late c = some r) :
    ∃ w, w % 2 = 0 ∧ (s.publishCell late c).rdN (CMF_CELLn_FLAG c) = judged w % 2 ^ 32 := by
  unfold State.freshResult State.cellStale at fresh
  have lo := s.cellState_mod_16 c
  simp only [State.publishCell, fresh]
  rw [State.rdN_wrN_cellDiag _ hc]
  · refine ⟨_, ?_, rfl⟩
    omega
  · split
    · exact State.wrN_canon (State.wrN_canon (State.wrN_canon h _ _) _ _) _ _
    · exact State.wrN_canon h _ _

/-! ## R70 -/

/-- A held result has VALID 0, and STALE, LATE and OWI say why it is held. -/
theorem State.publishCell_held_flags {s : State} (h : s.Canon) (late : Bool) {c : Nat} (hc : c < 32)
    (held : s.freshResult late c = none) :
    let fl := (s.publishCell late c).rdN (CMF_CELLn_FLAG c)
    bitOf fl 0 = false ∧ bitOf fl 1 = s.cellStale c ∧ bitOf fl 2 = late ∧ bitOf fl 3 = s.owHolds c := by
  have low := State.publishCell_held_mod_16 h late hc held
  unfold State.holdBits at low
  have bStale := b2n_le (s.cellStale c)
  have bLate := b2n_le late
  have bOwi := b2n_le (s.owHolds c)
  refine ⟨bitOf_eq_of_div_mod ?_, bitOf_eq_of_div_mod ?_, bitOf_eq_of_div_mod ?_, bitOf_eq_of_div_mod ?_⟩
  · rw [show b2n false = 0 from rfl]
    omega
  all_goals omega

/-- A fresh result is published only where the tick holds samples of the channel. -/
theorem State.filtered_isSome_of_freshResult {s : State} {late : Bool} {c : Nat} {r : Int × Int × Int × Bool}
    (fresh : s.freshResult late c = some r) : (s.filtered c).isSome = true := by
  unfold State.freshResult State.cellResult at fresh
  split at fresh
  · cases fresh
  · obtain ⟨x, hx, -⟩ := Option.map_eq_some_iff.mp fresh
    rw [hx]
    rfl

/-- Where the tick holds samples of the channel, only STALE, LATE or OWI holds its result. -/
theorem State.hold_reason {s : State} {late : Bool} {c : Nat} (held : s.freshResult late c = none)
    (samples : (s.filtered c).isSome = true) : (late || s.cellStale c || s.owHolds c) = true := by
  by_contra no
  rw [State.freshResult, if_neg no, State.cellResult, Option.map_eq_none_iff] at held
  rw [held] at samples
  cases samples

/-- R70 on a held result: VALID reads 0, and where the tick holds samples STALE, LATE or OWI reads 1. -/
theorem State.publishCell_held_valid_iff {s : State} (h : s.Canon) (late : Bool) {c : Nat} (hc : c < 32)
    (held : s.freshResult late c = none) :
    (s.publishCell late c).flag (CMF_CELLn_FLAG_VALID c) = true ↔ (s.filtered c).isSome = true ∧
      ∀ j ∈ cellInvalidBits, bitOf ((s.publishCell late c).rdN (CMF_CELLn_FLAG c)) j = false := by
  obtain ⟨valid, stale, lateBit, owi⟩ := State.publishCell_held_flags h late hc held
  rw [State.flag_valid_eq_bitOf, valid]
  refine ⟨nofun, fun ⟨samples, clear⟩ => ?_⟩
  have notStale : s.cellStale c = false := stale.symm.trans (clear 1 (by decide))
  have notLate : late = false := lateBit.symm.trans (clear 2 (by decide))
  have notOwi : s.owHolds c = false := owi.symm.trans (clear 3 (by decide))
  have reason := State.hold_reason held samples
  rw [notLate, notStale, notOwi] at reason
  cases reason

/-- R70 on a fresh result: the tick holds samples, and VALID reads 1 exactly when each of the eight flags reads 0. -/
theorem State.publishCell_fresh_valid_iff {s : State} (h : s.Canon) (late : Bool) {c : Nat} (hc : c < 32)
    {r : Int × Int × Int × Bool} (fresh : s.freshResult late c = some r) :
    (s.publishCell late c).flag (CMF_CELLn_FLAG_VALID c) = true ↔ (s.filtered c).isSome = true ∧
      ∀ j ∈ cellInvalidBits, bitOf ((s.publishCell late c).rdN (CMF_CELLn_FLAG c)) j = false := by
  obtain ⟨w, even, word⟩ := State.publishCell_fresh_flags h late hc fresh
  have above (j : Nat) (hj : j ∈ cellInvalidBits) : bitOf (judged w % 2 ^ 32) j = bitOf w j := by
    obtain ⟨pos, small⟩ := cellInvalidBits_range hj
    rw [bitOf_mod_two_pow _ (by omega), bitOf_judged even pos]
  calc
    _ ↔ bitOf (judged w) 0 = true := by rw [State.flag_valid_eq_bitOf, word, bitOf_mod_two_pow _ (by decide)]
    _ ↔ w &&& cellInvalid = 0 := by rw [bitOf_judged_zero even, decide_eq_true_iff]
    _ ↔ ∀ j ∈ cellInvalidBits, bitOf w j = false := and_cellInvalid_eq_zero_iff w
    _ ↔ ∀ j ∈ cellInvalidBits, bitOf (judged w % 2 ^ 32) j = false := forall₂_congr fun j hj => by rw [above j hj]
    _ ↔ _ := by rw [word, State.filtered_isSome_of_freshResult fresh, eq_self, true_and]

end Sys2Proof.Machine

namespace Sys2Proof

open Sys2Proof.Machine

/-- Settles O14, by whether the bank switch holds the result of the channel or publishes a fresh one. -/
theorem cellResultValidExactlyWhenFreshAndUnflagged : Obligations.CellResultValidExactlyWhenFreshAndUnflagged := by
  unfold Obligations.CellResultValidExactlyWhenFreshAndUnflagged
  intro s late c h
  cases result : s.freshResult late c with
  | none => exact State.publishCell_held_valid_iff h late c.isLt result
  | some r => exact State.publishCell_fresh_valid_iff h late c.isLt result

end Sys2Proof
end

section
/-! PROOF. Staged writes at and beyond 128 (R199): what staging does with room and without, that a write answered without asking an
engine for an instruction stays as it is answered, and what a commit after an overflow discards. -/

namespace Sys2Proof.Machine

/-! ## Engines and what they are asked for -/

theorem State.engine_put (s : State) (f : Fld) (v e : Nat) : (s.put f v).engine e = s.engine e := rfl

theorem State.stepsGo_of_noSteps {s : State} (idle : NoSteps s) (n : Nat) : s.stepsGo n = s := by
  cases n with
  | zero => rfl
  | succ n =>
    refine if_neg ?_
    simp only [List.any_eq_true, List.mem_range, not_exists, not_and, Bool.not_eq_true]
    exact fun e he => idle ⟨e, he⟩

theorem State.runSteps_of_noSteps {s : State} (idle : NoSteps s) : s.runSteps = s := State.stepsGo_of_noSteps idle 16

/-- A change of an engine that keeps what it has been asked for asks no engine. -/
theorem State.onEng_noSteps {s : State} (idle : NoSteps s) (e : Fin 16) {f : EngSt → EngSt}
    (keeps : ∀ g, (f g).stepReq = g.stepReq) : NoSteps (s.onEng e f) := by
  intro n
  by_cases same : n = e
  · rw [same, State.engine_onEng_same s e f e.isLt, keeps]
    exact idle e
  · rw [State.engine_onEng_ne s f (Fin.val_ne_of_ne same)]
    exact idle n

/-! ## Staging -/

/-- With room, the engines change by the staged write alone. -/
theorem State.stageWrite_eng_of_room {s : State} {e : Nat} (room : (s.engine e).staged.length < 128) (a : Nat) (v : Word) :
    (s.stageWrite e a v).eng = (s.onEng e fun g => { g with staged := g.staged ++ [(a, v)] }).eng := by
  rw [State.stageWrite, if_pos room]
  dsimp only
  split <;> rfl

/-- Without room, the write is discarded and the overflow is recorded. -/
theorem State.stageWrite_of_full {s : State} {e : Nat} (full : 128 ≤ (s.engine e).staged.length) (a : Nat) (v : Word) :
    s.stageWrite e a v = (s.put (ENG_n_STAT_STOVF e) 1).onEng e fun g => { g with overStaged := true } :=
  if_neg (Nat.not_lt.mpr full)

theorem State.stageWrite_noSteps {s : State} (idle : NoSteps s) (e : Fin 16) (a : Nat) (v : Word) :
    NoSteps (s.stageWrite e a v) := by
  by_cases room : (s.engine e).staged.length < 128
  · unfold NoSteps State.engine
    rw [State.stageWrite_eng_of_room room]
    exact State.onEng_noSteps idle e fun _ => rfl
  · rw [State.stageWrite_of_full (Nat.not_lt.mp room)]
    exact State.onEng_noSteps (s := s.put (ENG_n_STAT_STOVF e) 1) idle e fun _ => rfl

theorem State.stageWrite_staged_of_room {s : State} {e : Fin 16} (room : (s.engine e).staged.length < 128) (a : Nat) (v : Word) :
    ((s.stageWrite e a v).engine e).staged = (s.engine e).staged ++ [(a, v)] := by
  unfold State.engine
  rw [State.stageWrite_eng_of_room room]
  exact congrArg EngSt.staged (State.engine_onEng_same s e _ e.isLt)

/-- Without room the engine holds what it held, and only remembers the overflow. -/
theorem State.stageWrite_engine_of_full {s : State} {e : Fin 16} (full : 128 ≤ (s.engine e).staged.length) (a : Nat) (v : Word) :
    (s.stageWrite e a v).engine e = { s.engine e with overStaged := true } := by
  rw [State.stageWrite_of_full full, State.engine_onEng_same _ _ _ e.isLt, State.engine_put]

theorem State.stageWrite_stovf_of_full {s : State} (h : s.Canon) {e : Nat} (full : 128 ≤ (s.engine e).staged.length)
    (a : Nat) (v : Word) : (s.stageWrite e a v).get (ENG_n_STAT_STOVF e) = 1 := by
  rw [State.stageWrite_of_full full]
  exact State.get_put_same h (ENG_n_STAT_STOVF e) 1 (show 6 + 1 ≤ 32 by decide)

/-! ## The write on the interconnect -/

/-- An engine's granted write of a register that it stages is held, and ends as performed (R198). -/
theorem State.busWrite_of_staged {s : State} {e : Fin 16} {a : Nat}
    (reg : (locate (.engine e) a).map (·.1) = some .reg) (staged : stagedBy e a = true)
    (granted : s.accessCode (.engine e) a true = 0) (v : Word) :
    s.busWrite (.engine e) a v = (0, s.stageWrite e a v) := by
  obtain ⟨⟨r, b⟩, found, isReg⟩ := Option.map_eq_some_iff.mp reg
  cases isReg
  have staged' : stagedBy (Initiator.engine e).code a = true := staged
  simp only [State.busWrite, found, staged', granted, ne_eq, not_true_eq_false, if_false]

/-- STAGED_WRITE of a granted register that the engine stages is staging, answered as performed. -/
theorem exec_stagedWrite_of_staged {s : State} {e : Fin 16} {a : Nat} (idle : NoSteps s) (word : a < 2 ^ 32)
    (reg : (locate (.engine e) a).map (·.1) = some .reg) (staged : stagedBy e a = true)
    (granted : s.accessCode (.engine e) a true = 0) (v : Word) :
    exec (.stagedWrite e a v) s = .next ((s.stageWrite e a v).emit (.ended 0)) := by
  have still : NoSteps ((s.stageWrite e a v).emit (.ended 0)) := State.stageWrite_noSteps idle e a v
  calc
    exec (.stagedWrite e a v) s = .next (s.writeAny (.engine e) (a % 2 ^ 32) v).runSteps := rfl
    _ = .next ((s.stageWrite e a v).emit (.ended 0)).runSteps := by
      rw [Nat.mod_eq_of_lt word, State.writeAny, State.busWrite_of_staged reg staged granted]
    _ = .next ((s.stageWrite e a v).emit (.ended 0)) := by rw [State.runSteps_of_noSteps still]

/-! ## The commit after an overflow -/

/-- A commit after an overflow empties what is staged and its count, and asks for the overrun treatment (R199). -/
theorem State.commit_of_overStaged {s : State} {e : Fin 16} (overflowed : (s.engine e).overStaged = true) :
    s.commit e = ((s.onEng e fun g => { g with staged := [] }).put (ENG_n_STAGE_N e) 0).onEng e
      fun g => { g with overrunDue := true } :=
  if_pos overflowed

theorem State.commit_engine_of_overStaged {s : State} {e : Fin 16} (overflowed : (s.engine e).overStaged = true) :
    (s.commit e).engine e = { s.engine e with staged := [], overrunDue := true } := by
  rw [State.commit_of_overStaged overflowed, State.engine_onEng_same _ _ _ e.isLt, State.engine_put,
    State.engine_onEng_same _ _ _ e.isLt]

end Sys2Proof.Machine

namespace Sys2Proof

open Sys2Proof.Machine

/-- Settles O33, by whether the engine holds fewer than 128 staged writes, and by what a commit does after an overflow. -/
theorem stagingOverflow : Obligations.StagingOverflow := by
  unfold Obligations.StagingOverflow
  refine ⟨?room, ?full, ?commit⟩
  case room =>
    intro s e a v idle word reg staged granted room
    exact ⟨_, exec_stagedWrite_of_staged idle word reg staged granted v, State.stageWrite_staged_of_room room a v, rfl⟩
  case full =>
    intro s e a v h idle word reg staged granted full
    have after := State.stageWrite_engine_of_full full a v
    exact ⟨_, exec_stagedWrite_of_staged idle word reg staged granted v, (congrArg EngSt.staged after :),
      State.stageWrite_stovf_of_full h full a v, (congrArg EngSt.overStaged after :), rfl⟩
  case commit =>
    intro s e overflowed
    rw [State.commit_engine_of_overStaged overflowed, State.commit_of_overStaged overflowed]
    exact ⟨rfl, rfl, overflowed, rfl, rfl, rfl⟩

end Sys2Proof
end

section
/-! PROOF. A write of PSF_OFFREQ.CLR without privilege (R294), in a state that connects phase 0 at a position beyond the four that a
phase has. The write is refused and its engine traps (R188), which fences the phases of a balance engine (R163) and books what they
have moved to the registers of their cells. -/

namespace Sys2Proof.Machine

/-- The position of phase 0 at which the register of the charge booked to the connected cell, the registers of cells lying 0x20
apart, is that of the demand sources. -/
def strayPosition : Nat := (PSF_DEM_STAT - BAL_CELLc_QIN 0) / 0x20

/-- A part in RUN in which source 19 stands, balance engine 8 may write PSF_OFFREQ, and phase 0, which engine 8 serves, is connected
at `strayPosition`. -/
def straySelector : State :=
  let s := ((State.reset.put MGT_MODE_STAT_MODE 2).put MGT_PWR_STAT_ON 0x3FF).wrN PSF_DEM_STAT (2 ^ 19)
  let s := s.onEng 8 fun g => { g with map := [(PSF_OFFREQ, PSF_OFFREQ, 2)] }
  s.onPhase 0 fun h => { h with sel := some strayPosition }

/-- The state that OFFREQ_CLR by engine 8 leaves there. -/
def strayCleared : State :=
  straySelector.writeRow (.engine 8) PSF_OFFREQ fun s => s.writeOffreq (.engine 8) ((2 : Word) ||| 2).toNat

theorem exec_offreqClr_straySelector : exec (.offreqClr (.engine 8) 2) straySelector = .next strayCleared := rfl

/-- The trap of engine 8 fences phase 0, and the accounting to the cell at `strayPosition` overwrites PSF_DEM_STAT. -/
theorem strayCleared_demand : strayCleared.demand 19 = false := by decide +kernel

end Sys2Proof.Machine

namespace Sys2Proof

open Sys2Proof.Machine

/-- Refutes O46: the statement leaves the position at which a phase is connected without a bound. With phase 0 connected at
`strayPosition`, engine 8, which is not privileged, withdraws source 19: its write of CLR is refused and traps it, the trap fences phase 0,
and the charge booked to the cell at that position, 0, is written to PSF_DEM_STAT. -/
theorem not_offRequestBySoftware : ¬ Obligations.OffRequestBySoftware := by
  unfold Obligations.OffRequestBySoftware
  rintro ⟨-, -, clrIgnored⟩
  have canon : straySelector.Canon := by decide +kernel
  have granted : Granted straySelector (.engine 8) PSF_OFFREQ := by decide +kernel
  have stood : straySelector.demand 19 = true := by decide +kernel
  obtain ⟨t, answer, stands⟩ := clrIgnored straySelector (.engine 8) 2 canon granted rfl (by decide) stood
  rw [exec_offreqClr_straySelector] at answer
  injection answer with same
  rw [← same, strayCleared_demand] at stands
  cases stands

end Sys2Proof
end
